-- ==== Sys2Proof/Word.lean ====
section
/-! DEFINITION. The word types of the block: bytes and 32-bit words. -/

namespace Sys2Proof

/-- One byte. -/
abbrev Byte := BitVec 8
/-- One 32-bit register or message word. -/
abbrev Word := BitVec 32

end Sys2Proof
end

