-- ==== Sys2Proof/Syntax.lean ====
section
/-! DEFINITION. The commands of the block: one constructor of `Instr` per row of spec/opcode_table.json,
in the table's order, with the operands the row's rule gives it. The table gives no operand fields, so
the operands are read from the rules: what an outside agent names (an initiator, an address, a channel),
what a sensor delivers (a measured value) or what a message carries (its bytes). -/

namespace Sys2Proof

/-- Initiator identities (R14). -/
inductive Initiator where
  | tenant (t : Fin 8) | safety | chanter | spi | mgmt | uart | hw
  deriving DecidableEq, Repr, Inhabited

/-- The initiator ID byte of R14. -/
def Initiator.id : Initiator → Nat
  | .tenant t => t.val | .safety => 0x10 | .chanter => 0x20 | .spi => 0x30 | .mgmt => 0x31
  | .uart => 0x32 | .hw => 0xFF

/-- The initiator with an ID byte (R14). -/
def Initiator.ofId (n : Nat) : Option Initiator :=
  if h : n < 8 then some (.tenant ⟨n, h⟩)
  else if n = 0x10 then some .safety else if n = 0x20 then some .chanter
  else if n = 0x30 then some .spi else if n = 0x31 then some .mgmt
  else if n = 0x32 then some .uart else if n = 0xFF then some .hw else none

/-- A Ramdar request as the Chanter takes it from a mailbox (R229): the header fields it reads and the
payload. `words` is the number of 32-bit words of the message. -/
structure Req where
  mb      : Fin 12
  client  : Word
  flags   : Byte
  len     : BitVec 16
  words   : Nat
  payload : List Byte
  deriving DecidableEq, Repr

/-- What a kernel measured of one channel in the window that ends at a tick (R103), and the live current
behind the live sense code (R107), in mA. -/
structure ChanMeas where
  iMean : BitVec 32
  iPeak : BitVec 16
  vOut  : BitVec 16
  tj    : BitVec 16
  iLive : BitVec 32
  deriving DecidableEq, Repr

/-- What a kernel converted on one analogue input in a window (R170): mean code, lowest, highest. -/
structure AiMeas where
  raw : BitVec 16
  lo  : BitVec 16
  hi  : BitVec 16
  deriving DecidableEq, Repr

/-- The motion quantities of R172 at a tick (K0 only). -/
structure MotionMeas where
  x : BitVec 16
  y : BitVec 16
  z : BitVec 16
  peak  : BitVec 16
  rms10 : BitVec 16
  rms1  : BitVec 16
  tilt  : BitVec 16
  deriving DecidableEq, Repr

/-- What one kernel's sensors deliver at the end of a window. -/
structure KernelMeas where
  ktemp  : BitVec 16
  kvbat  : BitVec 16
  chans  : List ChanMeas
  ais    : List AiMeas
  motion : MotionMeas
  deriving DecidableEq, Repr

/-- A unit that a variant may leave out, as R2 counts units (the rows of the variant table and, under
R379, the blocks a failed clock makes absent). -/
inductive UnitName where
  | kernels23 | appCores23 | tenants47 | uplinks | macsec | arc | liveSvc | block (b : Fin 11)
  deriving DecidableEq, Repr

/-- An access or a command to an absent unit (R2, R3). -/
inductive AbsentAccess where
  | read (addr : Word) | write (addr : Word) | command (opcode : BitVec 16) (number : Byte)
  deriving DecidableEq, Repr

/-- The engines that write whole messages into pod queues (R213, R224). -/
inductive Engine where
  | switchEng | canEng | bridgeEng | spiEng | mgmtEng | uartEng | seqEng
  deriving DecidableEq, Repr

/-- The engine code of `PQ_OWNERS` (R224). -/
def Engine.code : Engine → Nat
  | .switchEng => 1 | .canEng => 2 | .bridgeEng => 3 | .spiEng => 4 | .mgmtEng => 5 | .uartEng => 6
  | .seqEng => 7

/-- Why a posted write failed on its way (R189 reasons 3 and 6; the other reasons follow from the state). -/
inductive LinkFault where
  | link | uncorrectable
  deriving DecidableEq, Repr

/-- A destructive-read register of a kernel (R205). -/
inductive KseReg where
  | sem (s : Fin 8) | peak (n : Fin 10) | vbatMin | vbatMax
  deriving DecidableEq, Repr

/-- A register of the table of consumers that `EVENTS_LOST` reports for (R74, R80, R81). -/
inductive LostAt where
  | view (v : Fin 9) | log | source (src : BitVec 16)
  deriving DecidableEq, Repr

/-- A frame on a CAN bus (R313). -/
structure CanFrame where
  ident  : BitVec 29
  ide    : Bool
  fdf    : Bool
  brs    : Bool
  esi    : Bool
  remote : Bool
  dlc    : BitVec 4
  data   : List Byte
  deriving DecidableEq, Repr, Inhabited

/-- The error types of `CAN_LAST_ERR` (R329) as a transmitter or receiver meets them. -/
inductive CanErr where
  | stuff | form | ack | bitRecDom | bitDomRec | crc
  deriving DecidableEq, Repr

/-- How an error on a CAN bus bears on the counters (the rows of R322). -/
inductive CanErrKind where
  | plain              -- the main row: +1 as receiver, +8 as transmitter
  | dominantAfterFlag  -- dominant bit first after the error flag
  | passiveAckNoDom    -- acknowledgement error of an error-passive node with no dominant bit seen
  | arbStuff           -- stuff error during arbitration on a recessive stuff bit read dominant
  | activeFlagBit      -- bit error while sending an active error or overload flag
  | fourteenDominant   -- 14 consecutive dominant bits after an error flag, and each further 8
  deriving DecidableEq, Repr

/-- Where in the frame an error fell, as R325 needs it. -/
inductive CanField where
  | arbitration | control | data | other
  deriving DecidableEq, Repr

/-- What the sender of a CAN frame was: the transmit FIFO's head, the network-management slot or the
time-reference slot (R321, R326, R335). -/
inductive CanSlot where
  | fifo | nm | tref
  deriving DecidableEq, Repr

/-- What a selective-wake detector saw (R343). -/
inductive DetectorEvent where
  | frame (f : CanFrame) | wakeUpPattern | erroneousFrame
  deriving DecidableEq, Repr

/-- The causes of a bus wake as `NM_LAST_WAKE` codes them (R351). -/
inductive WakeCause where
  | local | wakeFrame | aliveFrame | filter (f : Fin 4) | pattern | frameErrors | ownRequest
  deriving DecidableEq, Repr

/-- An Ethernet frame: destination, source, an optional C-VLAN tag (PCP, DEI, VID), EtherType and data;
`size` is the length with the FCS (R285), `fcsOk` its check. -/
structure EthFrame where
  dst   : BitVec 48
  src   : BitVec 48
  tag   : Option (BitVec 3 × Bool × BitVec 12)
  etype : BitVec 16
  size  : Nat
  fcsOk : Bool
  seqNo : Option (BitVec 16)
  macsecOk : Option Bool
  data  : List Byte
  deriving DecidableEq, Repr, Inhabited

/-- A clock-gated block of R379. -/
abbrev Block := Fin 11

/-- The timed reset sources that release after a stated delay (R374). -/
abbrev ResetBit := Fin 16

/-- One captured write of a pass (R361): a state store or an output write, its logical address, its data in
logical byte order and its byte enables. -/
structure Captured where
  store : Bool
  addr  : Word
  data  : BitVec 64
  be    : Byte
  deriving DecidableEq, Repr, Inhabited

/-- How a pass of a safety task ended by its own `wfi` (R362): its run time in µs and what it captured, in
program order. -/
structure PassResult where
  runTime : BitVec 16
  writes  : List Captured
  deriving DecidableEq, Repr

/-- The commands, one per row of the table. -/
inductive Instr where
  -- the breath
  /-- R35 -/ | tick (m : List KernelMeas)
  /-- R50 -/ | commitDeadline
  /-- R196 -/ | commitMessageReceived (k : Fin 4)
  /-- R195 -/ | snapshotTransferDone
  /-- R45 -/ | inboxDistribute
  /-- R49 -/ | breathDoneCall (t : Fin 8) (bn : BitVec 48)
  /-- R53 -/ | tenantOverrunReset (t : Fin 8)
  /-- R52 -/ | unverifiedSafeState
  /-- R58 -/ | breathRecordDrop
  /-- R58 -/ | recDrop
  -- time and events
  /-- R70 -/ | syncReceived (p : Fin 10) (gm : BitVec 64) (offset : Int)
  /-- R69 -/ | syncReceiptTimeout
  /-- R69 -/ | holdoverExpiry
  /-- R68 -/ | announceReceived (p : Fin 10) (sysId : BitVec 112)
  /-- R68 -/ | syncIntervalExpiry (p : Fin 10)
  /-- R68 -/ | pdelayIntervalExpiry (p : Fin 10)
  /-- R70 -/ | slewComplete
  /-- R89 -/ | tbDtLoRead (i : Initiator)
  /-- R72 -/ | eventGrant
  /-- R80 -/ | eventsLost (at_ : LostAt)
  /-- R92 -/ | evsViewRdWrite (i : Initiator) (view : Option (Fin 9)) (idx : BitVec 16)
  /-- R81 -/ | logWrite
  /-- R85 -/ | sealPeriodExpiry
  -- accesses
  /-- R2 -/ | notPresentAccess (i : Initiator) (u : UnitName) (a : AbsentAccess)
  /-- R17 -/ | accessDenied (i : Initiator) (addr : Word)
  /-- R19 -/ | unmappedAccess (i : Initiator) (addr : Word)
  /-- R180 -/ | atomicRefused (i : Initiator) (addr : Word)
  /-- R8 -/ | registerWrite (i : Initiator) (addr : Word) (width : Fin 4) (data : BitVec 64)
  -- channel protection
  /-- R133 -/ | hardShort (c : Fin 40) (critB : Bool) (peak : BitVec 16)
  /-- R136 -/ | quickRetryOn (c : Fin 40)
  /-- R132 -/ | limitingEntry (c : Fin 40)
  /-- R132 -/ | limitingExit (c : Fin 40)
  /-- R134 -/ | overcurrentTrip (c : Fin 40) (mean : BitVec 16)
  /-- R136 -/ | inrushWindowEnd (c : Fin 40)
  /-- R139 -/ | pauseEnd (c : Fin 40)
  /-- R143 -/ | thermalTrip (c : Fin 40) (tj : BitVec 16)
  /-- R143 -/ | thermalClear (c : Fin 40) (tj : BitVec 16)
  /-- R140 -/ | cleanTimerExpiry (c : Fin 40)
  /-- R144 -/ | kernelOvertemp (k : Fin 4) (ktemp : BitVec 16)
  /-- R144 -/ | kernelOvertempClear (k : Fin 4) (ktemp : BitVec 16)
  /-- R148 -/ | groundLost (k : Fin 4)
  /-- R148 -/ | groundGood (k : Fin 4)
  /-- R149 -/ | undervoltage (k : Fin 4) (lowest : BitVec 16)
  /-- R149 -/ | undervoltageClear (k : Fin 4)
  /-- R149 -/ | kernelControllerReset (k : Fin 4)
  /-- R150 -/ | surge (k : Fin 4) (kvbat : BitVec 16)
  /-- R150 -/ | surgeClear (k : Fin 4) (peak : BitVec 16)
  /-- R151 -/ | reversePolarity (feedB : Bool) (aotTicks : BitVec 48)
  /-- R156 -/ | kernelPowerUp (k : Fin 4)
  /-- R155 -/ | protStoreWrite (k : Fin 4)
  /-- R155 -/ | allowanceGain (k : Fin 4)
  /-- R493 -/ | kernelWindowEnd (k : Fin 4) (m : KernelMeas)
  -- channel operation
  /-- R102 -/ | shutdownComplete (c : Fin 40)
  /-- R98 -/ | carrierPeriodStart (c : Fin 40)
  /-- R111 -/ | wireModelStep (k : Fin 4) (i2 : List Nat)
  /-- R105 -/ | energyAccumulate (k : Fin 4) (mJ : List Int)
  /-- R116 -/ | arcFrame (c : Fin 40) (iDc : BitVec 16) (bands : List Nat)
  /-- R106 -/ | openLoad (c : Fin 40) (offState : Bool) (mean : BitVec 16)
  /-- R106 -/ | openLoadClear (c : Fin 40)
  /-- R94 -/ | currentMeanUpdate (k : Fin 4) (mean : BitVec 32)
  /-- R121 -/ | pairMismatch (c : Fin 40) (leader follower : BitVec 16)
  /-- R122 -/ | holdExpiry (k : Fin 4) (coreReset : Bool)
  /-- R110 -/ | senseDriveStart (n : Fin 4)
  /-- R141 -/ | protClearRetry (i : Initiator) (c : Fin 40)
  /-- R141 -/ | protClearThermal (i : Initiator) (c : Fin 40)
  /-- R141 -/ | protClearArc (i : Initiator) (c : Fin 40)
  /-- R128 -/ | chEnergyLoRead (i : Initiator) (c : Fin 40)
  -- inputs
  /-- R168 -/ | diWakeRequest (d : Fin 32)
  /-- R167 -/ | diStuck (d : Fin 32)
  /-- R167 -/ | diRearmed (d : Fin 32)
  /-- R173 -/ | seismic (rms : BitVec 16)
  /-- R173 -/ | shock (peak : BitVec 16)
  /-- R173 -/ | motionFault
  /-- R172 -/ | motionReady
  -- the kernel bridge
  /-- R193 -/ | sidebandPoll (k : Fin 4) (ok : Bool)
  /-- R194 -/ | pollWatchdogExpiry (k : Fin 4)
  /-- R199 -/ | boundaryExcursion (k : Fin 4) (cause : BitVec 7)
  /-- R200 -/ | boundaryRejoining (k : Fin 4)
  /-- R183 -/ | postedWriteDelivered (k : Fin 4) (fault : Option LinkFault)
  /-- R184 -/ | fenceRead (i : Initiator) (addr : Word)
  /-- R184 -/ | fenceComplete (i : Initiator)
  /-- R178 -/ | acknowledgedWrite (i : Initiator) (addr : Word) (width : Fin 4) (data : BitVec 64)
      (fault : Option LinkFault)
  /-- R192 -/ | kseSemRead (k : Fin 4) (s : Fin 8)
  /-- R205 -/ | ksePeakRead (k : Fin 4) (n : Fin 10)
  /-- R205 -/ | kseVbatMinRead (k : Fin 4)
  /-- R205 -/ | kseVbatMaxRead (k : Fin 4)
  /-- R191 -/ | readReturnConfirm (k : Fin 4) (r : KseReg) (delivered : Bool)
  /-- R192 -/ | kgSemRelWrite (k : Fin 4) (mask : Byte)
  /-- R206 -/ | linkRetry (k : Fin 4)
  -- pod queues and transports
  /-- R210 -/ | pqWr (i : Initiator) (q : Fin 256) (w : Word) (w2 : Option Word)
  /-- R210 -/ | pqWrEnd (i : Initiator) (q : Fin 256) (w : Word)
  /-- R210 -/ | pqAbort (i : Initiator) (q : Fin 256)
  /-- R216 -/ | pqPop (i : Initiator) (q : Fin 256) (wide : Bool)
  /-- R213 -/ | engineMessage (e : Engine) (q : Fin 256) (msg : List Word)
  /-- R222 -/ | spiWrite (mosi : List Byte)
  /-- R222 -/ | spiRead (mosi : List Byte) (clocked : Nat)
  /-- R222 -/ | spiStatus
  /-- R222 -/ | spiUnknownCommand (cmd : Byte)
  /-- R223 -/ | uartFrameReceived (raw : List Byte)
  /-- R223 -/ | uartFrameSend (notification : Bool)
  -- Ramdar service
  /-- R241 -/ | reqMalformed (mb : Fin 12) (bytes : BitVec 16)
  /-- R233 -/ | badOpcodeRequest (r : Req) (opcode : BitVec 16)
  /-- R241 -/ | responsePlace (mb : Fin 12)
  /-- R241 -/ | respDropped (mb : Fin 12)
  /-- R243 -/ | echo (r : Req)
  /-- R244 -/ | getCaps (r : Req)
  /-- R244 -/ | getVersions (r : Req)
  /-- R243 -/ | getIdentity (r : Req)
  /-- R411 -/ | attest (r : Req)
  /-- R244 -/ | getHealth (r : Req)
  /-- R245 -/ | modeGet (r : Req)
  /-- R390 -/ | modeSet (r : Req)
  /-- R245 -/ | tenantCtrlStop (r : Req)
  /-- R245 -/ | tenantCtrlStart (r : Req)
  /-- R245 -/ | tenantCtrlReset (r : Req)
  /-- R245 -/ | resetDevice (r : Req)
  /-- R245 -/ | resetCause (r : Req)
  /-- R246 -/ | cfgInfo (r : Req)
  /-- R247 -/ | cfgLoadBegin (r : Req)
  /-- R247 -/ | cfgLoadData (r : Req)
  /-- R263 -/ | cfgVerify (r : Req)
  /-- R263 -/ | cfgVerifyDone
  /-- R247 -/ | cfgSwap (r : Req)
  /-- R247 -/ | cfgCancel (r : Req)
  /-- R268 -/ | swapKernelStaging (confirmed : BitVec 4)
  /-- R278 -/ | kernelServiceOut (r : Req)
  /-- R279 -/ | kernelServiceReturn (r : Req)
  /-- R277 -/ | kernelServiceRecalibrate (r : Req)
  /-- R277 -/ | kernelServiceReload (r : Req)
  /-- R278 -/ | kernelOutOfService (k : Fin 4)
  /-- R277 -/ | kernelServiceDone (k : Fin 4)
  /-- R276 -/ | tenantReplace (r : Req)
  /-- R248 -/ | chGet (r : Req)
  /-- R249 -/ | chSet (r : Req)
  /-- R249 -/ | chClear (r : Req)
  /-- R249 -/ | senseRoute (r : Req)
  /-- R250 -/ | inGet (r : Req)
  /-- R250 -/ | motionRefSet (r : Req)
  /-- R251 -/ | logInfo (r : Req)
  /-- R251 -/ | logRead (r : Req)
  /-- R85 -/ | logSeal (r : Req)
  /-- R251 -/ | sealGet (r : Req)
  /-- R251 -/ | pinRelease (r : Req)
  /-- R251 -/ | notifySet (r : Req)
  /-- R252 -/ | timeGet (r : Req)
  /-- R252 -/ | timeSet (r : Req)
  /-- R253 -/ | portGet (r : Req)
  /-- R253 -/ | portSet (r : Req)
  /-- R253 -/ | canGet (r : Req)
  /-- R332 -/ | nmRequest (r : Req)
  /-- R255 -/ | keyUpdate (r : Req)
  /-- R415 -/ | keyUpdateCommitted
  /-- R254 -/ | keyInfo (r : Req)
  /-- R421 -/ | debugAuth (r : Req)
  /-- R421 -/ | debugAccessExpiry
  /-- R404 -/ | lifecycleSet (r : Req)
  /-- R254 -/ | tamperGet (r : Req)
  /-- R418 -/ | lockdownExit (r : Req)
  /-- R418 -/ | ownerLock (r : Req)
  /-- R441 -/ | updBegin (r : Req)
  /-- R441 -/ | updData (r : Req)
  /-- R441 -/ | updFinish (r : Req)
  /-- R441 -/ | updateVerified
  /-- R442 -/ | updActivate (r : Req)
  /-- R442 -/ | updateActivated (comp : Byte)
  /-- R446 -/ | updAbort (r : Req)
  /-- R256 -/ | updStatus (r : Req)
  /-- R445 -/ | updateConfirmed (comp : Byte)
  /-- R443 -/ | updateTrialFailed (comp : Byte) (why : BitVec 3)
  /-- R257 -/ | bridgeClear (r : Req)
  /-- R257 -/ | regRead (r : Req)
  /-- R257 -/ | regWrite (r : Req)
  -- tenants
  /-- R272 -/ | tenantShutdownComplete (t : Fin 8)
  /-- R272 -/ | tenantStartComplete (t : Fin 8)
  /-- R266 -/ | tenantWindowStart (t : Fin 8) (w : Fin 16)
  /-- R266 -/ | tenantWindowEnd (t : Fin 8) (w : Fin 16)
  /-- R274 -/ | guestException (t : Fin 8)
  /-- R274 -/ | tenantFaultLimit (t : Fin 8)
  /-- R274 -/ | faultCounterClear
  /-- R274 -/ | tenantAbort (t : Fin 8)
  -- the safety program
  /-- R365 -/ | passAStart (t : Fin 2)
  /-- R362 -/ | passEnd (t : Fin 2) (res : PassResult)
  /-- R363 -/ | safetyReleaseFenceDone
  /-- R365 -/ | passBudgetExpiry (t : Fin 2)
  /-- R359 -/ | passTrap (t : Fin 2) (mcause : Byte) (pc : Word)
  /-- R359 -/ | passUncorrectable (t : Fin 2) (addr : Word)
  /-- R361 -/ | passBufferFull (t : Fin 2) (stateBuf : Bool)
  /-- R366 -/ | safetyDivergenceLimit
  /-- R367 -/ | safetyReset (cause : Fin 7)
  /-- R367 -/ | safetyResetComplete
  /-- R368 -/ | selftestSlice (core : Fin 2) (ok : Bool)
  /-- R369 -/ | codeCheckBlock (ok : Bool)
  /-- R370 -/ | debugAttached (core : Fin 2)
  /-- R370 -/ | debugDetached (core : Fin 2)
  -- reset, power and modes
  /-- R374 -/ | shellPowerOn
  /-- R374 -/ | poresetNAssert
  /-- R374 -/ | poresetNRelease
  /-- R374 -/ | sysresetNAssert
  /-- R374 -/ | sysresetNRelease
  /-- R198 -/ | supplyDifference
  /-- R374 -/ | shellOvertemp (tj : BitVec 16)
  /-- R374 -/ | watchdog
  /-- R396 -/ | rccWdtKickWrite (i : Initiator) (w : Word)
  /-- R374 -/ | chanterFatalFault
  /-- R374 -/ | debugResetRequest
  /-- R374 -/ | resetSourceRelease (b : ResetBit)
  /-- R378 -/ | exitStepDone (straps : List (BitVec 5))
  /-- R390 -/ | bootComplete (firmwareOk : Bool)
  /-- R379 -/ | clockGood (b : Block) (dev : BitVec 16)
  /-- R379 -/ | clockFail (b : Block) (dev : BitVec 16)
  /-- R379 -/ | clockLost (b : Block) (dev : BitVec 16)
  /-- R383 -/ | avsStep (up : Bool) (measured : BitVec 12)
  /-- R384 -/ | feedLost (feedB : Bool) (vbat : BitVec 16)
  /-- R384 -/ | feedGood (feedB : Bool) (vbat : BitVec 16)
  /-- R386 -/ | holdupTrip
  /-- R386 -/ | holdupCommitted (us : BitVec 16)
  /-- R386 -/ | vholdDepleted
  /-- R390 -/ | partitionMonitorFailure
  /-- R393 -/ | autoSleepRequest
  /-- R393 -/ | sleepPowerDown
  /-- R393 -/ | sleepAbortedEntry (step : Fin 4)
  /-- R348 -/ | moduleWake (src : BitVec 16) (di trip : Bool)
  /-- R348 -/ | timerWake
  -- network management
  /-- R334 -/ | nmFrameReceived (b : Fin 6) (f : CanFrame)
  /-- R339 -/ | nmFrameSent (b : Fin 6)
  /-- R337 -/ | ringTimerExpiry (b : Fin 6)
  /-- R338 -/ | tokenTimerExpiry (b : Fin 6)
  /-- R340 -/ | settleExpiry (b : Fin 6)
  /-- R341 -/ | kaIntervalExpiry (b : Fin 6)
  /-- R341 -/ | kaSilenceExpiry (b : Fin 6)
  /-- R343 -/ | detectorWake (b : Fin 6) (e : DetectorEvent)
  /-- R344 -/ | busWake (b : Fin 6) (cause : WakeCause) (ident : BitVec 30)
  /-- R345 -/ | falseWakeExpiry (b : Fin 6)
  /-- R333 -/ | requestLapsed (b : Fin 6) (i : Initiator)
  /-- R332 -/ | localHoldExpiry (b : Fin 6)
  /-- R346 -/ | nodeHoldsAwake (b : Fin 6) (addr : Fin 64)
  /-- R349 -/ | wakeOutPulseEnd
  -- CAN
  /-- R316 -/ | canFrameReceived (b : Fin 6) (f : CanFrame) (sof : BitVec 64)
  /-- R321 -/ | canTxEnqueue (b : Fin 6)
  /-- R321 -/ | canHeadArbitration (b : Fin 6)
  /-- R322 -/ | canTxSuccess (b : Fin 6) (slot : CanSlot)
  /-- R322 -/ | canTxError (b : Fin 6) (slot : CanSlot) (e : CanErr) (kind : CanErrKind) (where_ : CanField)
      (dataPhase : Bool)
  /-- R322 -/ | canRxError (b : Fin 6) (e : CanErr) (kind : CanErrKind) (dataPhase : Bool)
  /-- R323 -/ | boffDelayExpiry (b : Fin 6)
  /-- R323 -/ | busOffRecovered (b : Fin 6)
  /-- R323 -/ | canCmdRestart (b : Fin 6)
  /-- R325 -/ | canCmdRearm (b : Fin 6)
  -- the switch
  /-- R288 -/ | frameReceived (p : Fin 13) (f : EthFrame) (stamp : BitVec 64)
  /-- R289 -/ | frameFromProgram (q : Fin 256)
  /-- R300 -/ | frameTxStart (p : Fin 13) (tc : Fin 8)
  /-- R290 -/ | frameTxDone (p : Fin 13)
  /-- R311 -/ | linkUp (p : Fin 13) (mbps : BitVec 16)
  /-- R296 -/ | linkDown (p : Fin 13)
  /-- R291 -/ | fdbAgeExpiry (mac : BitVec 48) (vid : BitVec 12)
  /-- R308 -/ | swFdbLookup
  /-- R308 -/ | swFdbFlushVid
  /-- R308 -/ | swFdbFlushAll
  /-- R307 -/ | swMdioAccess (i : Initiator) (w : Word)
  /-- R299 -/ | gclEntryExpiry (p : Fin 13)
  /-- R302 -/ | frerTimeout (s : Fin 64) (p : Fin 13)
  /-- R306 -/ | swCounterLoRead (i : Initiator) (p : Fin 13) (j : Fin 10)
  /-- R306 -/ | bufferDrop (p : Fin 13)
  -- security
  /-- R424 -/ | tamperAlarm (code : Byte)
  /-- R424 -/ | cl1HoldExpiry
  /-- R426 -/ | entropyFail (repetition proportion : Bool)
  /-- R426 -/ | entropyRetest (ok : Bool)
  /-- R427 -/ | cryHeadWrite (i : Initiator) (w : Word)
  /-- R427 -/ | cryptoDescriptorDone
  /-- R419 -/ | mgmtHello (hello : List Byte)
  /-- R419 -/ | mgmtFinish (finish : List Byte)
  /-- R420 -/ | sessionDatagram (d : List Byte)
  /-- R420 -/ | sessionIdleClose
  /-- R420 -/ | sessionKeyLifeClose
  -- recovery
  /-- R449 -/ | recoveryFrame (src : BitVec 48) (payload : List Byte)
  /-- R449 -/ | recoverySegmentTimeout
  /-- R451 -/ | qspiPackageInstall (manifest image : List Byte)
  -- persistence
  /-- R461 -/ | journalTransaction (items : List (BitVec 16 × List Byte))
  /-- R457 -/ | scrubPassStart
  /-- R457 -/ | scrubPassEnd (rewritten : Word) (corrected : List Word)
  /-- R457 -/ | memScrub (sramCorr ddrCorr : BitVec 16)
  /-- R459 -/ | memUncorrectable (addr : Word) (reader : Initiator)
  /-- R466 -/ | nvmUncorrectable (addr : Word)
  /-- R464 -/ | counterWrite (offset : BitVec 16) (value : BitVec 64)
  -- further steps
  /-- R133 -/ | conductsWithoutFault (c : Fin 40)
  /-- R50 -/ | chanterStagingComplete
  /-- R245 -/ | resetDeviceAsserted (reachS : Bool)
  /-- R373 -/ | alwaysOnPowerOn
  /-- R397 -/ | vioLost (bankB : Bool) (lost : Bool)
  /-- R311 -/ | plcaChange (active : Bool) (nodes : BitVec 4)
  /-- R303 -/ | mkaLost (p : Fin 2) (reason : BitVec 2)
  /-- R307 -/ | mdioAccessDone (data : BitVec 16) (err : Bool)
  /-- R308 -/ | fdbOperationDone
  /-- R165 -/ | diEdge (d : Fin 32) (high : Bool) (offset : BitVec 16)
  /-- R163 -/ | cleaningCurrentEnd (d : Fin 32)
  deriving DecidableEq, Repr

end Sys2Proof
end

