-- ==== Sys2Proof/Decode.lean ====
section
/-! DEFINITION. The block has no instruction words: its commands come from outside. No row of the opcode table
gives a command bits, so no word spells one. -/

namespace Sys2Proof

/-- The command that a word spells: none, since the table gives no row bits. -/
def decodeTableWord (_nbits _w : Nat) : Option Instr := none

end Sys2Proof
end

