-- ==== Sys2Proof/Config.lean ====
section
/-! DEFINITION. What an implementation fixes and the spec does not: constants without a body, so that
no proof can see their value. Cryptographic functions are named by their standards and kept
uninterpreted. Free values take the counter of the state (`State.freeCtr`) so that each use is fresh. -/

namespace Sys2Proof.Config

/-- SHA3-512 (FIPS 202), uninterpreted. Log entry 4. -/
opaque sha3 : List Byte → BitVec 512
/-- ML-DSA-87 verification (FIPS 204): public key, message, signature. Log entry 4. -/
opaque mldsaVerify : List Byte → List Byte → List Byte → Bool
/-- ML-DSA-87 signature under the key with a derivation label and an epoch. Log entry 4. -/
opaque mldsaSign : List Byte → Nat → List Byte → List Byte
/-- KMAC256 (SP 800-185): key, label and context, output length in bytes. Log entry 4. -/
opaque kmac : List Byte → List Byte → Nat → List Byte
/-- AES-256-GCM opening: key, nonce, associated data, ciphertext with tag. Log entry 4. -/
opaque gcmOpen : List Byte → List Byte → List Byte → List Byte → Option (List Byte)
/-- AES-256-GCM sealing. Log entry 4. -/
opaque gcmSeal : List Byte → List Byte → List Byte → List Byte → List Byte
/-- ML-KEM-1024 decapsulation (FIPS 203): key handle and ciphertext. Log entry 4. -/
opaque kemDecap : Nat → List Byte → List Byte
/-- ML-KEM-1024 encapsulation to a public key, under fresh randomness: ciphertext and shared secret.
Log entry 4. -/
opaque kemEncap : Nat → List Byte → List Byte × List Byte

/-- The host certificate of a management handshake under an anchor's public key (R419, X.509): the subject's public key
when it verifies. Log entry 4. -/
opaque certKey : List Byte → List Byte → Option (List Byte)
/-- The identity certificate (R410): the certificate before it, the life-cycle code and g. Log entry 4. -/
opaque identityCert : List Byte → Nat → Nat → List Byte
/-- The attestation certificate (R410): the identity certificate and the two key epochs. Log entry 4. -/
opaque attestCert : List Byte → Nat → Nat → List Byte
/-- The Lumnel anchor's public key (R405), whose digest is fixed in ROM. Log entry 14. -/
opaque lumnelAnchor : List Byte

/-- A value the spec leaves open, fresh at each use. Log entry 3. -/
opaque freeWord : Nat → Word
/-- A number the spec leaves open, fresh at each use. Log entry 3. -/
opaque freeNat : Nat → Nat
/-- Bytes the spec leaves open, fresh at each use. Log entry 3. -/
opaque freeBytes : Nat → List Byte

/-- The rate a servo chooses: the rate in use, the offset in ns and the free-value counter. The spec bounds
it and does not give it (R70). Log entry 5. -/
opaque servoRate : Int → Int → Nat → Int
/-- This clock's clockAccuracy (8 bits) and offsetScaledLogVariance (16 bits) in its systemIdentity
(R68 names the standard and gives no value). Log entry 6. -/
opaque clockQuality : BitVec 24
/-- This clock's clockIdentity. Log entry 6. -/
opaque clockIdentity : BitVec 64

/-- The exponential exp(-x) of the wire model's ageing (R115), whose result the spec rounds nowhere.
Log entry 9. -/
opaque expNeg : Rat → Rat
/-- The natural logarithm of the thermistor equation (R171), whose result the spec rounds nowhere.
Log entry 9. -/
opaque ln : Rat → Rat

/-- The unique ID of the module (R22), fused at manufacture. Log entry 14. -/
opaque uid : BitVec 128
/-- `SYS_REV` of the module (R22), fused at manufacture. Log entry 14. -/
opaque sysRev : Word

/-- The fused timestamp corrections of a port, `SW_P_TS_CORR` (R304, R309). Log entry 14. -/
opaque tsCorr : Nat → Word
/-- The seed and the next state of the LFSR that random early drop draws from (R298 gives neither). Log
entry 3. -/
opaque lfsrSeed : Word
opaque lfsrNext : Word → Word

end Sys2Proof.Config
end

