-- ==== Sys2Proof/Machine/Operands.lean ====
section
/-! DEFINITION. How operands, registers and messages are read and made: bit fields (`[hi:lo]` as the
manual writes them), saturating counts, little-endian byte lists (R11), the access types of R8 and the
CRC-32 of R460. -/

namespace Sys2Proof

/-- Bits `[hi:lo]` of a register word as a natural number, the manual's `[hi:lo]` form. -/
def bits (w : Word) (hi lo : Nat) : Nat := (w.toNat / 2 ^ lo) % 2 ^ (hi + 1 - lo)

/-- Bit `i` of a register word. -/
def bit (w : Word) (i : Nat) : Bool := w.toNat.testBit i

/-- A flag as a number. -/
def b2n (b : Bool) : Nat := if b then 1 else 0

/-- A field value placed at bit `lo`, `width` bits wide. -/
def fld (v width lo : Nat) : Nat := (v % 2 ^ width) * 2 ^ lo

/-- A 32-bit register word made of the sum of its fields (which do not overlap). -/
def mkWord (parts : List Nat) : Word := BitVec.ofNat 32 (parts.foldl (· + ·) 0)

/-- Saturating increment: the manual's "saturating at". -/
def satInc (x max : Nat) : Nat := if x < max then x + 1 else x

/-- Saturating addition. -/
def satAdd (x y max : Nat) : Nat := min (x + y) max

/-- The little-endian bytes of a number (R11). -/
def leBytes : Nat → Nat → List Byte
  | 0, _ => []
  | n + 1, x => BitVec.ofNat 8 x :: leBytes n (x / 256)

/-- The number a little-endian byte list holds (R11). -/
def ofLe : List Byte → Nat
  | [] => 0
  | b :: bs => b.toNat + 256 * ofLe bs

/-- Byte `i` of a list, zero beyond its end. -/
def byteAt (l : List Byte) (i : Nat) : Byte := l.getD i 0

/-- `n` bytes from offset `i` as a little-endian number. -/
def leAt (l : List Byte) (i n : Nat) : Nat := ofLe ((l.drop i).take n)

/-- The bytes of `l` padded with zeros or cut to exactly `n`. -/
def padTo (n : Nat) (l : List Byte) : List Byte := l.take n ++ List.replicate (n - l.length) 0

/-- The 32-bit words of a byte list, little-endian, the last one zero padded. -/
def wordsOf : Nat → List Byte → List Word
  | 0, _ => []
  | fuel + 1, l =>
    if l.isEmpty then [] else BitVec.ofNat 32 (ofLe (l.take 4)) :: wordsOf fuel (l.drop 4)

/-- The bytes of a list of words, little-endian. -/
def bytesOf (ws : List Word) : List Byte := ws.flatMap (fun w => leBytes 4 w.toNat)

/-- Upper division. -/
def ceilDiv (a b : Nat) : Nat := (a + b - 1) / b

/-- A non-empty byte list's bytes from `i`, `n` of them. -/
def slice (l : List Byte) (i n : Nat) : List Byte := (l.drop i).take n

/-- A word with bits `[hi:lo]` replaced. -/
def setBits (w : Word) (hi lo v : Nat) : Word :=
  BitVec.ofNat 32 (w.toNat - bits w hi lo * 2 ^ lo + fld v (hi + 1 - lo) lo)

/-- A word with the bits of a mask set. -/
def orBits (w : Word) (m : Nat) : Word := w ||| BitVec.ofNat 32 m

/-- Write-1-to-clear (R8). -/
def w1c (w data : Word) : Word := w &&& ~~~ data

/-! ### Checks -/

/-- One bit of a reflected CRC. -/
def crcBit (poly c : Nat) : Nat := if c % 2 = 1 then (c / 2) ^^^ poly else c / 2

/-- One byte of a reflected CRC. -/
def crcByte (poly c : Nat) (b : Byte) : Nat :=
  (List.range 8).foldl (fun c _ => crcBit poly c) (c ^^^ b.toNat)

/-- The CRC-32 of IEEE 802.3, the one this manual means everywhere (R460). -/
def crc32 (l : List Byte) : Nat := (l.foldl (crcByte 0xEDB88320) 0xFFFFFFFF) ^^^ 0xFFFFFFFF

/-- The value of a signed 32-bit word. -/
def sint (w : Word) : Int := w.toInt

end Sys2Proof
end

