-- ==== Sys2Proof/Machine/State.lean ====
section
/-! DEFINITION. The state of the block as plain data: every register, queue, counter, mode and pin the
spec gives the module, unit by unit, the queue of waiting commands, and `State.reset`. Register images
that software or the configuration image reads and writes whole are 32-bit words; everything that lives
inside the machine has the type that says what it is. -/

namespace Sys2Proof.Machine

/-- Why the block stops with a fault. No command of this block does: an event whose condition the state
does not meet changes nothing, and a refused access is an effect on the state (R17). The one constructor
is raised by no meaning; it keeps the type inhabited. Safe. -/
inductive Fault where
  | none
  deriving DecidableEq, Repr

/-- Why a command is refused. `notModelled` is raised by `exec` alone, for a row without a meaning.
Safe. -/
inductive Refusal where
  | notModelled (mnemonic : String)
  deriving DecidableEq, Repr

/-- The three variants (R5, R22). -/
inductive Variant where
  | nz840 | nz830 | nz820
  deriving DecidableEq, Repr, Inhabited

/-- The operating modes (R27); `off` is the powered-down shell before any start (R386). -/
inductive Mode where
  | boot | recovery | run | service | limp | standby | sleep | lockdown
  deriving DecidableEq, Repr, Inhabited

/-- Mode codes of R27. -/
def Mode.code : Mode → Nat
  | .boot => 1 | .recovery => 2 | .run => 3 | .service => 4 | .limp => 5 | .standby => 6 | .sleep => 7
  | .lockdown => 8

/-- The mode with a code. -/
def Mode.ofCode : Nat → Option Mode
  | 1 => some .boot | 2 => some .recovery | 3 => some .run | 4 => some .service | 5 => some .limp
  | 6 => some .standby | 7 => some .sleep | 8 => some .lockdown | _ => none

/-- What an access returned to its initiator: the model's own output field (data, the access fault and
status `ISOLATED` of R17 and R199). -/
structure Reply where
  data     : BitVec 64
  fault    : Bool
  isolated : Bool
  deriving DecidableEq, Repr, Inhabited

/-! ### Event records (R76) -/

/-- A record waiting for its grant: what its source captured. -/
structure PRec where
  dt     : BitVec 64
  src    : BitVec 16
  code   : BitVec 16
  tenant : Byte
  sev    : BitVec 3
  flags  : Byte
  arg    : Word
  pinned : Bool
  deriving DecidableEq, Repr, Inhabited

/-- A granted record. -/
structure Rec where
  seq : BitVec 64
  bn  : Word
  p   : PRec
  deriving DecidableEq, Repr, Inhabited

/-- An event view ring (R78, R92). The ring's bytes lie in memory; `wr` is the true write position and
`wrVis` the index that R79 shows. -/
structure View where
  base   : BitVec 64
  size   : Nat
  wr     : Nat
  wrVis  : Nat
  rd     : Nat
  lost   : Nat
  filter : Word
  deriving DecidableEq, Repr, Inhabited

/-- The event sequencer and the log (R72 to R91). -/
structure Evs where
  nextSeq   : BitVec 64
  highWater : Word
  resumed   : Bool
  grants    : Nat
  grantsNow : Nat
  grantSec  : Nat
  queue     : List PRec
  srcLost   : List (BitVec 16 × Nat)
  logSev    : Nat
  logRate   : Nat
  sealPeriod : Nat
  logQ      : List Rec
  logWr     : Nat
  logTotal  : Nat
  logLost   : Nat
  logLostNow : Nat
  logThisSec : Nat
  logSecond : Nat
  unwritten : Nat
  pinHeld   : List (BitVec 64)
  pinWr     : Nat
  pinFullLogged : Bool
  chain     : BitVec 512
  startChain : BitVec 512
  pinChain  : BitVec 512
  newestSeq : BitVec 64
  newestDt  : BitVec 64
  lastSealDt : BitVec 64
  lastCmdSeal : Option (BitVec 64)
  sealDeferred : Bool
  sealCount : Nat
  sealEndSeq : BitVec 64
  prevSeal  : BitVec 512
  scanning  : Bool
  views     : Vector View 9
  deriving DecidableEq, Repr, Inhabited

/-! ### The breath -/

/-- The bellows (R29 to R64). `header` is the snapshot header of the breath, `recIn` what its record holds of the cut,
`recQueue` the records queued with their datagrams, `recOut` the datagrams of the record sent last. -/
structure Breath where
  running  : Bool
  trimLeft : Nat
  phase    : Nat
  len      : Nat
  guard    : Nat
  curLenNs : Nat
  lenInUse : Nat
  bn       : BitVec 48
  bnStored : BitVec 24
  tickDt   : BitVec 64
  dueDt    : BitVec 64
  cutSeq   : BitVec 64
  prevCut  : BitVec 64
  doneT    : Byte
  doneA    : Bool
  doneB    : Bool
  doneV    : Bool
  doneCh   : Bool
  lateCalls : Byte
  sticky   : Word
  ovrLimit : Nat
  cmdMax   : Nat
  unverified : Nat
  tovrConsec : Vector Nat 8
  tovrTotal  : Vector Nat 8
  modeSel  : Byte
  recCtrl  : Word
  recSent  : Word
  recDrop  : Nat
  recDropNew : Nat
  recQueue : List (BitVec 48 × List (List Byte))
  recOut   : List (List Byte)
  recIn    : List Byte
  header   : List Byte
  recLogDt : Option (BitVec 64)
  prevOutcome : Word
  outcome  : Word
  configId : Word
  sampleId : Word
  commit   : Vector Bool 40
  commitT  : Byte
  commitS  : Bool
  staged   : Nat
  carried  : List (BitVec 16 × Req)
  carryLogged : Bool
  lateBy   : List Initiator
  denied   : List Initiator
  unmapped : List Initiator
  atomics  : List Initiator
  pwFailed : List Initiator
  refusedMb : List (Fin 12)
  vlanDenied : List Initiator
  txRefused : List (Fin 6 × Initiator)
  deriving DecidableEq, Repr, Inhabited

/-! ### Device time -/

/-- Time base states (R69). -/
inductive TbState where
  | unsynced | synced | holdover | master
  deriving DecidableEq, Repr, Inhabited

/-- gPTP messages a port sends (R68). -/
inductive GptpMsg where
  | sync | followUp | pdelayReq | announce
  deriving DecidableEq, Repr, Inhabited

/-- The time base (R65 to R71, R89, R90). `dtFrac` is the fraction of a nanosecond in units of 2^-32;
`aotFrac` the fraction of an AOT count in units of 10^-9. -/
structure TimeBase where
  dt      : BitVec 64
  dtFrac  : BitVec 32
  aot     : BitVec 48
  aotFrac : Nat
  aotContinuous : Bool
  anchorDt  : Option (BitVec 64)
  anchorAot : BitVec 48
  state   : TbState
  slewing : Bool
  slewDelta : Nat
  slavePort : Byte
  lastSlave : Byte
  offset  : Word
  rateNow : Word
  gmId    : BitVec 64
  gmSys   : BitVec 112
  holdLeft : Word
  holdFrom : BitVec 64
  goodSyncs : Nat
  ctrl    : Word
  rate    : Word
  stepThresh : Word
  slewMax : Word
  holdover : Word
  domain  : Word
  prio    : Word
  syncInt : Word
  hiLatch : List (Initiator × Word)
  syncSeq : Vector (BitVec 16) 10
  pdelaySeq : Vector (BitVec 16) 10
  sent    : List (Fin 10 × GptpMsg × BitVec 16)
  deriving DecidableEq, Repr, Inhabited

/-! ### Channels -/

/-- The protection state machine of R153. -/
inductive Prot where
  | off | on | inrush | limiting | pause | latched | thermal | shuttingDown | pendingOn
  deriving DecidableEq, Repr, Inhabited

/-- Trip causes, coded as `CH_PROT_STATUS.CAUSE` (R158). -/
inductive Cause where
  | none | shortA | shortB | limitTime | junction | wire | arc | kernelOvertemp | ground | undervoltage
  deriving DecidableEq, Repr, Inhabited

/-- The shadow set of a channel page (R96). -/
structure ShadowSet where
  cmd  : Word
  pwm  : Word
  ramp : Word
  slew : Word
  deriving DecidableEq, Repr, Inhabited

/-- What K1 latched of a channel: the record of R104. -/
structure ChanSnap where
  sense  : BitVec 12
  state  : Nat
  flags  : Byte
  iMean  : Word
  iPeak  : BitVec 16
  vOut   : BitVec 16
  tj     : BitVec 16
  wireT  : BitVec 16
  energy : BitVec 64
  duty   : Nat
  mode   : Nat
  faults : Nat
  arcFrames : Nat
  onTime : Nat
  switches : Nat
  deriving DecidableEq, Repr, Inhabited

/-- One channel: its page (R128, R158), its protection machine (ch. 5) and its actions (R122). -/
structure Channel where
  owner   : Initiator
  paired  : Bool
  roGrant : Word
  cmdGrant : Word
  shadow  : ShadowSet
  staged  : Bool
  applied : ShadowSet
  actions : Word
  fallback : Word
  fallbackPwm : Word
  openLoadCfg : Word
  limit   : Word
  limTime : Word
  inrush  : Word
  retry   : Word
  retryTime : Word
  therm   : Word
  wmCtrl  : Word
  wmRho   : Word
  wmRth   : Word
  wmTau   : Word
  wmLim   : Word
  arcCtrl : Word
  arcImin : Word
  prot    : Prot
  cause   : Cause
  thermTrip : Bool
  winOpen : Bool
  winStart : BitVec 64
  winLen  : Nat
  winForce : Bool
  winFrozen : Option (BitVec 64)
  stretch : Nat
  quickOff : Bool
  quickUsed : Nat
  burstLeft : Nat
  limStart : BitVec 64
  limRun  : Option (BitVec 64)
  limAcc  : Nat
  limSeen : Bool
  pauseRun : Bool
  pauseStart : BitVec 64
  pauseLen : Nat
  faultCount : Nat
  thermCount : Nat
  retryLatch : Bool
  thermLatch : Bool
  arcLatch : Bool
  deferred : Bool
  deferredLogged : Bool
  wearWait : Bool
  unstored : Bool
  tjBlock : Bool
  wireBlock : Bool
  supWait : Bool
  shutdownActive : Bool
  cleanFrom : Option (BitVec 64)
  cleanAcc : Nat
  clearBits : BitVec 3
  clearBy : Option Initiator
  coreHold : Bool
  isoHold : Bool
  unverHold : Bool
  fallbackOn : Bool
  safeOn  : Bool
  sleepOn : Bool
  everApplied : Bool
  lastApplied : Option ShadowSet
  effDuty : Rat
  ramping : Bool
  carrierStart : BitVec 64
  dutyClamp : Bool
  clampLogged : Option Nat
  openLoad : Bool
  wireWarn : Bool
  th1     : Rat
  th2     : Rat
  tamb    : Rat
  tc      : Rat
  arcWin  : List (Bool × Nat)
  arcSeen : Bool
  arcQuiet : Nat
  arcExcluded : Byte
  arcLevels : Word
  wmSave  : Option (Rat × Rat × BitVec 48 × List Word)
  energySave : Option (BitVec 64 × Nat × Nat × BitVec 64)
  energy  : BitVec 64
  energyLatch : List (Initiator × Word)
  onTime  : Nat
  onTimeNs : Nat
  switches : Nat
  sticky  : Word
  protSticky : Word
  live    : BitVec 12
  snap    : ChanSnap
  deriving DecidableEq, Repr, Inhabited

/-! ### Inputs -/

/-- One digital input (R162 to R169). -/
structure Di where
  cfg    : Word
  cfg2   : Word
  pin    : Bool
  active : Bool
  reported : Bool
  edges  : Nat
  firstEdge : BitVec 16
  lastEdge : BitVec 16
  lastEdgeDt : BitVec 64
  activations : Word
  activeSince : BitVec 64
  chatter : Bool
  chatRun : Nat
  quietRun : Nat
  chatMask : Bool
  stuck  : Bool
  stuckMask : Bool
  stuckSince : BitVec 64
  inactSince : BitVec 64
  cleaning : Bool
  latEdges : Nat
  latFirst : BitVec 16
  latLast  : BitVec 16
  latActiveFor : Nat
  deriving DecidableEq, Repr, Inhabited

/-- One analogue input (R170, R171). -/
structure Ai where
  cfg   : Word
  raw   : BitVec 16
  val   : BitVec 16
  lo    : BitVec 16
  hi    : BitVec 16
  isOpen : Bool
  isShort : Bool
  isOver : Bool
  deriving DecidableEq, Repr, Inhabited

/-- The motion sensor (R172, R173), in K0. -/
structure Motion where
  cfg   : Word
  x     : BitVec 16
  y     : BitVec 16
  z     : BitVec 16
  peak  : BitVec 16
  rms10 : BitVec 16
  rms1  : BitVec 16
  tilt  : BitVec 16
  notReady : Bool
  fault : Bool
  ref   : Option (BitVec 16 × BitVec 16 × BitVec 16)
  seismicOn : Bool
  seismicLow : BitVec 64
  shockDt : Option (BitVec 64)
  deriving DecidableEq, Repr, Inhabited

/-! ### Kernels -/

/-- A semaphore of R192. -/
inductive Sem where
  | free | chanter | kernel
  deriving DecidableEq, Repr, Inhabited

/-- One record of the protection store (R155). -/
structure ProtRec where
  gen   : Nat
  chans : List (Nat × Nat × Bool × Bool × Bool)
  allowance : Nat
  deriving DecidableEq, Repr, Inhabited

/-- One copy of the fallback store (R126). -/
structure FbStore where
  gen   : Nat
  chans : List (Word × Word × Word)
  holdTime : Word
  coreHold : Word
  route : Word
  deriving DecidableEq, Repr, Inhabited

/-- One power kernel: its global page (R127, R159, R176, R204), stores, records and inputs. -/
structure Kernel where
  powered  : Bool
  ctrlReset : Bool
  reversed : Option (BitVec 48)
  micro    : Byte
  holdTime : Word
  coreHold : Word
  route    : Word
  kvbat    : BitVec 16
  ktemp    : BitVec 16
  iTotal   : Word
  iMean10  : Word
  curHigh  : Bool
  ground   : Bool
  under    : Bool
  surge    : Bool
  overtemp : Bool
  groundGood : Bool
  underGood : Bool
  surgeOver : Bool
  overtempGood : Bool
  surgePeak : BitVec 16
  surgeStart : BitVec 64
  supplySticky : Word
  fbA      : Option FbStore
  fbB      : Option FbStore
  fbGen    : Nat
  protRing : Vector (Option ProtRec) 16
  protGen  : Nat
  protSlot : Nat
  allowance : Nat
  protDirty : Bool
  buf      : List PRec
  bufLost  : Nat
  storedRecs : Nat
  heartbeat : Byte
  wdHold   : Bool
  wdSuspended : Bool
  isoHoldStart : Option (BitVec 64)
  coreHoldStart : Option (BitVec 64)
  kflagsChg : Bool
  protChg  : Bool
  gotCommit : Bool
  commitBits : BitVec 10
  swapFlag : Bool
  confirmed : Option Word
  wireWait : Bool
  dis      : Vector Di 8
  ais      : Vector Ai 4
  diSticky : Word
  sems     : Vector Sem 8
  semBroken : Byte
  kept     : List (KseReg × Word)
  unconfirmed : List (KseReg × Word)
  peaks    : Vector (BitVec 16) 10
  vbatMin  : BitVec 16
  vbatMax  : BitVec 16
  trimWrites : Nat
  service  : Option (Fin 4)
  serviceReq : Option (Fin 12 × Word)
  returnPending : Option (Fin 12 × Word)
  serviceStart : BitVec 64
  removing : Bool
  joinNext : Bool
  configId : Word
  sect     : List Byte
  deriving DecidableEq, Repr, Inhabited

/-! ### The bridge -/

/-- Boundary states (R201). -/
inductive Boundary where
  | joined | isolated | rejoining | service | absent
  deriving DecidableEq, Repr, Inhabited

/-- A posted write on its way to a kernel (R183, R187); one that found no slot is not accepted yet and
stalls its initiator. -/
structure Posted where
  init  : Initiator
  addr  : Word
  data  : BitVec 64
  be    : Byte
  epoch : Byte
  accepted : Bool
  deriving DecidableEq, Repr, Inhabited

/-- One boundary's bridge registers (R202) and its waiting posted writes. -/
structure Bridge where
  state : Boundary
  cause : Byte
  everJoined : Bool
  monClk : Word
  monGnd : Word
  monVdd : Word
  monTemp : Word
  goodFrom : BitVec 64
  isoCount : Nat
  rejoinCount : Nat
  poll  : Word
  linkRetried : Nat
  linkFailed : Nat
  linkNew : Nat
  linkDt : Option (BitVec 64)
  pwDrop : Nat
  replays : Nat
  isoDt : BitVec 64
  isoSince : BitVec 64
  failedPolls : Nat
  posted : List Posted
  deliver : Option Nat
  deriving DecidableEq, Repr, Inhabited

/-- One initiator slot of the bridge (R184, R203): slots 0 to 7 tenants, 8 safety, 9 Chanter. -/
structure InitSlot where
  pwFail : Bool
  lostF  : Bool
  reason : Nat
  epoch  : Byte
  count  : Nat
  lost   : Nat
  lostBreath : Nat
  lostAt : Fin 4
  faultQ : Option (Fin 256)
  fence  : Bool
  deriving DecidableEq, Repr, Inhabited

/-! ### Pod queues and mailboxes -/

/-- One closed message (R207, R208): its words and its close SEQ; `seq = none` while it is held (R214). -/
structure Msg where
  words : List Word
  seq   : Option (BitVec 64)
  deriving DecidableEq, Repr, Inhabited

/-- One pod queue (R208, R224). A held message carries the order of its close (R46). -/
structure Queue where
  limits  : Word
  owners  : Word
  holdCfg : Word
  holdNow : Nat
  openMsg : Option (List Word)
  aborted : Bool
  charged : Nat
  held    : List (Nat × List Word)
  msgs    : List Msg
  popped  : Nat
  lastWin : List Word
  sticky  : Word
  drops   : Nat
  dropsBreath : Nat
  logged  : Byte
  deriving DecidableEq, Repr, Inhabited

/-- A response or notification that the Chanter has made and not yet placed (R241): opcode, client
sequence, requester, flags, status, effective BN, payload. -/
structure Resp where
  opcode : BitVec 16
  client : Word
  who    : Byte
  flags  : Byte
  status : BitVec 16
  ebn    : Word
  payload : List Byte
  deriving DecidableEq, Repr, Inhabited

/-- One mailbox (R220, R226) with the Chanter's service of it: the responses waiting, the
notifications waiting, the assembly of a multi-part request (R234) and the `NOTIFY_SET` mask. -/
structure Mailbox where
  irqEn    : Word
  irq      : Word
  credMark : Word
  resps    : List Resp
  notes    : List Resp
  assembly : Option (BitVec 16 × Word × List Byte × Nat)
  mask     : BitVec 16
  lastAttest : Option (BitVec 64)
  respSince : BitVec 64
  deriving DecidableEq, Repr, Inhabited

/-- The SPI and UART transports (R221 to R223, R227). -/
structure Transport where
  spiReplay : Vector Bool 2
  spiCrcBad : Bool
  spiRefused : Bool
  spiAccepted : Nat
  spiCrcFails : Nat
  spiRefusals : Nat
  spiReplays : Nat
  miso : List Byte
  uartCfg : Word
  uartDisc : Nat
  uartDiscMode : Nat
  uartRefLogged : Bool
  uartTx : List Byte
  poolSticky : Word
  lowWater : Nat
  deriving DecidableEq, Repr, Inhabited

/-! ### Configuration and tenants -/

/-- Shadow states of `CFG_INFO` (R246). -/
inductive Shadow where
  | empty | loading | loaded | verifying | verified | failed | scheduled
  deriving DecidableEq, Repr, Inhabited

/-- A tenant window (R264): vCPU, core, start and length in µs. -/
structure Window where
  vcpu : Nat
  core : Nat
  start : Nat
  len  : Nat
  deriving DecidableEq, Repr, Inhabited

/-- What a `TENANT` record sets (R264). -/
structure TenantCfg where
  enabled : Bool
  free    : Bool
  vcpus   : Nat
  autostart : Bool
  granules : List Nat
  windows : List Window
  faultQ  : Nat
  inboxEven : BitVec 64
  inboxOdd : BitVec 64
  inboxSize : Nat
  faultLimit : Nat
  resetLimit : Nat
  resetWindow : Nat
  deriving DecidableEq, Repr, Inhabited

/-- Tenant states (R272). -/
inductive TState where
  | stopped | starting | running | stopping | resetting
  deriving DecidableEq, Repr, Inhabited

/-- A request of `TENANT_CTRL` whose completion is due (R239): mailbox, client, requester. -/
structure Due where
  mb     : Fin 12
  client : Word
  who    : Byte
  opcode : BitVec 16
  deriving DecidableEq, Repr, Inhabited

/-- What is asserted at the next tick for a tenant (R272). -/
inductive TAssert where
  | none | stop (cause : Nat) | reset (cause : Nat) | start
  deriving DecidableEq, Repr, Inhabited

/-- One tenant (R272 to R276). -/
structure Tenant where
  cfg    : TenantCfg
  state  : TState
  due    : List (Bool × Due)
  next   : TAssert
  pending : Option Bool
  pendingDue : List Due
  stopCause : Nat
  runNext : Bool
  runSince : BitVec 64
  faults : Nat
  autoResets : List (BitVec 64)
  origin : Bool
  trySlot : Bool
  firstAfterReplace : Bool
  replace : Option (BitVec 48 × Bool × Due)
  replacing : Option (Bool × Due)
  extraZero : List Nat
  vcpuIn : List Nat
  givenUp : Bool
  deriving DecidableEq, Repr, Inhabited

/-- What a `SAFETY` record sets (R260, R371), as far as other units need it; the registers are in
`DoubleReed`. -/
structure SafetyCfg where
  present : Bool
  ctrl    : Word
  window  : Word
  budget  : Vector Word 2
  entry   : Vector Word 2
  size    : Vector Word 2
  faultQ  : Nat
  taskOf  : List (Fin 40 × Fin 2)
  qTaskOf : List (Fin 256 × Fin 2)
  deriving DecidableEq, Repr, Inhabited

/-- A `CHANNEL` record body (R261). -/
structure ChanCfg where
  owner   : Initiator
  paired  : Bool
  roGrant : Word
  cmdGrant : Word
  start   : Word × Word × Word
  regs    : List Word
  deriving DecidableEq, Repr, Inhabited

/-- A `KERNEL` record body (R260). -/
structure KernelCfg where
  holdTime : Word
  coreHold : Word
  route : Word
  motCfg : Word
  di : List Word
  di2 : List Word
  ai : List Word
  deriving DecidableEq, Repr, Inhabited

/-- A `VIEW` record body (R78, R92). -/
structure ViewCfg where
  base : BitVec 64
  size : Nat
  filter : Word
  deriving DecidableEq, Repr, Inhabited

/-- One extract of a gather list (R45): from the snapshot or the inputs. -/
inductive Extract where
  | channel (c : Fin 40) | di (d : Fin 32) | ai (a : Fin 16) | motion | canObj (b : Fin 6) (j : Fin 256)
  deriving DecidableEq, Repr, Inhabited

/-- A `CAN` record body: the image-set registers of R329 and R351. -/
structure CanCfg where
  ctrl : Word
  nbt : Word
  dbt : Word
  tdc : Word
  timeouts : Word
  tref : Word
  trefId : Word
  qmap : Vector Word 10
  txo : List (Word × Word)
  rxo : List (Word × Word)
  nmCtrl : Word
  nmTimes : Word
  nmKa : Word
  nmWakeT : Word
  filters : List (List Word)
  deriving DecidableEq, Repr, Inhabited

/-- A `SWITCH` port record body: the image-set registers of R309 and the gate list of R310. -/
structure PortCfg where
  cfg : Word
  pcpMap : Word
  qcfg : List Word
  mtr0 : Word
  mtr1 : Word
  msMode : Nat
  gclCtrl : Word
  gcl : List (Word × Word)
  deriving DecidableEq, Repr, Inhabited

/-- The `SWITCH` core record: the image-set tables of R308 and R310. -/
structure SwitchCfg where
  fdbAge : Word
  ageMax : Word
  stamps : List (Word × Word)
  red : List (Word × Word)
  meters : List (Word × Word × Word × Word)
  frer : List (Word × Word × Word)
  vlans : List (Nat × Word)
  statics : List (BitVec 48 × Nat × Word)
  deriving DecidableEq, Repr, Inhabited

/-- One decoded configuration image (R259, R260). -/
structure Image where
  id       : Word
  dataFormat : Nat
  breathLen : Nat
  guard    : Nat
  ovrLimit : Nat
  cmdMax   : Nat
  recCtrl  : Word
  chFaultQ : Nat
  tenants  : List (Nat × TenantCfg)
  safety   : SafetyCfg
  kernels  : List (Nat × KernelCfg)
  channels : List (Nat × ChanCfg)
  queues   : List (Nat × Word × Word × Word)
  views    : List (Nat × ViewCfg)
  gathers  : List (Nat × List Extract)
  timebase : Option (List Word)
  log      : Option (Nat × Nat × Nat)
  cans     : List (Nat × CanCfg)
  ports    : List (Nat × PortCfg)
  switch   : Option SwitchCfg
  nmGlobal : Option (Word × Word × Word)
  deriving DecidableEq, Repr, Inhabited

/-- The configuration service (R246, R247, R262 to R271). -/
structure CfgSvc where
  activeSlot : Bool
  activeId : Word
  active   : Option Image
  prevId   : Option Word
  shadow   : Shadow
  shadowId : Word
  shadowLen : Nat
  shadowDigest : BitVec 512
  loaded   : Nat
  verifyDue : Option Due
  swapBn   : Option (BitVec 48)
  swapImage : Option Image
  swapDue  : Option Due
  swapFlag : Bool
  gathers  : List (Nat × List Extract)
  deriving DecidableEq, Repr, Inhabited

/-- A command of kind B carried into a later breath or a scheduled mode transition (R390). -/
structure ModeSched where
  target : Mode
  cause  : Nat
  at_    : BitVec 48
  rank   : Nat
  due    : Option Due
  deriving DecidableEq, Repr, Inhabited

/-! ### The safety program -/

/-- Where a task's passes are in the breath (R365). -/
inductive Pass where
  | idle | inA | betweenAB | inB | ended
  deriving DecidableEq, Repr, Inhabited

/-- One task of the double-reed unit (R362, R371). -/
structure Task where
  pass    : Pass
  doneA   : Bool
  doneB   : Bool
  verified : Bool
  capA    : List Captured
  capB    : List Captured
  budget  : Word
  entry   : Word
  size    : Word
  last    : Word
  max     : Word
  sigA    : BitVec 64
  sigB    : BitVec 64
  outcome : Nat
  consec  : Nat
  mcause  : Byte
  trapB   : Bool
  trapPc  : Word
  divs    : Nat
  counted : Bool
  deriving DecidableEq, Repr, Inhabited

/-- The double-reed unit (R354 to R372). -/
structure DoubleReed where
  present : Bool
  run     : Bool
  debugOn : Byte
  debugSince : BitVec 64
  givenUp : Bool
  resetting : Bool
  failed  : Vector Bool 2
  ctrl    : Word
  verifiedBn : BitVec 48
  sticky  : Word
  checks  : Nat
  blocksBad : Nat
  nextBlock : Nat
  window  : Word
  slice   : Nat
  lastBad : Nat
  cycles  : Nat
  resets  : List (BitVec 64)
  assertReset : Option Nat
  fenceRunning : Bool
  fbUntilVerified : Bool
  origin  : Bool
  originNow : Bool
  tasks   : Vector Task 2
  chanTask : List (Fin 40 × Fin 2)
  queueTask : List (Fin 256 × Fin 2)
  deriving DecidableEq, Repr, Inhabited

/-! ### Reset, power and modes -/

/-- Clock gating states of a block (R379). -/
inductive BlkState where
  | inReset | pending | running | fail
  deriving DecidableEq, Repr, Inhabited

/-- Reach of a reset (R373). -/
inductive Reach where
  | c | s | p
  deriving DecidableEq, Repr, Inhabited

/-- The reset and clock block, power block and general I/O (R374 to R399). -/
structure Rcc where
  cause    : Word
  causePrev : Word
  relDt    : BitVec 64
  episode  : Option Reach
  fromE1   : Bool
  asserted : BitVec 16
  seen     : BitVec 16
  step     : Nat
  holding  : Bool
  recorded : Option Reach
  mode     : Mode
  prevMode : Mode
  modeCause : Nat
  entryBn  : BitVec 48
  entryDt  : BitVec 64
  sched    : Option ModeSched
  clkSrc   : Word
  wdtCfg   : Word
  wdtStart : BitVec 64
  wdtLast  : Option (BitVec 64)
  blkState : Vector BlkState 11
  blkGood  : Vector Nat 11
  blkDev   : Vector (BitVec 16) 11
  pmFails  : List (BitVec 64)
  resetDue : Option Bool
  lockFlag : Bool
  bootTamper : Nat
  sleepStep : Nat
  sleepFrom : Mode
  vholdOk  : Bool
  feedA    : Bool
  feedB    : Bool
  feedALow : Bool
  feedBLow : Bool
  vbat     : Word
  vhold    : Word
  pwrCore  : Word
  holdCfg  : Word
  sleepCtrl : Word
  updThresh : Word
  holdLast : Word
  pwrSticky : Word
  holdup   : Bool
  holdupDone : Bool
  feedBack : Bool
  vka      : Bool
  vioA     : Bool
  vioB     : Bool
  powered  : Bool
  straps   : Word
  bootSel  : BitVec 3
  gpioFault : Word
  resetoutLow : Bool
  nPoreset : Bool
  nSysreset : Bool
  deriving DecidableEq, Repr, Inhabited

/-! ### Networks -/

/-- One receive object (R316 to R318). -/
structure RxObj where
  cfg   : Word
  cfg2  : Word
  isNew : Bool
  lost  : Bool
  overwrites : Nat
  frame : Option CanFrame
  sofDt : BitVec 64
  deriving DecidableEq, Repr, Inhabited

/-- One transmit object (R320, R325). -/
structure TxObj where
  cfg   : Word
  cfg2  : Word
  coll  : Nat
  withdrawn : Bool
  conflictDt : Option (BitVec 64)
  deriving DecidableEq, Repr, Inhabited

/-- One transmit FIFO entry (R321). -/
structure TxEntry where
  obj   : Fin 64
  who   : Initiator
  frame : CanFrame
  report : Bool
  since : BitVec 64
  deriving DecidableEq, Repr, Inhabited

/-- Controller states of `CAN_STATUS` (R329). -/
inductive CanState where
  | active | passive | busOff | stopped | asleep
  deriving DecidableEq, Repr, Inhabited

/-- One CAN controller (R312 to R329). -/
structure Can where
  state  : CanState
  alone  : Bool
  aloneDt : BitVec 64
  boffWait : Bool
  boffDt : BitVec 64
  tec    : Nat
  recCnt : Nat
  unack  : Nat
  ctrl   : Word
  nbt    : Word
  dbt    : Word
  tdc    : Word
  tdcv   : Word
  timeouts : Word
  tref   : Word
  trefId : Word
  trefSeq : BitVec 16
  trefSkip : Nat
  trefSlot : Option (Bool × BitVec 64 × BitVec 16)
  trefStart : BitVec 64
  rxFrames : Word
  txFrames : Word
  errFrames : Nat
  rxOther : Nat
  rxRemote : Nat
  txAged : Nat
  txDrop : Nat
  agedNew : Nat
  agedDt : Option (BitVec 64)
  lost   : Nat
  lastErr : Word
  sticky : Word
  conflict : Word
  conflicts : Nat
  qmap   : Vector Word 10
  fifo   : List TxEntry
  sending : Option CanSlot
  fifoHeld : Bool
  txo    : Vector TxObj 64
  rxo    : Vector RxObj 256
  frozen : Vector RxObj 256
  deriving DecidableEq, Repr, Inhabited

/-- Network-management states (R331). -/
inductive NmState where
  | off | forming | ring | keepalive | settle | asleep
  deriving DecidableEq, Repr, Inhabited

/-- A network-management frame as R334 lays it out. -/
structure NmFrame where
  src   : Nat
  dst   : Nat
  kind  : Nat
  flags : Nat
  round : BitVec 16
  count : Nat
  deriving DecidableEq, Repr, Inhabited

/-- Network management on one bus (R331 to R351). -/
structure Nm where
  ctrl   : Word
  times  : Word
  ka     : Word
  wakeT  : Word
  state  : NmState
  token  : Bool
  armed  : Bool
  present : List Nat
  round  : BitVec 16
  ringSeen : Bool
  expiries : Nat
  confirmers : List (Nat × Bool)
  slot   : Option NmFrame
  inFlight : Option NmFrame
  coll   : Nat
  confirming : Bool
  tokenSent : Bool
  requests : List (Initiator × BitVec 64)
  localHold : Option (BitVec 64)
  serviceReq : Bool
  lastSleepInd : Bool
  hold   : List (Nat × BitVec 64)
  longest : Option (Nat × Nat)
  agreeSeq : BitVec 64
  cntSleep : Nat
  wakeOwn : Nat
  wakeBus : Nat
  falseWakes : Nat
  skips  : Nat
  lastWake : Word
  lastWakeId : Word
  fec    : Nat
  fecLatched : Nat
  sticky : Word
  filters : Vector (Word × Word × Word × Word × Word) 4
  wfCount : Vector (Nat × Nat) 4
  wakeFilter : Option (Fin 4)
  frameWake : Bool
  heardOther : Bool
  awakeSince : BitVec 64
  kaLast : BitVec 64
  deriving DecidableEq, Repr, Inhabited

/-- The module's global network-management page (R352) and wake output. -/
structure NmGlobal where
  maxAwake : Word
  wakeOut  : Word
  timerWake : Word
  wakeSrc  : Word
  localWake : Bool
  pin      : Bool
  pulse    : Bool
  sleepAot : BitVec 48
  deriving DecidableEq, Repr, Inhabited

/-- A forwarding database entry (R291): the port mask is used by static multicast entries. -/
structure Fdb where
  mac  : BitVec 48
  vid  : Nat
  stat : Bool
  mask : Nat
  seen : BitVec 64
  deriving DecidableEq, Repr, Inhabited

/-- A frame in the cell buffer, as queued at one egress port and class (R293, R295). -/
structure QFrame where
  ref   : Nat
  f     : EthFrame
  vid   : Nat
  pcp   : Nat
  dei   : Bool
  colour : Nat
  since : BitVec 64
  stamp : BitVec 64
  inPort : Nat
  tagged : Bool
  verified : Bool
  recovered : Bool
  report : Option (Initiator × Byte)
  deriving DecidableEq, Repr, Inhabited

/-- One switch port (R309). -/
structure Port where
  link   : Bool
  mbps   : Nat
  msUp   : Bool
  msSa   : Bool
  msMode : Nat
  msOut  : Nat
  msOk   : Nat
  msBad  : Nat
  plca   : Bool
  cfg    : Word
  pcpMap : Word
  qcfg   : Vector Word 8
  mtr0   : Word
  mtr1   : Word
  queues : Vector (List QFrame) 8
  avg    : Vector Rat 8
  sending : Option (QFrame × Fin 8 × BitVec 64)
  gateNow : Byte
  gateEntry : Nat
  gateEnd : BitVec 64
  gclCtrl : Word
  gcl    : List (Word × Word)
  gclWait : Bool
  tsCorr : Word
  counters : Vector Nat 10
  latch  : List (Initiator × Fin 10 × Word)
  dropsLogged : Nat
  dropsDt : Option (BitVec 64)
  deriving DecidableEq, Repr, Inhabited

/-- One FRER stream (R302). -/
structure Frer where
  cfg : Word
  daLo : Word
  daHi : Word
  genSeq : BitVec 16
  recSeq : Option (BitVec 16)
  hist : List (BitVec 16)
  dups : Nat
  rogues : Nat
  last : BitVec 64
  deriving DecidableEq, Repr, Inhabited

/-- A flow meter (R297): its registers and buckets in bytes. -/
structure Meter where
  cir : Word
  eir : Word
  cbs : Word
  ebs : Word
  c   : Nat
  e   : Nat
  dt  : BitVec 64
  deriving DecidableEq, Repr, Inhabited

/-- The Ethernet switch core (R284 to R310). -/
structure Switch where
  running : Bool
  noSerdes : Bool
  used    : Nat
  minFree : Nat
  sharedUsed : Nat
  nextRef : Nat
  refs    : List (Nat × Nat × Nat × Nat)
  fdb     : List Fdb
  fdbAge  : Word
  ageMax  : Word
  sticky  : Word
  macLo   : Word
  macHi   : Word
  cmd     : Nat
  busy    : Bool
  result  : Word
  mdioAddr : Word
  mdioData : Word
  mdioBusy : Bool
  stamps  : Vector (Word × Word) 16
  stampDt : List (Fin 16 × BitVec 64)
  red     : Vector (Word × Word) 24
  lfsr    : Word
  meters  : List (Nat × Meter)
  frer    : Vector Frer 64
  vlans   : List (Nat × Word)
  fdbFullNew : Nat
  fdbFullDt : Option (BitVec 64)
  staticMoveDt : Option (BitVec 64)
  ports   : Vector Port 13
  deriving DecidableEq, Repr, Inhabited

/-! ### Security -/

/-- Husk states (R406). -/
inductive HuskState where
  | sealed | available | unavailable | locked
  deriving DecidableEq, Repr, Inhabited

/-- One Husk slot (R407): the key material never appears; `pub` holds a public key where there is one. -/
structure Slot where
  gen   : Nat
  used  : Bool
  type  : Nat
  role  : Nat
  injected : Bool
  derived : Bool
  cached : Bool
  grant : Nat
  key   : List Byte
  deriving DecidableEq, Repr, Inhabited

/-- A key update on its way (R415). -/
structure KeyUpd where
  due    : Due
  counter : BitVec 63
  digest : BitVec 512
  slots  : Vector Slot 64
  epochs : Nat × Nat
  handles : List (BitVec 16)
  unwraps : Bool
  deriving DecidableEq, Repr, Inhabited

/-- A management session (R419, R420). -/
structure Session where
  id     : Word
  rxTop  : BitVec 64
  rxSeen : List (BitVec 64)
  rxCount : Nat
  txCount : Nat
  lastDt : BitVec 64
  openDt : BitVec 64
  keyIn  : List Byte
  keyOut : List Byte
  port   : Nat
  deriving DecidableEq, Repr, Inhabited

/-- The Husk, the crypto engine, the tamper monitor, debug access and management sessions (ch. 16). -/
structure Security where
  husk    : HuskState
  cl1Hold : Bool
  lc      : Nat
  gen     : Nat
  lcPending : Option (Nat × Nat)
  kuCnt   : BitVec 63
  kuHalf  : Bool
  kuDigest : BitVec 512
  receipt : List Byte
  ctlCnt  : BitVec 64
  dbgCnt  : BitVec 64
  epochAtt : Nat
  epochSeal : Nat
  ownerLock : Bool
  slots   : Vector Slot 64
  ku      : Option KeyUpd
  debugScope : BitVec 10
  debugEnd : BitVec 64
  certId  : List Byte
  certAtt : List Byte
  cryCtrl : Word
  cryRing : Word
  crySize : Word
  cryHead : Word
  cryTail : Nat
  entropyOk : Bool
  crySticky : Word
  entRep  : Nat
  entProp : Nat
  tmpStatus : Word
  tmpCtrl : Word
  tmpLast : Word
  tmpLastAot : BitVec 48
  tmpPending : Nat
  tmpSticky : Word
  class1  : List (BitVec 48)
  class2Now : Bool
  session : Option Session
  challenge : Option (Word × List Byte × List Byte)
  failedHs : List (BitVec 64)
  badDatagrams : Nat
  hsBlockUntil : Option (BitVec 64)
  sent    : List (List Byte)
  deriving DecidableEq, Repr, Inhabited

/-! ### Update and persistence -/

/-- Slot states of the boot header (R437). -/
inductive ImgState where
  | invalid | receiving | verified | active | trial | previous
  deriving DecidableEq, Repr, Inhabited

/-- What the boot header keeps of one slot of one component (R437): the manifest's fields. -/
structure ImgSlot where
  state  : ImgState
  major  : Nat
  minor  : Nat
  patch  : Nat
  format : Nat
  secVer : Nat
  len    : Nat
  digest : BitVec 512
  entry  : Word
  deriving DecidableEq, Repr, Inhabited

/-- One component (R433): its two slots, its counter, its stored data format and its trial; `revert` says that a failed
trial gives way at the next episode (R443). -/
structure Component where
  a      : ImgSlot
  b      : ImgSlot
  runB   : Bool
  counter : Nat
  format : Nat
  pendingAct : Bool
  revert  : Bool
  trialStarts : Nat
  trialSince : BitVec 64
  deriving DecidableEq, Repr, Inhabited

/-- Update states of `UPD_STATUS` (R441). -/
inductive UpdState where
  | idle | receiving | verifying | verified | scheduled | migrating
  deriving DecidableEq, Repr, Inhabited

/-- A journal item (R460, R462): its newest committed record and the one before it, each with the byte
offset it was written at. -/
structure JItem where
  id      : BitVec 16
  cur     : List Byte
  curOff  : Nat
  prev    : Option (List Byte × Nat)
  deriving DecidableEq, Repr, Inhabited

/-- What the journal and the channels' saved states held when a migration began (R444, R445). -/
structure Held where
  journal : List JItem
  wire    : List (Option (Rat × Rat × BitVec 48 × List Word))
  energy  : List (Option (BitVec 64 × Nat × Nat × BitVec 64))
  deriving DecidableEq, Repr, Inhabited

/-- The update service and recovery (ch. 17). `held` keeps what the journal and the channels' saved states held when a
migration began, which a failed trial restores (R445). -/
structure Update where
  state  : UpdState
  comp   : Nat
  received : Nat
  imgLen : Nat
  refusal : Nat
  due    : Option Due
  target : Option (BitVec 48)
  comps  : Vector Component 13
  bootA  : Bool
  bootB  : Bool
  bootGen : Nat
  held     : Option Held
  recHost : Option (BitVec 48)
  recLast : Option (Word × List (List Byte))
  recSegs : List (Nat × List Byte)
  recMsg : Option (Word × Nat)
  deriving DecidableEq, Repr, Inhabited

/-- The NVM controller (R454 to R471). -/
structure Nvm where
  scanning : Bool
  scrub    : Bool
  corr     : Nat
  uncorr   : Nat
  errAddr  : Word
  scrubLast : BitVec 64
  scrubProg : Nat
  scrubCorr : Nat
  remapCode : List Word
  remapData : List Word
  prevCorr : List Word
  head     : Nat
  txn      : BitVec 64
  journal  : List JItem
  jrnUsed  : Nat
  epoch    : Nat
  exhausted : Bool
  counters : List (Nat × List (BitVec 64 × Nat × Nat))
  sticky   : Word
  memCorrS : Nat
  memCorrD : Nat
  memUncS  : Nat
  memUncD  : Nat
  memErrAddr : Word
  badWords : List Word
  torn     : Bool
  deriving DecidableEq, Repr, Inhabited

/-- Everything of the module but the queue of waiting commands and the byte-addressed memories. -/
structure Blk where
  variant : Variant
  uid     : BitVec 128
  rev     : Word
  absentLogged : List UnitName
  reply   : Reply
  freeCtr : Nat
  breath  : Breath
  time    : TimeBase
  evs     : Evs
  chans   : Vector Channel 40
  kernels : Vector Kernel 4
  motion  : Motion
  bridges : Vector Bridge 4
  slots   : Vector InitSlot 10
  senseDrive : Vector (Option (Fin 40)) 4
  senseNext : Vector (Option (Fin 40)) 4
  queues  : Vector Queue 256
  mboxes  : Vector Mailbox 12
  trans   : Transport
  cfg     : CfgSvc
  tenants : Vector Tenant 8
  dr      : DoubleReed
  rcc     : Rcc
  cans    : Vector Can 6
  nms     : Vector Nm 6
  nmg     : NmGlobal
  sw      : Switch
  sec     : Security
  upd     : Update
  nvm     : Nvm
  deriving DecidableEq, Repr, Inhabited

/-! ### Reset values

Every value is the Reset column of the register table that names it, or is marked in the log entry named. -/

/-- A channel page at reset (R128, R158); `m` is its local number. -/
def Channel.reset (m : Nat) : Channel :=
  let sh : ShadowSet := { cmd := 0, pwm := 0x3E8, ramp := 0, slew := 1 }
  { (default : Channel) with
    owner := .chanter, shadow := sh, applied := sh, actions := 0x40, fallbackPwm := 0x3E8,
    wmCtrl := 0x00554101, wmRho := if m < 2 then 0x10CC else if m < 6 then 0x2CCB else 0x5995,
    wmRth := 0x177007D0, wmTau := 0x0384012C, wmLim := 0x000A0A69, arcCtrl := 0x00191E60,
    arcImin := if m < 2 then 0xFA else if m < 6 then 0x64 else 0x1E,
    limit := if m < 2 then 0xFA0 else if m < 6 then 0x640 else 0x1F4, limTime := 0xC8, inrush := 0x0310000A,
    retry := 0x0008000A, retryTime := 0x003C03E8, therm := 0x496 }

/-- A digital input at reset (R176). -/
def Di.reset : Di := { (default : Di) with cfg := 0x0A1002C9, cfg2 := 0x708, firstEdge := 0xFFFF, lastEdge := 0xFFFF }

/-- A kernel at reset: unpowered until KERNEL_POWER_UP; the allowance starts full (R155). -/
def Kernel.reset : Kernel :=
  { (default : Kernel) with
    holdTime := 0x64, coreHold := 0x64, allowance := 3600, vbatMin := 0xFFFF,
    dis := Vector.replicate 8 Di.reset,
    ais := Vector.replicate 4 { (default : Ai) with cfg := 0x0D6B0FA0 } }

/-- A CAN controller at reset (R329). -/
def Can.reset : Can :=
  { (default : Can) with
    state := .stopped, ctrl := 0xA, nbt := 0x0F9F7E00, dbt := 0x07071E00, tdc := 0x8020, timeouts := 0x006403E8,
    tref := 0x2800, trefId := 0x00010000 }

/-- Network management of a bus at reset (R351). -/
def Nm.reset : Nm :=
  { (default : Nm) with ctrl := 0x05000202, times := 0x0C841064, ka := 0x003203E8, wakeT := 0x000A07D0 }

/-- Port `p` of the switch at reset (R309); the timestamp corrections are fused. -/
def Port.reset (p : Nat) : Port :=
  { (default : Port) with
    tsCorr := Config.tsCorr p, cfg := 0x00018001, pcpMap := 0x00FAC681, qcfg := Vector.replicate 8 0x4010,
    mtr0 := 0xFFFFFFFF, mtr1 := 0xFFFFFFFF, gclCtrl := 0x00FF0102, gateNow := 0xFF }

/-- The switch core at reset (R308): 32,768 free cells. -/
def Switch.reset : Switch :=
  { (default : Switch) with
    minFree := 0x8000, fdbAge := 0x12C, ageMax := 0x1F4, lfsr := Config.lfsrSeed,
    frer := Vector.replicate 64 { (default : Frer) with daHi := 0x00640000 },
    ports := Vector.ofFn fun p => Port.reset p.val }

/-- The sequencer and log before any record (R82, R84, R91). -/
def Evs.reset (uid : BitVec 128) : Evs :=
  let uidBytes : List Byte := (List.range 16).map (fun i => BitVec.ofNat 8 (uid.toNat / 256 ^ i))
  let label : List Byte := [0x4C, 0x55, 0x4D, 0x4E, 0x45, 0x4C, 0x2D]
  let c := Config.sha3 (label ++ [0x4C, 0x4F, 0x47] ++ uidBytes)
  { (default : Evs) with
    logSev := 1, logRate := 8000, sealPeriod := 60, chain := c, startChain := c,
    pinChain := Config.sha3 (label ++ [0x50, 0x49, 0x4E] ++ uidBytes) }

/-- The whole module at its Reset values, for a variant. Fuses and the UID are the module's own. -/
def Blk.powerUp (v : Variant) (uid : BitVec 128) (rev : Word) : Blk :=
  { (default : Blk) with
    variant := v, uid := uid, rev := rev,
    breath := { (default : Breath) with len := 250, guard := 30, lenInUse := 250, ovrLimit := 8, cmdMax := 32 },
    time := { (default : TimeBase) with slavePort := 0xFF, lastSlave := 0xFF, stepThresh := 0xF4240, slewMax := 0x1F4,
                                        holdover := 0x2710, prio := 0x00F8F8F8, syncInt := 0xFD },
    evs := Evs.reset uid,
    chans := Vector.ofFn fun c => Channel.reset (c.val % 10),
    kernels := Vector.replicate 4 Kernel.reset,
    motion := { (default : Motion) with cfg := 0x1414, notReady := true },
    bridges := Vector.ofFn fun k =>
      { (default : Bridge) with state := if v = .nz820 ∧ 2 ≤ k.val then .absent else .isolated },
    mboxes := Vector.replicate 12 { (default : Mailbox) with credMark := 0x400 },
    trans := { (default : Transport) with uartCfg := 0x1C200, lowWater := 0x4000 },
    dr := { (default : DoubleReed) with ctrl := 0x3300, window := 0xA },
    rcc := { (default : Rcc) with cause := 0x30000001, wdtCfg := 0x64, holdCfg := 0x46, sleepCtrl := 0xA00,
                                  updThresh := 0x28, feedA := true, feedB := true, vka := true, vioA := true,
                                  vioB := true, powered := true, nPoreset := true, nSysreset := true },
    cans := Vector.replicate 6 Can.reset,
    nms := Vector.replicate 6 Nm.reset,
    nmg := { (default : NmGlobal) with maxAwake := 0xF0, wakeOut := 0x003F0A01 },
    sw := Switch.reset,
    sec := { (default : Security) with
      crySize := 4, entropyOk := true, tmpCtrl := 0x3C00, lc := 1,
      slots := (default : Security).slots.set 5 { (default : Slot) with gen := 1, used := true, type := 3, key := Config.lumnelAnchor },
      certId := Config.identityCert [] 1 0, certAtt := Config.attestCert (Config.identityCert [] 1 0) 0 0 },
    nvm := { (default : Nvm) with scanning := true } }

/-- The state: the commands that wait, first in, first out; the bytes of ROM, NVM, SRAM and LPDDR5 (R18)
in canonical form; and the rest of the module. -/
structure State where
  pending : List Instr
  mem     : List Host.Cell
  blk     : Blk
  deriving DecidableEq, Repr, Inhabited

/-- The NZ840 right after a reset of reach P, its always-on region powered, before the start completes: every
register at its Reset value, no command waiting, no memory listed. -/
def State.reset : State := { pending := [], mem := [], blk := Blk.powerUp .nz840 Config.uid Config.sysRev }

end Sys2Proof.Machine
end

