-- ==== Sys2Proof/Machine/Ops.lean ====
section
/-! DEFINITION. The operations every family shares: tables of units, the byte memory in canonical form,
the clock, and the capture of event records (R72 to R77). -/

namespace Sys2Proof.Machine
open Sys2Proof

/-! ### Tables -/

/-- Entry `i` of a table replaced by `f` of it. -/
def vmod {α : Type} {n : Nat} (v : Vector α n) (i : Fin n) (f : α → α) : Vector α n :=
  v.set i.val (f (v.get i)) i.isLt

/-- The numbers below `n`, in order. -/
def upTo (n : Nat) : List (Fin n) := List.finRange n

/-- `f` applied to each number below `n` in order, threading the state. -/
def forAll {α : Type} (n : Nat) (f : α → Fin n → α) (a : α) : α := (upTo n).foldl f a

/-- Entry for a key in an association list. -/
def findKey {κ α : Type} [DecidableEq κ] (l : List (κ × α)) (k : κ) : Option α :=
  (l.find? (fun p => p.1 = k)).map (·.2)

/-- Association list with `k` mapped to `v`. -/
def setKey {κ α : Type} [DecidableEq κ] (l : List (κ × α)) (k : κ) (v : α) : List (κ × α) :=
  (k, v) :: l.filter (fun p => p.1 ≠ k)

/-- `x` put into a collection without repeats. -/
def addOnce {α : Type} [DecidableEq α] (l : List α) (x : α) : List α := if x ∈ l then l else l ++ [x]

/-! ### Memory (R18): ROM, NVM, SRAM and LPDDR5 as one list of cells

Addresses strictly rise and no listed cell holds what an unlisted address reads as. -/

/-- The byte memories. -/
abbrev Mem := List Host.Cell

/-- What an address that nothing has written reads as. DESIGN CHOICE, log entry 2. -/
def unlisted : Byte := 0

/-- Canonical form. -/
def Mem.wf : Mem → Bool
  | [] => true
  | [c] => decide (c.2 ≠ unlisted)
  | c :: d :: t => decide (c.2 ≠ unlisted) && decide (c.1 < d.1) && Mem.wf (d :: t)

/-- Reading one byte. -/
def Mem.read : Mem → Nat → Byte
  | [], _ => unlisted
  | (a', v) :: t, a => if a = a' then v else Mem.read t a

/-- Writing one byte, keeping the canonical form. -/
def Mem.write : Mem → Nat → Byte → Mem
  | [], a, v => if v = unlisted then [] else [(a, v)]
  | (a', v') :: t, a, v =>
    if a < a' then (if v = unlisted then (a', v') :: t else (a, v) :: (a', v') :: t)
    else if a = a' then (if v = unlisted then t else (a, v) :: t)
    else (a', v') :: Mem.write t a v

/-- Whether an address holds a byte that the device writes: NVM, SRAM or LPDDR5 (R18). -/
def writable (a : Nat) : Bool :=
  (0x08000000 ≤ a && a < 0x0C800000) || (0x10000000 ≤ a && a < 0x11000000)
    || (0x80000000 ≤ a && a < 0x100000000)

/-- Writing bytes from an address on; bytes that fall outside the writable memories are dropped. -/
def Mem.writeBytes (m : Mem) : Nat → List Byte → Mem
  | _, [] => m
  | a, b :: bs => Mem.writeBytes (if writable a then m.write a b else m) (a + 1) bs

/-- `n` bytes from an address on. -/
def Mem.readBytes (m : Mem) (a : Nat) : Nat → List Byte
  | 0 => []
  | n + 1 => m.read a :: Mem.readBytes m (a + 1) n

/-- Whether an address is one of the `n` from `a` on that the device may write. -/
def clears (a n x : Nat) : Bool := decide (a ≤ x) && decide (x < a + n) && writable x

/-- The `n` bytes from `a` on zeroed: no cell is listed there, since an unlisted address reads as zero. -/
def Mem.clear (m : Mem) (a n : Nat) : Mem := m.filter (fun c => !clears a n c.1)

/-- A store that a command makes: bytes from an address on, or a range zeroed. -/
inductive Store where
  | put (a : Nat) (l : List Byte) | clear (a n : Nat)
  deriving DecidableEq, Repr

/-- Whether a store covers an address. -/
def Store.hits (a : Nat) : Store → Bool
  | .put p l => decide (p ≤ a ∧ a < p + l.length)
  | .clear p n => decide (p ≤ a ∧ a < p + n)

/-- One store carried out. -/
def Mem.store (m : Mem) : Store → Mem
  | .put a l => m.writeBytes a l
  | .clear a n => m.clear a n

/-- Stores carried out in order. -/
def Mem.stores (m : Mem) (l : List Store) : Mem := l.foldl Mem.store m

/-- A command that changes no memory. -/
def State.onBlk (s : State) (f : Blk → Blk) : State := { s with blk := f s.blk }

/-- Whether a store covers part of a word of SRAM or LPDDR5. -/
def Store.touches (a : Word) : Store → Bool
  | .put p l => decide (0x10000000 ≤ a.toNat ∧ p < a.toNat + 8 ∧ a.toNat < p + l.length)
  | .clear p n => decide (0x10000000 ≤ a.toNat ∧ p < a.toNat + 8 ∧ a.toNat < p + n)

/-- An uncorrectable word of SRAM or LPDDR5 stays so until it is written (R459). -/
def Blk.heal (b : Blk) (l : List Store) : Blk :=
  { b with nvm := { b.nvm with badWords := b.nvm.badWords.filter fun a => !l.any (Store.touches a) } }

/-- A command that reads memory and may store into it. -/
def State.onMem (s : State) (f : Mem → Blk → Blk × List Store) : State :=
  { s with blk := (f s.mem s.blk).1.heal (f s.mem s.blk).2, mem := Mem.stores s.mem (f s.mem s.blk).2 }

/-- The outcome type of a meaning. -/
abbrev Res := Host.Outcome State Fault Refusal

/-! ### Free values -/

/-- Advances the counter that names the next free value (log entry 3). -/
def Blk.fresh (b : Blk) : Nat × Blk := (b.freeCtr, { b with freeCtr := b.freeCtr + 1 })

/-! ### Units -/

/-- The kernel of a channel (R13). -/
def kOf (c : Fin 40) : Fin 4 := ⟨c.val / 10, by omega⟩
/-- The local number of a channel in its kernel. -/
def nOf (c : Fin 40) : Fin 10 := ⟨c.val % 10, by omega⟩
/-- Channel `n` of kernel `k` (R13). -/
def chanOf (k : Fin 4) (n : Fin 10) : Fin 40 := ⟨10 * k.val + n.val, by omega⟩
/-- The channels of a kernel. -/
def chansOf (k : Fin 4) : List (Fin 40) := (upTo 10).map (chanOf k)
/-- The kernel of a digital input (R13). -/
def kOfDi (d : Fin 32) : Fin 4 := ⟨d.val / 8, by omega⟩
/-- The local number of a digital input. -/
def nOfDi (d : Fin 32) : Fin 8 := ⟨d.val % 8, by omega⟩
/-- Input `n` of kernel `k` (R13). -/
def diOf (k : Fin 4) (n : Fin 8) : Fin 32 := ⟨8 * k.val + n.val, by omega⟩

/-- Channel classes (R93): local numbers 0 and 1 are H, 2 to 5 M, 6 to 9 L. -/
inductive ChClass where
  | h | m | l
  deriving DecidableEq, Repr

/-- The class of a channel. -/
def classOf (c : Fin 40) : ChClass := if c.val % 10 < 2 then .h else if c.val % 10 < 6 then .m else .l

/-- A channel of the block. -/
def Blk.ch (b : Blk) (c : Fin 40) : Channel := b.chans.get c
/-- One channel changed. -/
def Blk.modCh (b : Blk) (c : Fin 40) (f : Channel → Channel) : Blk :=
  { b with chans := vmod b.chans c f }
/-- A kernel of the block. -/
def Blk.kn (b : Blk) (k : Fin 4) : Kernel := b.kernels.get k
/-- One kernel changed. -/
def Blk.modK (b : Blk) (k : Fin 4) (f : Kernel → Kernel) : Blk :=
  { b with kernels := vmod b.kernels k f }
/-- A kernel's boundary changed. -/
def Blk.modBr (b : Blk) (k : Fin 4) (f : Bridge → Bridge) : Blk :=
  { b with bridges := vmod b.bridges k f }
/-- One pod queue changed. -/
def Blk.modQ (b : Blk) (q : Fin 256) (f : Queue → Queue) : Blk := { b with queues := vmod b.queues q f }
/-- One mailbox changed. -/
def Blk.modMb (b : Blk) (m : Fin 12) (f : Mailbox → Mailbox) : Blk := { b with mboxes := vmod b.mboxes m f }
/-- One tenant changed. -/
def Blk.modT (b : Blk) (t : Fin 8) (f : Tenant → Tenant) : Blk := { b with tenants := vmod b.tenants t f }
/-- One CAN controller changed. -/
def Blk.modCan (b : Blk) (c : Fin 6) (f : Can → Can) : Blk := { b with cans := vmod b.cans c f }
/-- One network-management bus changed. -/
def Blk.modNm (b : Blk) (c : Fin 6) (f : Nm → Nm) : Blk := { b with nms := vmod b.nms c f }
/-- One switch port changed. -/
def Blk.modPort (b : Blk) (p : Fin 13) (f : Port → Port) : Blk :=
  { b with sw := { b.sw with ports := vmod b.sw.ports p f } }
/-- The bellows changed. -/
def Blk.onBre (b : Blk) (f : Breath → Breath) : Blk := { b with breath := f b.breath }
/-- The sequencer changed. -/
def Blk.onEvs (b : Blk) (f : Evs → Evs) : Blk := { b with evs := f b.evs }
/-- The time base changed. -/
def Blk.onTb (b : Blk) (f : TimeBase → TimeBase) : Blk := { b with time := f b.time }
/-- The reset and clock unit changed. -/
def Blk.onRcc (b : Blk) (f : Rcc → Rcc) : Blk := { b with rcc := f b.rcc }
/-- The security unit changed. -/
def Blk.onSec (b : Blk) (f : Security → Security) : Blk := { b with sec := f b.sec }
/-- The double-reed unit changed. -/
def Blk.onDr (b : Blk) (f : DoubleReed → DoubleReed) : Blk := { b with dr := f b.dr }
/-- The NVM controller changed. -/
def Blk.onNvm (b : Blk) (f : Nvm → Nvm) : Blk := { b with nvm := f b.nvm }
/-- The update service changed. -/
def Blk.onUpd (b : Blk) (f : Update → Update) : Blk := { b with upd := f b.upd }
/-- The switch changed. -/
def Blk.onSw (b : Blk) (f : Switch → Switch) : Blk := { b with sw := f b.sw }
/-- The configuration service changed. -/
def Blk.onCfg (b : Blk) (f : CfgSvc → CfgSvc) : Blk := { b with cfg := f b.cfg }

/-- Device time now (R65). -/
def Blk.dt (b : Blk) : BitVec 64 := b.time.dt

/-- Nanoseconds of device time since `t0`. -/
def Blk.since (b : Blk) (t0 : BitVec 64) : Nat := b.time.dt.toNat - t0.toNat

/-! ### Variants (R5, R22) -/

/-- Whether kernel `k` exists on the variant. -/
def Blk.hasKernel (b : Blk) (k : Fin 4) : Bool := b.variant ≠ .nz820 || k.val < 2
/-- Whether channel `c` exists on the variant. -/
def Blk.hasChan (b : Blk) (c : Fin 40) : Bool := b.hasKernel (kOf c)
/-- Whether tenant `t` exists on the variant. -/
def Blk.hasTenant (b : Blk) (t : Fin 8) : Bool := b.variant ≠ .nz820 || t.val < 4
/-- Whether the variant is the full NZ840 (uplinks, MACsec, arc detection, live service). -/
def Blk.full (b : Blk) : Bool := b.variant = .nz840

/-- `SYS_CAPS` (R22). -/
def Blk.caps (b : Blk) : Word :=
  mkWord [if b.variant = .nz820 then 0x3 else 0xF, fld (if b.full then 4 else 2) 3 4,
    fld (if b.variant = .nz820 then 4 else 8) 4 8, fld (b2n b.full) 1 12, fld (b2n b.full) 1 13,
    fld (b2n b.full) 1 14, fld (b2n b.full) 1 15, fld 6 3 16,
    fld (match b.variant with | .nz840 => 1 | .nz830 => 2 | .nz820 => 3) 4 20]

/-! ### SRC values (R77) -/

/-- SRC of a class and instance. -/
def srcOf (cls inst : Nat) : BitVec 16 := BitVec.ofNat 16 (cls * 4096 + inst)
/-- SRC of a channel. -/
def srcCh (c : Fin 40) : BitVec 16 := srcOf 1 c.val
/-- SRC of a kernel. -/
def srcK (k : Fin 4) : BitVec 16 := srcOf 2 k.val
/-- SRC of a kernel's bridge. -/
def srcBr (k : Fin 4) : BitVec 16 := srcOf 7 k.val

/-! ### Event capture (R72 to R77) -/

/-- The TENANT byte of hardware (R14). -/
def hw : Byte := 0xFF

/-- The TENANT byte of an initiator (R14). -/
def idByte (i : Initiator) : Byte := BitVec.ofNat 8 i.id

/-- A number cut to a record's ARG. -/
def arg32 (n : Nat) : Word := BitVec.ofNat 32 n

/-- A signed number as a saturating ARG. -/
def argInt (i : Int) : Word :=
  BitVec.ofInt 32 (if i > 0x7FFFFFFF then 0x7FFFFFFF else if i < -0x80000000 then -0x80000000 else i)

/-- Pinning by severity and class (R84). -/
def pinRule (src : BitVec 16) (sev : Nat) : Bool :=
  sev = 4 || ((src.toNat / 4096 = 9 || src.toNat / 4096 = 10) && sev ≥ 2)

/-- Whether a record that an initiator causes carries NONDET: a tenant in free mode (R48), the safety program
under debug (R370). -/
def Blk.freeMode (b : Blk) (tenant : Byte) : Bool :=
  (tenant.toNat < 8 && b.breath.modeSel.toNat.testBit tenant.toNat) || (tenant = 0x10 && b.dr.debugOn ≠ 0)

/-- The record a source captures now. NONDET is R48's flag. -/
def Blk.capture (b : Blk) (src : BitVec 16) (code sev : Nat) (arg : Word) (tenant : Byte) (flags : Nat)
    (pin : Bool) : PRec :=
  { dt := b.time.dt, src := src, code := BitVec.ofNat 16 code, tenant := tenant,
    sev := BitVec.ofNat 3 sev, flags := BitVec.ofNat 8 (flags + if b.freeMode tenant then 8 else 0),
    arg := arg, pinned := pin || pinRule src sev }

/-- Records a shell source holds while they wait for a grant (R74). -/
def shellBuffer : Nat := 32
/-- Records a kernel holds (R74). -/
def kernelBuffer : Nat := 256

/-- How many records of a source wait for a grant. -/
def Blk.waiting (b : Blk) (src : BitVec 16) : Nat := (b.evs.queue.filter (fun p => p.src = src)).length

/-- The EVENTS_LOST record of R80 and R74. -/
def Blk.lostRec (b : Blk) (src : BitVec 16) (tenant : Byte) (n : Nat) : PRec :=
  { dt := b.time.dt, src := src, code := 0x30, tenant := tenant, sev := 2, flags := 2,
    arg := arg32 (min n 0xFFFFFFFF), pinned := false }

/-- A shell source hands over the record of its lost records once its buffer has room (R74). -/
def Blk.handLost (b : Blk) (src : BitVec 16) : Blk :=
  match findKey b.evs.srcLost src with
  | some n =>
    if b.waiting src < shellBuffer then
      b.onEvs fun e => { e with queue := e.queue ++ [b.lostRec src hw n],
                                srcLost := e.srcLost.filter (fun p => p.1 ≠ src) }
    else b
  | none => b

/-- A captured record arrives at the buffer of its shell source (R74). -/
def Blk.offer (b0 : Blk) (p : PRec) : Blk :=
  let b := b0.handLost p.src
  if b.waiting p.src < shellBuffer then b.onEvs fun e => { e with queue := e.queue ++ [p] }
  else b.onEvs fun e =>
    { e with srcLost := setKey e.srcLost p.src (satInc ((findKey e.srcLost p.src).getD 0) 0xFFFFFFFF) }

/-- A shell unit logs an event. -/
def Blk.ev (b : Blk) (src : BitVec 16) (code sev : Nat) (arg : Word) (tenant : Byte := hw)
    (pin : Bool := false) (flags : Nat := 0) : Blk :=
  b.offer (b.capture src code sev arg tenant flags pin)

/-- A kernel captures a record in its own buffer (R74, R193). A record that meets the full buffer is
lost; the record of the lost ones goes ahead of the next record that finds room. -/
def Blk.kev (b : Blk) (k : Fin 4) (src : BitVec 16) (code sev : Nat) (arg : Word) (tenant : Byte := hw)
    (pin : Bool := false) (flags : Nat := 0) : Blk :=
  let p := b.capture src code sev arg tenant flags pin
  b.modK k fun kn =>
    if kn.bufLost > 0 && kn.buf.length + 1 < kernelBuffer then
      { kn with buf := kn.buf ++ [b.lostRec (srcK k) hw kn.bufLost, p], bufLost := 0 }
    else if kn.bufLost = 0 && kn.buf.length < kernelBuffer then { kn with buf := kn.buf ++ [p] }
    else { kn with bufLost := satInc kn.bufLost 0xFFFFFFFF }

end Sys2Proof.Machine
end

