-- ==== Sys2Proof/Machine/Nvm.lean ====
section
/-! DEFINITION. The NVM controller (chapter *State kept over forty years*): monotonic counters and the
fuse epoch (R464, R465), the state journal (R460 to R463), scrubbing, remapping and uncorrectable words
(R457 to R459, R466), and the meanings of the persistence family. -/

namespace Sys2Proof.Machine
open Sys2Proof

/-- SRC of the NVM controller (R472). -/
def srcNvm : BitVec 16 := srcOf 0xE 0

/-! ### Monotonic counters (R464, R465) -/

/-- Offsets of the SEQ and BN block indexes, the step counter and the tamper counter (R464). -/
def ctrSeq : Nat := 0x0000
def ctrBn : Nat := 0x0200
def ctrStep : Nat := 0x0400
def ctrTamper : Nat := 0x0480
/-- Offset of the anti-rollback counter of tenant `t`. -/
def ctrTenant (t : Nat) : Nat := 0x0500 + t * 0x80
/-- Offsets of the key-update marker copies and the control-marker copies. -/
def ctrKu1 : Nat := 0x0900
def ctrKu2 : Nat := 0x0920
def ctrCtl1 : Nat := 0x0940
def ctrCtl2 : Nat := 0x0960

/-- The guarded counters other than the step counter. -/
def guardedCtrs : List Nat :=
  [ctrTamper] ++ (List.range 8).map ctrTenant ++ [ctrKu1, ctrKu2, ctrCtl1, ctrCtl2]

/-- Slots in a counter's ring; 0 where no counter lies. -/
def ctrSlots (off : Nat) : Nat :=
  if off = ctrSeq ∨ off = ctrBn then 16
  else if off ∈ [ctrKu1, ctrKu2, ctrCtl1, ctrCtl2] then 1
  else if off = ctrStep ∨ off ∈ guardedCtrs then 4 else 0

/-- The written slots of a counter, newest first: value, generation, epoch. -/
def Blk.ctrRing (b : Blk) (off : Nat) : List (BitVec 64 × Nat × Nat) := (findKey b.nvm.counters off).getD []

/-- Whether a slot counts: a guarded one only with epoch E or E + 1 (R465). -/
def Blk.slotValid (b : Blk) (off : Nat) (sl : BitVec 64 × Nat × Nat) : Bool :=
  (off ∉ guardedCtrs && off ≠ ctrStep) || sl.2.2 = b.nvm.epoch || sl.2.2 = b.nvm.epoch + 1

/-- The value of a counter: that of the valid slot with the highest generation; 0 when none is. -/
def Blk.ctrValue (b : Blk) (off : Nat) : BitVec 64 :=
  match (b.ctrRing off).find? (b.slotValid off) with
  | some sl => sl.1
  | none => 0

/-- One slot write at the slot after the newest. -/
def Blk.ctrPut (b : Blk) (off : Nat) (v : BitVec 64) (ep : Nat) : Blk :=
  let ring := b.ctrRing off
  let gen := match ring with | sl :: _ => sl.2.1 + 1 | [] => 0
  b.onNvm fun n => { n with counters := setKey n.counters off ((v, gen, ep) :: ring.take (ctrSlots off - 1)) }

/-- The raise of the epoch (R465): the stepped counter, every other guarded counter, the step counter,
the fuse bit. -/
def Blk.raiseEpoch (b : Blk) (off : Nat) (v step : BitVec 64) : Blk :=
  let e := b.nvm.epoch + 1
  let b1 := b.ctrPut off v e
  let b2 := (guardedCtrs.filter (· ≠ off)).foldl
    (fun b o => if (b.ctrRing o).isEmpty then b else b.ctrPut o (b.ctrValue o) e) b1
  let b3 := b2.ctrPut ctrStep step e
  let b4 := b3.onNvm fun n => { n with epoch := e }
  b4.ev srcNvm 9 1 (arg32 e) (pin := true)

/-- What of a counter's value may not fall (R464): a marker's counter is its bits [62:0], bit 63 is the half (R415). -/
def ctrOrder (off : Nat) (v : BitVec 64) : Nat :=
  if off ∈ [ctrKu1, ctrKu2, ctrCtl1, ctrCtl2] then v.toNat % 2 ^ 63 else v.toNat

/-- A write of a counter (R464, R465). A value below the current one is refused; a write of a guarded
counter other than the step counter is a step. -/
def Blk.counterPut (b : Blk) (off : Nat) (v : BitVec 64) : Blk :=
  if ctrSlots off = 0 ∨ off = ctrStep ∨ ctrOrder off v < ctrOrder off (b.ctrValue off) then b
  else if off ∈ guardedCtrs then
    let step := b.ctrValue ctrStep + 1
    if step.toNat % 1024 = 0 ∧ b.nvm.epoch < 64 then
      let b1 := b.raiseEpoch off v step
      if b1.nvm.epoch = 64 ∧ b1.nvm.exhausted = false then
        (b1.onNvm fun n => { n with exhausted := true, sticky := orBits n.sticky 0x20 }).ev srcNvm 0xA 3 0
          (pin := true)
      else b1
    else (b.ctrPut off v b.nvm.epoch).ctrPut ctrStep step b.nvm.epoch
  else b.ctrPut off v b.nvm.epoch

/-- What the start scan does with the guarded counters (R465): an epoch raise that was cut is completed,
and a counter whose slots are all of older epochs takes the highest value found, with COUNTER_ROLLBACK and
the fault bit of R398. -/
def Blk.counterScan (b : Blk) : Blk :=
  let cut := (ctrStep :: guardedCtrs).any fun o => (b.ctrRing o).any (fun sl => sl.2.2 = b.nvm.epoch + 1)
  let b1 := if cut then
      let e := b.nvm.epoch + 1
      let b' := (guardedCtrs ++ [ctrStep]).foldl (fun b o =>
        if (b.ctrRing o).isEmpty ∨ (b.ctrRing o).any (fun sl => sl.2.2 = e) then b
        else b.ctrPut o (b.ctrValue o) e) b
      (b'.onNvm fun n => { n with epoch := e }).ev srcNvm 9 1 (arg32 e) (pin := true)
    else b
  (ctrStep :: guardedCtrs).foldl (fun b o =>
    if (b.ctrRing o).isEmpty ∨ (b.ctrRing o).any (b.slotValid o) then b
    else
      let top := (b.ctrRing o).foldl (fun m sl => max m sl.1.toNat) 0
      let b' := b.ctrPut o (BitVec.ofNat 64 top) b.nvm.epoch
      let b'' := b'.onNvm fun n => { n with sticky := orBits n.sticky 0x10 }
      (b''.onRcc fun r => { r with gpioFault := orBits r.gpioFault 1 }).ev srcNvm 8 4 (arg32 o) (pin := true)) b1

/-! ### The state journal (R460 to R463) -/

/-- Journal items (R463). -/
def jAnchor : BitVec 16 := 0x0001
def jUnwritten : BitVec 16 := 0x0002
def jHoldup : BitVec 16 := 0x0003
def jWire : BitVec 16 := 0x0010
def jEnergy : BitVec 16 := 0x0011
def jSlot : BitVec 16 := 0x0020
def jTenantSlots : BitVec 16 := 0x0021
def jLockdown : BitVec 16 := 0x0030
def jPower : BitVec 16 := 0x0031
def jLifeCycle : BitVec 16 := 0x0040
def jFormats : BitVec 16 := 0x0050
def jMigration : BitVec 16 := 0x0051
def jScrub : BitVec 16 := 0x0060

/-- Bytes of a record with a body (R460). -/
def jSize (body : List Byte) : Nat := 16 + ceilDiv body.length 8 * 8

/-- Bytes of the ring. -/
def jRing : Nat := 0x100000

/-- One item taking a new committed record at the head. -/
def Nvm.putItem (n : Nvm) (id : BitVec 16) (body : List Byte) : Nvm :=
  let old := n.journal.find? (fun j => j.id = id)
  let j : JItem := { id := id, cur := body, curOff := n.head,
                     prev := old.map (fun o => (o.cur, o.curOff)) }
  { n with journal := j :: n.journal.filter (fun j => j.id ≠ id),
           head := (n.head + jSize body) % jRing, jrnUsed := n.jrnUsed + jSize body }

/-- The commit record of a transaction (32 bytes, R460) and its number. -/
def Nvm.commitTxn (n : Nvm) : Nvm :=
  { n with head := (n.head + 32) % jRing, jrnUsed := n.jrnUsed + 32, txn := n.txn + 1 }

/-- The live records: the newest two committed of every item (R462). -/
def Nvm.liveBytes (n : Nvm) : Nat :=
  (n.journal.map (fun j => jSize j.cur + match j.prev with | some p => jSize p.1 | none => 0)).foldl (· + ·) 0

/-- Compaction (R462): the live records copied forward as one transaction, the older of an item first. -/
def Nvm.compact (n : Nvm) : Nvm :=
  let step := fun (acc : List JItem × Nat) (j : JItem) =>
    match j.prev with
    | some p =>
      (acc.1 ++ [{ j with prev := some (p.1, acc.2 % jRing), curOff := (acc.2 + jSize p.1) % jRing }],
        acc.2 + jSize p.1 + jSize j.cur)
    | none => (acc.1 ++ [{ j with curOff := acc.2 % jRing }], acc.2 + jSize j.cur)
  let r := n.journal.foldl step ([], n.head)
  { n with journal := r.1, head := (r.2 + 32) % jRing, jrnUsed := n.liveBytes + 32, txn := n.txn + 1 }

/-- A transaction (R461): its item records, then its commit record; compaction goes first where the free
space would fall below 128 KiB. -/
def Nvm.transact (n : Nvm) (items : List (BitVec 16 × List Byte)) : Nvm :=
  let size := (items.map (fun i => jSize i.2)).foldl (· + ·) 32
  let n1 := if jRing < n.jrnUsed + size + 0x20000 then n.compact else n
  (items.foldl (fun n i => n.putItem i.1 i.2) n1).commitTxn

/-- The committed body of an item, empty when never stored. -/
def Blk.jItem (b : Blk) (id : BitVec 16) : List Byte :=
  match b.nvm.journal.find? (fun j => j.id = id) with
  | some j => j.cur
  | none => []

/-- The DT anchor of R67 as an item: DT and AOT now. -/
def Blk.storeAnchor (b : Blk) : Blk :=
  let b1 := b.onTb fun t => { t with anchorDt := some t.dt, anchorAot := t.aot, aotContinuous := true }
  b1.onNvm fun n => n.transact [(jAnchor, leBytes 8 b.time.dt.toNat ++ leBytes 6 b.time.aot.toNat)]

/-! ### Remapping (R458) -/

/-- The 4 KiB block of a word. -/
def blockOf (a : Word) : Word := BitVec.ofNat 32 (a.toNat / 4096 * 4096)

/-- A block put on its region's remap reserve (R458). -/
def Blk.remap (b : Blk) (a : Word) : Blk :=
  let blk := blockOf a
  let code := decide (a.toNat < 0x0C000000)
  let used := if code then b.nvm.remapCode else b.nvm.remapData
  let total := if code then 256 else 128
  if blk ∈ used ∨ used.length ≥ total then b
  else
    let b1 := b.onNvm fun n =>
      { n with remapCode := if code then n.remapCode ++ [blk] else n.remapCode,
               remapData := if code then n.remapData else n.remapData ++ [blk],
               sticky := orBits n.sticky 2 }
    let b2 := b1.ev srcNvm 2 2 blk (pin := true)
    if (used.length + 1) * 4 = total * 3 then
      (b2.onNvm fun n => { n with sticky := orBits n.sticky 4 }).ev srcNvm 3 3
        (arg32 (total - (used.length + 1) + if code then 0 else 0x10000)) (pin := true)
    else b2

/-! ### Meanings -/

/-- The registers a stored wire-model state belongs to (R115). -/
def Channel.wmRegs (ch : Channel) : List Word := [ch.wmCtrl, ch.wmRho, ch.wmRth, ch.wmTau, ch.wmLim]

/-- What the periodic and hold-up commits of the wire model and the energy counters keep (R115, R126): the
items' values as they stand at the commit. A kernel whose stored wire state still waits for its parameters keeps it. -/
def Blk.saveChannels (b : Blk) (wire energy : Bool) : Blk :=
  { b with chans := Vector.ofFn fun c =>
      let ch := b.ch c
      let w := wire && !(b.kn (kOf c)).wireWait
      { ch with wmSave := if w then some (ch.th1, ch.th2, b.time.aot, ch.wmRegs) else ch.wmSave,
                energySave := if energy then some (ch.energy, ch.onTime, ch.switches, b.time.dt)
                  else ch.energySave } }

/-- JOURNAL_TRANSACTION (R461): the items take effect together. A periodic wire commit is then the last one (R115). -/
def journalTransaction (items : List (BitVec 16 × List Byte)) (b0 : Blk) : Blk :=
  let b := b0.saveChannels (items.any (fun i => i.1 = jWire)) (items.any (fun i => i.1 = jEnergy))
  let periodic := items.any (fun i => i.1 = jWire) && !items.any (fun i => i.1 = jHoldup)
  let b1 := (b.onNvm fun n => n.transact items).onRcc fun r => { r with holdupDone := r.holdupDone && !periodic }
  if items.any (fun i => i.1 = jAnchor) then
    b1.onTb fun t => { t with anchorDt := some t.dt, anchorAot := t.aot, aotContinuous := true }
  else b1

/-- SCRUB_PASS_START (R457): the period has passed; never in SLEEP, nor before BOOT has ended. -/
def scrubPassStart (b : Blk) : Blk :=
  if b.nvm.scrub ∨ b.rcc.mode = .sleep ∨ b.rcc.mode = .boot then b
  else b.onNvm fun n => { n with scrub := true, scrubProg := 0 }

/-- SCRUB_PASS_END (R457, R458): `corrected` are the words the pass corrected, `rewritten` how many it
rewrote. A block with a word corrected in two consecutive passes is remapped. -/
def scrubPassEnd (rewritten : Word) (corrected : List Word) (b : Blk) : Blk :=
  if b.nvm.scrub = false then b
  else
    let again := corrected.filter (· ∈ b.nvm.prevCorr)
    let b1 := b.onNvm fun n =>
      ({ n with scrub := false, scrubLast := b.time.dt, scrubProg := 1152, scrubCorr := rewritten.toNat,
                corr := satAdd n.corr corrected.length 0xFFFFFFFF, prevCorr := corrected }).transact
        [(jScrub, leBytes 8 b.time.dt.toNat)]
    again.foldl Blk.remap (b1.ev srcNvm 4 0 rewritten)

/-- MEM_SCRUB (R457, R459): corrections are counted, and each word that is still uncorrectable is
reported once. -/
def memScrub (sramCorr ddrCorr : BitVec 16) (b : Blk) : Blk :=
  let b1 := b.onNvm fun n => { n with memCorrS := satAdd n.memCorrS sramCorr.toNat 0xFFFF,
                                      memCorrD := satAdd n.memCorrD ddrCorr.toNat 0xFFFF }
  (b.nvm.badWords.filter (fun a => 0x10000000 ≤ a.toNat)).foldl
    (fun b a => b.ev srcNvm 0xB 3 a (pin := true)) b1

/-- Whether an address lies in LPDDR5. -/
def inDdr (a : Word) : Bool := 0x80000000 ≤ a.toNat

/-- An uncorrectable read of SRAM or LPDDR5 (R459): the record, the counts, the word remembered. -/
def Blk.memBad (b : Blk) (a : Word) : Blk :=
  let b1 := b.onNvm fun n =>
    { n with memUncS := if inDdr a then n.memUncS else satInc n.memUncS 0xFFFF,
             memUncD := if inDdr a then satInc n.memUncD 0xFFFF else n.memUncD,
             memErrAddr := a, sticky := orBits n.sticky 0x40, badWords := addOnce n.badWords a }
  b1.ev srcNvm 0xB 3 a (pin := true)

/-- Whether a journal record at `off` with body `l` covers ring offset `o`. -/
def covers (off : Nat) (l : List Byte) (o : Nat) : Bool := off ≤ o && o < off + jSize l

/-- The fallback of an uncorrectable journal word (R466). -/
def Blk.journalBad (b : Blk) (o : Nat) : Blk :=
  b.nvm.journal.foldl (fun b j =>
    if covers j.curOff j.cur o then
      match j.prev with
      | some p =>
        let b1 := b.onNvm fun n =>
          Nvm.transact { n with journal := n.journal.map (fun (x : JItem) =>
              if x.id = j.id then { x with cur := p.1, curOff := p.2, prev := none } else x) }
            [(j.id, p.1)]
        b1.ev srcNvm 6 2 (arg32 j.id.toNat)
      | none =>
        let b1 := b.onNvm fun n => { n with journal := n.journal.filter (fun x => x.id ≠ j.id) }
        let b2 := if j.id = jLockdown then b1.onRcc fun r => { r with lockFlag := true } else b1
        b2.ev srcNvm 7 3 (arg32 j.id.toNat) (pin := true)
    else b.onNvm fun n => { n with journal := n.journal.map (fun (x : JItem) =>
      match x.prev with
      | some p => if x.id = j.id ∧ covers p.2 p.1 o then { x with prev := none } else x
      | none => x) }) b

/-- The slot of a counter ring that an uncorrectable word takes out (R464, R466). -/
def Blk.counterBad (b : Blk) (o : Nat) : Blk :=
  b.onNvm fun n => { n with counters := n.counters.map (fun p =>
    if p.1 ≤ o ∧ o < p.1 + ctrSlots p.1 * 32 then
      (p.1, p.2.filter (fun sl => sl.2.1 % ctrSlots p.1 ≠ (o - p.1) / 32))
    else p) }

/-- NVM_UNCORRECTABLE (R466, R458, R87): the record, the fallback of the area, the block remapped. -/
def nvmUncorrectable (a : Word) (b : Blk) : Blk :=
  if a.toNat < 0x08000000 ∨ 0x0C800000 ≤ a.toNat then b
  else
    let b1 := (b.onNvm fun n => { n with uncorr := satInc n.uncorr 0xFFFF, errAddr := a,
                                         sticky := orBits n.sticky 1,
                                         badWords := addOnce n.badWords a }).ev srcNvm 1 3 a (pin := true)
    let b2 :=
      if 0x0C000000 ≤ a.toNat ∧ a.toNat < 0x0C400000 then
        b1.ev (srcOf 0 3) 0x35 3 (arg32 ((a.toNat - 0x0C000000) / 32)) (pin := true)
      else if 0x0C480000 ≤ a.toNat ∧ a.toNat < 0x0C580000 then b1.journalBad (a.toNat - 0x0C480000)
      else if 0x0C600000 ≤ a.toNat ∧ a.toNat < 0x0C601000 then b1.counterBad (a.toNat - 0x0C600000)
      else b1
    b2.remap a

/-- The JOURNAL_TRANSACTION row. -/
def execJournalTransaction (items : List (BitVec 16 × List Byte)) (s : State) : Res :=
  .next (s.onBlk (journalTransaction items))
/-- The SCRUB_PASS_START row. -/
def execScrubPassStart (s : State) : Res := .next (s.onBlk scrubPassStart)
/-- The SCRUB_PASS_END row. -/
def execScrubPassEnd (rewritten : Word) (corrected : List Word) (s : State) : Res :=
  .next (s.onBlk (scrubPassEnd rewritten corrected))
/-- The MEM_SCRUB row. -/
def execMemScrub (sramCorr ddrCorr : BitVec 16) (s : State) : Res :=
  .next (s.onBlk (memScrub sramCorr ddrCorr))
/-- The NVM_UNCORRECTABLE row. -/
def execNvmUncorrectable (a : Word) (s : State) : Res := .next (s.onBlk (nvmUncorrectable a))
/-- The COUNTER_WRITE row (R464): a write of the counter at an offset of the counters area. -/
def execCounterWrite (off : BitVec 16) (v : BitVec 64) (s : State) : Res :=
  .next (s.onBlk fun b => b.counterPut off.toNat v)

end Sys2Proof.Machine
end

