-- ==== Sys2Proof/Machine/Events.lean ====
section
/-! DEFINITION. The event sequencer, the views, the log and its seals (R72 to R88, R91, R92), and the
meanings of the event family. -/

namespace Sys2Proof.Machine
open Sys2Proof

/-- A change of the block with the stores it makes. -/
abbrev BW := Blk × List Store

/-- Two changes in a row. -/
def BW.andThen (x : BW) (f : Blk → BW) : BW := ((f x.1).1, x.2 ++ (f x.1).2)

/-- A change without stores. -/
def BW.map (x : BW) (f : Blk → Blk) : BW := (f x.1, x.2)

/-- SRC of the sequencer and log, and of the time base (R77). -/
def srcSeq : BitVec 16 := srcOf 0 3
def srcTb : BitVec 16 := srcOf 0 2
/-- SRC of the bellows. -/
def srcBre : BitVec 16 := srcOf 0 1

/-! ### Sequence numbers (R75) -/

/-- The low half of a SEQ value at which the next block index is stored. -/
def seqHalf : Nat := 0x80000000

/-- The next SEQ is taken; reaching the middle of a block stores the next block index and a DT anchor
(R75, R67). -/
def Blk.takeSeq (b : Blk) : BitVec 64 × Blk :=
  let seq := b.evs.nextSeq
  let b1 := b.onEvs fun e => { e with nextSeq := seq + 1 }
  if seq.toNat % 2 ^ 32 = seqHalf then
    let h := seq.toNat / 2 ^ 32 + 1
    let b2 := b1.counterPut ctrSeq (BitVec.ofNat 64 h)
    (seq, (b2.onEvs fun e => { e with highWater := BitVec.ofNat 32 h }).storeAnchor)
  else (seq, b1)

/-- Whole seconds of DT. -/
def Blk.second (b : Blk) : Nat := b.time.dt.toNat / 1000000000

/-- One more record granted in this second (EVS_GRANTS counts the last whole second, R91). -/
def Evs.countGrant (e : Evs) (sec : Nat) : Evs :=
  if sec = e.grantSec then { e with grantsNow := e.grantsNow + 1 }
  else { e with grants := if sec = e.grantSec + 1 then e.grantsNow else 0, grantsNow := 1, grantSec := sec }

/-- EVS_GRANTS as read now. -/
def Blk.grantsLastSecond (b : Blk) : Nat :=
  if b.second = b.evs.grantSec then b.evs.grants
  else if b.second = b.evs.grantSec + 1 then b.evs.grantsNow else 0

/-! ### Records (R76) -/

/-- The 32 bytes of a granted record. -/
def Rec.bytes (r : Rec) : List Byte :=
  leBytes 8 r.seq.toNat ++ leBytes 8 r.p.dt.toNat ++ leBytes 4 r.bn.toNat ++ leBytes 2 r.p.src.toNat
    ++ leBytes 2 r.p.code.toNat ++ [r.p.tenant, r.p.sev.zeroExtend 8, r.p.flags, 0] ++ leBytes 4 r.p.arg.toNat

/-- A grant: SEQ, BN and the UNSYNCED flag (R71, R72). -/
def Blk.grantRec (b : Blk) (p : PRec) : Rec × Blk :=
  let (seq, b1) := b.takeSeq
  let fl := if b.time.state = .unsynced then p.flags ||| 4 else p.flags
  ({ seq := seq, bn := b.breath.bn.truncate 32, p := { p with flags := fl } },
    b1.onEvs fun e => e.countGrant b.second)

/-! ### Views (R78 to R80) -/

/-- The initiator a view belongs to: tenants 0 to 7, then the safety program (R92). -/
def viewOwner (v : Fin 9) : Initiator := if h : v.val < 8 then .tenant ⟨v.val, h⟩ else .safety

/-- The gather list of a program (R45). -/
def Blk.gatherOf (b : Blk) (i : Initiator) : List Extract := (findKey b.cfg.gathers i.id).getD []

/-- Whether a record concerns an input that the gather list of a program grants (R78, R174). -/
def Blk.inputGranted (b : Blk) (i : Initiator) (inst : Nat) : Bool :=
  (b.gatherOf i).any fun
    | .di d => d.val = inst
    | .ai a => a.val + 0x100 = inst
    | .motion => inst = 0x200
    | _ => false

/-- Whether a record of a CAN controller names a transmit object of the initiator (R330). -/
def Blk.canOwned (b : Blk) (i : Initiator) (p : PRec) : Bool :=
  if h : p.src.toNat % 4096 < 6 then
    let can := b.cans.get ⟨p.src.toNat % 4096, h⟩
    match p.code.toNat with
    | 7 => p.tenant.toNat = i.id
    | 8 | 9 =>
      bits (can.txo.get ⟨p.arg.toNat % 64, Nat.mod_lt _ (by decide)⟩).cfg2 7 0 = i.id
    | _ => false
  else false

/-- Whether a record passes a view's filter (R78, R92). -/
def Blk.passes (b : Blk) (v : Fin 9) (p : PRec) : Bool :=
  let i := viewOwner v
  let f := (b.evs.views.get v).filter
  let cls := p.src.toNat / 4096
  let inst := p.src.toNat % 4096
  decide (bits f 7 5 ≤ p.sev.toNat) &&
    ((bit f 0 && p.tenant.toNat = i.id)
      || (bit f 1 && cls = 1 && (if h : inst < 40 then (b.ch ⟨inst, h⟩).owner = i else false))
      || (bit f 2 && cls = 3 && b.inputGranted i inst)
      || (bit f 3 && cls = 4 && b.canOwned i p)
      || (bit f 4 && p.sev.toNat ≥ 3))

/-- Free slots of a view ring: full at 2^n - 1 unread records (R80). -/
def View.free (v : View) : Nat := 2 ^ v.size - 1 - (v.wr + 2 ^ v.size - v.rd) % 2 ^ v.size

/-- Whether the tenant of a view is in reset: its records are counted as lost (R92). -/
def Blk.viewInReset (b : Blk) (v : Fin 9) : Bool :=
  if h : v.val < 8 then decide ((b.tenants.get ⟨v.val, h⟩).state = .resetting) else false

/-- A record written into a view ring, or counted as lost. -/
def Blk.toView (b : Blk) (v : Fin 9) (r : Rec) : BW :=
  let w := b.evs.views.get v
  if w.size = 0 then (b, [])
  else if w.free = 0 ∨ b.viewInReset v then
    (b.onEvs fun e => { e with views := vmod e.views v fun w => { w with lost := satInc w.lost 0xFFFFFFFF } }, [])
  else
    (b.onEvs fun e => { e with views := vmod e.views v fun w => { w with wr := (w.wr + 1) % 2 ^ w.size } },
      [.put (w.base.toNat + w.wr * 32) r.bytes])

/-! ### The log queue (R81, R84) -/

/-- The parts of the log queue: 256 of its 16,384 places are kept for pinned records. -/
def logPinPart : Nat := 256
def logPart : Nat := 16384 - logPinPart

/-- Whether the part of the queue that a record goes to has `n` places free. -/
def Evs.logRoom (e : Evs) (pinned : Bool) (n : Nat) : Bool :=
  decide ((e.logQ.filter (fun r => r.p.pinned = pinned)).length + n ≤ if pinned then logPinPart else logPart)

/-- A granted record enters the log queue when R81 says so, or is counted as lost. -/
def Blk.toLog (b : Blk) (r : Rec) : Blk :=
  if b.evs.logSev ≤ r.p.sev.toNat ∨ r.p.pinned then
    b.onEvs fun e =>
      if e.logRoom r.p.pinned 1 then { e with logQ := e.logQ ++ [r] }
      else { e with logLost := satInc e.logLost 0xFFFFFFFF, logLostNow := satInc e.logLostNow 0xFFFFFFFF }
  else b

/-! ### Delivery and grants -/

/-- A granted record delivered to every view whose filter it passes, and to the log. -/
def Blk.deliver (b : Blk) (r : Rec) : BW :=
  (upTo 9).foldl (fun x v => if x.1.passes v r.p then x.andThen (·.toView v r) else x) (b.toLog r, [])

/-- The EVENTS_LOST record of one view, requested, granted and written into the ring once two slots are
free; the count is cleared (R80). -/
def Blk.viewLost (b : Blk) (v : Fin 9) : BW :=
  let w := b.evs.views.get v
  if w.size = 0 ∨ w.lost = 0 ∨ w.free < 2 ∨ b.viewInReset v then (b, [])
  else
    let p := b.lostRec srcSeq (BitVec.ofNat 8 (viewOwner v).id) w.lost
    let (r, b1) := b.grantRec p
    let b2 := b1.onEvs fun e => { e with views := vmod e.views v fun w => { w with lost := 0 } }
    (b2.toLog r).toView v r

/-- The EVENTS_LOST record of the log queue (R81). -/
def Blk.logLostRec (b : Blk) : Blk :=
  if b.evs.logLostNow = 0 ∨ b.evs.logRoom false 2 = false then b
  else
    let p := b.lostRec srcSeq hw b.evs.logLostNow
    let (r, b1) := b.grantRec p
    (b1.onEvs fun e => { e with logLostNow := 0 }).toLog r

/-- The EVENTS_LOST records that are due before any later record (R80). -/
def Blk.dueLost (b : Blk) : BW :=
  (upTo 9).foldl (fun x v => x.andThen (·.viewLost v)) (b.logLostRec, [])

/-- One record granted and delivered. -/
def Blk.grantOne (b : Blk) (p : PRec) : BW :=
  b.dueLost.andThen fun b => let (r, b1) := b.grantRec p; b1.deliver r

/-- EVENT_GRANT (R72): the record at the head of the sequencer's inputs. Records captured while the sequencer is in
reset wait (R400). -/
def eventGrant (b : Blk) : BW :=
  if b.evs.resumed = false then (b, [])
  else match b.evs.queue with
  | [] => (b, [])
  | p :: rest => (b.onEvs fun e => { e with queue := rest }).grantOne p

/-- EVENTS_LOST (R80, R81, R74) of a view, of the log or of a shell source. -/
def eventsLost (at_ : LostAt) (b : Blk) : BW :=
  if b.evs.resumed = false then (b, [])
  else match at_ with
  | .view v => b.viewLost v
  | .log => (b.logLostRec, [])
  | .source src => (b.handLost src, [])

/-! ### The log ring (R81 to R84) -/

/-- Places of the log in the NVM data region (R456). -/
def logBase : Nat := 0x0C000000
def logSlots : Nat := 131072
def pinBase : Nat := 0x0C400000
def pinSlots : Nat := 15360
def ckptBase : Nat := 0x0C478000
def sealBase : Nat := 0x0C47C000
def sealCopy : Nat := 0x2000

/-- The bytes of a 512-bit digest, bits [7:0] first. -/
def digestBytes (d : BitVec 512) : List Byte := leBytes 64 d.toNat

/-- One step of a hash chain (R82, R84). -/
def chainStep (c : BitVec 512) (r : List Byte) : BitVec 512 := Config.sha3 (digestBytes c ++ r)

/-- The pinned copy of a record (R84). -/
def Blk.pinCopy (b : Blk) (r : Rec) : BW :=
  if r.p.pinned = false then (b, [])
  else if b.evs.pinHeld.length < pinSlots then
    (b.onEvs fun e => { e with pinHeld := e.pinHeld ++ [r.seq], pinWr := (e.pinWr + 1) % pinSlots,
                               pinChain := chainStep e.pinChain r.bytes },
      [.put (pinBase + b.evs.pinWr % pinSlots * 32) r.bytes])
  else if b.evs.pinFullLogged then (b, [])
  else ((b.onEvs fun e => { e with pinFullLogged := true }).ev srcSeq 0x33 3 0, [])

/-- One ring write: the slot, the chain, the checkpoint after every 1,024th write, the pinned copy. `old`
is what the slot held, for the chain value before the oldest record. -/
def Blk.ringWrite (b : Blk) (r : Rec) (old : List Byte) : BW :=
  let e := b.evs
  let chain := chainStep e.chain r.bytes
  let b1 := b.onEvs fun e =>
    { e with chain := chain, logTotal := e.logTotal + 1, logWr := (e.logWr + 1) % logSlots,
             startChain := if e.logTotal < logSlots then e.startChain else chainStep e.startChain old,
             newestSeq := r.seq, newestDt := r.p.dt }
  let slot : Store := .put (logBase + e.logWr % logSlots * 32) r.bytes
  let ckpt : List Store :=
    if (e.logTotal + 1) % 1024 = 0 then
      [.put (ckptBase + (e.logWr / 1024 % 128) * 128)
        (leBytes 8 r.seq.toNat ++ leBytes 4 e.logWr ++ leBytes 4 0 ++ digestBytes chain ++ List.replicate 48 0)]
    else []
  let x := b1.pinCopy r
  (x.1, slot :: ckpt ++ x.2)

/-- How many more records the log writer may write in this second (R81). -/
def Blk.logBudget (b : Blk) : Nat :=
  if b.second = b.evs.logSecond then b.evs.logRate - b.evs.logThisSec else b.evs.logRate

/-- The first `n` records of the queue written to the ring, in order. -/
def Blk.drain (m : Mem) : Nat → Blk → BW
  | 0, b => (b, [])
  | n + 1, b =>
    match b.evs.logQ with
    | [] => (b, [])
    | r :: rest =>
      let old := Mem.readBytes m (logBase + b.evs.logWr * 32) 32
      let x := (b.onEvs fun e => { e with logQ := rest }).ringWrite r old
      let y := Blk.drain m n x.1
      (y.1, x.2 ++ y.2)

/-- LOG_WRITE (R81): the writer drains the queue as far as the rate allows. -/
def logWrite (m : Mem) (b : Blk) : BW :=
  let n := min b.logBudget b.evs.logQ.length
  let b1 := b.onEvs fun e =>
    { e with logThisSec := (if b.second = e.logSecond then e.logThisSec else 0) + n, logSecond := b.second }
  Blk.drain m n b1

/-! ### Seals (R85, R86) -/

/-- Records that the ring holds. -/
def Evs.ringCount (e : Evs) : Nat := min e.logTotal logSlots

/-- Ring index of the oldest record. -/
def Evs.oldest (e : Evs) : Nat := if e.logTotal < logSlots then 0 else e.logWr

/-- SEQ of the oldest record in the ring. -/
def oldestSeq (m : Mem) (e : Evs) : Nat := ofLe (Mem.readBytes m (logBase + e.oldest * 32) 8)

/-- The UID as bytes, bits [7:0] first (R82). -/
def Blk.uidBytes (b : Blk) : List Byte := leBytes 16 b.uid.toNat

/-- Whether the Husk gives keys (R406). -/
def Blk.keysReady (b : Blk) : Bool := b.sec.husk = .available

/-- The 328 signed bytes of a seal. -/
def sealBody (m : Mem) (b : Blk) (flags : Nat) : List Byte :=
  let e := b.evs
  leBytes 2 1 ++ leBytes 2 flags ++ leBytes 4 b.sec.epochSeal ++ b.uidBytes
    ++ leBytes 8 (oldestSeq m e) ++ leBytes 8 e.newestSeq.toNat ++ leBytes 8 e.newestDt.toNat
    ++ leBytes 8 b.time.dt.toNat ++ leBytes 8 b.breath.bn.toNat
    ++ digestBytes e.startChain ++ digestBytes e.chain ++ digestBytes e.prevSeal
    ++ leBytes 4 e.ringCount ++ leBytes 4 e.pinHeld.length ++ digestBytes e.pinChain

/-- The label of the log-seal key (R405). -/
def labelSeal : List Byte := [0x4C, 0x4F, 0x47, 0x2D, 0x53, 0x45, 0x41, 0x4C]

/-- Label and life-cycle bytes of a derived key (R405). -/
def Blk.keyLabel (b : Blk) (label : List Byte) : List Byte := label ++ [BitVec.ofNat 8 b.sec.lc, BitVec.ofNat 8 b.sec.gen]

/-- The 4,955 bytes of a seal. -/
def sealBytes (m : Mem) (b : Blk) (flags : Nat) : List Byte :=
  let body := sealBody m b flags
  body ++ padTo 4627 (Config.mldsaSign (b.keyLabel labelSeal) b.sec.epochSeal body)

/-- SEAL_FLAGS with the deferred bit (R85). -/
def Blk.sealFlags (b : Blk) (bit_ : Nat) : Nat := 2 ^ bit_ + if b.evs.sealDeferred then 8 else 0

/-- A stored seal: one of the two copies in turn; deferred while keys are unavailable or locked. -/
def storeSeal (m : Mem) (bit_ : Nat) (b : Blk) : BW :=
  if b.keysReady = false then (b.onEvs fun e => { e with sealDeferred := true }, [])
  else
    let fl := b.sealFlags bit_
    let bytes := sealBytes m b fl
    let b1 := b.onEvs fun e =>
      { e with sealDeferred := false, lastSealDt := b.time.dt, sealCount := e.sealCount + 1,
               sealEndSeq := e.newestSeq, prevSeal := Config.sha3 bytes }
    (b1.ev srcSeq 0x32 0 (arg32 fl), [.put (sealBase + (b.evs.sealCount % 2) * sealCopy) bytes])

/-- A seal made on command: not stored (R85). -/
def commandSeal (m : Mem) (b : Blk) : List Byte × Blk :=
  let fl := b.sealFlags 1
  (sealBytes m b fl,
    (b.onEvs fun e => { e with sealDeferred := false, lastCmdSeal := some b.time.dt }).ev srcSeq 0x32 0 (arg32 fl))

/-- SEAL_PERIOD_EXPIRY (R85): EVS_SEAL_PERIOD has passed. -/
def sealPeriodExpiry (m : Mem) (b : Blk) : BW :=
  storeSeal m 0 b

/-! ### EVS_VIEW_RD (R92) -/

/-- The view an initiator's own page resolves to. -/
def viewOf : Initiator → Option (Fin 9)
  | .tenant t => some ⟨t.val, by omega⟩
  | .safety => some 8
  | _ => none

/-- EVS_VIEW_RD_WRITE: an initiator writes its own read index; the Chanter may name the view. -/
def evsViewRdWrite (i : Initiator) (view : Option (Fin 9)) (idx : BitVec 16) (b : Blk) : Blk :=
  let target := if i = .chanter then view else viewOf i
  match target with
  | some v =>
    if (b.evs.views.get v).size = 0 then b
    else b.onEvs fun e => { e with views := vmod e.views v fun w => { w with rd := idx.toNat % 2 ^ w.size } }
  | none => b

/-- A reset of a program empties its view (R92). -/
def Blk.emptyView (b : Blk) (v : Fin 9) : Blk :=
  b.onEvs fun e => { e with views := vmod e.views v fun w => { w with wr := 0, wrVis := 0, rd := 0 } }

/-! ### Unsolicited notifications (R240) -/

/-- The owner of a mailbox (R209): tenants, the safety program, SPI, management host, UART. -/
def mbOwner (m : Fin 12) : Initiator :=
  if h : m.val < 8 then .tenant ⟨m.val, h⟩
  else if m.val = 8 then .safety else if m.val = 9 then .spi else if m.val = 10 then .mgmt else .uart

/-- A notification for every mailbox that enables its range and that it concerns; external hosts receive
every one they enable. -/
def Blk.notify (b : Blk) (opcode : Nat) (payload : List Byte) (concerns : Initiator → Bool) : Blk :=
  forAll 12 (fun b m =>
    let i := mbOwner m
    let host := decide (m.val ≥ 9)
    if (b.mboxes.get m).mask.toNat.testBit (opcode / 256) ∧ (host ∨ concerns i) then
      b.modMb m fun x => { x with notes := x.notes ++
        [{ opcode := BitVec.ofNat 16 opcode, client := 0, who := 0x20, flags := 3, status := 0,
           ebn := b.breath.bn.truncate 32, payload := payload }] }
    else b) b

/-- A notification that concerns every program. -/
def Blk.notifyAll (b : Blk) (opcode : Nat) (payload : List Byte) : Blk := b.notify opcode payload (fun _ => true)

/-! ### Meanings -/

/-- The EVENT_GRANT row. -/
def execEventGrant (s : State) : Res := .next (s.onMem fun _ b => eventGrant b)
/-- The EVENTS_LOST row. -/
def execEventsLost (at_ : LostAt) (s : State) : Res := .next (s.onMem fun _ b => eventsLost at_ b)
/-- The EVS_VIEW_RD_WRITE row. -/
def execEvsViewRdWrite (i : Initiator) (view : Option (Fin 9)) (idx : BitVec 16) (s : State) : Res :=
  .next (s.onBlk (evsViewRdWrite i view idx))
/-- The LOG_WRITE row. -/
def execLogWrite (s : State) : Res := .next (s.onMem logWrite)
/-- The SEAL_PERIOD_EXPIRY row. -/
def execSealPeriodExpiry (s : State) : Res := .next (s.onMem sealPeriodExpiry)

end Sys2Proof.Machine
end

