-- ==== Sys2Proof/Machine/Time.lean ====
section
/-! DEFINITION. Device time (R65 to R71, R89, R90): the time base, its state machine, corrections, and the
meanings of the time family. -/

namespace Sys2Proof.Machine
open Sys2Proof

/-- Time passes: `ns` nanoseconds of device time, and the always-on count beside it (R65, R67). Log entry 7
says how the model's time runs. -/
def TimeBase.pass (t : TimeBase) (ns : Nat) : TimeBase :=
  let a := t.aotFrac + ns * 32768
  { t with dt := t.dt + BitVec.ofNat 64 ns, aotFrac := a % 1000000000,
           aot := t.aot + BitVec.ofNat 48 (a / 1000000000) }

/-- One nanosecond of the shell reference clock: DT advances at the rate 1 + rate * 2^-32 (R65). -/
def TimeBase.tickNs (t : TimeBase) : TimeBase :=
  let acc : Int := (t.dtFrac.toNat : Int) + 2 ^ 32 + sint t.rateNow
  let whole := (acc / 2 ^ 32).toNat
  { t.pass whole with dtFrac := BitVec.ofInt 32 (acc % 2 ^ 32) }

/-- Time jumps forward to an instant of device time; never backward (R66). -/
def Blk.timeTo (b : Blk) (dt : BitVec 64) : Blk :=
  if dt.toNat ≤ b.time.dt.toNat then b
  else b.onTb fun t => t.pass (dt.toNat - t.dt.toNat)

/-! ### Fields of the control page (R90) -/

def TimeBase.syncEn (t : TimeBase) : Bool := bit t.ctrl 0
def TimeBase.gmCapable (t : TimeBase) : Bool := bit t.ctrl 1
def TimeBase.extCfg (t : TimeBase) : Bool := bit t.ctrl 2
def TimeBase.portEn (t : TimeBase) (p : Fin 10) : Bool := bit t.ctrl (4 + p.val)

/-- The clamp of TB_RATE: 1,000 ppm (R90). -/
def ratePpm1000 : Int := 0x418937

/-- A rate correction within the clamp. -/
def clampRate (r : Int) : Word :=
  BitVec.ofInt 32 (if r > ratePpm1000 then ratePpm1000 else if r < -ratePpm1000 then -ratePpm1000 else r)

/-- The port number in TB_STATUS and records: 0xFF for none. -/
def noPort : Byte := 0xFF

/-! ### Transitions of R69 -/

/-- Codes of TB_STATUS.STATE (R89). -/
def TbState.code : TbState → Nat
  | .unsynced => 0 | .synced => 1 | .holdover => 2 | .master => 3

/-- The time base enters a state; TIME_STATE is sent (R240). -/
def Blk.tbEnter (b : Blk) (st : TbState) : Blk :=
  (b.onTb fun t => { t with state := st, goodSyncs := 0, holdLeft := 0 }).notifyAll 0x0780
    ([BitVec.ofNat 8 st.code, 0, 0, 0] ++ leBytes 4 b.time.offset.toNat)

def Blk.toSynced (b : Blk) (p : Byte) : Blk :=
  (b.tbEnter .synced).ev srcTb 0x20 1 (arg32 p.toNat)

def Blk.toUnsynced (b : Blk) : Blk :=
  (b.tbEnter .unsynced).ev srcTb 0x22 2 b.time.offset

def Blk.toHoldover (b : Blk) : Blk :=
  ((b.tbEnter .holdover).onTb fun t => 
    { t with holdLeft := t.holdover, holdFrom := t.dt, slavePort := noPort,
             lastSlave := if t.slavePort = noPort then t.lastSlave else t.slavePort }).ev
    srcTb 0x21 2 (arg32 (if b.time.slavePort = noPort then b.time.lastSlave else b.time.slavePort).toNat)

/-- `TB_HOLD_LEFT`: the holdover that remains, in ms (R89). -/
def TimeBase.holdLeftNow (t : TimeBase) : Word :=
  if t.state = .holdover then BitVec.ofNat 32 (t.holdLeft.toNat - (t.dt.toNat - t.holdFrom.toNat) / 1000000) else 0

/-- This clock's systemIdentity (R68): priority1, clockClass (248 while UNSYNCED, R69), accuracy and
variance, priority2, clockIdentity. A clock that is not grandmaster-capable announces priority1 255. -/
def TimeBase.ownSys (t : TimeBase) : BitVec 112 :=
  let p1 := if t.gmCapable then bits t.prio 7 0 else 255
  let cls := if t.state = .unsynced then 248 else bits t.prio 23 16
  BitVec.ofNat 112 (p1 * 2 ^ 104 + cls * 2 ^ 96 + Config.clockQuality.toNat * 2 ^ 72
    + bits t.prio 15 8 * 2 ^ 64 + Config.clockIdentity.toNat)

/-- Best master selection makes this module grandmaster (R69): MASTER from SYNCED or HOLDOVER; while
UNSYNCED it stays UNSYNCED. -/
def Blk.becomeGm (b : Blk) : Blk :=
  let b1 := b.onTb fun t =>
    { t with slavePort := noPort, gmId := Config.clockIdentity, gmSys := t.ownSys, holdLeft := 0,
             lastSlave := if t.slavePort = noPort then t.lastSlave else t.slavePort }
  if b.time.state = .synced ∨ b.time.state = .holdover then
    (b1.tbEnter .master).ev srcTb 0x25 1 (Config.clockIdentity.truncate 32)
  else b1

/-- The slave port is lost or silent (R69). A grandmaster-capable module then wins the selection. -/
def Blk.slaveLost (b : Blk) : Blk :=
  let b1 := if b.time.state = .synced then b.toHoldover
    else b.onTb fun t => { t with slavePort := noPort, goodSyncs := 0 }
  if b.time.gmCapable ∧ b.time.extCfg = false ∧ b.time.syncEn then b1.becomeGm else b1

/-! ### Corrections of R70 and the trim of R32 -/

/-- The breath's length in use in nanoseconds. -/
def Blk.lenNs (b : Blk) : Nat := b.breath.lenInUse * 1000

/-- Device time stepped by `d` ns: the bellows keeps its tick phase and starts a trim back to the grid,
which a later step restarts (R32, R70). -/
def Blk.stepTime (b : Blk) (d : Nat) : Blk :=
  let b1 := b.onTb fun t => { t with dt := t.dt + BitVec.ofNat 64 d }
  if b.breath.running then
    let due := b.breath.dueDt + BitVec.ofNat 64 d
    let l := b.lenNs
    let off := (l - due.toNat % l) % l
    let b2 := b1.onBre fun r => { r with dueDt := due, trimLeft := off }
    if off = 0 then b2 else b2.ev srcBre 0x16 1 (arg32 off)
  else b1

/-- Nanoseconds to whole microseconds of an offset, as an ARG (saturating). -/
def usArg (d : Int) : Word := argInt (if d < 0 then -(-d / 1000) else d / 1000)

/-- The rate change of a slew, in units of 2^-32 (R70, R90). -/
def TimeBase.slewUnits (t : TimeBase) : Nat := bits t.slewMax 9 0 * 2 ^ 32 / 1000000

/-- A backward offset starts a slew (R70); a slew that runs goes on. -/
def Blk.startSlew (b : Blk) (d : Int) : Blk :=
  if b.time.slewing then b
  else
    let u := b.time.slewUnits
    (b.onTb fun t => { t with slewing := true, slewDelta := u,
                              rateNow := BitVec.ofInt 32 (sint t.rateNow - u) }).ev srcTb 0x24 1 (usArg d)

/-- The correction of a measured offset (R70). `servo` says whether a small offset goes to the servo. -/
def Blk.correct (b : Blk) (d : Int) (servo : Bool) : Blk :=
  let th : Int := b.time.stepThresh.toNat
  if d > th then (b.stepTime d.toNat).ev srcTb 0x23 2 (usArg d) (pin := true)
  else if d < -th then b.startSlew d
  else if servo ∧ b.time.slewing = false then
    let (c, b1) := b.fresh
    b1.onTb fun t => { t with rateNow := clampRate (Config.servoRate (sint t.rateNow) d c) }
  else b

/-- SYNC_RECEIVED (R69, R70): a sync from the grandmaster on the slave port; where no port is in slave
state the port becomes it. -/
def syncReceived (p : Fin 10) (gm : BitVec 64) (d : Int) (b : Blk) : Blk :=
  let t := b.time
  let pb : Byte := BitVec.ofNat 8 p.val
  if t.syncEn = false ∨ t.portEn p = false ∨ t.state = .master ∨ ¬ (t.slavePort = pb ∨ t.slavePort = noPort) then b
  else
    let same := t.gmId = gm
    let b1 := b.onTb fun t => { t with offset := argInt d, gmId := gm, slavePort := pb, lastSlave := pb }
    let small := d.natAbs ≤ 1000
    let good := if small then (if same then t.goodSyncs else 0) + 1 else 0
    let b2 := match t.state with
      | .unsynced =>
        if good ≥ 8 then b1.toSynced pb else b1.onTb fun t => { t with goodSyncs := good }
      | .synced => if d.natAbs > 10000 then b1.toUnsynced else b1
      | .holdover => if small then b1.toSynced pb else b1.toUnsynced
      | .master => b1
    b2.correct d true

/-- SYNC_RECEIPT_TIMEOUT (R69): syncReceiptTimeout or announceReceiptTimeout of the slave port. -/
def syncReceiptTimeout (b : Blk) : Blk :=
  if b.time.syncEn = false ∨ b.time.slavePort = noPort then b else b.slaveLost

/-- HOLDOVER_EXPIRY (R69). -/
def holdoverExpiry (b : Blk) : Blk := if b.time.state = .holdover then b.toUnsynced else b

/-- ANNOUNCE_RECEIVED (R68, R69): best master selection. A systemIdentity is better when it is smaller. -/
def announceReceived (p : Fin 10) (sys : BitVec 112) (b : Blk) : Blk :=
  let t := b.time
  let pb : Byte := BitVec.ofNat 8 p.val
  let ident : BitVec 64 := sys.truncate 64
  if t.syncEn = false ∨ t.portEn p = false ∨ t.extCfg then b
  else
    let own := t.ownSys
    let known := t.slavePort ≠ noPort
    let current := decide known && decide (t.slavePort = pb)
    if sys.toNat < own.toNat ∧ (known = false ∨ current ∨ sys.toNat < t.gmSys.toNat) then
      let b1 := b.onTb fun t => { t with slavePort := pb, lastSlave := pb, gmSys := sys, gmId := ident,
                                         goodSyncs := if t.gmId = ident then t.goodSyncs else 0 }
      if t.state = .master then
        (b1.tbEnter .unsynced).ev srcTb 0x25 1 (ident.truncate 32)
      else b1
    else if current ∧ own.toNat < sys.toNat ∧ t.gmCapable then b.becomeGm
    else b

/-- gPTP messages leave through the enabled ports that are not in slave state (R68). -/
def syncIntervalExpiry (p : Fin 10) (b : Blk) : Blk :=
  let t := b.time
  if t.syncEn = false ∨ t.portEn p = false ∨ t.slavePort = BitVec.ofNat 8 p.val then b
  else
    let n := t.syncSeq.get p
    b.onTb fun t => { t with syncSeq := vmod t.syncSeq p (· + 1),
                             sent := (p, .followUp, n) :: (p, .sync, n) :: t.sent }

/-- PDELAY_INTERVAL_EXPIRY (R68): peer delay is measured on every enabled port. -/
def pdelayIntervalExpiry (p : Fin 10) (b : Blk) : Blk :=
  let t := b.time
  if t.syncEn = false ∨ t.portEn p = false then b
  else
    let n := t.pdelaySeq.get p
    b.onTb fun t => { t with pdelaySeq := vmod t.pdelaySeq p (· + 1), sent := (p, .pdelayReq, n) :: t.sent }

/-- SLEW_COMPLETE (R70): the offset has reached 0 and the rate returns. -/
def slewComplete (b : Blk) : Blk :=
  if b.time.slewing then
    b.onTb fun t => { t with slewing := false, slewDelta := 0,
                             rateNow := BitVec.ofInt 32 (sint t.rateNow + t.slewDelta) }
  else b

/-- Whether an initiator's reads of time are redirected to the tick (R47): a breath-inbox tenant. -/
def Blk.gatedTime (b : Blk) : Initiator → Bool
  | .tenant t => !b.breath.modeSel.toNat.testBit t.val
  | _ => false

/-- The device time an initiator reads. -/
def Blk.dtFor (b : Blk) (i : Initiator) : BitVec 64 := if b.gatedTime i then b.breath.tickDt else b.time.dt

/-- An access that returned data. -/
def Blk.answer (b : Blk) (v : Nat) : Blk :=
  { b with reply := { data := BitVec.ofNat 64 v, fault := false, isolated := false } }

/-- TB_DT_LO_READ (R89): DT [31:0]; DT [63:32] is latched for the same initiator. -/
def tbDtLoRead (i : Initiator) (b : Blk) : Blk :=
  let d := (b.dtFor i).toNat
  (b.onTb fun t => { t with hiLatch := setKey t.hiLatch i (BitVec.ofNat 32 (d / 2 ^ 32)) }).answer (d % 2 ^ 32)

/-- The SYNC_RECEIVED row. -/
def execSyncReceived (p : Fin 10) (gm : BitVec 64) (d : Int) (s : State) : Res :=
  .next (s.onBlk (syncReceived p gm d))
/-- The SYNC_RECEIPT_TIMEOUT row. -/
def execSyncReceiptTimeout (s : State) : Res := .next (s.onBlk syncReceiptTimeout)
/-- The HOLDOVER_EXPIRY row. -/
def execHoldoverExpiry (s : State) : Res := .next (s.onBlk holdoverExpiry)
/-- The ANNOUNCE_RECEIVED row. -/
def execAnnounceReceived (p : Fin 10) (sys : BitVec 112) (s : State) : Res :=
  .next (s.onBlk (announceReceived p sys))
/-- The SYNC_INTERVAL_EXPIRY row. -/
def execSyncIntervalExpiry (p : Fin 10) (s : State) : Res := .next (s.onBlk (syncIntervalExpiry p))
/-- The PDELAY_INTERVAL_EXPIRY row. -/
def execPdelayIntervalExpiry (p : Fin 10) (s : State) : Res := .next (s.onBlk (pdelayIntervalExpiry p))
/-- The SLEW_COMPLETE row. -/
def execSlewComplete (s : State) : Res := .next (s.onBlk slewComplete)
/-- The TB_DT_LO_READ row. -/
def execTbDtLoRead (i : Initiator) (s : State) : Res := .next (s.onBlk (tbDtLoRead i))

end Sys2Proof.Machine
end

