-- ==== Sys2Proof/Machine/Channel.lean ====
section
/-! DEFINITION. A load channel as its kernel runs it: settings, the displayed state and fault code (R107,
R108, R152), the protection state machine (R131 to R147, R153), commands and actions (R96 to R102,
R122 to R125), the protection store (R155, R156). A pair keeps its protection state in the leader. -/

namespace Sys2Proof.Machine
open Sys2Proof

/-! ### Pairs (R119, R120, R142) -/

/-- The leader of a channel's pair; the channel itself when it is not paired. -/
def Blk.lead (b : Blk) (c : Fin 40) : Fin 40 :=
  if (b.ch c).paired ∧ c.val % 2 = 1 then ⟨c.val - 1, by omega⟩ else c

/-- Whether a channel follows another one. -/
def Blk.isFollower (b : Blk) (c : Fin 40) : Bool := (b.ch c).paired && c.val % 2 = 1

/-! ### Settings -/

/-- Class ratings in mA (R93). -/
def ChClass.continuous : ChClass → Nat
  | .h => 25000 | .m => 10000 | .l => 3000

/-- `I_LIM` in units of 10 mA (R158). -/
def Channel.iLim (ch : Channel) : Nat := bits ch.limit 13 0
def Channel.winMs (ch : Channel) : Nat := bits ch.inrush 8 0
def Channel.burst (ch : Channel) : Nat := bits ch.inrush 22 16
def Channel.winOnRestart (ch : Channel) : Bool := bit ch.inrush 24
def Channel.stretchEn (ch : Channel) : Bool := bit ch.inrush 25
def Channel.latchAfter (ch : Channel) : Nat := bits ch.retry 20 16
def Channel.thermAfter (ch : Channel) : Nat := bits ch.therm 11 8
def Channel.tjRestart (ch : Channel) : Nat := bits ch.therm 7 0
def Channel.cleanS (ch : Channel) : Nat := bits ch.retryTime 27 16

/-- The pause p(c) of R138 in ms. GROWTH 3 acts as times 2. -/
def Channel.pauseMs (ch : Channel) (c : Nat) : Nat :=
  let first := bits ch.retry 9 0
  let (num, den) := match bits ch.retry 11 10 with | 1 => (3, 2) | 2 => (4, 1) | _ => (2, 1)
  min (first * num ^ (c - 1) / den ^ (c - 1)) (bits ch.retryTime 15 0 * 10)

/-- `MODE` of a command word, with 3 acting as 0 (R96). -/
def cmdMode (w : Word) : Nat := if bits w 1 0 = 3 then 0 else bits w 1 0
/-- `DUTY` of a command word; values above 1,000 act as 1,000 (R96). -/
def cmdDuty (w : Word) : Nat := min (bits w 25 16) 1000
/-- Whether a set commands on or PWM. -/
def ShadowSet.wantsOn (sh : ShadowSet) : Bool := cmdMode sh.cmd ≠ 0
/-- The duty a set aims at, in 0.1 %. -/
def ShadowSet.target (sh : ShadowSet) : Nat :=
  match cmdMode sh.cmd with | 1 => 1000 | 2 => cmdDuty sh.cmd | _ => 0
/-- `SOFT_ON` and `SOFT_OFF` in ms; values above 4,000 act as 4,000 (R128). -/
def ShadowSet.softOn (sh : ShadowSet) : Nat := min (bits sh.ramp 11 0) 4000
def ShadowSet.softOff (sh : ShadowSet) : Nat := min (bits sh.ramp 27 16) 4000
def ShadowSet.freq (sh : ShadowSet) : Nat := bits sh.pwm 14 0
/-- Minimum pulse of R97 in ns. -/
def ShadowSet.minPulse (sh : ShadowSet) : Nat :=
  match bits sh.slew 1 0 with | 0 => 200000 | 1 => 50000 | _ => 15000

def Channel.wantsOn (ch : Channel) : Bool := ch.applied.wantsOn
def Channel.anyLatch (ch : Channel) : Bool := ch.retryLatch || ch.thermLatch || ch.arcLatch
/-- Latches as LATCH_SET codes them (R160). -/
def Channel.latchBits (ch : Channel) : Nat := b2n ch.retryLatch + 2 * b2n ch.thermLatch + 4 * b2n ch.arcLatch

/-- Any conducting state (R153): a shut-down counts while the output still conducts. -/
def Channel.conducting (ch : Channel) : Bool :=
  match ch.prot with
  | .on | .inrush | .limiting => !ch.quickOff
  | .shuttingDown | .pendingOn => ch.shutdownActive
  | _ => false

/-- Whether any action of R122 acts on the channel. -/
def Channel.inAction (ch : Channel) : Bool :=
  ch.coreHold || ch.isoHold || ch.unverHold || ch.fallbackOn || ch.safeOn

/-! ### Display (R108, R152, R128) -/

/-- `CH_STATE.STATE` (R152, R128). -/
def Channel.stateCode (ch : Channel) : Nat :=
  match ch.prot with
  | .latched => 5 | .thermal => 6 | .pause => 4 | .limiting => 3 | .pendingOn => 8 | .shuttingDown => 7
  | .inrush => if ch.isoHold then 10 else if ch.fallbackOn then 9 else 2
  | .on => if ch.isoHold then 10 else if ch.fallbackOn then 9 else 1
  | .off => if ch.isoHold then 10 else if ch.fallbackOn then 9 else 0

/-- `CH_STATE.ACTION`: the highest rank of R123. -/
def Channel.actionCode (ch : Channel) : Nat :=
  if ch.sleepOn then 6 else if ch.fallbackOn then 4 else if ch.safeOn then 5
  else if ch.coreHold then 1 else if ch.isoHold then 2 else if ch.unverHold then 3 else 0

/-- `CH_PROT_STATUS.CAUSE` codes (R158). -/
def Cause.code : Cause → Nat
  | .none => 0 | .shortA => 1 | .shortB => 2 | .limitTime => 3 | .junction => 4 | .wire => 5 | .arc => 6
  | .kernelOvertemp => 7 | .ground => 8 | .undervoltage => 9

/-- The cause shown: a supply cause of the kernel while the channel waits for it, then the trip cause. -/
def Blk.causeShown (b : Blk) (c : Fin 40) : Cause :=
  let ch := b.ch (b.lead c)
  let kn := b.kn (kOf c)
  if ch.supWait ∧ kn.overtemp then .kernelOvertemp
  else if ch.supWait ∧ kn.ground then .ground
  else if ch.supWait ∧ kn.under then .undervoltage
  else ch.cause

/-- The fault code of R108, lowest first; none when no cause holds. -/
def Blk.faultCode (b : Blk) (c : Fin 40) : Option Nat :=
  let ch := b.ch (b.lead c)
  let kn := b.kn (kOf c)
  if ch.prot = .latched then some 0xF06
  else match ch.cause with
    | .shortA | .shortB => some 0xF01
    | .limitTime => some 0xF02
    | .junction => some 0xF03
    | .wire => some 0xF04
    | .arc => some 0xF05
    | _ =>
      if kn.ground then some 0xF07
      else if kn.overtemp ∨ (b.bridges.get (kOf c)).state = .service then some 0xF0F
      else none

/-- The sense code of R107 for a current in mA: full scale twice the limit, four times for a leader. -/
def Blk.senseOf (b : Blk) (c : Fin 40) (mA : Int) : BitVec 12 :=
  match b.faultCode c with
  | some f => BitVec.ofNat 12 f
  | none =>
    let ch := b.ch c
    let full := (if ch.paired ∧ c.val % 2 = 0 then 4 else 2) * (b.ch (b.lead c)).iLim * 10
    if full = 0 then 0xEFF
    else BitVec.ofNat 12 (min 0xEFF ((mA.toNat * 3583 * 2 + full) / (2 * full)))

/-! ### Kernel records of a channel -/

/-- A channel's kernel captures a record with the channel as source. -/
def Blk.chev (b : Blk) (c : Fin 40) (code sev : Nat) (arg : Word) (pin : Bool := false) : Blk :=
  b.kev (kOf c) (srcCh c) code sev arg hw pin

/-- A sticky bit of CH_PROT_STICKY (R158). -/
def Blk.protSeen (b : Blk) (c : Fin 40) (i : Nat) : Blk :=
  b.modCh c fun ch => { ch with protSticky := orBits ch.protSticky (2 ^ i) }

/-- The protection store has changes to write (R155). -/
def Blk.protDirty (b : Blk) (c : Fin 40) : Blk := b.modK (kOf c) fun kn => { kn with protDirty := true }

/-! ### States and the clean timer (R140) -/

/-- The channel enters a state; the clean timer runs in ON only. -/
def Channel.enter (ch : Channel) (p : Prot) (now : BitVec 64) : Channel :=
  match ch.cleanFrom, p with
  | none, .on => { ch with prot := p, cleanFrom := some now }
  | some t0, .on => { ch with prot := p, cleanFrom := some t0 }
  | none, _ => { ch with prot := p }
  | some t0, _ => { ch with prot := p, cleanFrom := none, cleanAcc := ch.cleanAcc + (now.toNat - t0.toNat) }

def Blk.enter (b : Blk) (l : Fin 40) (p : Prot) : Blk := b.modCh l fun ch => ch.enter p b.time.dt

/-- The output stops: no pulse, ramp, retry or shut-down is left. -/
def Channel.outputOff (ch : Channel) : Channel :=
  { ch with quickOff := false, effDuty := 0, ramping := false, shutdownActive := false, limRun := none,
            limAcc := 0, limSeen := false }

/-! ### Inrush windows (R135, R136, R147) -/

/-- A window opens and BURST_LEFT is reloaded. -/
def Channel.openWindow (ch : Channel) (now : BitVec 64) : Channel :=
  { ch with winOpen := true, winStart := now, winLen := ch.winMs * 1000000, winFrozen := none, stretch := 0,
            burstLeft := ch.burst, quickUsed := 0 }

/-- A window closes: its quick retries and its stretch are logged (R136, R147). -/
def Blk.closeWindow (b : Blk) (l : Fin 40) (exhausted : Bool) : Blk :=
  let ch := b.ch l
  if ch.winOpen = false then b
  else
    let b1 := b.modCh l fun ch => { ch with winOpen := false, winFrozen := none, quickUsed := 0 }
    let b2 := if ch.quickUsed = 0 then b1
      else b1.chev l 0x43 1 (arg32 (min ch.quickUsed 127 + if exhausted then 256 else 0))
    if ch.stretch = 0 then b2 else b2.chev l 0x44 1 (arg32 (ch.stretch / 1000))

/-- The part of a limiting interval [`t0`, now] that lay in a neighbour's open window moves that window's
end later, up to twice the configured window (R147). -/
def Channel.stretchBy (ch : Channel) (t0 now : BitVec 64) : Channel :=
  if ch.winOpen ∧ ch.stretchEn ∧ ch.winFrozen.isNone then
    let past := now.toNat - max t0.toNat ch.winStart.toNat
    let add := min past (2 * ch.winLen - (ch.winLen + ch.stretch))
    if add = 0 then ch
    else { ch with stretch := ch.stretch + add, protSticky := orBits ch.protSticky 0x10 }
  else ch

/-- A limiting interval of `l` ended in a short or a trip (R147). -/
def Blk.stretchNeighbours (b : Blk) (l : Fin 40) : Blk :=
  let x := b.ch l
  if x.prot = .limiting then
    (chansOf (kOf l)).foldl (fun b c =>
      if c = l ∨ b.lead c = l then b else b.modCh c (·.stretchBy x.limStart b.time.dt)) b
  else b

/-! ### Turning on (R135, R139, R153) -/

/-- The output starts: at once, or on the soft-on ramp from 0 (R100). -/
def Channel.startOutput (ch : Channel) : Channel :=
  if ch.applied.softOn = 0 then { ch with effDuty := ch.applied.target, ramping := false }
  else { ch with effDuty := 0, ramping := decide (ch.applied.target ≠ 0) }

/-- A turn-on is deferred by a surge: logged once per channel and surge, the window frozen (R150). -/
def Blk.defer (b : Blk) (l : Fin 40) : Blk :=
  let ch := b.ch l
  let b1 := b.modCh l fun ch =>
    { ch with deferred := true, deferredLogged := true, protSticky := orBits ch.protSticky 0x40,
              winFrozen := if ch.winOpen ∧ ch.winFrozen.isNone then some b.time.dt else ch.winFrozen }
  if ch.deferredLogged then b1 else b1.chev l 0x4B 1 0

/-- The channel conducts again (R135, R139). -/
def Blk.restart (b : Blk) (l : Fin 40) : Blk :=
  b.modCh l fun ch =>
    let win := ch.winForce || ch.winOnRestart
    let c1 := ch.enter (if win then .inrush else .on) b.time.dt
    let c2 := if win then c1.openWindow b.time.dt else c1
    ({ c2 with winForce := false, thermTrip := false, supWait := false, wearWait := false, deferred := false,
               quickOff := false, switches := satInc c2.switches 0xFFFFFFFF,
               carrierStart := b.time.dt }).startOutput

/-- A channel that waits in PAUSE, THERMAL or LATCHED takes the state of R139: it restarts at the first
instant at which every condition holds. -/
def Blk.settle (b : Blk) (l : Fin 40) : Blk :=
  let ch := b.ch l
  let kn := b.kn (kOf l)
  if ¬ (ch.prot = .pause ∨ ch.prot = .thermal ∨ ch.prot = .latched) then b
  else if ch.anyLatch then b.enter l .latched
  else if kn.overtemp ∧ (ch.supWait ∨ ch.wantsOn) then
    (b.enter l .thermal).modCh l fun ch => { ch with supWait := true, winForce := true }
  else if ch.thermTrip ∧ (ch.tjBlock ∨ ch.wireBlock) then b.enter l .thermal
  else if ch.pauseRun ∨ ch.tjBlock ∨ ch.wireBlock ∨ kn.ground ∨ kn.under then
    (b.enter l .pause).modCh l fun ch =>
      let w := ch.supWait || (ch.wantsOn && (kn.ground || kn.under))
      { ch with supWait := w, winForce := ch.winForce || w }
  else if ch.wantsOn = false then
    (b.enter l .off).modCh l fun ch =>
      { ch with cause := .none, thermTrip := false, winForce := false, wearWait := false, supWait := false,
                deferred := false }
  else if b.rcc.mode = .sleep then b.enter l .pause
  else if kn.surge then (b.enter l .pause).defer l
  else if ch.unstored then
    if kn.allowance = 0 then
      let b1 := (b.enter l .pause).modCh l fun ch => { ch with wearWait := true }
      if ch.wearWait then b1 else b1.chev l 0x4D 2 0
    else b.enter l .pause
  else b.restart l

/-- The rows of R153 from OFF for an on or PWM command. -/
def Blk.turnOn (b : Blk) (l : Fin 40) : Blk :=
  let ch := b.ch l
  let kn := b.kn (kOf l)
  if ch.anyLatch then b.enter l .latched
  else if ch.pauseRun ∨ ch.tjBlock ∨ ch.wireBlock ∨ ch.unstored ∨ kn.ground ∨ kn.under ∨ kn.overtemp then
    ((b.enter l .pause).modCh l fun ch => { ch with winForce := true }).settle l
  else if kn.surge then b.defer l
  else (b.modCh l fun ch => { ch with winForce := true }).restart l

/-! ### Faults, pauses and latches (R137, R138) -/

/-- The channel is latched: LATCH_SET, and CHANNEL_LATCHED to those it concerns (R138, R240). -/
def Blk.latch (b : Blk) (l : Fin 40) (retry therm arc : Bool) : Blk :=
  let ch := b.ch l
  let b1 := b.modCh l fun ch =>
    { ch.enter .latched b.time.dt with
      retryLatch := ch.retryLatch || retry, thermLatch := ch.thermLatch || therm, arcLatch := ch.arcLatch || arc,
      cause := if arc then .arc else .none, pauseRun := false, protSticky := orBits ch.protSticky 8 }
  let set := b2n retry + 2 * b2n therm + 4 * b2n arc
  let b2 := (b1.protDirty l).chev l 0x47 3 (arg32 set) (pin := true)
  b2.notify 0x0480 [BitVec.ofNat 8 l.val, BitVec.ofNat 8 set, 0, 0]
    (fun i => i = ch.owner || (i.id < 8 && ch.roGrant.toNat.testBit i.id)
      || (i = .safety && ch.roGrant.toNat.testBit 8))

/-- What follows a counted fault (R138): latches, or the pause p(c) timed from now. -/
def Blk.decideFault (b : Blk) (l : Fin 40) (thermal : Bool) : Blk :=
  let ch := b.ch l
  let r := decide (ch.faultCount ≥ ch.latchAfter)
  let t := thermal && decide (ch.thermCount ≥ ch.thermAfter)
  if r ∨ t then b.latch l r t false
  else
    let p := ch.pauseMs ch.faultCount
    let b1 := b.modCh l fun ch =>
      { ch.enter (if thermal then .thermal else .pause) b.time.dt with
        pauseRun := true, pauseStart := b.time.dt, pauseLen := p }
    (b1.protDirty l).chev l 0x42 1 (arg32 p)

/-- One fault of the channel: counters, the fast turn-off, its record, the decision. `rec` makes the record
from the channel with its counters raised. -/
def Blk.fault (b : Blk) (l : Fin 40) (cause : Cause) (thermal : Bool) (seen : Nat)
    (record : Blk → Channel → Blk) : Blk :=
  let exhausted := (b.ch l).winOpen && (cause = .shortA || cause = .shortB)
  let b1 := b.stretchNeighbours l
  let b2 := b1.modCh l fun ch =>
    { ch.outputOff with
      faultCount := satInc ch.faultCount 31, thermCount := if thermal then satInc ch.thermCount 15 else ch.thermCount,
      cause := cause, thermTrip := ch.thermTrip || thermal, unstored := true, cleanFrom := none, cleanAcc := 0,
      protSticky := orBits ch.protSticky seen }
  let b3 := record b2 (b2.ch l)
  (b3.closeWindow l exhausted).decideFault l thermal

/-- An arc decision with ACTION = 1 (R117): off, the arc latch set directly, nothing counted. -/
def Blk.arcTrip (b : Blk) (l : Fin 40) : Blk :=
  let b1 := b.modCh l fun ch => { ch.outputOff with unstored := true }
  (b1.closeWindow l false).latch l false false true

/-! ### Commands at a tick (R96, R98, R101, R102, R145, R153) -/

/-- An on or PWM command that changes the target of an output that conducts. A duty change alone waits for
the carrier period (R98); otherwise the ramp of its direction runs, or the change is a step. -/
def Channel.retarget (ch : Channel) (old : ShadowSet) : Channel :=
  let tgt := ch.applied.target
  let soft := if ch.effDuty < tgt then ch.applied.softOn else ch.applied.softOff
  let dutyAlone := cmdMode old.cmd = 2 ∧ cmdMode ch.applied.cmd = 2
  if ch.effDuty = tgt then { ch with ramping := false }
  else if soft ≠ 0 then { ch with ramping := true }
  else if dutyAlone then { ch with ramping := false }
  else { ch with effDuty := tgt, ramping := false }

/-- A shut-down starts (R102): the soft-off ramp, or the output off at once. -/
def Channel.shutDown (ch : Channel) (now : BitVec 64) : Channel :=
  let c := { ch.enter .shuttingDown now with shutdownActive := true, quickOff := false, limRun := none, limAcc := 0 }
  if ch.applied.softOff = 0 ∨ ch.effDuty = 0 then { c with effDuty := 0, ramping := false }
  else { c with ramping := true }

/-- A set applies to the channel of leader `l` (R96, R153). -/
def Blk.applySet (b : Blk) (l : Fin 40) (ns : ShadowSet) : Blk :=
  let old := (b.ch l).applied
  let wasPwm := cmdMode old.cmd = 2
  let isPwm := cmdMode ns.cmd = 2
  let rephase := isPwm ∧ (¬ wasPwm ∨ old.pwm ≠ ns.pwm)
  let b1 := b.modCh l fun ch =>
    { ch with applied := ns, everApplied := true,
              carrierStart := if rephase then b.time.dt else ch.carrierStart }
  let ch := b1.ch l
  match ch.prot with
  | .off => if ns.wantsOn then b1.turnOn l else b1.modCh l fun ch => { ch with deferred := false }
  | .on | .inrush | .limiting =>
    if ns.wantsOn then b1.modCh l fun ch => ch.retarget old
    else (b1.closeWindow l false).modCh l fun ch => ch.shutDown b.time.dt
  | .shuttingDown =>
    if ns.wantsOn then
      let b2 := (b1.enter l .pendingOn).protSeen l 5
      b2.chev l 0x49 1 (arg32 (cmdMode ns.cmd))
    else b1
  | .pendingOn =>
    if ns.wantsOn then b1
    else if ch.shutdownActive then b1.enter l .shuttingDown
    else (b1.enter l .off).modCh l fun ch => { ch with cause := .none }
  | .pause | .thermal | .latched => b1.settle l

/-- A pending request whose shut-down is complete is carried out (R145, R493). -/
def Blk.carryOut (b : Blk) (l : Fin 40) : Blk :=
  let ch := b.ch l
  if ch.prot = .pendingOn ∧ ch.shutdownActive = false then
    ((b.enter l .off).chev l 0x4A 1 0).turnOn l
  else b

/-- Deferred turn-ons take place once the surge is over (R150). -/
def Blk.undefer (b : Blk) (l : Fin 40) : Blk :=
  let ch := b.ch l
  let b1 := b.modCh l fun ch =>
    { ch with deferred := false, deferredLogged := false, winFrozen := none,
              winStart := match ch.winFrozen with
                | some t0 => ch.winStart + (b.time.dt - t0)
                | none => ch.winStart }
  if ch.deferred = false then b1
  else if ch.quickOff then b1.modCh l fun ch => { ch with quickOff := false }
  else match ch.prot with
    | .off => if ch.wantsOn then b1.turnOn l else b1
    | .pause | .thermal => b1.settle l
    | _ => b1

/-- The latches named by a held clear are cleared (R141). Where none is set, nothing happens. -/
def Blk.clearLatches (b : Blk) (l : Fin 40) (mask : BitVec 3) (by_ : Nat) : Blk :=
  let ch := b.ch l
  let r := mask.toNat.testBit 0 && ch.retryLatch
  let t := mask.toNat.testBit 1 && ch.thermLatch
  let a := mask.toNat.testBit 2 && ch.arcLatch
  let done := b2n r + 2 * b2n t + 4 * b2n a
  if done = 0 then b
  else
    let b1 := b.modCh l fun ch =>
      { ch with retryLatch := ch.retryLatch && !r, thermLatch := ch.thermLatch && !t, arcLatch := ch.arcLatch && !a,
                faultCount := if r then 0 else ch.faultCount, thermCount := if t then 0 else ch.thermCount,
                cause := if a then .none else ch.cause }
    ((b1.protDirty l).chev l 0x48 2 (arg32 (done + by_ * 256)) (pin := true)).settle l

/-! ### Actions (R122 to R125) -/

/-- The last applied set is kept when the first trigger of an episode comes (R124). -/
def Channel.saveLast (ch : Channel) : Channel :=
  if ch.inAction then ch
  else { ch with lastApplied := if ch.everApplied then some ch.applied else none }

/-- The set a stored fallback state stands for (R124). -/
def Channel.fallbackSet (ch : Channel) : ShadowSet :=
  match bits ch.fallback 1 0 with
  | 3 => match ch.lastApplied with
    | some sh => sh
    | none => { ch.applied with cmd := 0 }
  | m => { ch.applied with cmd := mkWord [m, fld (bits ch.fallback 25 16) 10 16], pwm := ch.fallbackPwm }

/-- Whether an action of the kernel drives the leader of the channel. -/
def Blk.isLead (b : Blk) (c : Fin 40) : Bool := !b.isFollower c

/-- One channel takes its stored fallback state; sleep ranks above it (R123). -/
def Blk.toFallback (b : Blk) (c : Fin 40) : Blk :=
  let b1 := b.modCh c fun ch =>
    { ch.saveLast with fallbackOn := true, coreHold := false, isoHold := false, unverHold := false, safeOn := false,
                       sticky := orBits ch.sticky 0x10 }
  let ch := b1.ch c
  if ch.sleepOn then b1 else b1.applySet c ch.fallbackSet

/-- A mask of local channels. -/
def maskOf (l : List (Fin 40)) : Nat := (l.map (fun c => 2 ^ (c.val % 10))).foldl (· + ·) 0

/-- Fallback for channels of one kernel: FALLBACK_APPLIED with the cause of R130. A trigger that finds
every channel of its mask already in fallback logs nothing (R122). -/
def Blk.fallback (b : Blk) (k : Fin 4) (cs : List (Fin 40)) (cause : Nat) : Blk :=
  let leads := (cs.filter (fun c => b.isLead c)).filter (fun c => !(b.ch c).fallbackOn)
  if cs.isEmpty ∨ cs.all (fun c => (b.ch (b.lead c)).fallbackOn) then b
  else
    (leads.foldl Blk.toFallback b).kev k (srcK k) 2 3 (arg32 (maskOf cs + cause * 65536)) hw (pin := true)

/-- A hold begins on every channel of a kernel: the last applied state stays (R122). -/
def Blk.startIsoHold (b : Blk) (k : Fin 4) : Blk :=
  if (b.kn k).isoHoldStart.isSome then b
  else
    let b1 := (chansOf k).foldl (fun b c => if b.isFollower c ∨ (b.ch c).fallbackOn then b
      else b.modCh c fun ch => { ch.saveLast with isoHold := true }) b
    (b1.modK k fun kn => { kn with isoHoldStart := some b.time.dt }).kev k (srcK k) 1 2 1

/-- The core-reset hold (R122): with CORE_RESET = 1 the channel takes fallback at once. -/
def Blk.startCoreHold (b : Blk) (k : Fin 4) : Blk :=
  if (b.kn k).coreHoldStart.isSome then b
  else
    let now := (chansOf k).filter (fun c => bits (b.ch c).actions 1 0 = 1)
    let hold := (chansOf k).filter (fun c => bits (b.ch c).actions 1 0 ≠ 1)
    let b1 := hold.foldl (fun b c => if b.isFollower c ∨ (b.ch c).fallbackOn then b
      else b.modCh c fun ch => { ch.saveLast with coreHold := true }) b
    let b2 := (b1.modK k fun kn => { kn with coreHoldStart := some b.time.dt }).kev k (srcK k) 1 2 2
    b2.fallback k now 3

/-- The set a safe state stands for (R125): 0 fallback, 1 off, 2 on. -/
def Channel.safeSet (ch : Channel) : ShadowSet :=
  match bits ch.actions 3 2 with
  | 1 => { ch.applied with cmd := 0 }
  | 2 => { ch.applied with cmd := 1 }
  | _ => ch.fallbackSet

/-- The safe state of the unverified action (R52, R122, R125). -/
def Blk.toSafe (b : Blk) (c : Fin 40) : Blk :=
  let ch0 := b.ch c
  if ch0.safeOn ∨ ch0.fallbackOn ∨ b.isFollower c then b
  else
    let b1 := b.modCh c fun ch => { ch.saveLast with safeOn := true, unverHold := false, sticky := orBits ch.sticky 0x20 }
    let ch := b1.ch c
    let b2 := if ch.sleepOn then b1 else b1.applySet c ch.safeSet
    b2.chev c 7 3 (arg32 (bits ch.actions 3 2)) (pin := true)

/-- The sleep action (R122, R125): 0 off, 1 keep, 2 fallback. -/
def Blk.toSleep (b : Blk) (c : Fin 40) : Blk :=
  if b.isFollower c then b
  else
    let b1 := b.modCh c fun ch => { ch.saveLast with sleepOn := true }
    let ch := b1.ch c
    match bits ch.actions 5 4 with
    | 1 => b1
    | 2 => b1.applySet c ch.fallbackSet
    | _ => b1.applySet c { ch.applied with cmd := 0 }

/-- Whether a trigger of R122 still stands for a channel. -/
def Blk.triggered (b : Blk) (c : Fin 40) : Bool :=
  let ch := b.ch c
  ((b.bridges.get (kOf c)).state ≠ .joined)
    || (match b.rcc.mode with
        | .boot | .recovery | .lockdown | .sleep => true
        | .limp => match ch.owner with | .tenant _ => true | _ => false
        | _ => false)
    || b.rcc.episode.isSome
    || (ch.owner = .safety && b.dr.fbUntilVerified)

/-- The channel leaves every action (R124); the caller applies the owner's set and logs FALLBACK_LEFT. -/
def Channel.leaveActions (ch : Channel) : Channel :=
  { ch with coreHold := false, isoHold := false, unverHold := false, fallbackOn := false, safeOn := false,
            sleepOn := false }

/-! ### Supply faults (R144, R148, R149) -/

/-- A supply fault of a kernel turns its channels off: those that conduct or are commanded on wait, in
THERMAL for kernel overtemperature and in PAUSE otherwise; nothing is counted. -/
def Blk.supplyOff (b : Blk) (k : Fin 4) (thermal : Bool) : Blk :=
  (chansOf k).foldl (fun b c =>
    let ch := b.ch c
    if b.isFollower c ∨ ch.prot = .latched then b
    else
      let on := ch.conducting || ch.wantsOn
      let b1 := if ch.conducting ∨ ch.prot = .inrush ∨ ch.prot = .on ∨ ch.prot = .limiting then
          (b.modCh c Channel.outputOff).closeWindow c false else b
      let b2 := if thermal then b1 else b1.protSeen c 7
      if on = false then b2
      else if ¬ thermal ∧ ch.prot = .thermal then b2
      else (b2.enter c (if thermal then .thermal else .pause)).modCh c fun ch =>
        { ch with supWait := true, winForce := true, shutdownActive := false }) b

/-- The channels of a kernel that wait for a supply cause return to their commanded state; the mask names
those that do. -/
def Blk.supplyReturn (b : Blk) (k : Fin 4) : Nat × Blk :=
  (chansOf k).foldl (fun acc c =>
    let b := acc.2
    let ch := b.ch c
    if b.isFollower c ∨ ch.supWait = false ∨ ch.prot = .latched then acc
    else
      let kn := b.kn k
      let gone := ¬ kn.ground ∧ ¬ kn.under ∧ ¬ kn.overtemp
      let b1 := b.modCh c fun ch => { ch with supWait := false }
      if gone then (acc.1 + 2 ^ (c.val % 10), b1.settle c) else (acc.1, b1.settle c)) (0, b)

/-- The returns and deferred turn-ons that a tick, or the end of the kernel's own window, brings (R144,
R148 to R150, R493). In SLEEP they wait. -/
def Blk.kernelReturns (b : Blk) (k : Fin 4) : Blk :=
  if b.rcc.mode = .sleep then b
  else
    let kn := b.kn k
    let b1 := if kn.ground ∧ kn.groundGood then
        let r := (b.modK k fun kn => { kn with ground := false, groundGood := false }).supplyReturn k
        r.2.kev k (srcK k) 0x41 2 (arg32 r.1)
      else b
    let b2 := if kn.under ∧ kn.underGood then
        let r := (b1.modK k fun kn => { kn with under := false, underGood := false }).supplyReturn k
        r.2.kev k (srcK k) 0x43 1 (arg32 r.1)
      else b1
    let b3 := if kn.overtemp ∧ kn.overtempGood then
        let r := (b2.modK k fun kn => { kn with overtemp := false, overtempGood := false }).supplyReturn k
        r.2.kev k (srcK k) 0x47 2 (arg32 r.1)
      else b2
    let b4 := if kn.surgeOver then
        (chansOf k).foldl (fun b c => if b.isFollower c then b else b.undefer c)
          (b3.modK k fun kn => { kn with surgeOver := false })
      else b3
    (chansOf k).foldl (fun b c => if b.isFollower c then b else b.carryOut c) b4

/-! ### The protection store (R155, R156) -/

/-- The record of a kernel's counters and latches as they stand. -/
def Blk.protRec (b : Blk) (k : Fin 4) (gen allowance : Nat) : ProtRec :=
  { gen := gen, allowance := allowance,
    chans := (chansOf k).map fun c => let ch := b.ch c
      (ch.faultCount, ch.thermCount, ch.retryLatch, ch.thermLatch, ch.arcLatch) }

/-- One write of the store: the next slot, the allowance, every change of the kernel combined; then the
restarts that waited for it. -/
def Blk.protWrite (b : Blk) (k : Fin 4) : Blk :=
  let kn := b.kn k
  if kn.protDirty = false ∨ kn.allowance = 0 ∨ kn.powered = false then b
  else
    let gen := kn.protGen + 1
    let slot : Fin 16 := ⟨gen % 16, Nat.mod_lt _ (by decide)⟩
    let r := b.protRec k gen kn.allowance
    let b1 := b.modK k fun kn =>
      { kn with protRing := vmod kn.protRing slot (fun _ => some r), protGen := gen, protSlot := slot.val,
                allowance := kn.allowance - 1, protDirty := false }
    let b2 := (chansOf k).foldl (fun b c => b.modCh c fun ch => { ch with unstored := false, wearWait := false }) b1
    (chansOf k).foldl (fun b c => if b.isFollower c then b else b.settle c) b2

/-- The newest valid record of a kernel's store. -/
def Kernel.newestProt (kn : Kernel) : Option ProtRec :=
  (upTo 16).foldl (fun best i =>
    match best, kn.protRing.get i with
    | some x, some y => if y.gen > x.gen then some y else some x
    | none, r => r
    | some x, none => some x) none

/-- Counters and latches restored at a kernel's power-up (R156). -/
def Blk.protRestore (b : Blk) (k : Fin 4) : Blk :=
  match (b.kn k).newestProt with
  | none =>
    let b1 := b.modK k fun kn => { kn with allowance := 0, protDirty := false }
    let b2 := (chansOf k).foldl (fun b c => b.modCh c fun ch =>
      { ch with faultCount := 0, thermCount := 0, retryLatch := false, thermLatch := false, arcLatch := false,
                pauseRun := false, unstored := false }) b1
    b2.kev k (srcK k) 0x49 4 0 hw (pin := true)
  | some r =>
    let b1 := b.modK k fun kn => { kn with allowance := r.allowance, protGen := r.gen, protSlot := r.gen % 16,
                                           protDirty := false }
    (r.chans.zip (chansOf k)).foldl (fun b p =>
      let c := p.2
      let (f, t, lr, lt, la) := p.1
      let b1 := b.modCh c fun ch =>
        { ch with faultCount := f, thermCount := t, retryLatch := lr, thermLatch := lt, arcLatch := la,
                  unstored := false, pauseRun := false, cleanFrom := none, cleanAcc := 0 }
      if b.isFollower c then b1
      else if lr ∨ lt ∨ la then b1.enter c .latched
      else if f > 0 then
        let p := (b1.ch c).pauseMs f
        let b2 := (b1.enter c .pause).modCh c fun ch =>
          { ch with pauseRun := true, pauseStart := b.time.dt, pauseLen := p, winForce := true }
        b2.chev c 0x4C 2 (arg32 (f + min p 0xFFFF * 65536))
      else b1) b1

end Sys2Proof.Machine
end

