-- ==== Sys2Proof/Machine/Access.lean ====
section
/-! DEFINITION. Accesses that the shell refuses or that meet an absent unit (R2 to R4, R16, R17, R19, R51,
R180), tenant faults (R274), overruns of a breath (R51 to R54), and the meanings of the access family. -/

namespace Sys2Proof.Machine
open Sys2Proof

/-- SRC of the system. -/
def srcSys : BitVec 16 := srcOf 0 0

/-- A tenant's fault counter counts one more fault (R274). -/
def Blk.fault1 (b : Blk) : Initiator → Blk
  | .tenant t => b.modT t fun x => { x with faults := x.faults + 1 }
  | _ => b

/-- A read that the firewall refuses returns zero with an access fault; a write is dropped (R17). -/
def Blk.refuse (b : Blk) : Blk := { b with reply := { data := 0, fault := true, isolated := false } }

/-- A refused access (R17): one ACCESS_DENIED per initiator and breath, every refusal a fault. -/
def Blk.denied (b : Blk) (i : Initiator) (addr : Word) : Blk :=
  let b1 := (b.refuse).fault1 i
  if i ∈ b.breath.denied then b1
  else (b1.onBre fun r => { r with denied := i :: r.denied }).ev srcSys 2 2 addr ((idByte i))

/-- An unmapped access (R19): as a refused one, with its own record. -/
def Blk.unmapped (b : Blk) (i : Initiator) (addr : Word) : Blk :=
  let b1 := (b.refuse).fault1 i
  if i ∈ b.breath.unmapped then b1
  else (b1.onBre fun r => { r with unmapped := i :: r.unmapped }).ev srcSys 3 2 addr ((idByte i))

/-- An atomic access to a kernel window (R180). -/
def Blk.atomicRefused (b : Blk) (i : Initiator) (addr : Word) : Blk :=
  let b1 := (b.refuse).fault1 i
  let k : Fin 4 := ⟨addr.toNat / 0x1000000 % 4, Nat.mod_lt _ (by decide)⟩
  if i ∈ b.breath.atomics then b1
  else (b1.onBre fun r => { r with atomics := i :: r.atomics }).ev (srcBr k) 6 2 addr ((idByte i))

/-- The first access or command to an absent unit in each boot logs NOT_PRESENT_ACCESS (R2, R3). -/
def Blk.notPresent (b : Blk) (u : UnitName) (arg : Word) (i : Initiator) : Blk :=
  if u ∈ b.absentLogged then b
  else ({ b with absentLogged := u :: b.absentLogged }).ev srcSys 1 1 arg ((idByte i))

/-- Whether the variant, or a failed clock (R379), leaves a unit out. -/
def Blk.absent (b : Blk) : UnitName → Bool
  | .kernels23 | .tenants47 => b.variant = .nz820
  | .appCores23 => !b.full
  | .uplinks | .macsec | .arc | .liveSvc => !b.full
  | .block n => b.rcc.blkState.get n = .fail

/-! ### Overruns (R51 to R54) -/

/-- The producer of a queue as an initiator byte (R224). -/
def Queue.producer (q : Queue) : Nat := bits q.owners 7 0
def Queue.consumer (q : Queue) : Nat := bits q.owners 15 8
def Queue.gatedProd (q : Queue) : Bool := bit q.owners 16
def Queue.gatedCons (q : Queue) : Bool := bit q.owners 17
def Queue.isRequest (q : Queue) : Bool := bit q.owners 18
def Queue.enabled (q : Queue) : Bool := bit q.owners 19
def Queue.prodEngine (q : Queue) : Nat := bits q.owners 23 20
def Queue.consEngine (q : Queue) : Nat := bits q.owners 27 24

/-- Messages that a program holds in its outbound queues (R46). -/
def Blk.heldCount (b : Blk) (id : Nat) : Nat :=
  b.queues.toList.foldl (fun n q => if q.enabled ∧ q.producer = id then n + q.held.length else n) 0

/-- A tenant overruns the breath (R53): once per breath; its held messages will not be released. -/
def Blk.tenantOverrun (b : Blk) (t : Fin 8) : Blk :=
  if b.breath.outcome.toNat.testBit t.val then b
  else
    let n := satInc (b.breath.tovrConsec.get t) 127
    let b1 := b.onBre fun r =>
      { r with outcome := orBits r.outcome (2 ^ t.val), sticky := orBits r.sticky (2 ^ t.val),
               commitT := r.commitT &&& ~~~ (BitVec.ofNat 8 (2 ^ t.val)),
               tovrConsec := vmod r.tovrConsec t (fun _ => n),
               tovrTotal := vmod r.tovrTotal t (fun x => satInc x 0xFFFF) }
    b1.ev srcBre 0x12 2 (arg32 (n + (b.heldCount t.val) % 0x10000 * 65536)) (BitVec.ofNat 8 t.val)

/-- The Chanter overruns the breath (R54): once per breath. -/
def Blk.chanterOverrun (b : Blk) : Blk :=
  if b.breath.outcome.toNat.testBit 24 then b
  else
    let b1 := b.onBre fun r => { r with outcome := orBits r.outcome 0x1000000, sticky := orBits r.sticky 0x1000000 }
    b1.ev srcBre 0x18 3 0 0x20

/-- A safety overrun (R52): the outputs of the breath are not verified. `why` holds ARG bits [1:0]. -/
def Blk.safetyOverrun (b : Blk) (why : Nat) : Blk :=
  if b.breath.outcome.toNat.testBit 16 then b
  else
    let n := satInc b.breath.unverified 7
    let b1 := b.onBre fun r =>
      { r with outcome := orBits r.outcome 0x10000, sticky := orBits r.sticky 0x10000, unverified := n,
               commitS := false }
    b1.ev srcBre 0x11 3 (arg32 (why + n * 256)) 0x10

/-- A staging write that reaches the kernel after the commit deadline (R51). -/
def Blk.stageLate (b : Blk) (i : Initiator) (addr : Word) : Blk :=
  let b1 := if i ∈ b.breath.lateBy then b
    else (b.onBre fun r => { r with lateBy := i :: r.lateBy }).ev srcBre 0x14 2 addr ((idByte i))
  match i with
  | .tenant t => b1.tenantOverrun t
  | .safety => b1.safetyOverrun 2
  | .chanter => b1.chanterOverrun
  | _ => b1

/-- Whether staging is closed: from the commit deadline to the tick (R50). -/
def Blk.inGuard (b : Blk) : Bool := b.breath.running && b.breath.phase = 4

/-! ### Meanings -/

/-- NOT_PRESENT_ACCESS (R2, R3): nothing happens where the unit is present. -/
def notPresentAccess (i : Initiator) (u : UnitName) (a : AbsentAccess) (b : Blk) : Blk :=
  if b.absent u = false then b
  else match a with
    | .read addr => (b.answer 0).notPresent u addr i
    | .write addr => b.notPresent u addr i
    | .command op n => b.notPresent u (arg32 (op.toNat + n.toNat * 65536)) i

/-- The NOT_PRESENT_ACCESS row. -/
def execNotPresentAccess (i : Initiator) (u : UnitName) (a : AbsentAccess) (s : State) : Res :=
  .next (s.onBlk (notPresentAccess i u a))
/-- The ACCESS_DENIED row (R17). -/
def execAccessDenied (i : Initiator) (addr : Word) (s : State) : Res := .next (s.onBlk fun b => b.denied i addr)
/-- The UNMAPPED_ACCESS row (R19). -/
def execUnmappedAccess (i : Initiator) (addr : Word) (s : State) : Res :=
  .next (s.onBlk fun b => b.unmapped i addr)
/-- The ATOMIC_REFUSED row (R180). -/
def execAtomicRefused (i : Initiator) (addr : Word) (s : State) : Res :=
  .next (s.onBlk fun b => b.atomicRefused i addr)

end Sys2Proof.Machine
end

