-- ==== Sys2Proof/Machine/Protection.lean ====
section
/-! DEFINITION. The meanings of the channel-protection family (chapter *Load channel protection*). Each
row is an event that the kernel's analogue part, its sensors or its timers report; an event whose
condition the state does not meet changes nothing (log entry 8). -/

namespace Sys2Proof.Machine
open Sys2Proof

/-- A kernel that runs: present, powered, its controller not in reset. -/
def Blk.kernelRuns (b : Blk) (k : Fin 4) : Bool := b.hasKernel k && (b.kn k).powered

/-! ### Shorts, limiting, trips -/

/-- HARD_SHORT (R133, R136, R146): a quick retry inside an open window with burst left, a fault otherwise.
`peak` is the peak current in units of 10 mA. -/
def hardShort (c : Fin 40) (critB : Bool) (peak : BitVec 16) (b : Blk) : Blk :=
  let l := b.lead c
  let ch := b.ch l
  let cause := if critB then Cause.shortB else Cause.shortA
  if b.kernelRuns (kOf c) = false ∨ ch.conducting = false ∨ (critB ∧ ch.prot ≠ .limiting) then b
  else if ch.winOpen ∧ ch.burstLeft > 0 ∧ (ch.prot = .inrush ∨ ch.prot = .limiting) then
    let b1 := b.stretchNeighbours l
    b1.modCh l fun ch =>
      { ch.enter .inrush b.time.dt with
        quickOff := true, burstLeft := ch.burstLeft - 1, quickUsed := ch.quickUsed + 1, cause := cause,
        limRun := none, protSticky := orBits ch.protSticky 1 }
  else
    let ex := ch.winOpen
    b.fault l cause false 1 fun b ch =>
      b.chev c 0x40 3 (arg32 (b2n critB + 2 * b2n ex + ch.faultCount * 256 + peak.toNat * 65536))

/-- QUICK_RETRY_ON (R136): the output turns on again; a surge defers it (R150). -/
def quickRetryOn (c : Fin 40) (b : Blk) : Blk :=
  let l := b.lead c
  let ch := b.ch l
  if ch.quickOff = false ∨ ¬ (ch.prot = .inrush ∨ ch.prot = .on) then b
  else if (b.kn (kOf l)).surge then b.defer l
  else b.modCh l fun ch => { ch with quickOff := false }

/-- LIMITING_ENTRY (R132). The limit timer runs only with the window closed (R134, R136). -/
def limitingEntry (c : Fin 40) (b : Blk) : Blk :=
  let l := b.lead c
  let ch := b.ch l
  if (ch.prot = .on ∨ ch.prot = .inrush) ∧ ch.quickOff = false then
    b.modCh l fun ch =>
      { ch.enter .limiting b.time.dt with
        limStart := b.time.dt, limSeen := true, limRun := if ch.winOpen then none else some b.time.dt }
  else b

/-- Whether the limit timer sums over pulses: PWM, or a soft-on ramp on the carrier (R134). -/
def Channel.sumsLimit (ch : Channel) : Bool := cmdMode ch.applied.cmd = 2 || ch.ramping

/-- The limit timer up to now, in ns. -/
def Channel.limNow (ch : Channel) (now : BitVec 64) : Nat :=
  ch.limAcc + match ch.limRun with | some t0 => now.toNat - t0.toNat | none => 0

/-- LIMITING_EXIT (R132): below 0.9 of the limit for 10 µs. -/
def limitingExit (c : Fin 40) (b : Blk) : Blk :=
  let l := b.lead c
  let ch := b.ch l
  if ch.prot = .limiting then
    b.modCh l fun ch =>
      let acc := if ch.sumsLimit then ch.limNow b.time.dt else 0
      { ch.enter (if ch.winOpen then .inrush else .on) b.time.dt with limRun := none, limAcc := acc }
  else b

/-- OVERCURRENT_TRIP (R134): the limit timer has reached LIM_TIME with the window closed. -/
def overcurrentTrip (c : Fin 40) (mean : BitVec 16) (b : Blk) : Blk :=
  let l := b.lead c
  let ch := b.ch l
  if ch.prot ≠ .limiting ∨ ch.winOpen then b
  else b.fault l .limitTime false 2 fun b ch =>
    b.chev c 0x41 3 (arg32 (ch.faultCount * 256 + mean.toNat * 65536))

/-- INRUSH_WINDOW_END (R136, R147). -/
def inrushWindowEnd (c : Fin 40) (b : Blk) : Blk :=
  let l := b.lead c
  let ch := b.ch l
  if ch.winOpen = false ∨ ch.winFrozen.isSome then b
  else
    let b1 := b.closeWindow l false
    match ch.prot with
    | .limiting => b1.modCh l fun ch => { ch with limAcc := 0, limRun := some b.time.dt }
    | .inrush => b1.enter l .on
    | _ => b1

/-- PAUSE_END (R139): the fault pause has elapsed. -/
def pauseEnd (c : Fin 40) (b : Blk) : Blk :=
  let l := b.lead c
  if (b.ch l).pauseRun = false then b
  else (b.modCh l fun ch => { ch with pauseRun := false }).settle l

/-- CONDUCTS_WITHOUT_FAULT (R133): 1 ms of conduction with no short and no trip ends the cause. -/
def conductsWithoutFault (c : Fin 40) (b : Blk) : Blk :=
  let l := b.lead c
  if (b.ch l).conducting then b.modCh l fun ch => { ch with cause := .none } else b

/-! ### Thermal protection -/

/-- THERMAL_TRIP (R143): the junction of a conducting channel reached its trip level; `tj` in 1/16 °C. -/
def thermalTrip (c : Fin 40) (tj : BitVec 16) (b : Blk) : Blk :=
  let l := b.lead c
  if (b.ch l).conducting = false then b
  else
    let b1 := b.modCh l fun ch => { ch with tjBlock := true }
    b1.fault l .junction true 4 fun b ch =>
      b.chev c 0x45 3 (arg32 (tj.toNat + ch.faultCount * 65536 + ch.thermCount * 16777216))

/-- THERMAL_CLEAR (R143): the junction fell below TJ_RESTART. -/
def thermalClear (c : Fin 40) (tj : BitVec 16) (b : Blk) : Blk :=
  let l := b.lead c
  if (b.ch l).tjBlock = false then b
  else ((b.modCh l fun ch => { ch with tjBlock := false }).chev c 0x46 1 (arg32 tj.toNat)).settle l

/-- CLEAN_TIMER_EXPIRY (R140): each non-zero counter falls by one and the timer starts again. -/
def cleanTimerExpiry (c : Fin 40) (b : Blk) : Blk :=
  let l := b.lead c
  let ch := b.ch l
  if ch.prot ≠ .on then b
  else
    let b1 := b.modCh l fun ch =>
      { ch with faultCount := ch.faultCount - 1, thermCount := ch.thermCount - 1, cleanAcc := 0,
                cleanFrom := some b.time.dt }
    if ch.faultCount = 0 ∧ ch.thermCount = 0 then b1 else b1.protDirty l

/-- The conducting channels of a kernel as a mask. -/
def Blk.conductMask (b : Blk) (k : Fin 4) : Nat :=
  maskOf ((chansOf k).filter (fun c => (b.ch (b.lead c)).conducting))

/-- KERNEL_OVERTEMP (R144); `ktemp` in 1/16 °C. -/
def kernelOvertemp (k : Fin 4) (ktemp : BitVec 16) (b : Blk) : Blk :=
  if b.kernelRuns k = false ∨ ((b.kn k).overtemp ∧ (b.kn k).overtempGood = false) then b
  else
    let b1 := b.modK k fun kn =>
      { kn with overtemp := true, overtempGood := false, ktemp := ktemp, kflagsChg := true,
                supplySticky := orBits kn.supplySticky 8 }
    (b1.supplyOff k true).kev k (srcK k) 0x46 4 (arg32 ktemp.toNat) hw (pin := true)

/-- KERNEL_OVERTEMP_CLEAR (R144): below 150 °C; the returns follow at the first tick (R493). -/
def kernelOvertempClear (k : Fin 4) (ktemp : BitVec 16) (b : Blk) : Blk :=
  if (b.kn k).overtemp then b.modK k fun kn => { kn with overtempGood := true, ktemp := ktemp } else b

/-! ### Supply faults -/

/-- GROUND_LOST (R148). -/
def groundLost (k : Fin 4) (b : Blk) : Blk :=
  if b.kernelRuns k = false ∨ ((b.kn k).ground ∧ (b.kn k).groundGood = false) then b
  else
    let mask := b.conductMask k
    let b1 := b.modK k fun kn => { kn with ground := true, groundGood := false, kflagsChg := true,
                                           supplySticky := orBits kn.supplySticky 1 }
    (b1.supplyOff k false).kev k (srcK k) 0x40 4 (arg32 mask) hw (pin := true)

/-- GROUND_GOOD (R148): within 1.0 V for 10 ms; the returns follow at the first tick. -/
def groundGood (k : Fin 4) (b : Blk) : Blk :=
  if (b.kn k).ground then b.modK k fun kn => { kn with groundGood := true } else b

/-- UNDERVOLTAGE (R149); `lowest` is the lowest KVBAT in units of 2 mV. -/
def undervoltage (k : Fin 4) (lowest : BitVec 16) (b : Blk) : Blk :=
  if b.kernelRuns k = false ∨ ((b.kn k).under ∧ (b.kn k).underGood = false) then b
  else
    let b1 := b.modK k fun kn => { kn with under := true, underGood := false, kvbat := lowest, kflagsChg := true,
                                           vbatMin := if lowest.toNat < kn.vbatMin.toNat then lowest else kn.vbatMin,
                                           supplySticky := orBits kn.supplySticky 2 }
    (b1.supplyOff k false).kev k (srcK k) 0x42 3 (arg32 lowest.toNat)

/-- UNDERVOLTAGE_CLEAR (R149): above 8.5 V for 1 ms; the returns follow at the first tick. -/
def undervoltageClear (k : Fin 4) (b : Blk) : Blk :=
  if (b.kn k).under then b.modK k fun kn => { kn with underGood := true } else b

/-- KERNEL_CONTROLLER_RESET (R149): below 6.0 V the controller is held in reset; every channel is off. -/
def kernelControllerReset (k : Fin 4) (b : Blk) : Blk :=
  if b.kernelRuns k = false then b
  else
    let b1 := b.modK k fun kn => { kn with powered := false, ctrlReset := true, kflagsChg := true }
    (chansOf k).foldl (fun b c => b.modCh c fun ch =>
      { (ch.outputOff).enter .off b.time.dt with winOpen := false, supWait := false, deferred := false }) b1

/-- SURGE (R150); `kvbat` at entry in units of 2 mV. -/
def surge (k : Fin 4) (kvbat : BitVec 16) (b : Blk) : Blk :=
  if b.kernelRuns k = false ∨ (b.kn k).surge then b
  else
    let b1 := b.modK k fun kn =>
      { kn with surge := true, surgeOver := false, surgeStart := b.time.dt, surgePeak := kvbat, kvbat := kvbat,
                kflagsChg := true, supplySticky := orBits kn.supplySticky 4,
                vbatMax := if kvbat.toNat > kn.vbatMax.toNat then kvbat else kn.vbatMax }
    let b2 := (chansOf k).foldl (fun b c => b.modCh c fun ch => { ch with deferredLogged := false }) b1
    b2.kev k (srcK k) 0x44 3 (arg32 kvbat.toNat) hw (pin := true)

/-- SURGE_CLEAR (R150): the deferred turn-ons take place at the first tick afterward. -/
def surgeClear (k : Fin 4) (peak : BitVec 16) (b : Blk) : Blk :=
  let kn := b.kn k
  if kn.surge = false then b
  else
    let ms := min (b.since kn.surgeStart / 1000000) 0xFFFF
    (b.modK k fun kn => { kn with surge := false, surgeOver := true, surgePeak := peak, kflagsChg := true }).kev k
      (srcK k) 0x45 2 (arg32 (peak.toNat + ms * 65536))

/-- The kernels of a feed (R13). -/
def feedKernels (feedB : Bool) : List (Fin 4) := if feedB then [2, 3] else [0, 1]

/-- REVERSE_POLARITY (R151): the kernels of the feed are unpowered and their channels fully on by the
reverse gate drive, outside any measurement; the always-on region records the duration while VKA is
present. -/
def reversePolarity (feedB : Bool) (ticks : BitVec 48) (b : Blk) : Blk :=
  (feedKernels feedB).foldl (fun b k =>
    if b.hasKernel k = false then b
    else
      let first := decide (k.val % 2 = 0)
      let b1 := b.modK k fun kn =>
        { kn with powered := false, reversed := if first ∧ b.rcc.vka then some ticks else kn.reversed }
      (chansOf k).foldl (fun b c => b.modCh c fun ch =>
        { (ch.outputOff).enter .off b.time.dt with winOpen := false, supWait := false, deferred := false }) b1) b

/-! ### Power-up (R156, R122, R126, R115) -/

/-- The Reset values of a channel's staging registers (R128). -/
def resetShadow : ShadowSet := { cmd := 0, pwm := 0x3E8, ramp := 0, slew := 1 }

/-- The active image's record of a channel. -/
def Blk.chanCfg (b : Blk) (c : Fin 40) : Option ChanCfg :=
  match b.cfg.active with
  | some im => findKey im.channels c.val
  | none => none

/-- The start values of the active image (R261), loaded only when a kernel starts. -/
def Blk.startSet (b : Blk) (c : Fin 40) : ShadowSet :=
  match b.chanCfg c with
  | some g => { cmd := 0, pwm := g.start.1, ramp := g.start.2.1, slew := g.start.2.2 }
  | none => resetShadow

/-- A kernel's channels as its power-up leaves them before the stores are read. -/
def Blk.clearChannels (b : Blk) (k : Fin 4) : Blk :=
  (chansOf k).foldl (fun b c =>
    let st := b.startSet c
    b.modCh c fun ch =>
      { ch.outputOff with
        shadow := st, applied := st, prot := .off, cause := .none, thermTrip := false, winOpen := false,
        winForce := false, winFrozen := none, stretch := 0, quickUsed := 0, burstLeft := 0, pauseRun := false,
        deferred := false, deferredLogged := false, wearWait := false, unstored := false, tjBlock := false,
        wireBlock := false, supWait := false, cleanFrom := none, cleanAcc := 0, clearBits := 0, clearBy := none,
        coreHold := false, isoHold := false, unverHold := false, fallbackOn := false, safeOn := false,
        sleepOn := false, everApplied := false, lastApplied := none, dutyClamp := false, clampLogged := none,
        openLoad := false, wireWarn := false, arcWin := [], arcSeen := false, arcQuiet := 0,
        sticky := 0, protSticky := 0, live := 0 }) b

/-- The valid fallback copy with the higher generation (R126). -/
def Kernel.fbBest (kn : Kernel) : Option FbStore :=
  match kn.fbA, kn.fbB with
  | some x, some y => if y.gen > x.gen then some y else some x
  | some x, none => some x
  | none, r => r

/-- The fallback store read at power-up (R126). -/
def Blk.fbRestore (b : Blk) (k : Fin 4) : Blk :=
  match (b.kn k).fbBest with
  | some fb =>
    let b1 := b.modK k fun kn => { kn with holdTime := fb.holdTime, coreHold := fb.coreHold, route := fb.route,
                                           fbGen := fb.gen }
    (fb.chans.zip (chansOf k)).foldl (fun b p => b.modCh p.2 fun ch =>
      { ch with actions := p.1.1, fallback := p.1.2.1, fallbackPwm := p.1.2.2 }) b1
  | none =>
    let b1 := (chansOf k).foldl (fun b c => b.modCh c fun ch => { ch with fallback := 0 }) b
    b1.kev k (srcK k) 6 4 0 hw (pin := true)

def Channel.wmTau1 (ch : Channel) : Rat := (bits ch.wmTau 15 0 : Rat) / 10
def Channel.wmTau2 (ch : Channel) : Rat := (bits ch.wmTau 31 16 : Rat)

/-- A channel in use (R104, R115): the active image has a record of it. -/
def Blk.inUse (b : Blk) (c : Fin 40) : Bool := (b.chanCfg c).isSome

/-- Elapsed seconds by which a stored wire state is aged (R115): AOT since the commit; one second less
when the hold-up commit is missing; none when AOT was lost. -/
def Blk.wireAge (b : Blk) (saved : BitVec 48) : Option Rat :=
  if b.time.aotContinuous = false then none
  else
    let dt : Rat := ((b.time.aot.toNat - saved.toNat : Nat) : Rat) / 32768
    some (if b.rcc.holdupDone then dt else if dt < 1 then 0 else dt - 1)

/-- The wire model restored and aged (R115). -/
def Blk.wireRestore (b : Blk) (k : Fin 4) : Blk :=
  let b1 := (chansOf k).foldl (fun b c =>
    b.modCh c fun ch =>
      match ch.wmSave with
      | some (t1, t2, a, regs) =>
        if b.inUse c = false ∨ regs ≠ ch.wmRegs then { ch with th1 := 0, th2 := 0 }
        else match b.wireAge a with
          | some t => { ch with th1 := t1 * Config.expNeg (t / ch.wmTau1), th2 := t2 * Config.expNeg (t / ch.wmTau2) }
          | none => { ch with th1 := t1, th2 := t2 }
      | none => { ch with th1 := 0, th2 := 0 }) b
  let stored := (chansOf k).any (fun c => (b.ch c).wmSave.isSome)
  if stored ∧ b.time.aotContinuous = false then b1.kev k (srcK k) 7 2 0 else b1

/-- Energy, on time and switch counts restored (R126): without the hold-up commit, ENERGY_GAP. -/
def Blk.energyRestore (b : Blk) (k : Fin 4) : Blk :=
  let b1 := (chansOf k).foldl (fun b c => b.modCh c fun ch =>
    match ch.energySave with
    | some (e, o, n, _) => { ch with energy := e, onTime := o, onTimeNs := 0, switches := n }
    | none => ch) b
  match (b.ch (chanOf k 0)).energySave with
  | some (_, _, _, t0) =>
    if b.rcc.holdupDone then b1
    else b1.kev k (srcK k) 8 2 (arg32 (min (b.since t0 / 1000000000) 0xFFFFFFFF))
  | none => b1

/-- KERNEL_POWER_UP (R156, R122, R126, R115, R151). -/
def kernelPowerUp (k : Fin 4) (b : Blk) : Blk :=
  if b.hasKernel k = false ∨ (b.kn k).powered then b
  else
    let rev := (b.kn k).reversed
    let b1 := b.modK k fun kn =>
      { kn with powered := true, configId := 0, ctrlReset := false, reversed := none, ground := false, under := false, surge := false,
                overtemp := false, groundGood := false, underGood := false, surgeOver := false, overtempGood := false,
                buf := [], bufLost := 0, storedRecs := 0, heartbeat := 0, wdHold := false, isoHoldStart := none,
                coreHoldStart := none, gotCommit := false, commitBits := 0, swapFlag := false, confirmed := none,
                supplySticky := 0, kept := [], unconfirmed := [],
                sems := Vector.replicate 8 .free, peaks := Vector.replicate 10 0, vbatMin := 0xFFFF, vbatMax := 0 }
    let b2 := ((b1.clearChannels k).fbRestore k).protRestore k
    let b3 := b2.fallback k (chansOf k) 7
    let known := b.cfg.active.isSome
    let b4 := ((if known then b3.wireRestore k else b3).modK k fun kn => { kn with wireWait := !known }).energyRestore k
    match rev with
    | some t => b4.kev k (srcK k) 0x48 4 (arg32 (min (t.toNat / 32768) 0xFFFFFFFF)) hw (pin := true)
    | none => b4

/-- PROT_STORE_WRITE (R155). -/
def protStoreWrite (k : Fin 4) (b : Blk) : Blk := b.protWrite k

/-- ALLOWANCE_GAIN (R155): one per powered second, never above 3,600. -/
def allowanceGain (k : Fin 4) (b : Blk) : Blk :=
  if b.kernelRuns k then b.modK k fun kn => { kn with allowance := satInc kn.allowance 3600 } else b

/-! ### Meanings -/

def execHardShort (c : Fin 40) (critB : Bool) (peak : BitVec 16) (s : State) : Res :=
  .next (s.onBlk (hardShort c critB peak))
def execQuickRetryOn (c : Fin 40) (s : State) : Res := .next (s.onBlk (quickRetryOn c))
def execLimitingEntry (c : Fin 40) (s : State) : Res := .next (s.onBlk (limitingEntry c))
def execLimitingExit (c : Fin 40) (s : State) : Res := .next (s.onBlk (limitingExit c))
def execOvercurrentTrip (c : Fin 40) (mean : BitVec 16) (s : State) : Res :=
  .next (s.onBlk (overcurrentTrip c mean))
def execInrushWindowEnd (c : Fin 40) (s : State) : Res := .next (s.onBlk (inrushWindowEnd c))
def execPauseEnd (c : Fin 40) (s : State) : Res := .next (s.onBlk (pauseEnd c))
def execConductsWithoutFault (c : Fin 40) (s : State) : Res := .next (s.onBlk (conductsWithoutFault c))
def execThermalTrip (c : Fin 40) (tj : BitVec 16) (s : State) : Res := .next (s.onBlk (thermalTrip c tj))
def execThermalClear (c : Fin 40) (tj : BitVec 16) (s : State) : Res := .next (s.onBlk (thermalClear c tj))
def execCleanTimerExpiry (c : Fin 40) (s : State) : Res := .next (s.onBlk (cleanTimerExpiry c))
def execKernelOvertemp (k : Fin 4) (t : BitVec 16) (s : State) : Res := .next (s.onBlk (kernelOvertemp k t))
def execKernelOvertempClear (k : Fin 4) (t : BitVec 16) (s : State) : Res :=
  .next (s.onBlk (kernelOvertempClear k t))
def execGroundLost (k : Fin 4) (s : State) : Res := .next (s.onBlk (groundLost k))
def execGroundGood (k : Fin 4) (s : State) : Res := .next (s.onBlk (groundGood k))
def execUndervoltage (k : Fin 4) (v : BitVec 16) (s : State) : Res := .next (s.onBlk (undervoltage k v))
def execUndervoltageClear (k : Fin 4) (s : State) : Res := .next (s.onBlk (undervoltageClear k))
def execKernelControllerReset (k : Fin 4) (s : State) : Res := .next (s.onBlk (kernelControllerReset k))
def execSurge (k : Fin 4) (v : BitVec 16) (s : State) : Res := .next (s.onBlk (surge k v))
def execSurgeClear (k : Fin 4) (peak : BitVec 16) (s : State) : Res := .next (s.onBlk (surgeClear k peak))
def execReversePolarity (feedB : Bool) (ticks : BitVec 48) (s : State) : Res :=
  .next (s.onBlk (reversePolarity feedB ticks))
def execKernelPowerUp (k : Fin 4) (s : State) : Res := .next (s.onBlk (kernelPowerUp k))
def execProtStoreWrite (k : Fin 4) (s : State) : Res := .next (s.onBlk (protStoreWrite k))
def execAllowanceGain (k : Fin 4) (s : State) : Res := .next (s.onBlk (allowanceGain k))

end Sys2Proof.Machine
end

