-- ==== Sys2Proof/Machine/ChannelOps.lean ====
section
/-! DEFINITION. The meanings of the channel-operation family (chapter *Load channels*): shut-downs, the
carrier and its ramps, energy, the wire model, arc detection, open load, pairs, hold expiry, SENSE
routing, latch clears, and the addresses of a kernel window (R20). -/

namespace Sys2Proof.Machine
open Sys2Proof

/-! ### Kernel windows (R20) -/

/-- Base of kernel `k`'s window. -/
def winBase (k : Fin 4) : Nat := 0x50000000 + k.val * 0x1000000
/-- Base of a channel's page. -/
def pageBase (c : Fin 40) : Nat := winBase (kOf c) + 0x10000 + (c.val % 10) * 0x1000

/-- Who reaches a channel's page (R16): its owner and the Chanter. -/
def Blk.reaches (b : Blk) (i : Initiator) (c : Fin 40) : Bool := i = .chanter || (b.ch c).owner = i

/-- Whether accesses to a kernel's window are accepted (R199 to R201, R189): joined, and its controller not
in reset. -/
def Blk.windowOpen (b : Blk) (k : Fin 4) : Bool :=
  (b.bridges.get k).state = .joined && (b.kn k).powered

/-- An access that the bridge completes with status ISOLATED and an access fault (R199). -/
def Blk.isolatedAccess (b : Blk) : Blk := { b with reply := { data := 0, fault := true, isolated := true } }

/-- A channel value in a coarser unit: to the nearest, as sixteen bits (log entry 10). -/
def q16 (r : Rat) : BitVec 16 :=
  BitVec.ofInt 16 (max (-32768) (min 32767 ((r + 1 / 2 : Rat).floor)))

/-! ### Shut-down, carrier and ramps (R98 to R102) -/

/-- SHUTDOWN_COMPLETE (R102, R145): the conditions of R102 hold; a pending request waits for the tick. -/
def shutdownComplete (c : Fin 40) (b : Blk) : Blk :=
  let l := b.lead c
  let ch := b.ch l
  if ch.shutdownActive = false ∨ ch.ramping then b
  else
    let b1 := b.modCh l fun ch => { ch with shutdownActive := false, effDuty := 0 }
    if ch.prot = .shuttingDown then (b1.enter l .off).modCh l fun ch => { ch with cause := .none } else b1

/-- The carrier period in ns. -/
def ShadowSet.periodNs (sh : ShadowSet) : Rat := if sh.freq = 0 then 0 else 1000000000 / (sh.freq : Rat)

/-- The effective output of R99 for a duty in 0.1 %. -/
def ShadowSet.clampDuty (sh : ShadowSet) (d : Rat) : Rat :=
  let per := sh.periodNs
  let tmin : Rat := sh.minPulse
  let on := d / 1000 * per
  let off := per - on
  if on < tmin / 2 then 0
  else if on < tmin then min 1000 (tmin / per * 1000)
  else if off < tmin / 2 then 1000
  else if off < tmin then max 0 (1000 - tmin / per * 1000)
  else d

/-- One step of a ramp: the duty moves by one period's fraction of the ramp time toward its target (R100). -/
def Channel.rampStep (ch : Channel) : Channel :=
  let tgt : Rat := ch.applied.target
  let soft := if ch.shutdownActive then ch.applied.softOff
    else if ch.effDuty < tgt then ch.applied.softOn else ch.applied.softOff
  let goal : Rat := if ch.shutdownActive then 0 else tgt
  if soft = 0 then { ch with effDuty := goal, ramping := false }
  else
    let d := ch.applied.periodNs / 1000000 / (soft : Rat) * 1000
    if ch.effDuty < goal then
      if ch.effDuty + d < goal then { ch with effDuty := ch.effDuty + d }
      else { ch with effDuty := goal, ramping := false }
    else if goal < ch.effDuty - d then { ch with effDuty := ch.effDuty - d }
    else { ch with effDuty := goal, ramping := false }

/-- The limit timer at a period start: back to 0 after one whole period without limiting (R134). -/
def Channel.limPeriod (ch : Channel) : Channel :=
  if ch.limSeen then { ch with limSeen := decide (ch.prot = .limiting) }
  else { ch with limAcc := 0, limSeen := decide (ch.prot = .limiting) }

/-- CARRIER_PERIOD_START (R98 to R100, R134): a new duty or a ramp step takes effect, clamped by R99. -/
def carrierPeriodStart (c : Fin 40) (b : Blk) : Blk :=
  let ch := b.ch c
  if b.isFollower c ∨ ch.conducting = false ∨ ¬ (cmdMode ch.applied.cmd = 2 ∨ ch.ramping) then b
  else
    let b1 := b.modCh c fun ch =>
      let c1 := if ch.ramping then ch.rampStep else { ch with effDuty := ch.applied.target }
      c1.limPeriod
    let ch1 := b1.ch c
    let eff := ch1.applied.clampDuty ch1.effDuty
    let onCarrier := cmdMode ch1.applied.cmd = 2 ∨ ch1.ramping
    let clamped := decide onCarrier && decide (eff ≠ ch1.effDuty)
    let cmd := ch1.applied.target
    let atCmd := ch1.effDuty = cmd
    let log := clamped && decide atCmd && decide (ch1.clampLogged ≠ some cmd)
    let b2 := b1.modCh c fun ch =>
      { ch with dutyClamp := clamped, sticky := if clamped then orBits ch.sticky 8 else ch.sticky,
                clampLogged := if atCmd then (if clamped then some cmd else none) else ch.clampLogged }
    if log then b2.chev c 6 1 (arg32 (cmd + (q16 eff).toNat % 1024 * 65536)) else b2

/-- The effective duty as the snapshot shows it: in PWM or on a ramp after R99. -/
def Channel.dutyShown (ch : Channel) : Nat :=
  let d := if cmdMode ch.applied.cmd = 2 ∨ ch.ramping then ch.applied.clampDuty ch.effDuty else ch.effDuty
  if ch.conducting then (q16 d).toNat % 1024 else 0

/-! ### The wire model (R111 to R114) -/

def Channel.wmEn (ch : Channel) : Bool := bit ch.wmCtrl 0

/-- A signed byte field. -/
def sbyte (w : Word) (lo : Nat) : Int := (BitVec.ofNat 8 (bits w (lo + 7) lo)).toInt

/-- The ambient temperature of R113 in °C. -/
def Blk.ambient (b : Blk) (c : Fin 40) : Rat :=
  let ch := b.ch c
  let kn := b.kn (kOf c)
  match bits ch.wmCtrl 2 1 with
  | 1 => (kn.ktemp.toInt : Rat) / 16
  | 2 =>
    let ai := kn.ais.get ⟨bits ch.wmCtrl 5 4 % 4, Nat.mod_lt _ (by decide)⟩
    if bit ai.cfg 0 ∧ ai.isOpen = false ∧ ai.isShort = false then (ai.val.toInt : Rat) / 16
    else (sbyte ch.wmCtrl 16 : Rat)
  | _ => (sbyte ch.wmCtrl 8 : Rat)

/-- One step of the two-node model over `dt` seconds with the mean square `i2` in mA² (R111). -/
def Channel.wireStep (ch : Channel) (tamb : Rat) (i2 : Nat) (dt : Rat) : Channel :=
  let tc := tamb + ch.th1 + ch.th2
  let p := (i2 : Rat) / 1000000 * ((bits ch.wmRho 16 0 : Rat) / 1000000) * (1 + 393 / 100000 * (tc - 20))
  let r1 : Rat := (bits ch.wmRth 15 0 : Rat) / 1000
  let r2 : Rat := (bits ch.wmRth 31 16 : Rat) / 1000
  let t1 := max 0 (ch.th1 + (p * r1 - ch.th1) * dt / ch.wmTau1)
  let t2 := max 0 (ch.th2 + (p * r2 - ch.th2) * dt / ch.wmTau2)
  { ch with th1 := t1, th2 := t2, tamb := tamb, tc := tamb + t1 + t2 }

/-- The conductor temperature in 1/16 °C. -/
def Channel.tcArg (ch : Channel) : Word := (q16 (ch.tc * 16)).zeroExtend 32

/-- What the model does at a conductor temperature (R114). -/
def Blk.wireJudge (b : Blk) (c : Fin 40) : Blk :=
  let ch := b.ch c
  let tmax : Rat := (bits ch.wmLim 7 0 : Rat)
  let hyst : Rat := (bits ch.wmLim 15 8 : Rat)
  let warn : Rat := (bits ch.wmLim 23 16 : Rat)
  let b1 :=
    if bits ch.wmLim 23 16 ≠ 0 ∧ tmax - warn ≤ ch.tc ∧ ch.wireWarn = false then
      (b.modCh c fun ch => { ch with wireWarn := true }).chev c 2 2 ch.tcArg
    else if ch.tc < tmax - warn - hyst then b.modCh c fun ch => { ch with wireWarn := false }
    else b
  if tmax ≤ ch.tc ∧ ch.conducting then
    let b2 := b1.modCh c fun ch => { ch with wireBlock := true, sticky := orBits ch.sticky 2 }
    b2.fault c .wire true 4 fun b ch => b.chev c 3 3 ch.tcArg (pin := true)
  else if ch.wireBlock ∧ ch.tc ≤ tmax - hyst then
    ((b1.modCh c fun ch => { ch with wireBlock := false }).chev c 4 1 ch.tcArg).settle c
  else b1

/-- WIRE_MODEL_STEP (R111 to R114): `i2` holds each local channel's mean square current in mA² (a leader's
of the summed current). In SLEEP the kept channels step over 100 ms. -/
def wireModelStep (k : Fin 4) (i2 : List Nat) (b : Blk) : Blk :=
  if b.kernelRuns k = false then b
  else
    let asleep := decide (b.rcc.mode = .sleep)
    (chansOf k).foldl (fun b c =>
      let ch := b.ch c
      if b.isFollower c ∨ ch.wmEn = false ∨ (asleep ∧ bits ch.actions 5 4 ≠ 1) then b
      else
        let dt : Rat := if asleep then 1 / 10 else 1 / 1000
        (b.modCh c fun ch => ch.wireStep (b.ambient c) (i2.getD (c.val % 10) 0) dt).wireJudge c) b

/-! ### Energy and on time (R103, R105) -/

/-- The states in which the on time runs (R103). -/
def Channel.onTimeRuns (ch : Channel) : Bool :=
  match ch.prot with
  | .on | .inrush | .limiting => cmdMode ch.applied.cmd ≠ 2 || ch.applied.target ≠ 0
  | _ => false

/-- One millisecond of on time. -/
def Channel.onTimeStep (ch : Channel) : Channel :=
  let n := ch.onTimeNs + 1000000
  if n ≥ 1000000000 then { ch with onTime := satInc ch.onTime 0xFFFFFFFF, onTimeNs := n - 1000000000 }
  else { ch with onTimeNs := n }

/-- ENERGY_ACCUMULATE (R105): each channel's product over the millisecond, in mJ; only a positive one is
added. The on time advances with it (log entry 11). -/
def energyAccumulate (k : Fin 4) (mJ : List Int) (b : Blk) : Blk :=
  if b.kernelRuns k = false then b
  else (chansOf k).foldl (fun b c =>
    let e := mJ.getD (c.val % 10) 0
    let runs := (b.ch (b.lead c)).onTimeRuns
    b.modCh c fun ch =>
      let c1 := if e > 0 then { ch with energy := ch.energy + BitVec.ofInt 64 e } else ch
      if runs then c1.onTimeStep else c1) b

/-! ### Arc detection (R116, R117) -/

/-- Edges of the eight bands in Hz (R116). -/
def bandEdges : List Nat := [5000, 8890, 15800, 28100, 50000, 88900, 158000, 281000, 500000]

/-- Whether band `j` holds a harmonic of a carrier of `f` Hz. -/
def bandExcluded (f j : Nat) : Bool :=
  let lo := bandEdges.getD j 0
  let hi := bandEdges.getD (j + 1) 0
  f ≠ 0 && ceilDiv lo f * f < hi

/-- Mask of the excluded bands of a channel that runs PWM. -/
def Channel.excludedBands (ch : Channel) : Nat :=
  if cmdMode ch.applied.cmd = 2 then
    ((List.range 8).map (fun j => if bandExcluded ch.applied.freq j then 2 ^ j else 0)).foldl (· + ·) 0
  else 0

/-- Whether a frame is arc-like (R116). `iDc` in 10 mA units, `bands` the RMS currents in 10 µA units, so
that a band's share e_b in 0.1 % is band / max(iDc, ARC_IMIN). -/
def Channel.arcLike (ch : Channel) (iDc : Nat) (bands : List Nat) : Bool :=
  let excl := ch.excludedBands
  let used := (List.range 8).filter (fun j => !excl.testBit j)
  let base := max iDc (bits ch.arcImin 15 0)
  let hits := (used.filter (fun j => decide (bits ch.arcCtrl 23 16 * base ≤ bands.getD j 0))).length
  let need := max 3 (bits ch.arcCtrl 7 4 - (8 - used.length))
  let total := (used.map (fun j => bands.getD j 0 ^ 2)).foldl (· + ·) 0
  decide (need ≤ hits) && used.all (fun j => decide (2 * bands.getD j 0 ^ 2 ≤ total))

/-- `CH_ARC_LEVELS`: ceil(log2(e_b / 0.1 %)) per band, 0 to 15 (R128). -/
def arcLevel (band base : Nat) : Nat := ((List.range 15).find? (fun n => decide (band ≤ 2 ^ n * base))).getD 15

/-- ARC_FRAME (R116, R117). -/
def arcFrame (c : Fin 40) (iDc : BitVec 16) (bands : List Nat) (b : Blk) : Blk :=
  let ch := b.ch c
  if b.full = false ∨ b.hasChan c = false ∨ b.isFollower c ∨ bit ch.arcCtrl 0 = false then b
  else
    let judged := ch.prot ≠ .inrush ∧ ch.prot ≠ .limiting ∧ ch.ramping = false
      ∧ b.rcc.mode ≠ .standby ∧ b.rcc.mode ≠ .sleep
    let like := decide judged && ch.arcLike iDc.toNat bands
    let base := max iDc.toNat (bits ch.arcImin 15 0)
    let win := ((like, iDc.toNat) :: ch.arcWin).take 100
    let count := (win.filter (·.1)).length
    let sum := (win.map (·.2)).foldl (· + ·) 0
    let arc := decide (bits ch.arcCtrl 14 8 ≤ count) && decide (bits ch.arcImin 15 0 * win.length ≤ sum)
    let quiet := if arc then 0 else min 100 (ch.arcQuiet + 1)
    let b1 := b.modCh c fun ch =>
      { ch with arcWin := win, arcQuiet := quiet, arcExcluded := BitVec.ofNat 8 ch.excludedBands,
                arcSeen := arc || (ch.arcSeen && decide (quiet < 100)),
                sticky := if arc then orBits ch.sticky 1 else ch.sticky,
                arcLevels := if judged then
                    mkWord ((List.range 8).map fun j => fld (arcLevel (bands.getD j 0) base) 4 (4 * j))
                  else ch.arcLevels }
    if arc = false then b1
    else
      let b2 := if ch.arcSeen then b1
        else b1.chev c 1 3 (arg32 (count + min (sum / win.length) 0xFFFF * 65536)) (pin := true)
      if bit ch.arcCtrl 1 ∧ ch.conducting then b2.arcTrip c else b2

/-! ### Open load, means, pairs (R94, R106, R121) -/

/-- OPEN_LOAD (R106): the on-state check below ON_THRESH, or the off-state check. -/
def openLoad (c : Fin 40) (offState : Bool) (mean : BitVec 16) (b : Blk) : Blk :=
  let ch := b.ch c
  let st := b.ch (b.lead c)
  let thr := bits ch.openLoadCfg 15 0
  let holds := if offState then bit ch.openLoadCfg 16 && decide (st.prot = .off)
    else decide (thr ≠ 0) && st.conducting && decide (mean.toNat < thr)
  if b.inUse c = false ∨ ch.openLoad ∨ holds = false then b
  else (b.modCh c fun ch => { ch with openLoad := true, sticky := orBits ch.sticky 4 }).chev c 5 2
    (arg32 (mean.toNat + b2n offState * 65536))

/-- OPEN_LOAD_CLEAR (R106). -/
def openLoadClear (c : Fin 40) (b : Blk) : Blk := b.modCh c fun ch => { ch with openLoad := false }

/-- CURRENT_MEAN_UPDATE (R94): the 10 s mean in mA; CURRENT_HIGH above 60 A, again only after 57 A. -/
def currentMeanUpdate (k : Fin 4) (mean : BitVec 32) (b : Blk) : Blk :=
  if b.kernelRuns k = false then b
  else
    let m := mean.toNat
    let high := (b.kn k).curHigh
    let b1 := b.modK k fun kn =>
      { kn with iMean10 := mean, curHigh := if m > 60000 then true else if m < 57000 then false else kn.curHigh }
    if m > 60000 ∧ high = false then b1.kev k (srcK k) 4 2 mean else b1

/-- PAIR_MISMATCH (R121): currents in 10 mA units that differ by more than 30 % of their mean for 1 s. -/
def pairMismatch (c : Fin 40) (x y : BitVec 16) (b : Blk) : Blk :=
  let l := b.lead c
  let diff := max x.toNat y.toNat - min x.toNat y.toNat
  if (b.ch l).paired = false ∨ (b.ch l).conducting = false ∨ 20 * diff ≤ 3 * (x.toNat + y.toNat) then b
  else (b.modCh l fun ch => { ch with sticky := orBits ch.sticky 0x40 }).chev l 8 3
    (arg32 (x.toNat + y.toNat * 65536)) (pin := true)

/-! ### Holds, SENSE, latch clears, energy reads -/

/-- HOLD_EXPIRY (R122): the first expiry applies fallback. -/
def holdExpiry (k : Fin 4) (coreReset : Bool) (b : Blk) : Blk :=
  let kn := b.kn k
  if coreReset then
    if kn.coreHoldStart.isNone then b
    else b.fallback k ((chansOf k).filter (fun c => (b.ch (b.lead c)).coreHold)) 2
  else
    if kn.isoHoldStart.isNone ∨ (chansOf k).all (fun c => !(b.ch (b.lead c)).isoHold) then b
    else b.fallback k (chansOf k) 1

/-- SENSE_DRIVE_START (R110): the kernel that takes SENSEn drives it from 10 µs after the tick. -/
def senseDriveStart (n : Fin 4) (b : Blk) : Blk :=
  match b.senseNext.get n with
  | none => b
  | some c =>
    let b1 := { b with senseDrive := vmod b.senseDrive n (fun _ => some c),
                       senseNext := vmod b.senseNext n (fun _ => none) }
    b1.kev (kOf c) (srcK (kOf c)) 9 1 (arg32 (n.val + c.val * 256))

/-- A write of latch bits to `CH_PROT_CLEAR` that reaches the kernel (R141, R142, R51). -/
def Blk.holdClear (b : Blk) (i : Initiator) (c : Fin 40) (mask : Nat) : Blk :=
  if b.isFollower c then b
  else if b.inGuard then b.stageLate i (arg32 (pageBase c + 0x140))
  else b.modCh c fun ch => { ch with clearBits := ch.clearBits ||| BitVec.ofNat 3 mask, clearBy := some i }

/-- A PROT_CLEAR row: the owner or the Chanter; any other initiator is refused (R16, R17, R141). -/
def protClear (i : Initiator) (c : Fin 40) (mask : Nat) (b : Blk) : Blk :=
  if b.hasChan c = false then b.notPresent .kernels23 (arg32 (pageBase c + 0x140)) i
  else if b.reaches i c = false then b.denied i (arg32 (pageBase c + 0x140))
  else if b.windowOpen (kOf c) = false then b
  else b.holdClear i c mask

/-- PROT_CLEAR_RETRY, PROT_CLEAR_THERMAL, PROT_CLEAR_ARC (R141). -/
def protClearRetry (i : Initiator) (c : Fin 40) (b : Blk) : Blk := protClear i c 1 b
def protClearThermal (i : Initiator) (c : Fin 40) (b : Blk) : Blk := protClear i c 2 b
def protClearArc (i : Initiator) (c : Fin 40) (b : Blk) : Blk := protClear i c 4 b

/-- CH_ENERGY_LO_READ (R128): the low half; the high half is latched for the initiator and the channel. -/
def chEnergyLoRead (i : Initiator) (c : Fin 40) (b : Blk) : Blk :=
  if b.hasChan c = false then (b.answer 0).notPresent .kernels23 (arg32 (pageBase c + 0x218)) i
  else if b.reaches i c = false then b.denied i (arg32 (pageBase c + 0x218))
  else if b.windowOpen (kOf c) = false then b.isolatedAccess
  else
    let e := (b.ch c).energy.toNat
    (b.modCh c fun ch => { ch with energyLatch := setKey ch.energyLatch i (BitVec.ofNat 32 (e / 2 ^ 32)) }).answer
      (e % 2 ^ 32)

/-! ### Meanings -/

def execShutdownComplete (c : Fin 40) (s : State) : Res := .next (s.onBlk (shutdownComplete c))
def execCarrierPeriodStart (c : Fin 40) (s : State) : Res := .next (s.onBlk (carrierPeriodStart c))
def execWireModelStep (k : Fin 4) (i2 : List Nat) (s : State) : Res := .next (s.onBlk (wireModelStep k i2))
def execEnergyAccumulate (k : Fin 4) (mJ : List Int) (s : State) : Res := .next (s.onBlk (energyAccumulate k mJ))
def execArcFrame (c : Fin 40) (iDc : BitVec 16) (bands : List Nat) (s : State) : Res :=
  .next (s.onBlk (arcFrame c iDc bands))
def execOpenLoad (c : Fin 40) (offState : Bool) (mean : BitVec 16) (s : State) : Res :=
  .next (s.onBlk (openLoad c offState mean))
def execOpenLoadClear (c : Fin 40) (s : State) : Res := .next (s.onBlk (openLoadClear c))
def execCurrentMeanUpdate (k : Fin 4) (mean : BitVec 32) (s : State) : Res :=
  .next (s.onBlk (currentMeanUpdate k mean))
def execPairMismatch (c : Fin 40) (x y : BitVec 16) (s : State) : Res := .next (s.onBlk (pairMismatch c x y))
def execHoldExpiry (k : Fin 4) (coreReset : Bool) (s : State) : Res := .next (s.onBlk (holdExpiry k coreReset))
def execSenseDriveStart (n : Fin 4) (s : State) : Res := .next (s.onBlk (senseDriveStart n))
def execProtClearRetry (i : Initiator) (c : Fin 40) (s : State) : Res := .next (s.onBlk (protClearRetry i c))
def execProtClearThermal (i : Initiator) (c : Fin 40) (s : State) : Res := .next (s.onBlk (protClearThermal i c))
def execProtClearArc (i : Initiator) (c : Fin 40) (s : State) : Res := .next (s.onBlk (protClearArc i c))
def execChEnergyLoRead (i : Initiator) (c : Fin 40) (s : State) : Res := .next (s.onBlk (chEnergyLoRead i c))

end Sys2Proof.Machine
end

