-- ==== Sys2Proof/Machine/Inputs.lean ====
section
/-! DEFINITION. Digital and analogue inputs and the motion sensor (R162 to R177): window ends, latching,
the kernel section of the snapshot (R104, R174), and the meanings of the input family. -/

namespace Sys2Proof.Machine
open Sys2Proof

/-! ### Digital inputs -/

def Di.thresh (d : Di) : Nat := bits d.cfg 1 0
def Di.wet (d : Di) : Nat := bits d.cfg 10 9
def Di.activeLow (d : Di) : Bool := bit d.cfg 12
def Di.wake (d : Di) : Bool := bit d.cfg 13
def Di.evEn (d : Di) : Bool := bit d.cfg 14
def Di.chatterEdges (d : Di) : Nat := bits d.cfg 23 16
def Di.stuckTime (d : Di) : Nat := bits d.cfg2 15 0
/-- A wake source (R168). -/
def Di.wakeSource (d : Di) : Bool := d.wake && !d.chatMask && !d.stuckMask

/-- An input of a block. -/
def Blk.di (b : Blk) (d : Fin 32) : Di := (b.kn (kOfDi d)).dis.get (nOfDi d)
def Blk.modDi (b : Blk) (d : Fin 32) (f : Di → Di) : Blk :=
  b.modK (kOfDi d) fun kn => { kn with dis := vmod kn.dis (nOfDi d) f }

/-- SRC of a digital input, of an analogue input and of the motion sensor (R77, R177). -/
def srcDi (d : Fin 32) : BitVec 16 := srcOf 3 d.val
def srcAi (k : Fin 4) (a : Fin 4) : BitVec 16 := srcOf 3 (0x100 + 4 * k.val + a.val)
def srcMotion : BitVec 16 := srcOf 3 0x200

/-- Sticky bits of `DI_STICKY`. -/
def Blk.diSeen (b : Blk) (k : Fin 4) (i : Nat) : Blk :=
  b.modK k fun kn => { kn with diSticky := orBits kn.diSticky (2 ^ i) }

/-- DI_EDGE (R165, R163): a sample whose level is `high`, `offset` µs into the window. In SLEEP only
wake-role inputs are sampled (R164). -/
def diEdge (d : Fin 32) (high : Bool) (offset : BitVec 16) (b : Blk) : Blk :=
  let x := b.di d
  if b.kernelRuns (kOfDi d) = false ∨ (b.rcc.mode = .sleep ∧ x.wake = false) then b
  else
    let act := high != x.activeLow
    if act = x.active then b.modDi d fun x => { x with pin := high }
    else b.modDi d fun x =>
      { x with pin := high, active := act, edges := satInc x.edges 0xFFFF,
               firstEdge := if x.edges = 0 then offset else x.firstEdge, lastEdge := offset,
               lastEdgeDt := b.time.dt, activations := if act then x.activations + 1 else x.activations,
               activeSince := if act then b.time.dt else x.activeSince,
               cleaning := x.cleaning || (x.wet = 3 && !x.chatMask) }

/-- CLEANING_CURRENT_END (R163): 20 ms after the last edge that started it. -/
def cleaningCurrentEnd (d : Fin 32) (b : Blk) : Blk := b.modDi d fun x => { x with cleaning := false }

/-- A record that a kernel captures with a DT of its own. -/
def Blk.kevAt (b : Blk) (k : Fin 4) (src : BitVec 16) (code sev : Nat) (arg : Word) (dt : BitVec 64) : Blk :=
  let now := b.time.dt
  let b1 := (b.onTb fun t => { t with dt := dt }).kev k src code sev arg
  b1.onTb fun t => { t with dt := now }

/-- The end of one input's window (R165 to R168): values latched, chatter and quiet runs, masks. -/
def Blk.diWindow (b : Blk) (d : Fin 32) : Blk :=
  let k := kOfDi d
  let x := b.di d
  let chat := decide (x.edges > x.chatterEdges)
  let cr := if chat then x.chatRun + 1 else 0
  let qr := if chat then 0 else x.quietRun + 1
  let setM := decide (cr ≥ 3) && !x.chatMask
  let clrM := decide (qr ≥ 3) && x.chatMask
  let changed := x.evEn && (x.active != x.reported)
  let b1 := if changed then
      b.kevAt k (srcDi d) 1 0 (arg32 (b2n x.active + x.edges * 65536)) x.lastEdgeDt else b
  let b2 := b1.modDi d fun x =>
    { x with reported := x.active, chatter := chat, chatRun := min cr 3, quietRun := min qr 3,
             chatMask := (x.chatMask || setM) && !clrM,
             stuckSince := if x.wake ∧ x.active ∧ x.reported then x.stuckSince
               else if x.active ∨ ¬ x.wake then b.time.dt else x.stuckSince,
             inactSince := if x.active ∨ x.reported then b.time.dt else x.inactSince,
             latEdges := x.edges, latFirst := if x.edges = 0 then 0xFFFF else x.firstEdge,
             latLast := if x.edges = 0 then 0xFFFF else x.lastEdge,
             latActiveFor := if x.active then min (b.since x.activeSince / 1000000000) 0xFFFFFFFF else 0,
             edges := 0, firstEdge := 0xFFFF, lastEdge := 0xFFFF }
  let b3 := if setM then (b2.diSeen k (nOfDi d).val).kev k (srcDi d) 2 2 (arg32 x.edges) else b2
  if clrM then b3.kev k (srcDi d) 3 1 0 else b3

/-- DI_STUCK (R167): the stuck timer has reached STUCK_TIME. -/
def diStuck (d : Fin 32) (b : Blk) : Blk :=
  let x := b.di d
  if x.wake = false ∨ x.reported = false ∨ x.stuck ∨ b.kernelRuns (kOfDi d) = false then b
  else
    let b1 := b.modDi d fun x => { x with stuck := true, stuckMask := true }
    (b1.diSeen (kOfDi d) (8 + (nOfDi d).val)).kev (kOfDi d) (srcDi d) 4 2 (arg32 x.stuckTime)

/-- DI_REARMED (R167): reported inactive at every window end for 1 s. -/
def diRearmed (d : Fin 32) (b : Blk) : Blk :=
  let x := b.di d
  if x.stuck = false ∨ x.reported then b
  else
    let act := min ((x.inactSince.toNat - x.stuckSince.toNat) / 1000000000) 0xFFFFFFFF
    (b.modDi d fun x => { x with stuck := false, stuckMask := false }).kev (kOfDi d) (srcDi d) 5 1 (arg32 act)

/-- Configuration bits whose change clears an input's runs, timer and masks (R169). -/
def diSensitive (w : Word) : Word := w &&& 0x19FF

/-- A swap sets an input's registers (R169). -/
def Di.configure (x : Di) (cfg cfg2 : Word) (now : BitVec 64) : Di :=
  let y := { x with cfg := cfg, cfg2 := cfg2 }
  if diSensitive cfg = diSensitive x.cfg then y
  else { y with active := x.pin != y.activeLow, chatRun := 0, quietRun := 0, stuck := false, stuckMask := false,
                chatMask := false, stuckSince := now }

/-! ### Analogue inputs (R170, R171) -/

/-- The NTC resistance in ohms behind a code. -/
def ntcOhm (code : Nat) : Rat := 10000 * (code : Rat) / (65536 - (code : Rat))

/-- The temperature of R171 in 1/16 °C, clamped to -55 to 200 °C. -/
def ntcValue (cfg : Word) (code : Nat) : BitVec 16 :=
  let r25 : Rat := (bits cfg 15 2 : Rat) * 10
  let beta : Rat := (bits cfg 28 16 : Rat)
  let t := 1 / (100 / 29815 + Config.ln (ntcOhm code / r25) / beta) - 27315 / 100
  q16 (max (-55) (min 200 t) * 16)

/-- The latched values of one analogue input. -/
def Ai.latch (x : Ai) (m : AiMeas) : Ai :=
  let code := m.raw.toNat
  if bit x.cfg 0 then
    let o := decide (500000 < ntcOhm code)
    let s := decide (ntcOhm code < 50)
    { x with raw := m.raw, lo := m.lo, hi := m.hi, isOpen := o, isShort := s, isOver := false,
             val := if o ∨ s then 0x8000 else ntcValue x.cfg code }
  else
    { x with raw := m.raw, lo := m.lo, hi := m.hi, isOpen := false, isShort := false,
             isOver := decide (m.hi = 0xFFFF), val := BitVec.ofNat 16 ((code * 25 + 16) / 32) }

/-- The end of one analogue input's window: values, flags and their records. -/
def Blk.aiWindow (b : Blk) (k a : Fin 4) (m : AiMeas) : Blk :=
  let x := (b.kn k).ais.get a
  let y := x.latch m
  let raw : Word := m.raw.zeroExtend 32
  let b1 := b.modK k fun kn => { kn with ais := vmod kn.ais a (fun _ => y) }
  let b2 := if y.isOpen ∧ ¬ x.isOpen then (b1.diSeen k (16 + a.val)).kev k (srcAi k a) 6 2 raw else b1
  let b3 := if y.isShort ∧ ¬ x.isShort then (b2.diSeen k (16 + a.val)).kev k (srcAi k a) 7 2 raw else b2
  let b4 := if (x.isOpen ∨ x.isShort) ∧ ¬ y.isOpen ∧ ¬ y.isShort then b3.kev k (srcAi k a) 8 1 raw else b3
  if y.isOver ∧ ¬ x.isOver then (b4.diSeen k (20 + a.val)).kev k (srcAi k a) 9 1 (m.hi.zeroExtend 32) else b4

/-! ### Motion (R172, R173) -/

def Blk.onMotion (b : Blk) (f : Motion → Motion) : Blk := { b with motion := f b.motion }

/-- `SEIS_THRESH` in mg and `SHOCK_THRESH` in 0.1 g. -/
def Motion.seis (m : Motion) : Nat := bits m.cfg 7 0
def Motion.shockTh (m : Motion) : Nat := bits m.cfg 15 8

/-- The motion quantities of a window; the rearming of SEISMIC after 10 s below half its level. -/
def Blk.motionWindow (b : Blk) (m : MotionMeas) : Blk :=
  b.onMotion fun x =>
    let low := if 2 * m.rms1.toNat < x.seis * 10 then x.seismicLow else b.time.dt
    { x with x := m.x, y := m.y, z := m.z, peak := m.peak, rms10 := m.rms10, rms1 := m.rms1, tilt := m.tilt,
             seismicLow := low, seismicOn := x.seismicOn && decide (b.since low < 10000000000) }

/-- SEISMIC (R173): RMS 1 s in 0.1 mg above the threshold. -/
def seismic (rms : BitVec 16) (b : Blk) : Blk :=
  if b.kernelRuns 0 = false ∨ b.rcc.mode = .sleep ∨ b.motion.seismicOn ∨ rms.toNat ≤ b.motion.seis * 10 then b
  else (b.onMotion fun m => { m with seismicOn := true, seismicLow := b.time.dt }).kev 0 srcMotion 0x10 2
    (rms.zeroExtend 32) (pin := true)

/-- SHOCK (R173): the peak in 1/4096 g above the threshold, at most one record per second. -/
def shock (peak : BitVec 16) (b : Blk) : Blk :=
  let recent : Bool := match b.motion.shockDt with | some t => decide (b.since t < 1000000000) | none => false
  if b.kernelRuns 0 = false ∨ b.rcc.mode = .sleep ∨ peak.toNat * 10 ≤ b.motion.shockTh * 4096 ∨ recent then b
  else ((b.onMotion fun m => { m with shockDt := some b.time.dt }).diSeen 0 24).kev 0 srcMotion 0x11 3
    (peak.zeroExtend 32) (pin := true)

/-- MOTION_FAULT (R173): logged once. -/
def motionFault (b : Blk) : Blk :=
  if b.kernelRuns 0 = false ∨ b.motion.fault then b
  else (b.onMotion fun m => { m with fault := true }).kev 0 srcMotion 0x12 3 0 (pin := true)

/-- MOTION_READY (R172): 10 s of samples exist. -/
def motionReady (b : Blk) : Blk :=
  if (b.bridges.get 0).state = .service then b else b.onMotion fun m => { m with notReady := false }

/-! ### Latching (K1, R103, R104, R174) -/

/-- `KFLAGS` (R104). -/
def Blk.kflags (b : Blk) (k : Fin 4) : Nat :=
  let kn := b.kn k
  let cs := (chansOf k).map b.ch
  b2n (cs.any fun ch => ch.coreHold || ch.isoHold || ch.unverHold) + 2 * b2n (cs.any (·.fallbackOn))
    + 4 * b2n ((b.bridges.get k).state = .service) + 8 * b2n kn.ground + 16 * b2n kn.under
    + 32 * b2n kn.surge + 64 * b2n kn.overtemp

/-- FLAGS of a channel record (R104, R128). -/
def Blk.chFlags (b : Blk) (c : Fin 40) : Nat :=
  let ch := b.ch c
  let l := b.ch (b.lead c)
  b2n (cmdMode l.applied.cmd = 2) + 2 * b2n l.ramping + 4 * b2n l.dutyClamp + 8 * b2n ch.arcSeen
    + 16 * b2n ch.wireWarn + 32 * b2n ch.openLoad + 64 * b2n (b.isFollower c) + 128 * b2n (l.actionCode ≠ 0)

/-- Arc-like frames in the window. -/
def Blk.arcCount (b : Blk) (c : Fin 40) : Nat :=
  if b.full then ((b.ch c).arcWin.filter (·.1)).length else 0

/-- The current that a channel's sense code shows: a leader's is the sum of its pair (R120). -/
def Blk.pairSum (b : Blk) (c : Fin 40) (f : Fin 40 → Int) : Int :=
  if (b.ch c).paired ∧ c.val % 2 = 0 then f c + f ⟨(c.val + 1) % 40, Nat.mod_lt _ (by decide)⟩ else f c

/-- What K1 latches of one channel. -/
def Blk.latchChannel (b : Blk) (c : Fin 40) (ms : List ChanMeas) : Blk :=
  let m := ms.getD (c.val % 10) { iMean := 0, iPeak := 0, vOut := 0, tj := 0, iLive := 0 }
  let at_ := fun (c : Fin 40) => ms.getD (c.val % 10) { iMean := 0, iPeak := 0, vOut := 0, tj := 0, iLive := 0 }
  let l := b.ch (b.lead c)
  let ch := b.ch c
  let sn : ChanSnap :=
    { sense := b.senseOf c (b.pairSum c fun c => (at_ c).iMean.toInt), state := l.stateCode,
      flags := BitVec.ofNat 8 (b.chFlags c), iMean := m.iMean, iPeak := m.iPeak, vOut := m.vOut, tj := m.tj,
      wireT := if ch.wmEn ∧ b.isFollower c = false then q16 (ch.tc * 16) else 0x8000,
      energy := ch.energy, duty := l.dutyShown, mode := cmdMode l.applied.cmd, faults := l.faultCount,
      arcFrames := b.arcCount c, onTime := ch.onTime, switches := ch.switches }
  (b.modCh c fun ch =>
      { ch with snap := sn, live := b.senseOf c (b.pairSum c fun c => (at_ c).iLive.toInt) }).modK (kOf c)
    fun kn => { kn with peaks := vmod kn.peaks (nOf c) (fun p => if p.toNat < m.iPeak.toNat then m.iPeak else p) }

/-- The 64-byte record of a channel (R104). -/
def ChanSnap.bytes (s : ChanSnap) : List Byte :=
  leBytes 2 s.sense.toNat ++ leBytes 1 s.state ++ [s.flags] ++ leBytes 4 s.iMean.toNat ++ leBytes 2 s.iPeak.toNat
    ++ leBytes 2 s.vOut.toNat ++ leBytes 2 s.tj.toNat ++ leBytes 2 s.wireT.toNat ++ leBytes 8 s.energy.toNat
    ++ leBytes 2 s.duty ++ leBytes 1 s.mode ++ leBytes 1 s.faults ++ leBytes 2 s.arcFrames ++ leBytes 2 0
    ++ leBytes 4 s.onTime ++ leBytes 4 s.switches ++ List.replicate 24 0

/-- A mask of the local inputs of a kernel. -/
def Kernel.diMask (kn : Kernel) (f : Di → Bool) : Nat :=
  ((upTo 8).map (fun n => if f (kn.dis.get n) then 2 ^ n.val else 0)).foldl (· + ·) 0

/-- The 16-byte record of a digital input (R174). -/
def Di.bytes (x : Di) : List Byte :=
  leBytes 2 x.latEdges ++ leBytes 2 x.latFirst.toNat ++ leBytes 2 x.latLast.toNat
    ++ leBytes 1 (b2n x.pin + 2 * b2n x.chatter + 4 * b2n x.stuck + 8 * b2n x.chatMask + 16 * b2n x.cleaning)
    ++ [0] ++ leBytes 4 x.activations.toNat ++ leBytes 4 x.latActiveFor

/-- Flags of an analogue record and nibble of `AI_STATUS`. -/
def Ai.flags (x : Ai) : Nat := b2n (bit x.cfg 0) + 2 * b2n x.isOpen + 4 * b2n x.isShort + 8 * b2n x.isOver

/-- The 16-byte record of an analogue input. -/
def Ai.bytes (x : Ai) : List Byte :=
  leBytes 2 x.raw.toNat ++ leBytes 2 x.val.toNat ++ leBytes 2 x.lo.toNat ++ leBytes 2 x.hi.toNat
    ++ leBytes 1 x.flags ++ List.replicate 7 0

/-- Flags of the motion record. -/
def Motion.flags (m : Motion) : Nat := b2n m.notReady + 2 * b2n m.ref.isNone + 4 * b2n m.fault

/-- The 32-byte motion record; zero but for the flags while FAULT is set (R173). -/
def Motion.bytes (m : Motion) : List Byte :=
  let v := fun (x : BitVec 16) => if m.fault then leBytes 2 0 else leBytes 2 x.toNat
  v m.x ++ v m.y ++ v m.z ++ v m.peak ++ v m.rms10 ++ v m.rms1 ++ v m.tilt ++ leBytes 1 m.flags
    ++ List.replicate 17 0

/-- The kernel header's last part, bytes 8 to 63 of the section (R104). -/
def Blk.kernelHeader (b : Blk) (k : Fin 4) : List Byte :=
  let kn := b.kn k
  let live := maskOf ((chansOf k).filter b.inUse)
  leBytes 2 (b.kflags k) ++ leBytes 2 kn.ktemp.toNat ++ leBytes 2 kn.kvbat.toNat ++ leBytes 2 0
    ++ leBytes 4 kn.iTotal.toNat ++ leBytes 4 kn.iMean10.toNat ++ leBytes 2 live ++ List.replicate 38 0

/-- The kernel section of the snapshot, 0x000 to 0x6FF (R104, R174). -/
def Blk.section_ (b : Blk) (k : Fin 4) (bn : BitVec 48) : List Byte :=
  let kn := b.kn k
  leBytes 8 bn.toNat ++ b.kernelHeader k ++ (chansOf k).flatMap (fun c => (b.ch c).snap.bytes)
    ++ List.replicate 64 0
    ++ leBytes 1 (kn.diMask (·.reported)) ++ leBytes 1 (kn.diMask (·.chatter)) ++ leBytes 1 (kn.diMask (·.stuck))
    ++ leBytes 1 (kn.diMask Di.wakeSource) ++ List.replicate 28 0
    ++ (upTo 8).flatMap (fun n => (kn.dis.get n).bytes) ++ (upTo 4).flatMap (fun n => (kn.ais.get n).bytes)
    ++ (if k = 0 then b.motion.bytes else List.replicate 32 0) ++ List.replicate 768 0

/-- The end of a kernel's window for its inputs and its own sensors. In SLEEP only wake-role inputs are
judged, and the motion sensor is not read (R164, R172). -/
def Blk.inputWindow (b : Blk) (k : Fin 4) (m : KernelMeas) : Blk :=
  let asleep := decide (b.rcc.mode = .sleep)
  let b1 := (upTo 8).foldl (fun b n => if asleep ∧ (b.di (diOf k n)).wake = false then b
    else b.diWindow (diOf k n)) b
  let b2 := (upTo 4).foldl (fun b a => match m.ais[a.val]? with | some x => b.aiWindow k a x | none => b) b1
  let b3 := if k = 0 ∧ asleep = false then b2.motionWindow m.motion else b2
  b3.modK k fun kn =>
    { kn with ktemp := m.ktemp, kvbat := m.kvbat,
              vbatMin := if m.kvbat.toNat < kn.vbatMin.toNat then m.kvbat else kn.vbatMin,
              vbatMax := if m.kvbat.toNat > kn.vbatMax.toNat then m.kvbat else kn.vbatMax }

/-- Step K1 of R35 for one kernel. -/
def Blk.latchKernel (b : Blk) (k : Fin 4) (m : KernelMeas) (bn : BitVec 48) : Blk :=
  let b1 := b.inputWindow k m
  let total : Int := ((List.range 10).map fun n => (m.chans[n]?.map (·.iMean.toInt)).getD 0).foldl (· + ·) 0
  let b2 := b1.modK k fun kn => { kn with iTotal := BitVec.ofInt 32 total }
  let b3 := (chansOf k).foldl (fun b c => b.latchChannel c m.chans) b2
  b3.modK k fun kn => { kn with sect := b3.section_ k bn }

/-- KERNEL_WINDOW_END (R164, R493): while no tick reaches the kernel, its own window end takes the place of
the tick for the inputs and for the actions of R493. -/
def kernelWindowEnd (k : Fin 4) (m : KernelMeas) (b : Blk) : Blk :=
  if b.kernelRuns k = false ∨ (b.breath.running ∧ (b.bridges.get k).state = .joined) then b
  else
    let b1 := (b.inputWindow k m).kernelReturns k
    (upTo 10).foldl (fun b n => b.modK k fun kn =>
      { kn with peaks := vmod kn.peaks n (fun p =>
          match m.chans[n.val]? with
          | some x => if p.toNat < x.iPeak.toNat then x.iPeak else p
          | none => p) }) b1

/-! ### Meanings -/

def execKernelWindowEnd (k : Fin 4) (m : KernelMeas) (s : State) : Res := .next (s.onBlk (kernelWindowEnd k m))
def execDiStuck (d : Fin 32) (s : State) : Res := .next (s.onBlk (diStuck d))
def execDiRearmed (d : Fin 32) (s : State) : Res := .next (s.onBlk (diRearmed d))
def execSeismic (rms : BitVec 16) (s : State) : Res := .next (s.onBlk (seismic rms))
def execShock (peak : BitVec 16) (s : State) : Res := .next (s.onBlk (shock peak))
def execMotionFault (s : State) : Res := .next (s.onBlk motionFault)
def execMotionReady (s : State) : Res := .next (s.onBlk motionReady)
def execDiEdge (d : Fin 32) (high : Bool) (offset : BitVec 16) (s : State) : Res :=
  .next (s.onBlk (diEdge d high offset))
def execCleaningCurrentEnd (d : Fin 32) (s : State) : Res := .next (s.onBlk (cleaningCurrentEnd d))

end Sys2Proof.Machine
end

