-- ==== Sys2Proof/Machine/Pods.lean ====
section
/-! DEFINITION. The pod manager and the mailbox transports (R207 to R228): credits, closes, gating,
release, pops, flushes, the SPI target and the UART console, and the meanings of the pod family. -/

namespace Sys2Proof.Machine
open Sys2Proof

/-! ### Pods and credit (R207, R208, R211) -/

def Queue.reserve (q : Queue) : Nat := bits q.limits 12 0
def Queue.maxPods (q : Queue) : Nat := bits q.limits 28 16
def Queue.hold (q : Queue) : Nat := bits q.holdCfg 12 0

/-- Pods of a message of `w` words. -/
def podsOf (w : Nat) : Nat := ceilDiv w 16

/-- Words of the open message. -/
def Queue.openLen (q : Queue) : Nat := match q.openMsg with | some l => l.length | none => 0

/-- Pods of the closed messages that the queue holds; the head's popped pods have returned (R217). -/
def Queue.msgPods (q : Queue) : Nat :=
  (q.msgs.map (fun m => podsOf m.words.length)).foldl (· + ·) 0 - q.popped / 4

/-- Pods in use, hold set excluded: a gated producer's open message lies in the hold set. -/
def Queue.pods (q : Queue) : Nat := q.msgPods + if q.gatedProd then 0 else podsOf q.openLen

/-- Pods that the queue's reserve and hold set claim. -/
def Queue.claim (q : Queue) : Nat := if q.enabled then q.reserve + q.hold else 0

/-- Pods now claimed for the hold set (R224). -/
def Queue.holdPods (q : Queue) : Nat := if q.gatedProd then q.holdNow else q.hold

/-- Pods borrowed from the shared pool. -/
def Queue.borrowed (q : Queue) : Nat := q.pods + q.holdPods - q.claim

/-- Free pods of the reserve. -/
def Queue.freeReserve (q : Queue) : Nat := q.claim - (q.pods + q.holdPods)

/-- PM_CLAIMED (R225). -/
def Blk.claimed (b : Blk) : Nat := b.queues.toList.foldl (fun n q => n + q.claim) 0

/-- PM_SHARED_FREE (R225): what no claim and no borrowing takes of the 16,384 pods. -/
def Blk.sharedFree (b : Blk) : Nat :=
  16384 - b.claimed - b.queues.toList.foldl (fun n q => n + if q.enabled then q.borrowed else 0) 0

/-- The low-water mark of R225. -/
def Blk.noteLow (b : Blk) : Blk :=
  { b with trans := { b.trans with lowWater := min b.trans.lowWater b.sharedFree } }

/-- Unused words of the open message's last pod. -/
def Queue.slack (q : Queue) : Nat := podsOf q.openLen * 16 - q.openLen

/-- `PQ_CRED` in words (R211). -/
def Blk.credit (b : Blk) (q : Queue) : Nat :=
  if q.enabled = false then 0
  else if q.gatedProd then q.hold * 16 - q.charged - q.openLen
  else min (16 * (q.maxPods - q.pods)) (16 * (q.freeReserve + b.sharedFree)) + q.slack

/-! ### Visibility (R215) -/

/-- Whether a message is visible to the queue's consumer. -/
def Blk.seen (b : Blk) (q : Queue) (m : Msg) : Bool :=
  match m.seq with
  | some n => !q.gatedCons || decide (n.toNat < b.breath.cutSeq.toNat)
  | none => false

/-- Visible messages of a queue. -/
def Blk.visible (b : Blk) (q : Queue) : List Msg := q.msgs.takeWhile (b.seen q)

/-- The queue of a mailbox: 0 request, 1 response, 2 notification (R209). -/
def mbQueue (m : Fin 12) (j : Fin 3) : Fin 256 := ⟨3 * m.val + j.val, by omega⟩

/-- The mailbox that a queue below 36 belongs to. -/
def mbOf (q : Fin 256) : Option (Fin 12 × Fin 3) :=
  if h : q.val < 36 then some (⟨q.val / 3, by omega⟩, ⟨q.val % 3, Nat.mod_lt _ (by decide)⟩) else none

/-- A flag of `MBX_IRQ` (R220). -/
def Blk.mbIrq (b : Blk) (m : Fin 12) (i : Nat) : Blk := b.modMb m fun x => { x with irq := orBits x.irq (2 ^ i) }

/-- The credit flag: the request credit rises to the mark or above (R220). -/
def Blk.creditRise (b0 b : Blk) (q : Fin 256) : Blk :=
  match mbOf q with
  | some (m, 0) =>
    let mark := bits (b.mboxes.get m).credMark 16 0
    if b0.credit (b0.queues.get q) < mark ∧ mark ≤ b.credit (b.queues.get q) then b.mbIrq m 2 else b
  | _ => b

/-- SRC of a queue, of the SPI engine and of the UART engine (R77, R228). -/
def srcQ (q : Fin 256) : BitVec 16 := srcOf 8 q.val
def srcSpi : BitVec 16 := srcOf 8 0x109
def srcUart : BitVec 16 := srcOf 8 0x10B

/-- A record logged at most once per queue per breath (R228). -/
def Blk.qev (b : Blk) (q : Fin 256) (code sev : Nat) (arg : Word) (tenant : Nat) : Blk :=
  if (b.queues.get q).logged.toNat.testBit code then b
  else (b.modQ q fun x => { x with logged := x.logged ||| BitVec.ofNat 8 (2 ^ code) }).ev (srcQ q) code sev arg
    (BitVec.ofNat 8 tenant)

/-- Whether the program behind an initiator byte accepts no messages now (R219): a tenant from the
assertion of its stop or reset until it enters STARTING, the safety program while its cores are in reset
or stopped, the console outside SERVICE, unless the ROM drives it (R448). -/
def Blk.closedEnd (b : Blk) (id : Nat) : Bool :=
  if h : id < 8 then
    match (b.tenants.get ⟨id, h⟩).state with
    | .starting | .running => false
    | _ => true
  else if id = 0x10 then !b.dr.run || b.dr.resetting
  else if id = 0x32 then b.rcc.mode ≠ .service && b.rcc.mode ≠ .recovery
  else false

/-- Whether a queue accepts nothing. -/
def Blk.queueShut (b : Blk) (q : Queue) : Bool := b.closedEnd q.producer || b.closedEnd q.consumer

/-! ### Writing (R210 to R213) -/

/-- The aborted message: its pods return at once, its later words are dropped up to the next close. -/
def Blk.abortMsg (b : Blk) (q : Fin 256) (sticky : Nat) : Blk :=
  b.modQ q fun x => { x with openMsg := some [], aborted := true, sticky := orBits x.sticky sticky }

/-- One word appended to the open message, or the message aborted (R212); a tenant's credit violation and its message too long are
faults (R274). -/
def Blk.appendWord (b : Blk) (q : Fin 256) (w : Word) : Blk :=
  let x := b.queues.get q
  let id := x.producer
  let needsPod := decide (x.openLen % 16 = 0)
  if x.aborted then b
  else if x.openLen ≥ 1024 then
    let b1 := (b.abortMsg q 8).qev q 3 2 0 id
    if h : id < 8 then b1.fault1 (.tenant ⟨id, h⟩) else b1
  else if !x.gatedProd && needsPod && decide (x.freeReserve = 0) && decide (b.sharedFree = 0) then
    let b1 := (b.abortMsg q 4).qev q 2 3 (arg32 x.pods) id
    { b1 with trans := { b1.trans with poolSticky := orBits b1.trans.poolSticky 1 } }
  else if b.credit x = 0 then
    let b1 := (b.abortMsg q 2).qev q 1 2 (arg32 x.openLen) id
    if h : id < 8 then b1.fault1 (.tenant ⟨id, h⟩) else b1
  else (b.modQ q fun x => { x with openMsg := some ((x.openMsg.getD []) ++ [w]) }).noteLow

/-- Byte 8 of a request replaced with the producer's ID at the close (R210, R14). -/
def stampId (id : Nat) (ws : List Word) : List Word :=
  match ws with
  | a :: b :: c :: t => a :: b :: setBits c 7 0 id :: t
  | l => l

/-- A whole message enters a queue: its close SEQ is granted, and a consumer that is not gated sees it. -/
def Blk.enqueue (b : Blk) (q : Fin 256) (ws : List Word) : Blk :=
  let (seq, b1) := b.takeSeq
  let b2 := b1.modQ q fun x => { x with msgs := x.msgs ++ [{ words := ws, seq := some seq }] }
  let b3 := match mbOf q with
    | some (m, 1) => if (b2.queues.get q).gatedCons then b2 else b2.mbIrq m 0
    | some (m, 2) => if (b2.queues.get q).gatedCons then b2 else b2.mbIrq m 1
    | _ => b2
  b3.noteLow

/-- A message discarded and counted. -/
def Blk.dropMsg (b : Blk) (q : Fin 256) (n : Nat) : Blk :=
  b.modQ q fun x => { x with drops := satAdd x.drops n 0xFFFFFFFF }

/-- The next place in the order of closing of a program's held messages. -/
def Blk.nextStamp (b : Blk) (id : Nat) : Nat :=
  b.queues.toList.foldl (fun n q =>
    if q.producer = id then q.held.foldl (fun n h => max n (h.1 + 1)) n else n) 0

/-- The open message is closed (R210, R212, R214). -/
def Blk.closeMsg (b : Blk) (q : Fin 256) : Blk :=
  let x := b.queues.get q
  let ws := x.openMsg.getD []
  let clear := b.modQ q fun x => { x with openMsg := none, aborted := false }
  if x.aborted then Blk.creditRise b (clear.dropMsg q 1) q
  else if b.queueShut x then clear.dropMsg q 1
  else
    let ws' := if x.isRequest then stampId x.producer ws else ws
    if x.gatedProd then
      let n := b.nextStamp x.producer
      clear.modQ q fun x => { x with held := x.held ++ [(n, ws')], charged := x.charged + 16 * podsOf ws.length }
    else clear.enqueue q ws'

/-- Whether a queue is one of an absent mailbox (R209). -/
def Blk.queueAbsent (b : Blk) (q : Fin 256) : Bool := b.variant = .nz820 && 12 ≤ q.val && q.val < 24

/-- The register address of a queue (R224). -/
def queueAddr (q : Fin 256) (off : Nat) : Word := arg32 (0x40040000 + q.val * 0x40 + off)

/-- A producer access to a queue page: carried out for the producer of an enabled queue (R224). -/
def Blk.asProducer (b : Blk) (i : Initiator) (q : Fin 256) (off : Nat) (f : Blk → Blk) : Blk :=
  let x := b.queues.get q
  if b.queueAbsent q then b.notPresent .tenants47 (queueAddr q off) i
  else if x.enabled ∧ x.producer = i.id then f b
  else b.denied i (queueAddr q off)

/-- PQ_WR (R210): one word, or two with bits [31:0] first. -/
def pqWr (i : Initiator) (q : Fin 256) (w : Word) (w2 : Option Word) (b : Blk) : Blk :=
  b.asProducer i q 0 fun b =>
    let b1 := b.appendWord q w
    match w2 with | some v => b1.appendWord q v | none => b1

/-- PQ_WR_END: one word, then the close. -/
def pqWrEnd (i : Initiator) (q : Fin 256) (w : Word) (b : Blk) : Blk :=
  b.asProducer i q 4 fun b => (b.appendWord q w).closeMsg q

/-- PQ_ABORT: the open message is discarded. -/
def pqAbort (i : Initiator) (q : Fin 256) (b : Blk) : Blk :=
  b.asProducer i q 8 fun b =>
    let b1 := b.modQ q fun x => { x with openMsg := none, aborted := false }
    if (b.queues.get q).openMsg.isSome then Blk.creditRise b (b1.dropMsg q 1) q else b1

/-- A hardware engine's whole message (R213): it enters, or is dropped and counted for HW_DROP. -/
def Blk.engineWrite (b : Blk) (q : Fin 256) (ws : List Word) : Blk :=
  let x := b.queues.get q
  let n := podsOf ws.length
  if x.enabled = false then b
  else if b.queueShut x then b.dropMsg q 1
  else if ws.isEmpty ∨ ws.length > 1024 ∨ x.maxPods < x.pods + n ∨ x.freeReserve + b.sharedFree < n then
    (b.dropMsg q 1).modQ q fun x => { x with sticky := orBits x.sticky 0x10, dropsBreath := x.dropsBreath + 1 }
  else b.enqueue q (if x.isRequest then stampId x.producer ws else ws)

/-- ENGINE_MESSAGE (R213): the engine that produces into the queue. -/
def engineMessage (e : Engine) (q : Fin 256) (msg : List Word) (b : Blk) : Blk :=
  if (b.queues.get q).prodEngine = e.code then b.engineWrite q msg else b

/-! ### Reading (R216, R217) -/

/-- The 128-bit word of a message that the window shows. -/
def windowOf (ws : List Word) (popped : Nat) : List Word :=
  (List.range 4).map fun j => (ws.drop (4 * popped)).getD j 0

/-- The window now (R216). -/
def Blk.window (b : Blk) (q : Fin 256) : List Word :=
  let x := b.queues.get q
  match b.visible x with
  | m :: _ => windowOf m.words x.popped
  | [] => x.lastWin

/-- A pop of the window, or an underrun (R216, R217). -/
def Blk.popWindow (b : Blk) (q : Fin 256) : Blk :=
  let x := b.queues.get q
  match b.visible x with
  | [] => (b.modQ q fun x => { x with sticky := orBits x.sticky 1 }).qev q 4 1 0 x.consumer
  | m :: _ =>
    let win := windowOf m.words x.popped
    let b1 := b.modQ q fun x =>
      if 4 * (x.popped + 1) ≥ m.words.length then { x with msgs := x.msgs.drop 1, popped := 0, lastWin := win }
      else { x with popped := x.popped + 1, lastWin := win }
    Blk.creditRise b b1 q

/-- A whole message popped. -/
def Blk.popMsg (b : Blk) (q : Fin 256) : Blk :=
  match b.visible (b.queues.get q) with
  | [] => b
  | m :: _ =>
    let b1 := b.modQ q fun x =>
      { x with msgs := x.msgs.drop 1, popped := 0, lastWin := windowOf m.words ((m.words.length - 1) / 4) }
    Blk.creditRise b b1 q

/-- PQ_POP (R216): a read of PQ_RD3, or a 64-bit read of PQ_RD2, by the consumer. -/
def pqPop (i : Initiator) (q : Fin 256) (wide : Bool) (b : Blk) : Blk :=
  let x := b.queues.get q
  let off := if wide then 0x18 else 0x1C
  if b.queueAbsent q then (b.answer 0).notPresent .tenants47 (queueAddr q off) i
  else if x.enabled = false then b.answer 0
  else if x.consumer ≠ i.id then b.denied i (queueAddr q off)
  else
    let w := b.window q
    let v := if wide then (w.getD 2 0).toNat + (w.getD 3 0).toNat * 2 ^ 32 else (w.getD 3 0).toNat
    (b.popWindow q).answer v

/-! ### Release at step S3 (R214, R46) -/

/-- An item put into a list ordered by its stamp. -/
def insertHeld {α : Type} (x : Nat × α) : List (Nat × α) → List (Nat × α)
  | [] => [x]
  | y :: t => if x.1 < y.1 then x :: y :: t else y :: insertHeld x t

/-- The held messages of a program, in the order of closing. -/
def Blk.heldOf (b : Blk) (id : Nat) : List (Nat × Fin 256 × List Word) :=
  (upTo 256).foldl (fun l q =>
    let x := b.queues.get q
    if x.producer = id ∧ x.gatedProd then x.held.foldl (fun l h => insertHeld (h.1, q, h.2) l) l else l) []

/-- The held messages discarded and counted. -/
def Blk.discardHeld (b : Blk) (id : Nat) : Blk :=
  (upTo 256).foldl (fun b q =>
    let x := b.queues.get q
    if x.producer = id ∧ x.gatedProd ∧ ¬ x.held.isEmpty then
      (b.dropMsg q x.held.length).modQ q fun x => { x with held := [] }
    else b) b

/-- Pods taken back into the hold set: from the free reserve, then from the shared pool. -/
def Blk.refillOnce (b : Blk) (q : Fin 256) : Blk :=
  let x := b.queues.get q
  let need := x.hold - x.holdNow
  let got := min need (x.freeReserve + b.sharedFree)
  b.modQ q fun x => { x with holdNow := x.holdNow + got }

/-- The refill of a hold set (R214 step 3): the oldest visible messages go while pods are short. -/
def Blk.refill (q : Fin 256) : Nat → Nat → Blk → Nat × Blk
  | 0, n, b => (n, b)
  | fuel + 1, n, b =>
    let b1 := b.refillOnce q
    let x := b1.queues.get q
    if x.holdNow ≥ x.hold then (n, b1)
    else match b1.visible x with
      | [] => (n, b1)
      | _ :: _ =>
        Blk.refill q fuel (n + 1)
          ((b1.modQ q fun x => { x with msgs := x.msgs.drop 1, popped := 0 }).dropMsg q 1)

/-- One program's release (R214). -/
def Blk.releaseProgram (b : Blk) (id : Nat) (commit : Bool) : Blk :=
  let b1 := if commit then
      let l := b.heldOf id
      let b' := (upTo 256).foldl (fun b q => if (b.queues.get q).producer = id then
        b.modQ q fun x => { x with holdNow := x.holdNow - (x.held.map (fun h => podsOf h.2.length)).foldl (· + ·) 0,
                                   held := [] } else b) b
      l.foldl (fun b h => b.enqueue h.2.1 h.2.2) b'
    else b.discardHeld id
  (upTo 256).foldl (fun b q =>
    let x := b.queues.get q
    if x.enabled ∧ x.producer = id ∧ x.gatedProd then
      let r := Blk.refill q (x.msgs.length + 1) 0 b
      let b2 := r.2.modQ q fun x => { x with charged := 0 }
      if r.1 = 0 then b2
      else (b2.modQ q fun x => { x with sticky := orBits x.sticky 0x20 }).qev q 6 2 (arg32 r.1) x.consumer
    else b) b1

/-- Step S3: the safety program first, then the tenants in ascending order (R46). -/
def Blk.releaseAll (b : Blk) : Blk :=
  (upTo 8).foldl (fun b t => b.releaseProgram t.val (b.breath.commitT.toNat.testBit t.val))
    (b.releaseProgram 0x10 b.breath.commitS)

/-- HW_DROP at the tick (R213), and the once-per-breath marks begin anew. -/
def Blk.hwDrops (b : Blk) : Blk :=
  (upTo 256).foldl (fun b q =>
    let x := b.queues.get q
    if x.dropsBreath = 0 ∧ x.logged = 0 then b
    else
      let b1 := b.modQ q fun x => { x with dropsBreath := 0, logged := 0 }
      if x.dropsBreath = 0 then b1
      else b1.ev (srcQ q) 5 2 (arg32 (x.prodEngine + min x.dropsBreath 0xFFFF * 65536)) (BitVec.ofNat 8 x.consumer)) b

/-- What becomes visible at a cut raises the flags of gated mailbox owners (R215, R220). -/
def Blk.cutIrqs (b0 b : Blk) : Blk :=
  (upTo 12).foldl (fun b m =>
    let more := fun (j : Fin 3) =>
      let q := b.queues.get (mbQueue m j)
      q.gatedCons && decide ((b0.visible q).length < (b.visible q).length)
    let b1 := if more 1 then b.mbIrq m 0 else b
    let b2 := if more 2 then b1.mbIrq m 1 else b1
    Blk.creditRise b0 b2 (mbQueue m 0)) b

/-! ### Flushes (R219) -/

/-- One queue flushed. -/
def Blk.flushQueue (b : Blk) (q : Fin 256) : Blk :=
  let x := b.queues.get q
  let n := x.msgs.length + x.held.length + b2n x.openMsg.isSome
  let b1 := b.modQ q fun x =>
    { x with openMsg := none, aborted := false, charged := 0, held := [], msgs := [], popped := 0, lastWin := [],
             sticky := 0, drops := satAdd x.drops n 0xFFFFFFFF, holdNow := x.hold }
  if n = 0 then b1 else b1.ev (srcQ q) 7 1 (arg32 n) (BitVec.ofNat 8 x.consumer)

/-- Every queue that a program produces or consumes is flushed. -/
def Blk.flushProgram (b : Blk) (id : Nat) : Blk :=
  (upTo 256).foldl (fun b q =>
    let x := b.queues.get q
    if x.enabled ∧ (x.producer = id ∨ x.consumer = id) then b.flushQueue q else b) b

/-- An S-reach or P-reach reset empties the whole pool (R219). -/
def Blk.emptyPool (b : Blk) : Blk :=
  { b with queues := b.queues.map fun x =>
      { x with openMsg := none, aborted := false, charged := 0, held := [], msgs := [], popped := 0, lastWin := [],
               sticky := 0, drops := 0, dropsBreath := 0, logged := 0, holdNow := x.hold } }

/-! ### The SPI target (R221, R222) -/

/-- One bit and one byte of the CRC-16 of R222. -/
def crc16Bit (c : Nat) : Nat := if c ≥ 0x8000 then (c * 2 % 65536) ^^^ 0x1021 else c * 2 % 65536
def crc16Byte (c : Nat) (b : Byte) : Nat :=
  (List.range 8).foldl (fun c _ => crc16Bit c) (c ^^^ (b.toNat * 256))
/-- CRC-16: polynomial 0x1021, initial value 0xFFFF, no reflection, no final XOR. -/
def crc16 (l : List Byte) : Nat := l.foldl crc16Byte 0xFFFF

def spiReq : Fin 256 := 27
def spiQueue (j : Nat) : Fin 256 := if j = 0 then 28 else 29

def Blk.onTrans (b : Blk) (f : Transport → Transport) : Blk := { b with trans := f b.trans }

/-- Whether a queue shows a message. -/
def Blk.hasMsg (b : Blk) (q : Fin 256) : Bool := !(b.visible (b.queues.get q)).isEmpty

/-- The status word of R221. -/
def Blk.spiStatusWord (b : Blk) : List Byte :=
  let t := b.trans
  let f := b2n (b.hasMsg 28) + 2 * b2n (b.hasMsg 29) + 4 * b2n (t.spiReplay.get 0 || t.spiReplay.get 1)
    + 8 * b2n t.spiCrcBad + 16 * b2n t.spiRefused
  [0xA5, BitVec.ofNat 8 f] ++ leBytes 2 (min (b.credit (b.queues.get spiReq)) 0xFFFF)

/-- A transaction begins: the status word is sent, and its error bits clear once reported. -/
def Blk.spiBegin (b : Blk) : Blk :=
  let w := b.spiStatusWord
  b.onTrans fun t => { t with miso := w, spiCrcBad := false, spiRefused := false }

/-- A refused or damaged write (R222, R228). -/
def Blk.spiErr (b : Blk) (bit_ : Nat) : Blk :=
  let b1 := b.onTrans fun t =>
    if bit_ = 0 then { t with spiCrcBad := true, spiCrcFails := satInc t.spiCrcFails 255 }
    else { t with spiRefused := true, spiRefusals := satInc t.spiRefusals 255 }
  b1.ev srcSpi 0x10 1 (arg32 (2 ^ bit_)) 0x30

/-- SPI_WRITE (R222): the bytes of one transaction with command 0x01. -/
def spiWrite (mosi : List Byte) (b : Blk) : Blk :=
  let cred := b.credit (b.queues.get spiReq)
  let b1 := b.spiBegin
  if byteAt mosi 0 ≠ 1 then b1
  else
    let l := leAt mosi 2 2
    if mosi.length < 4 then b1.spiErr 0
    else if l % 4 ≠ 0 ∨ l < 16 ∨ 4096 < l then b1.spiErr 1
    else if cred < 16 * ceilDiv l 64 then b1.spiErr 2
    else if mosi.length < 6 + l ∨ crc16 (slice mosi 2 (2 + l)) ≠ leAt mosi (4 + l) 2 then b1.spiErr 0
    else
      (b1.engineWrite spiReq (wordsOf (l / 4) (slice mosi 4 l))).onTrans fun t =>
        { t with spiAccepted := (t.spiAccepted + 1) % 65536 }

/-- SPI_READ (R222): `clocked` bytes in all. The message is popped only once its last CRC byte is out. -/
def spiRead (mosi : List Byte) (clocked : Nat) (b : Blk) : Blk :=
  let b1 := b.spiBegin
  let n := (byteAt mosi 1).toNat
  if byteAt mosi 0 ≠ 2 ∨ n > 1 then b1
  else
    let q := spiQueue n
    let i : Fin 2 := if n = 0 then 0 else 1
    let msg := match b.visible (b.queues.get q) with | m :: _ => bytesOf m.words | [] => []
    let body := leBytes 2 msg.length ++ msg
    let out := (b1.trans.miso ++ body ++ leBytes 2 (crc16 body)).take clocked
    let rep := b.trans.spiReplay.get i
    let b2 := b1.onTrans fun t =>
      { t with miso := out, spiReplays := if rep then satInc t.spiReplays 0xFFFFFFFF else t.spiReplays }
    if msg.isEmpty then b2
    else if clocked ≥ 8 + msg.length then
      (b2.popMsg q).onTrans fun t => { t with spiReplay := vmod t.spiReplay i (fun _ => false) }
    else b2.onTrans fun t => { t with spiReplay := vmod t.spiReplay i (fun _ => true) }

/-- SPI_STATUS and SPI_UNKNOWN_COMMAND (R222): the status word only. -/
def spiStatus (b : Blk) : Blk := b.spiBegin
def spiUnknownCommand (_cmd : Byte) (b : Blk) : Blk := b.spiBegin

/-! ### The UART console (R223) -/

def uartReq : Fin 256 := 33
def uartQueue (notification : Bool) : Fin 256 := if notification then 35 else 34

/-- Escapes removed as in RFC 1662; none when an escape is cut. -/
def unescape : List Byte → Option (List Byte)
  | [] => some []
  | [c] => if c = 0x7D then none else some [c]
  | a :: c :: t =>
    if a = 0x7D then (unescape t).map (fun l => (c ^^^ 0x20) :: l)
    else (unescape (c :: t)).map (fun l => a :: l)

/-- Escapes put in. -/
def escape (l : List Byte) : List Byte :=
  l.flatMap fun c => if c = 0x7E ∨ c = 0x7D then [0x7D, c ^^^ 0x20] else [c]

/-- A discarded frame (R223, R228). -/
def Blk.uartErr (b : Blk) (bit_ : Nat) : Blk :=
  (b.onTrans fun t => { t with uartDisc := satInc t.uartDisc 0xFFFF }).ev srcUart 0x11 1 (arg32 (2 ^ bit_)) 0x32

/-- Whether the UART is served: in SERVICE by its engine (R223), in RECOVERY by the ROM where it serves it (R448). -/
def Blk.uartServed (b : Blk) : Bool :=
  decide (b.rcc.mode = .service) || (decide (b.rcc.mode = .recovery) && (b.queues.get uartReq).enabled)

/-- UART_FRAME_RECEIVED (R223): the bytes between the flags. A frame of another type than a request is
discarded without a mark (log entry 12). -/
def uartFrameReceived (raw : List Byte) (b : Blk) : Blk :=
  if b.uartServed = false then
    let b1 := b.onTrans fun t => { t with uartDiscMode := satInc t.uartDiscMode 0xFFFF, uartRefLogged := true }
    if b.trans.uartRefLogged then b1 else b1.ev srcUart 0x12 1 (arg32 b.rcc.mode.code) 0x32
  else match unescape raw with
    | none => b.uartErr 1
    | some l =>
      let n := l.length - 3
      let msg := slice l 1 n
      if l.length < 3 ∨ crc16 (l.take (l.length - 2)) ≠ leAt l (l.length - 2) 2 then b.uartErr 0
      else if n % 4 ≠ 0 ∨ n < 16 ∨ 4096 < n then b.uartErr 2
      else if byteAt l 0 ≠ 1 then b
      else if b.credit (b.queues.get uartReq) < 16 * ceilDiv n 64 then b.uartErr 3
      else b.engineWrite uartReq (wordsOf (n / 4) msg)

/-- UART_FRAME_SEND (R223): the engine sends a visible response or notification in SERVICE. -/
def uartFrameSend (notification : Bool) (b : Blk) : Blk :=
  let q := uartQueue notification
  if b.uartServed = false then b
  else match b.visible (b.queues.get q) with
    | [] => b
    | m :: _ =>
      let body := (if notification then 3 else 2) :: bytesOf m.words
      let fr := [0x7E] ++ escape (body ++ leBytes 2 (crc16 body)) ++ [0x7E]
      (b.popMsg q).onTrans fun t => { t with uartTx := fr }

/-! ### Memory errors (R225, R459) -/

/-- An uncorrectable pool word discards the message that holds it; which one lies at a pod the spec does
not say, so a free value names it (log entry 3). -/
def Blk.poolBad (b : Blk) : Blk :=
  let all := (upTo 256).flatMap fun q => (List.range (b.queues.get q).msgs.length).map fun j => (q, j)
  match all with
  | [] => b
  | _ :: _ =>
    let (n, b1) := b.fresh
    match all[Config.freeNat n % all.length]? with
    | some (q, j) =>
      (b1.modQ q fun x => { x with msgs := x.msgs.eraseIdx j, popped := if j = 0 then 0 else x.popped }).dropMsg q 1
    | none => b1

/-! ### Meanings -/

def execPqWr (i : Initiator) (q : Fin 256) (w : Word) (w2 : Option Word) (s : State) : Res :=
  .next (s.onBlk (pqWr i q w w2))
def execPqWrEnd (i : Initiator) (q : Fin 256) (w : Word) (s : State) : Res := .next (s.onBlk (pqWrEnd i q w))
def execPqAbort (i : Initiator) (q : Fin 256) (s : State) : Res := .next (s.onBlk (pqAbort i q))
def execPqPop (i : Initiator) (q : Fin 256) (wide : Bool) (s : State) : Res := .next (s.onBlk (pqPop i q wide))
def execEngineMessage (e : Engine) (q : Fin 256) (msg : List Word) (s : State) : Res :=
  .next (s.onBlk (engineMessage e q msg))
def execSpiWrite (mosi : List Byte) (s : State) : Res := .next (s.onBlk (spiWrite mosi))
def execSpiRead (mosi : List Byte) (clocked : Nat) (s : State) : Res := .next (s.onBlk (spiRead mosi clocked))
def execSpiStatus (s : State) : Res := .next (s.onBlk spiStatus)
def execSpiUnknownCommand (cmd : Byte) (s : State) : Res := .next (s.onBlk (spiUnknownCommand cmd))
def execUartFrameReceived (raw : List Byte) (s : State) : Res := .next (s.onBlk (uartFrameReceived raw))
def execUartFrameSend (notification : Bool) (s : State) : Res := .next (s.onBlk (uartFrameSend notification))

end Sys2Proof.Machine
end

