-- ==== Sys2Proof/Machine/Bridge.lean ====
section
/-! DEFINITION. The kernel bridge (R178 to R206): windows, posted writes and their failures, fences and
epochs, destructive reads and semaphores, side-band polls, isolation and rejoining, and the meanings of
the bridge family. -/

namespace Sys2Proof.Machine
open Sys2Proof

/-! ### Initiator slots (R186, R203) -/

/-- The slot of an initiator that reaches kernel windows. -/
def slotOf : Initiator → Option (Fin 10)
  | .tenant t => some ⟨t.val, by omega⟩
  | .safety => some 8
  | .chanter => some 9
  | _ => none

/-- The initiator of a slot. -/
def slotInit (n : Fin 10) : Initiator :=
  if h : n.val < 8 then .tenant ⟨n.val, h⟩ else if n.val = 8 then .safety else .chanter

def Blk.modSlot (b : Blk) (n : Fin 10) (f : InitSlot → InitSlot) : Blk := { b with slots := vmod b.slots n f }

/-- The summary word of R184. -/
def InitSlot.summary (s : InitSlot) : Nat :=
  b2n s.pwFail + 2 * b2n s.lostF + s.reason * 16 + s.epoch.toNat * 256 + s.count * 65536

/-- Posted writes of an initiator that are still on their way to kernel `k`. -/
def Blk.outTo (b : Blk) (i : Initiator) (k : Fin 4) : Nat :=
  ((b.bridges.get k).posted.filter (fun p => p.init = i)).length

/-- Posted writes of an initiator still on their way. -/
def Blk.outstanding (b : Blk) (i : Initiator) : Nat := ((upTo 4).map (b.outTo i)).foldl (· + ·) 0

/-! ### Failures (R187 to R189) -/

def rIsolated : Nat := 1
def rService : Nat := 2
def rLink : Nat := 3
def rOwner : Nat := 4
def rRestart : Nat := 5
def rUncorrectable : Nat := 6

/-- Bits of `BYTE_EN`. -/
def beBytes (be : Byte) (d : BitVec 64) : List Byte :=
  (List.range 8).map fun j => if be.toNat.testBit j then BitVec.ofNat 8 (d.toNat / 256 ^ j) else 0

/-- A failed posted write (R187, R188): the record with its SEQ in the fault queue of its owner, the
summary, PW_FAIL for the first failure of the writer in the breath. -/
def Blk.failWrite (b : Blk) (k : Fin 4) (p : Posted) (reason : Nat) : BW :=
  match slotOf p.init with
  | none => (b, [])
  | some n =>
    let cur := decide ((b.slots.get n).epoch = p.epoch)
    let own : Fin 10 := if cur then n else 9
    let rec_ := b.capture (srcBr k) 4 2 p.addr (idByte p.init) 0 false
    let (r, b1) := b.grantRec rec_
    let bytes := leBytes 8 r.seq.toNat ++ leBytes 8 b.time.dt.toNat ++ leBytes 4 p.addr.toNat
      ++ beBytes p.be p.data ++ [p.be, idByte p.init, BitVec.ofNat 8 reason, p.epoch]
    let b2 := b1.modBr k fun x => { x with pwDrop := satInc x.pwDrop 0xFFFFFFFF }
    let b3 := if cur then b2.modSlot n fun s =>
        { s with pwFail := true, reason := reason, count := satInc s.count 0xFFFF } else b2
    let b4 := match (b3.slots.get own).faultQ with
      | none => b3
      | some q =>
        let x := b3.queues.get q
        if b3.queueShut x then b3.dropMsg q 1
        else if x.enabled = false ∨ x.maxPods < x.pods + 1 ∨ x.freeReserve + b3.sharedFree < 1 then
          ((b3.dropMsg q 1).modQ q fun x =>
              { x with sticky := orBits x.sticky 0x10, dropsBreath := x.dropsBreath + 1 }).modSlot own fun s =>
            { s with lostF := true, lost := satInc s.lost 0xFFFFFFFF, lostBreath := s.lostBreath + 1, lostAt := k }
        else (b3.modQ q fun x => { x with msgs := x.msgs ++ [{ words := wordsOf 8 bytes, seq := some r.seq }] }).noteLow
    if p.init ∈ b4.breath.pwFailed then (b4, [])
    else (b4.onBre fun x => { x with pwFailed := p.init :: x.pwFailed }).deliver r

/-! ### What reaches a kernel (R128, R141, R158, R179) -/

/-- The bytes of `new` that the enables cover, over `old`. -/
def mergeBe (old new : Word) (be : Nat) : Word :=
  BitVec.ofNat 32 (((List.range 4).map fun j =>
    ((if be.testBit j then new else old).toNat / 256 ^ j % 256) * 256 ^ j).foldl (· + ·) 0)

/-- `CH_PWM` as written: a frequency outside 50 to 20,000 Hz leaves the field unchanged (R128). -/
def mergePwm (old new : Word) : Word :=
  let f := bits new 14 0
  mkWord [if 50 ≤ f ∧ f ≤ 20000 then f else bits old 14 0, fld (bits new 23 16) 8 16]

/-- A staging write to a shadow register at page offset `off` (R96, R128). -/
def ShadowSet.put (sh : ShadowSet) (off : Nat) (w : Word) (be : Nat) : ShadowSet :=
  if off = 0 then { sh with cmd := mergeBe sh.cmd w be &&& 0x03FF0003 }
  else if off = 4 then { sh with pwm := mergePwm sh.pwm (mergeBe sh.pwm w be) }
  else if off = 8 then { sh with ramp := mergeBe sh.ramp w be &&& 0x0FFF0FFF }
  else if off = 0xC then { sh with slew := mergeBe sh.slew w be &&& 3 }
  else sh

/-- The covered bits of a write, the others zero. -/
def maskBe (w : Word) (be : Nat) : Word := mergeBe 0 w be

/-- A 32-bit write that arrives at a channel page. -/
def Blk.pageWrite (b : Blk) (i : Initiator) (c : Fin 40) (off : Nat) (w : Word) (be : Nat) : Blk :=
  if off < 0x10 then
    if b.isFollower c then b
    else if b.inGuard then b.stageLate i (arg32 (pageBase c + off))
    else b.modCh c fun ch => { ch with shadow := ch.shadow.put off w be, staged := true }
  else if off = 0x140 then b.holdClear i c (maskBe w be).toNat
  else if off = 0x144 then b.modCh c fun ch => { ch with protSticky := w1c ch.protSticky (maskBe w be) }
  else if off = 0x228 then b.modCh c fun ch => { ch with sticky := w1c ch.sticky (maskBe w be) }
  else b

/-- The semaphores of the mask that the Chanter holds are released (R192). -/
def Blk.semRelease (b : Blk) (k : Fin 4) (mask : Nat) : Blk :=
  b.modK k fun kn =>
    let f := fun (s : Fin 8) =>
      if mask.testBit s.val && decide (kn.sems.get s = Sem.chanter) then Sem.free else kn.sems.get s
    { kn with sems := Vector.ofFn f }

/-- A hold time is stored when it lies within 10 to 10,000 ms (R127). -/
def holdMerge (old w : Word) (be : Nat) : Word :=
  let v := mergeBe old w be &&& 0x3FFF
  if 10 ≤ v.toNat ∧ v.toNat ≤ 10000 then v else old

/-- A 32-bit write that arrives at a kernel's global page (R127, R159, R176, R204). -/
def Blk.globalWrite (b : Blk) (k : Fin 4) (off : Nat) (w : Word) (be : Nat) : Blk :=
  if off = 0x008 then b.modK k fun kn => { kn with holdTime := holdMerge kn.holdTime w be }
  else if off = 0x00C then b.modK k fun kn => { kn with coreHold := holdMerge kn.coreHold w be }
  else if off = 0x010 then b.modK k fun kn => { kn with route := mergeBe kn.route w be &&& 0x8F8F8F8F }
  else if off = 0x04C then b.modK k fun kn => { kn with supplySticky := w1c kn.supplySticky (maskBe w be) }
  else if off = 0x0D4 then b.modK k fun kn => { kn with diSticky := w1c kn.diSticky (maskBe w be) }
  else if off = 0x100 then b.semRelease k (maskBe w be).toNat
  else b

/-- One register of a window written by an arriving write. -/
def Blk.arrive32 (b : Blk) (i : Initiator) (k : Fin 4) (off : Nat) (w : Word) (be : Nat) : Blk :=
  if be = 0 then b
  else if off < 0x10000 then b.globalWrite k off w be
  else
    let n : Fin 10 := ⟨(off - 0x10000) / 0x1000 % 10, Nat.mod_lt _ (by decide)⟩
    b.pageWrite i (chanOf k n) (off % 0x1000) w be

/-- The data and byte enables of an access of `2^width` bytes, placed in its aligned 64 bits. -/
def laneData (addr : Nat) (width : Fin 4) (data : BitVec 64) : BitVec 64 × Byte :=
  let n := 2 ^ width.val
  let lane := addr % 8
  (BitVec.ofNat 64 (data.toNat % 256 ^ n * 256 ^ lane), BitVec.ofNat 8 ((2 ^ n - 1) * 2 ^ lane))

/-- A write arrives at its kernel (R179): a 64-bit write to an aligned pair is applied as a whole. -/
def Blk.arrive (b : Blk) (i : Initiator) (k : Fin 4) (addr : Nat) (data : BitVec 64) (be : Byte) : Blk :=
  let off := (addr - winBase k) % 0x1000000 % 0xE00000 / 8 * 8
  let lo := b.arrive32 i k off (data.truncate 32) (be.toNat % 16)
  lo.arrive32 i k (off + 4) (BitVec.ofNat 32 (data.toNat / 2 ^ 32)) (be.toNat / 16)

/-! ### Posted writes (R181 to R183) -/

/-- Whether a write of the initiator finds a slot: 16 for the safety program, 16 shared. -/
def slotFree (l : List Posted) (i : Initiator) : Bool :=
  let used := fun (f : Initiator → Bool) => (l.filter (fun p => p.accepted && f p.init)).length
  if i = .safety then decide (used (· = .safety) < 16) else decide (used (· ≠ .safety) < 16)

/-- The first stalled write that now finds a slot is accepted, with the epoch of that moment. -/
def Blk.admitPosted (b : Blk) (k : Fin 4) : Blk :=
  let step := fun (acc : List Posted) (p : Posted) =>
    if p.accepted ∨ slotFree acc p.init = false then acc ++ [p]
    else
      let ep := match slotOf p.init with | some n => (b.slots.get n).epoch | none => 0
      acc ++ [{ p with accepted := true, epoch := ep }]
  b.modBr k fun x =>
    { x with posted := x.posted.foldl step [] }

/-- Why a write cannot reach the kernel now (R189); none when it can. -/
def Blk.blockReason (b : Blk) (k : Fin 4) : Option Nat :=
  match (b.bridges.get k).state with
  | .isolated | .rejoining => some rIsolated
  | .service => some rService
  | .absent => some rIsolated
  | .joined => if (b.kn k).powered then none else some rRestart

/-- Whether the initiator may write where the offset lies (R16, R20). -/
def Blk.mayWrite (b : Blk) (i : Initiator) (k : Fin 4) (off : Nat) : Bool :=
  let o := off % 0xE00000
  if o < 0x10000 then i = .chanter
  else b.reaches i (chanOf k ⟨(o - 0x10000) / 0x1000 % 10, Nat.mod_lt _ (by decide)⟩)

/-- A block that failed twice (R202). -/
def Blk.linkFail (b : Blk) (k : Fin 4) : Blk := b.modBr k fun x => { x with linkFailed := satInc x.linkFailed 0xFFFF }

/-- The head of a kernel's posted writes reaches its kernel or fails (R183, R189). -/
def Blk.deliverHead (b : Blk) (k : Fin 4) (fault : Option LinkFault) : BW :=
  match (b.bridges.get k).posted with
  | [] => (b, [])
  | p :: rest =>
    let b1 := (b.modBr k fun x => { x with posted := rest }).admitPosted k
    match b.blockReason k, fault with
    | some r, _ => b1.failWrite k p r
    | none, some .link => (b1.linkFail k).failWrite k p rLink
    | none, some .uncorrectable => b1.failWrite k p rUncorrectable
    | none, none =>
      if b.mayWrite p.init k (p.addr.toNat % 0x1000000) then (b1.arrive p.init k p.addr.toNat p.data p.be, [])
      else b1.failWrite k p rOwner

/-- Every posted write waiting for a kernel reaches it or fails, in order. -/
def Blk.drainLink (k : Fin 4) : Nat → Blk → BW
  | 0, b => (b, [])
  | n + 1, b =>
    if (b.bridges.get k).posted.isEmpty then (b, [])
    else (b.deliverHead k none).andThen (Blk.drainLink k n)

/-- The writes ahead of an ordered access of the link (R181). -/
def Blk.settleLink (b : Blk) (k : Fin 4) : BW := Blk.drainLink k (b.bridges.get k).posted.length b

/-- Where a window offset lies (R20). -/
inductive WinPart where
  | global | page (n : Fin 10) | hole | mirror | sideEffect | alias_
  deriving DecidableEq, Repr

/-- The part of a kernel window at an offset. -/
def winPart (off : Nat) : WinPart :=
  if off < 0x10000 then .global
  else if off < 0x1A000 then .page ⟨(off - 0x10000) / 0x1000 % 10, Nat.mod_lt _ (by decide)⟩
  else if off < 0x800000 then .hole
  else if off < 0xC00000 then .mirror
  else if off < 0xE00000 then .sideEffect
  else .alias_

/-- The kernel of a window address. -/
def winKernel (addr : Nat) : Fin 4 := ⟨(addr - 0x50000000) / 0x1000000 % 4, Nat.mod_lt _ (by decide)⟩

/-- Whether an address lies in a kernel window. -/
def inWindow (addr : Nat) : Bool := 0x50000000 ≤ addr && addr < 0x54000000

/-- Natural alignment (R179). -/
def aligned (addr : Nat) (width : Fin 4) : Bool := addr % 2 ^ width.val = 0

/-- A posted write accepted by the bridge, or failing at once at a boundary that is not joined (R183,
R199). -/
def Blk.postWrite (b : Blk) (i : Initiator) (addr : Nat) (width : Fin 4) (data : BitVec 64) : BW :=
  let k := winKernel addr
  let ld := laneData addr width data
  let ep := match slotOf i with | some n => (b.slots.get n).epoch | none => 0
  let p : Posted := { init := i, addr := arg32 addr, data := ld.1, be := ld.2, epoch := ep, accepted := false }
  match b.blockReason k with
  | some r => b.failWrite k p r
  | none => ((b.modBr k fun x => { x with posted := x.posted ++ [p] }).admitPosted k, [])

/-! ### Acknowledged writes and fences (R178, R184, R189) -/

/-- An access that ends with an access fault and no status. -/
def Blk.faultAccess (b : Blk) : Blk := { b with reply := { data := 0, fault := true, isolated := false } }

/-- ACKNOWLEDGED_WRITE (R178, R189, R199). The writes ahead of it on the link arrive first (R181). -/
def acknowledgedWrite (i : Initiator) (addr : Word) (width : Fin 4) (data : BitVec 64) (fault : Option LinkFault)
    (b : Blk) : BW :=
  let a := addr.toNat
  let k := winKernel a
  let off := a % 0x1000000
  if inWindow a = false ∨ winPart off ≠ .alias_ then (b, [])
  else if b.hasKernel k = false then (b.notPresent .kernels23 addr i, [])
  else match winPart (off - 0xE00000) with
    | .global | .page _ =>
      if aligned a width = false ∨ b.mayWrite i k off = false then (b.denied i addr, [])
      else (b.settleLink k).map fun b =>
        if (b.blockReason k).isSome then b.isolatedAccess
        else if fault = some .link then (b.linkFail k).faultAccess
        else if fault.isSome then b.faultAccess
        else
          let ld := laneData a width data
          (b.arrive i k a ld.1 ld.2).answer 0
    | _ => (b.unmapped i addr, [])

/-- FENCE_READ (R184): a read through the alias. It is answered at once when nothing is outstanding, and
otherwise waits for FENCE_COMPLETE. -/
def fenceRead (i : Initiator) (addr : Word) (b : Blk) : Blk :=
  let a := addr.toNat
  let k := winKernel a
  let off := a % 0x1000000
  if inWindow a = false ∨ winPart off ≠ .alias_ then b
  else if b.hasKernel k = false then (b.answer 0).notPresent .kernels23 addr i
  else match slotOf i, winPart (off - 0xE00000) with
    | some n, .global | some n, .page _ =>
      if b.mayWrite i k off = false then b.denied i addr
      else if b.outstanding i = 0 then b.answer (b.slots.get n).summary
      else b.modSlot n fun s => { s with fence := true }
    | none, .global | none, .page _ => b.denied i addr
    | _, _ => b.unmapped i addr

/-- FENCE_COMPLETE (R184): every earlier posted write has reached its kernel or failed. -/
def fenceComplete (i : Initiator) (b : Blk) : Blk :=
  match slotOf i with
  | none => b
  | some n =>
    if (b.slots.get n).fence = false ∨ b.outstanding i ≠ 0 then b
    else (b.modSlot n fun s => { s with fence := false }).answer (b.slots.get n).summary

/-- An initiator's reset (R186, R203, R128, R89): its epoch advances, its summary and latched halves clear,
writes that never found a slot are gone. -/
def Blk.initReset (b : Blk) (i : Initiator) : Blk :=
  match slotOf i with
  | none => b
  | some n =>
    let b1 := b.modSlot n fun s =>
      { s with epoch := s.epoch + 1, pwFail := false, lostF := false, reason := 0, count := 0, fence := false }
    let drop := fun (x : Bridge) => { x with posted := x.posted.filter (fun p => p.accepted || p.init ≠ i) }
    let unlatch := fun (ch : Channel) => { ch with energyLatch := ch.energyLatch.filter (fun p => p.1 ≠ i) }
    let b3 := { b1 with bridges := b1.bridges.map drop, chans := b1.chans.map unlatch }
    b3.onTb fun t => { t with hiLatch := t.hiLatch.filter (fun p => p.1 ≠ i) }

/-! ### Destructive reads and semaphores (R191, R192, R205) -/

/-- `REPLAY` of a destructive-read register. -/
def replayBit : Word := 0x80000000

/-- A destructive read by the Chanter (R191): a kept value with REPLAY, or the action of the register. No
read is issued while an earlier one of the same register is unconfirmed. -/
def Blk.destructive (b : Blk) (k : Fin 4) (r : KseReg) (act : Blk → Word × Blk) : BW :=
  if b.hasKernel k = false then (b.answer 0, [])
  else (b.settleLink k).map fun b =>
    let kn := b.kn k
    if b.windowOpen k = false then b.isolatedAccess
    else if (findKey kn.unconfirmed r).isSome then b
    else match findKey kn.kept r with
      | some v =>
        let b1 := b.modK k fun kn => { kn with kept := kn.kept.filter (fun p => p.1 ≠ r),
                                               unconfirmed := setKey kn.unconfirmed r v }
        (b1.modBr k fun x => { x with replays := satInc x.replays 0xFFFFFFFF }).answer (v ||| replayBit).toNat
      | none =>
        let (v, b1) := act b
        (b1.modK k fun kn => { kn with unconfirmed := setKey kn.unconfirmed r v }).answer v.toNat

/-- KSE_SEM_READ (R192). -/
def kseSemRead (k : Fin 4) (s : Fin 8) (b : Blk) : BW :=
  b.destructive k (.sem s) fun b =>
    match (b.kn k).sems.get s with
    | .free => (1, b.modK k fun kn => { kn with sems := vmod kn.sems s (fun _ => .chanter) })
    | .kernel => (2, b)
    | .chanter => (4, b)

/-- KSE_PEAK_READ (R205): the quantity restarts from the present current, which the spec's events do not
give: a free value (log entry 3). -/
def ksePeakRead (k : Fin 4) (n : Fin 10) (b : Blk) : BW :=
  b.destructive k (.peak n) fun b =>
    let v : Word := ((b.kn k).peaks.get n).zeroExtend 32
    let (c, b1) := b.fresh
    (v, b1.modK k fun kn => { kn with peaks := vmod kn.peaks n (fun _ => (Config.freeWord c).truncate 16) })

/-- KSE_VBAT_MIN_READ and KSE_VBAT_MAX_READ (R205): restart from the present KVBAT. -/
def kseVbatMinRead (k : Fin 4) (b : Blk) : BW :=
  b.destructive k .vbatMin fun b =>
    ((b.kn k).vbatMin.zeroExtend 32, b.modK k fun kn => { kn with vbatMin := kn.kvbat })
def kseVbatMaxRead (k : Fin 4) (b : Blk) : BW :=
  b.destructive k .vbatMax fun b =>
    ((b.kn k).vbatMax.zeroExtend 32, b.modK k fun kn => { kn with vbatMax := kn.kvbat })

/-- READ_RETURN_CONFIRM (R191): delivery confirmed, or the value discarded and kept for a replay. -/
def readReturnConfirm (k : Fin 4) (r : KseReg) (delivered : Bool) (b : Blk) : Blk :=
  b.modK k fun kn =>
    match findKey kn.unconfirmed r with
    | none => kn
    | some v =>
      let u := kn.unconfirmed.filter (fun p => p.1 ≠ r)
      if delivered then { kn with unconfirmed := u } else { kn with unconfirmed := u, kept := setKey kn.kept r v }

/-- KG_SEM_REL_WRITE (R192): the Chanter's release reaches the kernel. -/
def kgSemRelWrite (k : Fin 4) (mask : Byte) (b : Blk) : Blk :=
  if b.windowOpen k then b.semRelease k mask.toNat else b

/-! ### Isolation and rejoining (R199 to R201) -/

/-- Cause bit of the link (R202). -/
def causeLink : Nat := 64
def causeSupply : Nat := 4

/-- Every write on its way to a kernel fails with a reason. -/
def Blk.failAll (b : Blk) (k : Fin 4) (reason : Nat) : BW :=
  let ps := (b.bridges.get k).posted
  ps.foldl (fun x p => x.andThen (·.failWrite k p reason)) (b.modBr k fun x => { x with posted := [] }, [])

/-- The monitors' readings after a change that no command delivers: free values (log entry 13). -/
def Blk.remonitor (b : Blk) (k : Fin 4) : Blk :=
  let c := b.freeCtr
  let b1 : Blk := { b with freeCtr := c + 4 }
  b1.modBr k fun x =>
    { x with monClk := Config.freeWord c &&& 0xFFFF, monGnd := Config.freeWord (c + 1),
             monVdd := Config.freeWord (c + 2), monTemp := Config.freeWord (c + 3) &&& 0x00FFFFFF }

/-- A boundary becomes ISOLATED (R199, R191, R192). -/
def Blk.isolate (b : Blk) (k : Fin 4) (cause : Nat) : BW :=
  match (b.bridges.get k).state with
  | .joined | .rejoining =>
    let b1 := b.modBr k fun x =>
      { x with state := .isolated, cause := BitVec.ofNat 8 (cause % 128), isoCount := satInc x.isoCount 0xFFFF,
               isoDt := b.time.dt, isoSince := b.time.dt, goodFrom := b.time.dt, failedPolls := 0 }
    let b2 := b1.modK k fun kn =>
      { kn with semBroken := kn.semBroken ||| BitVec.ofNat 8
                  (((upTo 8).map fun s => if kn.sems.get s = .chanter then 2 ^ s.val else 0).foldl (· + ·) 0),
                sems := kn.sems.map fun s => if s = .chanter then .free else s,
                kept := kn.unconfirmed ++ kn.kept, unconfirmed := [], gotCommit := false }
    let b3 := (b2.remonitor k).ev (srcBr k) 1 4 (arg32 (cause % 128)) (pin := true)
    b3.failAll k rIsolated
  | .isolated => (b.modBr k fun x => { x with goodFrom := b.time.dt }, [])
  | _ => (b, [])

/-- BOUNDARY_EXCURSION (R199): a monitor's causes. -/
def boundaryExcursion (k : Fin 4) (cause : BitVec 7) (b : Blk) : BW := b.isolate k cause.toNat

/-- BOUNDARY_REJOINING (R200): every limit has held for 10 ms. The first join skips this step (R201). -/
def boundaryRejoining (k : Fin 4) (b : Blk) : Blk :=
  let x := b.bridges.get k
  if x.state ≠ .isolated ∨ (b.kn k).powered = false then b
  else
    let ms := min (b.since x.isoSince / 1000000) 0xFFFFFFFF
    let b1 := (b.modBr k fun x => { x with state := .rejoining }).remonitor k
    if x.everJoined then b1.ev (srcBr k) 2 2 (arg32 ms) else b1

/-- Whether a boundary joins at the coming tick: REJOINING, or at its first join. -/
def Blk.joinsNow (b : Blk) (k : Fin 4) : Bool :=
  let x := b.bridges.get k
  (b.kn k).powered && (x.state = .rejoining || (x.state = .isolated && !x.everJoined))

/-- BOUNDARY_JOIN of a tick (R200): accesses are accepted again; stored records will be handed over. -/
def Blk.joinBoundary (b : Blk) (k : Fin 4) : Blk :=
  let x := b.bridges.get k
  let kn := b.kn k
  let n := kn.buf.length
  let b1 := b.modBr k fun x =>
    { x with state := .joined, everJoined := true, deliver := some n, failedPolls := 0,
             rejoinCount := if x.everJoined then satInc x.rejoinCount 0xFFFF else x.rejoinCount }
  let b2 := b1.modK k fun kn => { kn with storedRecs := n, wdSuspended := false, wdHold := false, semBroken := 0 }
  if kn.semBroken = 0 ∨ x.everJoined = false then b2
  else b2.ev (srcBr k) 7 2 (arg32 kn.semBroken.toNat) 0x20

/-! ### Polls (R193, R194) -/

/-- The side-band word. -/
def Kernel.sideband (kn : Kernel) : Word :=
  mkWord [min kn.buf.length 255, fld (b2n kn.kflagsChg) 1 8, fld (b2n kn.protChg) 1 9,
    fld (b2n (decide (kn.storedRecs > 0))) 1 10, fld kn.heartbeat.toNat 8 16]

/-- Records handed over by one poll: the stored ones go first, and BOUNDARY_JOINED follows the last. -/
def Blk.handOver (b : Blk) (k : Fin 4) : Blk :=
  let kn := b.kn k
  let x := b.bridges.get k
  let n := match x.deliver with | some _ => min 8 kn.storedRecs | none => min 8 kn.buf.length
  let recs := kn.buf.take n
  let rep := (recs.filter (fun p => p.flags.toNat % 2 = 1)).length
  let b1 := (b.modK k fun kn => { kn with buf := kn.buf.drop n, storedRecs := kn.storedRecs - n }).onEvs fun e =>
    { e with queue := e.queue ++ recs }
  let b2 := b1.modBr k fun x => { x with replays := satAdd x.replays rep 0xFFFFFFFF }
  match x.deliver with
  | some t =>
    if kn.storedRecs ≤ n then (b2.modBr k fun x => { x with deliver := none }).ev (srcBr k) 3 2 (arg32 t) else b2
  | none => b2

/-- SIDEBAND_POLL (R193, R194): `ok` says whether it was answered without a link error. Two failed polls
in a row are an excursion; a discarded hand-over is marked REPLAY (R191). -/
def sidebandPoll (k : Fin 4) (ok : Bool) (b : Blk) : BW :=
  let x := b.bridges.get k
  if b.hasKernel k = false then (b, [])
  else if ok && (b.kn k).powered then
    let b1 := b.modK k fun kn => { kn with heartbeat := kn.heartbeat + 1 }
    let w := (b1.kn k).sideband
    let b2 := (b1.modBr k fun x => { x with poll := w, failedPolls := 0 }).modK k fun kn =>
      { kn with kflagsChg := false, protChg := false, wdHold := if x.state = .joined ∨ x.state = .service then false else kn.wdHold }
    (if x.state = .joined ∨ x.state = .service then b2.handOver k else b2, [])
  else
    let b1 := b.modBr k fun x => { x with failedPolls := x.failedPolls + 1 }
    let b2 := if x.state = .joined then b1.modK k fun kn =>
        { kn with buf := (kn.buf.take 8).map (fun p => { p with flags := p.flags ||| 1 }) ++ kn.buf.drop 8 } else b1
    if x.failedPolls + 1 ≥ 2 then b2.isolate k causeLink else (b2, [])

/-- POLL_WATCHDOG_EXPIRY (R194, R122): no valid poll for 10 µs. -/
def pollWatchdogExpiry (k : Fin 4) (b : Blk) : Blk :=
  let kn := b.kn k
  if b.kernelRuns k = false ∨ kn.wdSuspended ∨ kn.wdHold then b
  else (b.modK k fun kn => { kn with wdHold := true }).startIsoHold k

/-- LINK_RETRY (R206): a block was retried; logged at most once per second. -/
def linkRetry (k : Fin 4) (b : Blk) : Blk :=
  let x := b.bridges.get k
  if b.hasKernel k = false then b
  else
    let n := x.linkNew + 1
    let due : Bool := match x.linkDt with | some t => decide (1000000000 ≤ b.since t) | none => true
    let b1 := b.modBr k fun x =>
      { x with linkRetried := satInc x.linkRetried 0xFFFF, linkNew := if due then 0 else n,
               linkDt := if due then some b.time.dt else x.linkDt }
    if due then b1.ev (srcBr k) 8 1 (arg32 n) else b1

/-- FAULT_QUEUE_FULL at the tick (R188). -/
def Blk.faultQueueFull (b : Blk) : Blk :=
  forAll 10 (fun b n =>
    let s := b.slots.get n
    if s.lostBreath = 0 then b
    else (b.modSlot n fun s => { s with lostBreath := 0 }).ev (srcBr s.lostAt) 5 2 (arg32 s.lostBreath)
      (idByte (slotInit n))) b

/-! ### Meanings -/

def execSidebandPoll (k : Fin 4) (ok : Bool) (s : State) : Res := .next (s.onMem fun _ b => sidebandPoll k ok b)
def execPollWatchdogExpiry (k : Fin 4) (s : State) : Res := .next (s.onBlk (pollWatchdogExpiry k))
def execBoundaryExcursion (k : Fin 4) (cause : BitVec 7) (s : State) : Res :=
  .next (s.onMem fun _ b => boundaryExcursion k cause b)
def execBoundaryRejoining (k : Fin 4) (s : State) : Res := .next (s.onBlk (boundaryRejoining k))
/-- The POSTED_WRITE_DELIVERED row (R183). -/
def execPostedWriteDelivered (k : Fin 4) (fault : Option LinkFault) (s : State) : Res :=
  .next (s.onMem fun _ b => b.deliverHead k fault)
def execFenceRead (i : Initiator) (addr : Word) (s : State) : Res := .next (s.onBlk (fenceRead i addr))
def execFenceComplete (i : Initiator) (s : State) : Res := .next (s.onBlk (fenceComplete i))
def execAcknowledgedWrite (i : Initiator) (addr : Word) (width : Fin 4) (data : BitVec 64)
    (fault : Option LinkFault) (s : State) : Res :=
  .next (s.onMem fun _ b => acknowledgedWrite i addr width data fault b)
def execKseSemRead (k : Fin 4) (n : Fin 8) (s : State) : Res := .next (s.onMem fun _ b => kseSemRead k n b)
def execKsePeakRead (k : Fin 4) (n : Fin 10) (s : State) : Res := .next (s.onMem fun _ b => ksePeakRead k n b)
def execKseVbatMinRead (k : Fin 4) (s : State) : Res := .next (s.onMem fun _ b => kseVbatMinRead k b)
def execKseVbatMaxRead (k : Fin 4) (s : State) : Res := .next (s.onMem fun _ b => kseVbatMaxRead k b)
def execReadReturnConfirm (k : Fin 4) (r : KseReg) (delivered : Bool) (s : State) : Res :=
  .next (s.onBlk (readReturnConfirm k r delivered))
def execKgSemRelWrite (k : Fin 4) (mask : Byte) (s : State) : Res := .next (s.onBlk (kgSemRelWrite k mask))
def execLinkRetry (k : Fin 4) (s : State) : Res := .next (s.onBlk (linkRetry k))

end Sys2Proof.Machine
end

