-- ==== Sys2Proof/Machine/Ramdar.lean ====
section
/-! DEFINITION. The Ramdar service (R229 to R241): the checks every request meets in the order of R236,
the error payload of R237, responses, completions, multi-part requests, the placing of responses, and the
meanings of the rows that no single command owns. -/

namespace Sys2Proof.Machine
open Sys2Proof

/-! ### Statuses (R230) -/

def stOk : Nat := 0
def stAccepted : Nat := 1
def stBadOpcode : Nat := 0x10
def stBadLength : Nat := 0x11
def stBadParam : Nat := 0x12
def stDenied : Nat := 0x20
def stRefused : Nat := 0x21
def stOwner : Nat := 0x22
def stBusy : Nat := 0x30
def stPending : Nat := 0x31
def stNotPresent : Nat := 0x40
def stAuth : Nat := 0x50
def stCounter : Nat := 0x51
def stApplied : Nat := 0x52
def stTamper : Nat := 0x60
def stIsolated : Nat := 0x61
def stInternal : Nat := 0x70

/-- An error answer: status, offset of the first offending field, subcode, value (R237). -/
structure Err where
  status : Nat
  off    : Nat
  sub    : Nat
  value  : Nat
  deriving DecidableEq, Repr

/-- An error without an offending field. -/
def err (status sub value : Nat) : Err := { status := status, off := 0xFFFF, sub := sub, value := value }
/-- An error of a payload field. -/
def errAt (off status sub value : Nat) : Err := { status := status, off := off, sub := sub, value := value }

/-- The first failed check of a list, in order. -/
def firstErr : List (Bool × Err) → Option Err
  | [] => none
  | (bad, e) :: t => if bad then some e else firstErr t

/-- The first offset from `i` whose byte is not zero, among `n` (R232: bytes marked zero). -/
def nonZeroAt (p : List Byte) (i n : Nat) : Option Nat :=
  ((List.range n).map (· + i)).find? (fun j => byteAt p j ≠ 0)

/-- The error of bytes marked zero that are not. -/
def zeroErr (p : List Byte) (i n : Nat) : List (Bool × Err) :=
  match nonZeroAt p i n with
  | some j => [(true, errAt j stBadParam 3 0)]
  | none => []

/-! ### Answers -/

/-- SRC of a mailbox (R258). -/
def srcMb (m : Fin 12) : BitVec 16 := srcOf 8 (0x100 + m.val)

/-- The requester of a mailbox as the hardware writes it into byte 8 (R210). -/
def reqWho (r : Req) : Initiator := mbOwner r.mb

/-- The present breath number as an effective BN. -/
def Blk.ebn (b : Blk) : Word := b.breath.bn.truncate 32

/-- An effective BN not yet known. -/
def ebnUnknown : Word := 0xFFFFFFFF

/-- The low half of a breath number. -/
def bnWord (n : BitVec 48) : Word := n.truncate 32

/-- A response put in line on its mailbox (R235). -/
def Blk.respond (b : Blk) (op : Nat) (r : Req) (status : Nat) (ebn : Word) (payload : List Byte)
    (carried : Bool := false) : Blk :=
  let fl := 1 + 8 * b2n carried + 16 * b2n (decide (b.rcc.mode = .recovery))
  let a : Resp := { opcode := BitVec.ofNat 16 op, client := r.client, who := idByte (reqWho r), flags := BitVec.ofNat 8 fl,
                    status := BitVec.ofNat 16 status, ebn := ebn, payload := payload }
  b.modMb r.mb fun m =>
    { m with respSince := if m.resps.isEmpty then b.time.dt else m.respSince, resps := m.resps ++ [a] }

/-- A command of kind I done: `OK` with effective BN N. -/
def Blk.ok (b : Blk) (op : Nat) (r : Req) (payload : List Byte) : Blk := b.respond op r stOk b.ebn payload

/-- The 8-byte payload of R237. -/
def Blk.errBytes (b : Blk) (e : Err) : List Byte :=
  leBytes 2 e.off ++ [BitVec.ofNat 8 e.sub, BitVec.ofNat 8 b.rcc.mode.code] ++ leBytes 4 e.value

/-- CMD_AUTH_FAIL (R258). -/
def Blk.authEvent (b : Blk) (m : Fin 12) (op : Nat) (who : Byte) (e : Err) : Blk :=
  if e.status = stAuth then b.ev (srcMb m) 0x24 3 (arg32 (op + e.sub * 65536)) who (pin := true) else b

/-- An error answer with effective BN N, and its records (R258). -/
def Blk.refuseReq (b : Blk) (op : Nat) (r : Req) (e : Err) (carried : Bool := false) : Blk :=
  let b1 := b.respond op r e.status b.ebn (b.errBytes e) carried
  let once := e.status = stDenied ∨ e.status = stOwner
  let b2 := if once ∧ r.mb ∈ b.breath.refusedMb then b1
    else
      let b' := if once then b1.onBre fun x => { x with refusedMb := r.mb :: x.refusedMb } else b1
      b'.ev (srcMb r.mb) 0x21 1 (arg32 (op + e.status * 65536)) (idByte (reqWho r))
  b2.authEvent r.mb op (idByte (reqWho r)) e

/-- Who waits for the completion of a request (R239). -/
def reqDue (r : Req) (op : Nat) : Due :=
  { mb := r.mb, client := r.client, who := idByte (reqWho r), opcode := BitVec.ofNat 16 op }

/-- A completion notification (R239). -/
def Blk.complete (b : Blk) (d : Due) (status : Nat) (ebn : Word) (payload : List Byte) : Blk :=
  let a : Resp := { opcode := d.opcode + 0x40, client := d.client, who := d.who,
                    flags := BitVec.ofNat 8 (3 + 16 * b2n (decide (b.rcc.mode = .recovery))),
                    status := BitVec.ofNat 16 status, ebn := ebn, payload := payload }
  b.modMb d.mb fun m => { m with notes := m.notes ++ [a] }

/-- A completion with an error status. -/
def Blk.completeErr (b : Blk) (d : Due) (e : Err) : Blk :=
  (b.complete d e.status b.ebn (b.errBytes e)).authEvent d.mb d.opcode.toNat d.who e

/-- Completions sent to each of a list of requests. -/
def Blk.completeAll (b : Blk) (l : List Due) (status : Nat) (ebn : Word) (payload : List Byte) : Blk :=
  l.foldl (fun b d => b.complete d status ebn payload) b

/-- The completion of a request that a later one displaced (R239). -/
def Blk.displaced (b : Blk) (l : List Due) : Blk := l.foldl (fun b d => b.completeErr d (err stBusy 1 0)) b

/-! ### Checks 1 to 5 of R236 -/

/-- The payload length that the catalogue gives a command. -/
inductive LenRule where
  | exactly (n : Nat) | atLeast (n : Nat) | within (lo hi : Nat)
  deriving DecidableEq, Repr

def LenRule.ok : LenRule → Nat → Bool
  | .exactly n, l => l = n
  | .atLeast n, l => n ≤ l
  | .within lo hi, l => lo ≤ l && l ≤ hi

/-- The length that a wrong one is answered with. -/
def LenRule.expected : LenRule → Nat
  | .exactly n | .atLeast n | .within n _ => n

/-- What the catalogue says of a command: opcode, length, parts, modes, requesters. -/
structure Cmd where
  op    : Nat
  len   : LenRule
  parts : Bool
  modes : List Nat
  who   : Initiator → Bool

def anyone : Initiator → Bool := fun _ => true
/-- H, E and U. -/
def hosts : Initiator → Bool
  | .spi | .mgmt | .uart => true
  | _ => false
/-- F, H, E and U. -/
def hostsSafety : Initiator → Bool := fun i => hosts i || i = .safety
/-- E and U. -/
def service : Initiator → Bool
  | .mgmt | .uart => true
  | _ => false
/-- Whether an initiator is a program: a tenant or the safety program. -/
def isProgram : Initiator → Bool
  | .tenant _ | .safety => true
  | _ => false

def isPart (r : Req) : Bool := r.flags.toNat.testBit 2

/-- Whether a request goes on with the assembly that its mailbox holds (R234). -/
def Blk.continues (b : Blk) (op : Nat) (r : Req) : Bool :=
  match (b.mboxes.get r.mb).assembly with
  | some (o, c, _, _) => o.toNat = op && c = r.client
  | none => false

/-- The assembly of a mailbox abandoned (R234). -/
def Blk.abandon (b : Blk) (r : Req) : Blk :=
  match (b.mboxes.get r.mb).assembly with
  | some (o, _, _, n) =>
    (b.modMb r.mb fun m => { m with assembly := none }).ev (srcMb r.mb) 0x22 2 (arg32 (o.toNat + n * 65536))
      (idByte (reqWho r))
  | none => b

/-- The bytes assembled before this part. -/
def Blk.assembled (b : Blk) (r : Req) : List Byte × Nat :=
  match (b.mboxes.get r.mb).assembly with
  | some (_, _, l, n) => (l, n)
  | none => ([], 0)

/-- Step 2 on one message (R232, R234). -/
def lengthErr (c : Cmd) (r : Req) (sofar : Nat) : Option Err :=
  let l := r.len.toNat
  firstErr
    [(decide (4080 < l), err stBadLength 1 0),
     (decide (r.words ≠ ceilDiv (16 + l) 4), err stBadLength 2 0),
     ((isPart r) && !c.parts, err stBadLength 4 0),
     (decide (65280 < sofar + l), err stBadLength 5 0),
     (!isPart r && !c.len.ok (sofar + l), err stBadLength 3 c.len.expected)]

/-- Step 4: the mode. -/
def Blk.modeErr (b : Blk) (c : Cmd) : Option Err :=
  if b.rcc.mode.code ∈ c.modes then none else some (err stRefused 1 0)

/-- Step 5 without grants: the requester. -/
def whoErr (c : Cmd) (i : Initiator) : Option Err := if c.who i then none else some (err stDenied 1 0)

/-- Step 7, the flags (R231). -/
def flagErr (r : Req) : Option Err :=
  if r.flags.toNat % 2 = 1 ∨ 0xE0 ≤ r.flags.toNat then some (err stBadParam 3 0) else none

/-- What screening a request gives: the block after an answer or a part taken, or the block, the requester and the whole
payload of a request that goes on. -/
inductive Screened where
  | done (b : Blk) | pass (b : Blk) (i : Initiator) (p : List Byte)

/-- Every request: steps 1 to 5 and the flags of step 7, parts assembled; a carried one is whole. `absent` is step 3 (the absent unit and
its number), `grant` the grants of step 5 and step 6. -/
def screen (c : Cmd) (r : Req) (absent : Blk → List Byte → Option (UnitName × Nat))
    (grant : Blk → Initiator → List Byte → Option Err) (carried : Bool) (b0 : Blk) : Screened :=
  let b := if carried ∨ b0.continues c.op r then b0 else b0.abandon r
  let (sofar, n) : List Byte × Nat := if carried then ([], 0) else b.assembled r
  match lengthErr c r sofar.length with
  | some e => .done ((if carried then b else b.abandon r).refuseReq c.op r e carried)
  | none =>
    let p := sofar ++ r.payload.take r.len.toNat
    if (isPart r) then
      .done (b.modMb r.mb fun m => { m with assembly := some (BitVec.ofNat 16 c.op, r.client, p, n + 1) })
    else
      let b1 := if carried then b else b.modMb r.mb fun m => { m with assembly := none }
      let i := (reqWho r)
      match absent b1 p with
      | some (u, k) =>
        .done ((b1.notPresent u (arg32 (c.op + k * 65536)) i).refuseReq c.op r (err stNotPresent 1 (c.op + k * 65536)) carried)
      | none =>
        match b1.modeErr c <|> whoErr c i <|> grant b1 i p <|> flagErr r with
        | some e => .done (b1.refuseReq c.op r e carried)
        | none => .pass b1 i p

/-- A request served: `body` makes the further checks of one that passed. -/
def serve (c : Cmd) (r : Req) (absent : Blk → List Byte → Option (UnitName × Nat))
    (grant : Blk → Initiator → List Byte → Option Err) (body : Blk → Initiator → List Byte → Blk)
    (b0 : Blk) (carried : Bool := false) : Blk :=
  match screen c r absent grant carried b0 with
  | .done b => b
  | .pass b i p => body b i p

/-- A request served whose body stores into memory. -/
def serveW (c : Cmd) (r : Req) (absent : Blk → List Byte → Option (UnitName × Nat))
    (grant : Blk → Initiator → List Byte → Option Err) (body : Blk → Initiator → List Byte → BW) (b0 : Blk) : BW :=
  match screen c r absent grant false b0 with
  | .done b => (b, [])
  | .pass b i p => body b i p

/-- A command that names no unit and no resource. -/
def noAbsent : Blk → List Byte → Option (UnitName × Nat) := fun _ _ => none
def noGrant : Blk → Initiator → List Byte → Option Err := fun _ _ _ => none

/-- A body of kind I with its checks of steps 7 to 10 and its effect. -/
def answerI (c : Cmd) (r : Req) (b : Blk) (checks : List (Bool × Err)) (f : Blk → List Byte × Blk) : Blk :=
  match firstErr checks with
  | some e => b.refuseReq c.op r e
  | none => let x := f b; x.2.ok c.op r x.1

/-! ### Placing (R241) -/

/-- The bytes of a message (R229). -/
def Resp.bytes (a : Resp) (part : Bool) (payload : List Byte) : List Byte :=
  leBytes 2 a.opcode.toNat ++ leBytes 2 payload.length ++ leBytes 4 a.client.toNat
    ++ [a.who, BitVec.ofNat 8 (a.flags.toNat + if part then 4 else 0)] ++ leBytes 2 a.status.toNat
    ++ leBytes 4 a.ebn.toNat ++ payload

/-- Whether a queue has credit for a message of `w` words. -/
def Blk.hasRoom (b : Blk) (q : Fin 256) (w : Nat) : Bool :=
  let x := b.queues.get q
  let n := podsOf w
  x.pods + n ≤ x.maxPods && n ≤ x.freeReserve + b.sharedFree

/-- One message of the head of a list placed on its queue: what is left, and whether it was placed. -/
def Blk.placeOne (b : Blk) (q : Fin 256) : List Resp → List Resp × Bool × Blk
  | [] => ([], false, b)
  | a :: rest =>
    let more := decide (4080 < a.payload.length)
    let ws := wordsOf 1024 (a.bytes more (a.payload.take 4080))
    let left := if more then { a with payload := a.payload.drop 4080 } :: rest else rest
    let x := b.queues.get q
    if x.enabled = false ∨ b.queueShut x then (left, true, b.dropMsg q 1)
    else if b.hasRoom q ws.length then (left, true, b.enqueue q ws)
    else (a :: rest, false, b)

/-- RESPONSE_PLACE (R241): the next message of the mailbox's waiting response, and the next notification,
where their queues have credit. -/
def responsePlace (m : Fin 12) (b : Blk) : Blk :=
  let x := b.placeOne (mbQueue m 1) (b.mboxes.get m).resps
  let b1 := x.2.2.modMb m fun y => { y with resps := x.1, respSince := if x.2.1 then b.time.dt else y.respSince }
  let y := b1.placeOne (mbQueue m 2) (b1.mboxes.get m).notes
  y.2.2.modMb m fun z => { z with notes := y.1 }

/-- RESP_DROPPED (R241): 100 ms passed without the next message being placed. -/
def respDropped (m : Fin 12) (b : Blk) : Blk :=
  match (b.mboxes.get m).resps with
  | [] => b
  | a :: rest =>
    (b.modMb m fun y => { y with resps := rest, respSince := b.time.dt }).ev (srcMb m) 0x23 2
      (arg32 (a.opcode.toNat + a.status.toNat * 65536)) a.who

/-- REQ_MALFORMED (R241): a message shorter than 16 bytes. -/
def reqMalformed (m : Fin 12) (bytes : BitVec 16) (b : Blk) : Blk :=
  let r : Req := { mb := m, client := 0, flags := 0, len := 0, words := 0, payload := [] }
  if 16 ≤ bytes.toNat then b
  else (b.abandon r).ev (srcMb m) 0x20 2 (arg32 bytes.toNat) (idByte (mbOwner m))

/-- The commands of chapter *The Ramdar command set*. -/
def knownOpcodes : List Nat :=
  (List.range 6).map (0x101 + ·) ++ (List.range 5).map (0x201 + ·) ++ (List.range 8).map (0x301 + ·)
    ++ (List.range 4).map (0x401 + ·) ++ (List.range 2).map (0x501 + ·) ++ (List.range 6).map (0x601 + ·)
    ++ (List.range 2).map (0x701 + ·) ++ (List.range 4).map (0x801 + ·) ++ (List.range 7).map (0x901 + ·)
    ++ (List.range 6).map (0xA01 + ·) ++ (List.range 3).map (0xB01 + ·)

/-- BAD_OPCODE_REQUEST (R233, R237). -/
def badOpcodeRequest (r : Req) (op : BitVec 16) (b : Blk) : Blk :=
  if op.toNat ∈ knownOpcodes then b
  else (b.abandon r).refuseReq op.toNat r (err stBadOpcode 1 op.toNat)

/-! ### Commands that take effect at a breath (R40, R41) -/

/-- Whether a command must be carried: the breath has staged its number, or its deadline has passed. -/
def Blk.mustCarry (b : Blk) : Bool := b.inGuard || decide (b.breath.cmdMax ≤ b.breath.staged)

/-- A command of kind B staged now, or carried into the next breath. -/
def Blk.stage (b : Blk) (op : Nat) (r : Req) (f : Blk → Blk) : Blk :=
  if b.mustCarry then b.onBre fun x => { x with carried := x.carried ++ [(BitVec.ofNat 16 op, r)] }
  else f (b.onBre fun x => { x with staged := x.staged + 1 })

/-! ### Meanings -/

def execReqMalformed (m : Fin 12) (bytes : BitVec 16) (s : State) : Res := .next (s.onBlk (reqMalformed m bytes))
def execBadOpcodeRequest (r : Req) (op : BitVec 16) (s : State) : Res := .next (s.onBlk (badOpcodeRequest r op))
def execRespDropped (m : Fin 12) (s : State) : Res := .next (s.onBlk (respDropped m))

end Sys2Proof.Machine
end

