-- ==== Sys2Proof/Machine/Images.lean ====
section
/-! DEFINITION. The code images and their slots (R433 to R437, R442, R445, R455): where a slot lies, what
a component runs, activation and revert. -/

namespace Sys2Proof.Machine
open Sys2Proof

/-- Component codes of R433. -/
def cChanter : Nat := 0
def cSafety : Nat := 1
def cMonitor : Nat := 2
def cMicro : Nat := 3
def cConfig : Nat := 4
def cTenant (t : Nat) : Nat := 0x10 + t

/-- The place of a component in the table. -/
def compIdx (code : Nat) : Option (Fin 13) :=
  if h : code < 5 then some ⟨code, by omega⟩
  else if h : 0x10 ≤ code ∧ code < 0x18 then some ⟨5 + (code - 0x10), by omega⟩
  else none

/-- The code of a component in the table. -/
def compCode (i : Fin 13) : Nat := if i.val < 5 then i.val else 0x10 + (i.val - 5)

/-- First address and size of a component's slots (R455, R433). -/
def slotArea (code : Nat) : Nat × Nat :=
  if code = 0 then (0x08020000, 0x200000) else if code = 1 then (0x08420000, 0x100000)
  else if code = 2 then (0x08620000, 0x200000) else if code = 3 then (0x08A20000, 0x40000)
  else if code = 4 then (0x08AA0000, 0x200000) else (0x08EA0000 + (code - 0x10) * 0x600000, 0x300000)

/-- The address of slot A or B. -/
def slotBase (code : Nat) (slotB : Bool) : Nat := (slotArea code).1 + if slotB then (slotArea code).2 else 0

/-- A component of the update service. -/
def Blk.comp (b : Blk) (i : Fin 13) : Component := b.upd.comps.get i
/-- A component changed: the boot header is written to its older copy (R437). -/
def Blk.modComp (b : Blk) (i : Fin 13) (f : Component → Component) : Blk :=
  b.onUpd fun u =>
    let g := u.bootGen + 1
    { u with comps := vmod u.comps i f, bootGen := g, bootA := u.bootA || decide (g % 2 = 1),
             bootB := u.bootB || decide (g % 2 = 0) }

/-- A slot of a component. -/
def Component.slot (c : Component) (slotB : Bool) : ImgSlot := if slotB then c.b else c.a
def Component.setSlot (c : Component) (slotB : Bool) (x : ImgSlot) : Component :=
  if slotB then { c with b := x } else { c with a := x }
def Component.modSlot (c : Component) (slotB : Bool) (f : ImgSlot → ImgSlot) : Component :=
  c.setSlot slotB (f (c.slot slotB))

/-- Whether a slot holds an image that may run: verified, active, on trial or previous. -/
def ImgSlot.usable (x : ImgSlot) : Bool :=
  match x.state with | .verified | .active | .trial | .previous => true | _ => false

/-- SRC of updates (R453). -/
def srcUpd (code : Nat) : BitVec 16 := srcOf 0xA code

/-- Whether the stored image of a slot matches its manifest's digest (R272, R367, R438). -/
def measured (m : Mem) (code : Nat) (slotB : Bool) (x : ImgSlot) : Bool :=
  x.usable && decide (Config.sha3 (Mem.readBytes m (slotBase code slotB) x.len) = x.digest)

/-- The image of a slot. -/
def imageBytes (m : Mem) (code : Nat) (slotB : Bool) (x : ImgSlot) : List Byte :=
  Mem.readBytes m (slotBase code slotB) x.len

/-- Activation (R442): the old slot becomes previous, the new slot enters trial. -/
def Blk.activate (b : Blk) (i : Fin 13) (slotB : Bool) : Blk :=
  let b1 := b.modComp i fun c =>
    let c1 := if c.runB = slotB then c else c.modSlot c.runB fun x =>
      { x with state := if x.state = .active ∨ x.state = .trial then .previous else x.state }
    { c1.modSlot slotB (fun x => { x with state := .trial }) with
      runB := slotB, pendingAct := false, trialStarts := 1, trialSince := b.time.dt }
  b1.ev (srcUpd (compCode i)) 5 2 (arg32 (b2n slotB)) hw

/-- A replacement by an image that has run before (R276): its slot is active again. -/
def Blk.reactivate (b : Blk) (i : Fin 13) (slotB : Bool) : Blk :=
  b.modComp i fun c =>
    let c1 := if c.runB = slotB then c else c.modSlot c.runB fun x =>
      { x with state := if x.state = .active ∨ x.state = .trial then .previous else x.state }
    { c1.modSlot slotB (fun x => { x with state := .active }) with runB := slotB }

/-- The active slots of tenant images as journal item 0x0021. -/
def Blk.journalTenantSlots (b : Blk) : Blk :=
  let mask := (upTo 8).foldl (fun n t => n + if (b.comp ⟨5 + t.val, by omega⟩).runB then 2 ^ t.val else 0) 0
  b.onNvm fun n => n.transact [(jTenantSlots, [BitVec.ofNat 8 mask])]

/-- One entry of `GET_VERSIONS` (R244). -/
def Blk.versionEntry (b : Blk) (i : Fin 13) : List Byte :=
  let c := b.comp i
  let x := c.slot c.runB
  let other := (c.slot (!c.runB)).usable
  let mig := decide (b.upd.state = .migrating) && decide (b.upd.comp = compCode i)
  [BitVec.ofNat 8 (compCode i), BitVec.ofNat 8 (b2n c.runB), BitVec.ofNat 8 x.major, BitVec.ofNat 8 x.minor]
    ++ leBytes 2 x.patch ++ leBytes 2 x.format ++ leBytes 4 x.secVer
    ++ [BitVec.ofNat 8 (b2n other + 2 * b2n mig), 0, 0, 0]

/-- Whether a component has an image (R244). -/
def Component.hasImage (c : Component) : Bool := (c.slot c.runB).usable

/-! ### The state of the update service (R240, R256, R441) -/

/-- `UPD_STATUS` (R256). -/
def UpdState.code : UpdState → Nat
  | .idle => 0 | .receiving => 1 | .verifying => 2 | .verified => 3 | .scheduled => 4 | .migrating => 5
def Blk.updStatus (b : Blk) : List Byte :=
  let u := b.upd
  [BitVec.ofNat 8 u.state.code, BitVec.ofNat 8 u.comp, 0, 0] ++ leBytes 4 u.received ++ leBytes 4 u.imgLen
    ++ [BitVec.ofNat 8 u.refusal, 0, 0, 0]

/-- Whom an update of a component concerns (R240). -/
def updConcerns (comp : Nat) : Initiator → Bool
  | .tenant t => comp = cTenant t.val
  | .safety => comp = cSafety
  | _ => false

/-- The update service enters a state; UPDATE_STATE is sent (R240). -/
def Blk.updTo (b : Blk) (st : UpdState) : Blk :=
  let b1 := b.onUpd fun u => { u with state := st }
  b1.notify 0x0A80 b1.updStatus (updConcerns b1.upd.comp)

end Sys2Proof.Machine
end

