-- ==== Sys2Proof/Machine/Tenants.lean ====
section
/-! DEFINITION. Tenants (R264 to R267, R272 to R276, R282): their states, what is asserted at a tick, the
automatic resets, and the meanings of the tenant family. -/

namespace Sys2Proof.Machine
open Sys2Proof

/-- SRC of a tenant (R282). -/
def srcT (t : Fin 8) : BitVec 16 := srcOf 0xD t.val
def Blk.tn (b : Blk) (t : Fin 8) : Tenant := b.tenants.get t
def tenantComp (t : Fin 8) : Fin 13 := ⟨5 + t.val, by omega⟩

/-- A tenant record (R282). -/
def Blk.tev (b : Blk) (t : Fin 8) (code sev arg : Nat) (pin : Bool := false) : Blk :=
  b.ev (srcT t) code sev (arg32 arg) (BitVec.ofNat 8 t.val) pin

/-- The state a completion of `TENANT_CTRL` carries (R245). -/
def tenantPayload (t : Fin 8) (running : Bool) : List Byte := [BitVec.ofNat 8 t.val, BitVec.ofNat 8 (b2n running)]

/-- The completions that wait for a state of the tenant: `running` says for which. -/
def Blk.tenantDone (b : Blk) (t : Fin 8) (running : Bool) : Blk :=
  let ds := ((b.tn t).due.filter (fun d => d.1 = running)).map (·.2)
  (b.modT t fun x => { x with due := x.due.filter (fun d => d.1 ≠ running) }).completeAll ds stOk b.ebn
    (tenantPayload t running)

/-- The completions that wait for a state which a later request makes impossible (R239). -/
def Blk.tenantDisplace (b : Blk) (t : Fin 8) (running : Bool) : Blk :=
  let ds := ((b.tn t).due.filter (fun d => d.1 = running)).map (·.2)
  (b.modT t fun x => { x with due := x.due.filter (fun d => d.1 ≠ running) }).displaced ds

/-- A program's reset or stop at the shell's queues and units (R272 steps 1 to 3, R186, R219, R92, R321, R332). -/
def Blk.resetProgram (b : Blk) (i : Initiator) : Blk :=
  let b1 := (b.initReset i).flushProgram i.id
  let b2 := match viewOf i with | some v => b1.emptyView v | none => b1
  let drop := fun (n : Nm) => { n with requests := n.requests.filter (fun r => r.1 ≠ i) }
  { b2 with nms := b2.nms.map drop, cans := b2.cans.map fun c =>
      { c with fifo := match c.sending, c.fifo with
          | some .fifo, h :: rest => h :: rest.filter (fun e => e.who ≠ i)
          | _, l => l.filter (fun e => e.who ≠ i) } }

/-- The slot a start takes (R276, R442): the named slot of a replacement, the slot of a pending activation,
or the active slot. -/
def Blk.startSlot (b : Blk) (t : Fin 8) : Bool :=
  let c := b.comp (tenantComp t)
  match (b.tn t).replacing with
  | some (s, _) => s
  | none => if c.pendingAct ∧ (b.tn t).replace.isNone then !c.runB else c.runB

/-- Step 5 begins: the image is copied and measured (R272). -/
def Blk.beginStart (b : Blk) (t : Fin 8) : Blk :=
  let s := b.startSlot t
  b.modT t fun x => { x with state := .starting, runNext := false, trySlot := s }

/-- A stop or reset asserted at a tick (R272 steps 1 to 3); the overrun count returns to 0 (R53). -/
def Blk.assertShut (b : Blk) (t : Fin 8) (reset : Bool) (cause : Nat) : Blk :=
  let b1 := if reset then b else b.tenantDisplace t true
  let b2 := b1.modT t fun x =>
    { x with state := if reset then .resetting else .stopping, stopCause := cause, runNext := false, vcpuIn := [],
             origin := false, next := .none }
  let b3 := b2.onBre fun r => { r with tovrConsec := vmod r.tovrConsec t (fun _ => 0),
                                       commitT := r.commitT &&& ~~~ (BitVec.ofNat 8 (2 ^ t.val)) }
  let b4 := b3.resetProgram (.tenant t)
  if reset ∨ cause = 8 then b4.tev t 3 2 cause else b4

/-- What is asserted for a tenant at the tick. -/
def Blk.assertNext (b : Blk) (t : Fin 8) : Blk :=
  let x := b.tn t
  let live := x.state = .running ∨ x.state = .starting
  match x.next with
  | .none => b
  | .start =>
    let b1 := b.modT t fun x => { x with next := .none }
    if x.state = .stopped then b1.beginStart t else b1
  | .stop c => if live then b.assertShut t false c else b.modT t fun x => { x with next := .none }
  | .reset c => if live then b.assertShut t true c else b.modT t fun x => { x with next := .none }

/-- A completed start enters RUNNING at the tick (R272). -/
def Blk.enterRunning (b : Blk) (t : Fin 8) : Blk :=
  let x := b.tn t
  if x.state ≠ .starting ∨ x.runNext = false then b
  else
    let b1 := b.modT t fun x =>
      { x with state := .running, runNext := false, origin := true, runSince := b.time.dt, firstAfterReplace := false,
               givenUp := false }
    let b2 := b1.tev t 1 1 (b2n (b.comp (tenantComp t)).runB + 256 * b2n x.firstAfterReplace)
    let b3 := b2.tenantDone t true
    match x.replacing with
    | some (_, d) =>
      (b3.modT t fun x => { x with replacing := none }).complete d stOk b.ebn (b3.versionEntry (tenantComp t))
    | none => b3

/-- A replacement due at the tick (R276): the reset is asserted with cause replace. A tenant that is stopped
starts from the named slot. -/
def Blk.replaceDue (b : Blk) (t : Fin 8) : Blk :=
  match (b.tn t).replace with
  | none => b
  | some (bn, s, d) =>
    if bn ≠ b.breath.bn then b
    else
      let b1 := b.modT t fun x => { x with replace := none, replacing := some (s, d), firstAfterReplace := true }
      match (b.tn t).state with
      | .stopped => b1.beginStart t
      | .running | .starting => b1.assertShut t true 6
      | _ => b1

/-- The tenants' part of step S2 and of the first tick after a start. -/
def Blk.tenantTick (b : Blk) : Blk :=
  (upTo 8).foldl (fun b t =>
    let b0 := b.modT t fun x => { x with origin := false }
    ((b0.replaceDue t).assertNext t).enterRunning t) b

/-- Granules of a tenant as ranges of LPDDR5 (R265). -/
def granuleBase (g : Nat) : Nat := 0x80000000 + g * 0x200000
def granuleSize : Nat := 0x200000

/-- The address of a guest address in the tenant's granules; none outside them. -/
def TenantCfg.guestAddr (c : TenantCfg) (a : Nat) : Option Nat :=
  if a < 0x80000000 then none
  else match c.granules[(a - 0x80000000) / granuleSize]? with
    | some g => some (granuleBase g + (a - 0x80000000) % granuleSize)
    | none => none

/-- Bytes written at a guest address, granule by granule. -/
def TenantCfg.guestStores (c : TenantCfg) : Nat → Nat → List Byte → List Store
  | 0, _, _ => []
  | fuel + 1, a, l =>
    if l.isEmpty then []
    else
      let n := granuleSize - a % granuleSize
      let rest := c.guestStores fuel (a + n) (l.drop n)
      match c.guestAddr a with
      | some p => .put p (l.take n) :: rest
      | none => rest

/-- TENANT_SHUTDOWN_COMPLETE (R272 step 4, R273): the granules are zeroed; a held request follows at the
first tick, or goes on as the start of a reset. -/
def tenantShutdownComplete (t : Fin 8) (b : Blk) : BW :=
  let x := b.tn t
  let zero : List Store := (x.cfg.granules ++ x.extraZero).map (fun g => .clear (granuleBase g) granuleSize)
  let held := x.pendingDue.map (fun d => (true, d))
  match x.state with
  | .stopping =>
    let b1 := b.modT t fun y =>
      { y with state := .stopped, extraZero := [], due := y.due ++ held, pending := none, pendingDue := [],
               next := if x.pending.isSome then .start else .none }
    let b2 := if x.stopCause = 8 then b1 else b1.tev t 2 1 x.stopCause
    (b2.tenantDone t false, zero)
  | .resetting =>
    let b1 := b.modT t fun y => { y with extraZero := [], due := y.due ++ held, pending := none, pendingDue := [] }
    (b1.beginStart t, zero)
  | _ => (b, [])

/-- A scheduled activation whose image fails its measurement: the slot is invalid and the update is over. -/
def Blk.badActivation (b : Blk) (t : Fin 8) : Blk :=
  let b1 := b.modComp (tenantComp t) fun c =>
    { c.modSlot (!c.runB) (fun y => { y with state := .invalid }) with pendingAct := false }
  if b.upd.comp ≠ cTenant t.val ∨ b.upd.state ≠ .scheduled then b1
  else
    let b2 := (b1.onUpd fun u => { u with due := none, target := none }).updTo .idle
    match b.upd.due with
    | some d => b2.completeErr d (err stAuth 1 0)
    | none => b2

/-- TENANT_START_COMPLETE (R272 step 5, R276, R442): the copy is measured. A mismatch stops the tenant, or,
for a replacement, restores the previous slot and repeats the step. -/
def tenantStartComplete (t : Fin 8) (m : Mem) (b : Blk) : BW :=
  let x := b.tn t
  let i := tenantComp t
  let c := b.comp i
  let s := x.trySlot
  let img := c.slot s
  if x.state ≠ .starting ∨ x.runNext then (b, [])
  else if measured m (cTenant t.val) s img then
    let b1 := if s = c.runB then b
      else
        let b' := if img.state = .verified then b.activate i s else b.reactivate i s
        b'.journalTenantSlots
    let b2 := b1.modT t fun y => { y with runNext := true }
    let b3 := if b.upd.comp = cTenant t.val ∧ b.upd.state = .scheduled ∧ s ≠ c.runB then
        (b2.onUpd fun u => { u with due := none, target := none }).updTo .idle
      else b2
    (match b.upd.due with
      | some d => if b3.upd.due.isNone then b3.modT t fun y => { y with replacing := some (s, d) } else b3
      | none => b3, x.cfg.guestStores 512 0x80000000 (imageBytes m (cTenant t.val) s img))
  else
    let b0 := if s = c.runB then b else b.badActivation t
    match x.replacing with
    | some (_, d) =>
      let b1 := b0.modT t fun y => { y with replacing := none, firstAfterReplace := false }
      ((b1.beginStart t).completeErr d (err stAuth 1 0), [])
    | none =>
      let b1 := b0.modT t fun y => { y with state := .stopped }
      ((b1.tev t 7 4 (b2n s) (pin := true)).tenantDisplace t true, [])

/-! ### Automatic resets (R275) -/

/-- An automatic reset asserted at the next tick, or the tenant given up. -/
def Blk.autoReset (b : Blk) (t : Fin 8) (cause : Nat) : Blk :=
  let x := b.tn t
  if x.state ≠ .running ∨ x.next ≠ .none then b
  else
    let win := x.cfg.resetWindow * 60000000000
    let past := x.autoResets.filter (fun d => decide (b.since d < win))
    if past.length + 1 ≥ x.cfg.resetLimit then
      (b.modT t fun y => { y with autoResets := past, next := .stop cause, givenUp := true }).tev t 6 3 past.length
        (pin := true)
    else b.modT t fun y => { y with autoResets := past ++ [b.time.dt], next := .reset cause }

/-- TENANT_OVERRUN_RESET (R53): the consecutive count has reached BRE_OVR_LIMIT. -/
def tenantOverrunReset (t : Fin 8) (b : Blk) : Blk :=
  let n := b.breath.tovrConsec.get t
  if (b.tn t).state ≠ .running ∨ (b.tn t).next ≠ .none ∨ n < b.breath.ovrLimit then b
  else
    let b1 := b.autoReset t 2
    if (b1.tn t).next = .reset 2 then b1.ev srcBre 0x13 3 (arg32 n) (BitVec.ofNat 8 t.val) else b1

/-- TENANT_FAULT_LIMIT (R274). -/
def tenantFaultLimit (t : Fin 8) (b : Blk) : Blk :=
  let x := b.tn t
  if x.state ≠ .running ∨ x.faults < x.cfg.faultLimit then b
  else (b.tev t 5 3 x.faults).autoReset t 3

/-- GUEST_EXCEPTION (R274): an exception that the partition monitor must handle. -/
def guestException (t : Fin 8) (b : Blk) : Blk := b.fault1 (.tenant t)

/-- FAULT_COUNTER_CLEAR (R274): each whole second of DT. -/
def faultCounterClear (b : Blk) : Blk := (upTo 8).foldl (fun b t => b.modT t fun x => { x with faults := 0 }) b

/-- TENANT_ABORT (R274): the tenant called the partition monitor's abort. -/
def tenantAbort (t : Fin 8) (b : Blk) : Blk := b.autoReset t 4

/-! ### Windows (R266) -/

/-- TENANT_WINDOW_START and TENANT_WINDOW_END: the window's vCPU runs, or is preempted. -/
def tenantWindowStart (t : Fin 8) (w : Fin 16) (b : Blk) : Blk :=
  let x := b.tn t
  match x.state, x.cfg.windows[w.val]? with
  | .running, some win => b.modT t fun y => { y with vcpuIn := addOnce y.vcpuIn win.vcpu }
  | _, _ => b
def tenantWindowEnd (t : Fin 8) (w : Fin 16) (b : Blk) : Blk :=
  match (b.tn t).cfg.windows[w.val]? with
  | some win => b.modT t fun y => { y with vcpuIn := y.vcpuIn.filter (· ≠ win.vcpu) }
  | none => b

/-! ### Stops and starts of every tenant (R390, R375) -/

/-- A request not yet asserted is displaced; what the Chanter asserts by itself stands. -/
def Blk.dropNext (b : Blk) (t : Fin 8) : Blk :=
  match (b.tn t).next with
  | .none => b
  | .start => (b.modT t fun x => { x with next := .none }).tenantDisplace t true
  | .stop 1 => (b.modT t fun x => { x with next := .none }).tenantDisplace t false
  | .reset 1 => (b.modT t fun x => { x with next := .none }).tenantDisplace t true
  | _ => b

/-- The single pending request is dropped (R273). -/
def Blk.dropPending (b : Blk) (t : Fin 8) : Blk :=
  let ds := (b.tn t).pendingDue
  (b.modT t fun x => { x with pending := none, pendingDue := [] }).displaced ds

/-- Every tenant stopped, with a cause of R282. -/
def Blk.stopAll (b : Blk) (cause : Nat) : Blk :=
  (upTo 8).foldl (fun b t =>
    let b1 := (b.dropNext t).dropPending t
    match (b1.tn t).state with
    | .running | .starting => b1.assertShut t false cause
    | .resetting => (b1.modT t fun x => { x with state := .stopping, stopCause := cause }).tenantDisplace t true
    | _ => b1) b

/-- The `AUTOSTART` tenants start (R390): step 5 begins now. -/
def Blk.startAuto (b : Blk) : Blk :=
  (upTo 8).foldl (fun b t =>
    let x := b.tn t
    if x.cfg.enabled ∧ x.cfg.autostart then
      match x.state with
      | .stopped => b.beginStart t
      | .stopping => b.modT t fun y => { y with pending := some false }
      | _ => b
    else b) b

/-! ### TENANT_CTRL (R245, R273) -/

/-- The tenant that byte 0 of a payload names. -/
def tenantArg (p : List Byte) : Option (Fin 8) :=
  let n := (byteAt p 0).toNat
  if h : n < 8 then some ⟨n, h⟩ else none

/-- Step 3 for a tenant of byte 0: one of the family that the variant leaves out. -/
def absentTenant (b : Blk) (p : List Byte) : Option (UnitName × Nat) :=
  match tenantArg p with
  | some t => if b.hasTenant t then none else some (.tenants47, t.val)
  | none => none

def cmdTenantCtrl : Cmd :=
  { op := 0x203, len := .exactly 4, parts := false, modes := [3, 4, 5, 6],
    who := fun i => hostsSafety i || isProgram i }

/-- The next breath as an effective BN. -/
def Blk.ebn1 (b : Blk) : Word := bnWord (b.breath.bn + 1)

/-- A request that only reports the present state (R245). -/
def Blk.tenantNothing (b : Blk) (r : Req) (t : Fin 8) (running : Bool) : Blk :=
  (b.ok 0x203 r []).complete (reqDue r 0x203) stOk b.ebn (tenantPayload t running)

/-- An accepted request. -/
def Blk.tenantAccepted (b : Blk) (r : Req) (t : Fin 8) (running : Bool) : Blk :=
  (b.modT t fun x => { x with due := x.due ++ [(running, reqDue r 0x203)] }).respond 0x203 r stAccepted b.ebn1 []

/-- A start or reset held as the single pending request. -/
def Blk.tenantHold (b : Blk) (r : Req) (t : Fin 8) (reset : Bool) : Blk :=
  let first := (b.tn t).pending.isNone
  let b1 := (b.dropPending t).modT t fun x => { x with pending := some reset, pendingDue := [reqDue r 0x203] }
  let b2 := if first then b1.tev t 4 1 (if reset then 2 else 1) else b1
  b2.respond 0x203 r stPending ebnUnknown []

/-- The stop of a tenant. -/
def Blk.ctrlStop (b0 : Blk) (r : Req) (t : Fin 8) : Blk :=
  let b := b0.dropNext t
  match (b.tn t).state with
  | .stopped => b.tenantNothing r t false
  | .running | .starting => (b.tenantAccepted r t false).modT t fun x => { x with next := .stop 1 }
  | .stopping => (b.dropPending t).tenantAccepted r t false
  | .resetting =>
    (((b.dropPending t).tenantDisplace t true).modT t fun x =>
      { x with state := .stopping, stopCause := 1 }).tenantAccepted r t false

/-- The start of a tenant. -/
def Blk.ctrlStart (b0 : Blk) (r : Req) (t : Fin 8) : Blk :=
  let b := b0.dropNext t
  match (b.tn t).state with
  | .running => b.tenantNothing r t true
  | .starting => b.tenantAccepted r t true
  | .stopped => (b.tenantAccepted r t true).modT t fun x => { x with next := .start }
  | _ => b.tenantHold r t false

/-- The reset of a tenant. -/
def Blk.ctrlReset (b0 : Blk) (r : Req) (t : Fin 8) : Blk :=
  let b := b0.dropNext t
  match (b.tn t).state with
  | .running | .starting => (b.tenantAccepted r t true).modT t fun x => { x with next := .reset 1 }
  | .stopped => (b.tenantAccepted r t true).modT t fun x => { x with next := .start }
  | _ => b.tenantHold r t true

/-- `TENANT_CTRL` with the action of its row (R245). A request that carries another valid action is another
row's. -/
def tenantCtrl (action : Nat) (r : Req) (f : Blk → Req → Fin 8 → Blk) (b : Blk) : Blk :=
  let a := (byteAt r.payload 1).toNat
  if a ≤ 2 ∧ a ≠ action then b
  else serve cmdTenantCtrl r absentTenant
    (fun _ i p => match i with
      | .tenant t => if (byteAt p 0).toNat = t.val ∧ (byteAt p 1).toNat = 2 then none else some (err stDenied 1 0)
      | _ => none)
    (fun b _ p =>
      match tenantArg p with
      | none => b.refuseReq 0x203 r (errAt 0 stBadParam 1 0)
      | some t =>
        match firstErr ([(!(b.tn t).cfg.enabled, errAt 0 stBadParam 6 0),
            (decide (2 < (byteAt p 1).toNat), errAt 1 stBadParam 1 0)] ++ zeroErr p 2 2
            ++ [(decide (b.rcc.mode = .limp ∧ (byteAt p 1).toNat ≠ 0), err stRefused 13 0)]) with
        | some e => b.refuseReq 0x203 r e
        | none => if b.rcc.mode = .limp then b.tenantNothing r t false else f b r t) b

/-- TENANT_CTRL_STOP, TENANT_CTRL_START and TENANT_CTRL_RESET. -/
def tenantCtrlStop (r : Req) (b : Blk) : Blk := tenantCtrl 0 r Blk.ctrlStop b
def tenantCtrlStart (r : Req) (b : Blk) : Blk := tenantCtrl 1 r Blk.ctrlStart b
def tenantCtrlReset (r : Req) (b : Blk) : Blk := tenantCtrl 2 r Blk.ctrlReset b

/-! ### TENANT_REPLACE (R247, R276) -/

def cmdTenantReplace : Cmd :=
  { op := 0x308, len := .exactly 16, parts := false, modes := [3, 4], who := hosts }

/-- A target breath of a payload: 0 stands for the earliest, N+2. -/
def Blk.targetBn (b : Blk) (p : List Byte) (off : Nat) : BitVec 48 :=
  if leAt p off 8 = 0 then b.breath.bn + 2 else BitVec.ofNat 48 (leAt p off 8)

/-- A target below N+2 (R247, R276). -/
def Blk.targetEarly (b : Blk) (p : List Byte) (off : Nat) : Bool :=
  decide (leAt p off 8 ≠ 0 ∧ leAt p off 8 < b.breath.bn.toNat + 2) || decide (2 ^ 48 ≤ leAt p off 8)

/-- TENANT_REPLACE. In RUN it is served on the NZ840 only (R6). -/
def tenantReplace (r : Req) (b : Blk) : Blk :=
  serve cmdTenantReplace r absentTenant noGrant
    (fun b _ p =>
      match tenantArg p with
      | none => b.refuseReq 0x308 r (errAt 0 stBadParam 1 0)
      | some t =>
        let x := b.tn t
        let s := decide ((byteAt p 1).toNat = 1)
        let shut := decide (x.state = .stopping ∨ x.state = .resetting)
        match firstErr ([(decide (b.rcc.mode = .run ∧ b.full = false), err stRefused 2 0),
            (!x.cfg.enabled, errAt 0 stBadParam 6 0),
            (decide (1 < (byteAt p 1).toNat), errAt 1 stBadParam 1 0)] ++ zeroErr p 2 6
            ++ [(b.targetEarly p 8, errAt 8 stBadParam 1 0),
                (!((b.comp (tenantComp t)).slot s).usable, errAt 1 stBadParam 6 0),
                (shut || x.replace.isSome || x.replacing.isSome, err stBusy 1 0)]) with
        | some e => b.refuseReq 0x308 r e
        | none =>
          let bn := b.targetBn p 8
          (b.modT t fun x => { x with replace := some (bn, s, reqDue r 0x308) }).respond 0x308 r stAccepted
            (bnWord bn) []) b

/-! ### Meanings -/

def execTenantShutdownComplete (t : Fin 8) (s : State) : Res :=
  .next (s.onMem fun _ b => tenantShutdownComplete t b)
def execTenantStartComplete (t : Fin 8) (s : State) : Res := .next (s.onMem (tenantStartComplete t))
def execTenantOverrunReset (t : Fin 8) (s : State) : Res := .next (s.onBlk (tenantOverrunReset t))
def execTenantFaultLimit (t : Fin 8) (s : State) : Res := .next (s.onBlk (tenantFaultLimit t))
def execGuestException (t : Fin 8) (s : State) : Res := .next (s.onBlk (guestException t))
def execFaultCounterClear (s : State) : Res := .next (s.onBlk faultCounterClear)
def execTenantAbort (t : Fin 8) (s : State) : Res := .next (s.onBlk (tenantAbort t))
def execTenantWindowStart (t : Fin 8) (w : Fin 16) (s : State) : Res := .next (s.onBlk (tenantWindowStart t w))
def execTenantWindowEnd (t : Fin 8) (w : Fin 16) (s : State) : Res := .next (s.onBlk (tenantWindowEnd t w))
def execTenantCtrlStop (r : Req) (s : State) : Res := .next (s.onBlk (tenantCtrlStop r))
def execTenantCtrlStart (r : Req) (s : State) : Res := .next (s.onBlk (tenantCtrlStart r))
def execTenantCtrlReset (r : Req) (s : State) : Res := .next (s.onBlk (tenantCtrlReset r))
def execTenantReplace (r : Req) (s : State) : Res := .next (s.onBlk (tenantReplace r))

end Sys2Proof.Machine
end

