-- ==== Sys2Proof/Machine/DoubleReed.lean ====
section
/-! DEFINITION. The double-reed unit (R354 to R372): passes, signatures, release, unverified breaths, safety
resets, self-test, code check and debugging, and the meanings of the safety family. -/

namespace Sys2Proof.Machine
open Sys2Proof

/-- SRC of a safety core (R372). -/
def srcDr (core : Fin 2) : BitVec 16 := srcOf 0xC core.val
/-- A record of the unit. -/
def Blk.dev (b : Blk) (core : Fin 2) (code sev arg : Nat) (pin : Bool := false) : Blk :=
  b.ev (srcDr core) code sev (arg32 arg) 0x10 pin

def Blk.task (b : Blk) (t : Fin 2) : Task := b.dr.tasks.get t
def Blk.modTask (b : Blk) (t : Fin 2) (f : Task → Task) : Blk := b.onDr fun d => { d with tasks := vmod d.tasks t f }

/-! ### Fields of DR_CTRL and DR_WINDOW (R371) -/

def DoubleReed.taskOn (d : DoubleReed) (t : Fin 2) : Bool := bit d.ctrl t.val
def DoubleReed.divLimit (d : DoubleReed) : Nat := bits d.ctrl 11 8
def DoubleReed.resetLimit (d : DoubleReed) : Nat := bits d.ctrl 15 12
def DoubleReed.windowMin (d : DoubleReed) : Nat := bits d.window 10 0
/-- The tasks that the active image enables. -/
def DoubleReed.enabled (d : DoubleReed) : List (Fin 2) := (upTo 2).filter d.taskOn
/-- Bytes of the state and scratch regions. -/
def Task.stateBytes (t : Task) : Nat := bits t.size 15 0 * 64
def Task.scratchBytes (t : Task) : Nat := bits t.size 31 16 * 64

/-- Whether the safety program runs (R355). -/
def Blk.safetyRuns (b : Blk) : Bool := b.dr.run && !b.dr.resetting

/-! ### Memory (R356, R357) -/

def drCode : Nat := 0x10400000
def drArea (t : Fin 2) : Nat := 0x10500000 + t.val * 0x100000
def drStateA : Nat := 0x30000
def drStateB : Nat := 0x70000
def drScratchA : Nat := 0xB0000
def drScratchB : Nat := 0xD0000
def drDelivA : Nat := 0x20000
def drDelivB : Nat := 0x28000
def drInboxB : Nat := 0x10000

/-- The physical offset in pass B of byte `o` of a region of `s` bytes (R357). -/
def mirrorOff (s o : Nat) : Nat := s - 8 - 8 * (o / 8) + (o + 1) % 8

/-- The stores that put bytes at offset `o` of an A region, in the layout of its B region at `base`. -/
def mirrorStores (base s : Nat) : Nat → List Byte → List Store
  | _, [] => []
  | o, x :: t => .put (base + mirrorOff s o) [x] :: mirrorStores base s (o + 1) t

/-! ### Signatures (R362) -/

/-- One bit and one byte of the CRC-64. -/
def crc64Bit (c : Nat) : Nat :=
  if 2 ^ 63 ≤ c then (c * 2 % 2 ^ 64) ^^^ 0x42F0E1EBA9EA3693 else c * 2 % 2 ^ 64
def crc64Byte (c : Nat) (x : Byte) : Nat := (List.range 8).foldl (fun c _ => crc64Bit c) (c ^^^ (x.toNat * 2 ^ 56))

/-- The 13 bytes that a captured write is signed as. -/
def Captured.bytes (w : Captured) : List Byte := leBytes 4 w.addr.toNat ++ beBytes w.be w.data ++ [w.be]

/-- The signature of a pass. -/
def signature (l : List Captured) : BitVec 64 :=
  BitVec.ofNat 64 ((l.flatMap Captured.bytes).foldl crc64Byte (2 ^ 64 - 1))

def outputsOf (l : List Captured) : List Captured := l.filter (fun w => !w.store)
def storesOf (l : List Captured) : List Captured := l.filter (fun w => w.store)

/-! ### How a pass ends (R359, R362, R366) -/

/-- Outcome codes of DR_T_OUTCOME. -/
def oDiverged : Nat := 1
def oIncompleteA : Nat := 2
def oIncompleteB : Nat := 3
def oTrap : Nat := 4
def oUncorrectable : Nat := 5
def oDebug : Nat := 6
def oBuffer : Nat := 7

/-- A task's breath is not verified: the outcome, and its count once per breath. Under debug nothing counts. -/
def Blk.taskFails (b : Blk) (t : Fin 2) (outcome : Nat) : Blk :=
  let dbg := b.dr.debugOn ≠ 0
  b.modTask t fun x =>
    { x with pass := .ended, verified := false, outcome := if dbg then oDebug else outcome, counted := true,
             consec := if x.counted ∨ dbg then x.consec else satInc x.consec 15 }

/-- A running pass. -/
def Task.runs (x : Task) : Bool := x.pass = .inA || x.pass = .inB
def Task.inPassB (x : Task) : Bool := x.pass = .inB

/-- PASS_A_START (R365): the inbox is complete. -/
def passAStart (t : Fin 2) (b : Blk) : Blk :=
  if b.safetyRuns = false ∨ b.dr.taskOn t = false ∨ b.dr.failed.get t ∨ (b.task t).pass ≠ .idle ∨
      b.breath.running = false ∨ b.breath.phase = 4 then b
  else b.modTask t fun x => { x with pass := .inA }

/-- PASS_BUFFER_FULL (R361). -/
def passBufferFull (t : Fin 2) (stateBuf : Bool) (b : Blk) : Blk :=
  let x := b.task t
  if x.runs = false then b
  else
    let b1 := (b.taskFails t oBuffer).onDr fun d => { d with sticky := orBits d.sticky (if stateBuf then 8 else 16) }
    b1.dev t (if stateBuf then 4 else 5) 3 (b2n x.inPassB)

/-! ### Release (R363) -/

/-- One captured output write forwarded with initiator ID 0x10. -/
def Blk.forward (b : Blk) (w : Captured) : BW :=
  let a := w.addr.toNat
  let wide := decide (w.be = 0xFF)
  let lane := (List.range 8).find? (fun j => w.be.toNat.testBit j)
  let v : BitVec 64 := match lane with | some j => BitVec.ofNat 64 (w.data.toNat / 256 ^ j) | none => 0
  let width : Fin 4 := match (List.range 8).foldl (fun n j => n + b2n (w.be.toNat.testBit j)) 0 with
    | 1 => 0 | 2 => 1 | 4 => 2 | _ => 3
  if inWindow a then b.postWrite .safety a width (if wide then w.data else v)
  else if 0x40040000 ≤ a ∧ a < 0x40044000 then
    let q : Fin 256 := ⟨(a - 0x40040000) / 0x40 % 256, Nat.mod_lt _ (by decide)⟩
    let lo : Word := (if wide then w.data else v).truncate 32
    let hi : Word := BitVec.ofNat 32 (w.data.toNat / 2 ^ 32)
    match (a % 0x40) / 4 with
    | 0 => (pqWr .safety q lo (if wide then some hi else none) b, [])
    | 1 => (pqWrEnd .safety q lo b, [])
    | 2 => (pqAbort .safety q b, [])
    | _ => (b, [])
  else if a / 0x1000 = 0x40023 then (evsViewRdWrite .safety none (v.truncate 16) b, [])
  else (b, [])

/-- The outputs of pass A forwarded, task 0 first, in program order; then the fence is started. -/
def Blk.releaseSafety (b : Blk) : BW :=
  let outs := b.dr.enabled.flatMap fun t => outputsOf (b.task t).capA
  let x : BW := outs.foldl (fun (x : BW) w => x.andThen (·.forward w)) (b, [])
  x.map fun b => b.onDr fun d => { d with fenceRunning := true }

/-- Both passes of every enabled task complete (R363); all of them verified. -/
def Blk.passesDone (b : Blk) : Blk :=
  b.onBre fun r =>
    { r with doneA := b.dr.enabled.all (fun t => (b.task t).doneA),
             doneB := b.dr.enabled.all (fun t => (b.task t).doneB) }

/-- PASS_TRAP (R359). -/
def passTrap (t : Fin 2) (mcause : Byte) (pc : Word) (b : Blk) : Blk :=
  let x := b.task t
  if x.runs = false then b
  else
    let b1 := (b.taskFails t oTrap).modTask t fun y => { y with mcause := mcause, trapB := x.inPassB, trapPc := pc }
    (b1.onDr fun d => { d with sticky := orBits d.sticky 2 }).dev t 2 3 (mcause.toNat + 256 * b2n x.inPassB)

/-- What the unit captures of a task (R354, R359): writes to `CH_CMD` to `CH_SLEW` and `CH_PROT_CLEAR` of its channels, to
the producer registers of its queues and to `EVS_VIEW_RD`, and stores to its state region. -/
def Blk.captures (b : Blk) (t : Fin 2) (w : Captured) : Bool :=
  let a := w.addr.toNat
  let off := a % 0x1000
  if w.store then decide (drArea t + drStateA ≤ a ∧ a < drArea t + drStateA + (b.task t).stateBytes)
  else if inWindow a then
    match winPart (a % 0x1000000) with
    | .page n =>
      let c := chanOf (winKernel a) n
      decide ((b.ch c).owner = .safety) && decide (findKey b.dr.chanTask c = some t) && decide (off < 0x10 ∨ off = 0x140)
    | _ => false
  else if 0x40040000 ≤ a ∧ a < 0x40044000 then
    let q : Fin 256 := ⟨(a - 0x40040000) / 0x40 % 256, Nat.mod_lt _ (by decide)⟩
    decide ((b.queues.get q).producer = 0x10) && decide (findKey b.dr.queueTask q = some t) && decide (a % 0x40 < 0xC)
  else decide (a = 0x40023010)

/-- The words of the state buffer: later stores to a word merge (R361). -/
def stateWords (l : List Captured) : Nat := ((storesOf l).map (fun w => w.addr.toNat / 8)).eraseDups.length

/-- PASS_END (R362): pass B starts, or the signatures are compared; when every enabled task is verified the
outputs are released. A pass with a write that the unit does not capture has trapped instead; its cause and pc are then
free values. -/
def passEnd (t : Fin 2) (res : PassResult) (b : Blk) : BW :=
  let x := b.task t
  if x.runs = false then (b, [])
  else if res.writes.all (b.captures t) = false then
    let c := b.fresh
    (passTrap t (BitVec.ofNat 8 (Config.freeNat c.1)) (Config.freeWord c.1) c.2, [])
  else if 4096 < stateWords res.writes then (passBufferFull t true b, [])
  else if 2048 < (outputsOf res.writes).length then (passBufferFull t false b, [])
  else
    let sig := signature res.writes
    let note := fun (y : Task) (lo : Bool) =>
      let last := if lo then setBits y.last 15 0 res.runTime.toNat else setBits y.last 31 16 res.runTime.toNat
      let mx := if lo then setBits y.max 15 0 (max (bits y.max 15 0) res.runTime.toNat)
        else setBits y.max 31 16 (max (bits y.max 31 16) res.runTime.toNat)
      { y with last := last, max := mx }
    if x.pass = .inA then
      let b1 := b.modTask t fun y =>
        { note y true with pass := .inB, doneA := true, capA := res.writes, sigA := sig }
      (b1.passesDone, [])
    else
      let b1 := b.modTask t fun y => { note y false with pass := .ended, doneB := true, capB := res.writes, sigB := sig }
      let nA := (outputsOf x.capA).length
      let nB := (outputsOf res.writes).length
      let same := decide (x.sigA = sig) && decide (nA = nB) &&
        decide ((storesOf x.capA).length = (storesOf res.writes).length)
      if same = false then
        let b2 := ((b1.taskFails t oDiverged).modTask t fun y => { y with divs := satInc y.divs 0xFFFFFFFF }).onDr
          fun d => { d with sticky := orBits d.sticky 1 }
        ((b2.dev t 1 3 (nA + nB * 65536) (pin := true)).passesDone, [])
      else if b.dr.debugOn ≠ 0 then ((b1.taskFails t oDebug).passesDone, [])
      else
        let b2 := (b1.modTask t fun y => { y with verified := true, outcome := 0 }).passesDone
        if b2.dr.enabled.all (fun t => (b2.task t).verified) then b2.releaseSafety else (b2, [])

/-- The state stores of a verified pass as memory stores: state A directly, state B in its layout. -/
def Blk.drainState (b : Blk) (t : Fin 2) : List Store :=
  let x := b.task t
  let base := drArea t + drStateA
  (storesOf x.capA).flatMap fun w =>
    (List.range 8).flatMap fun j =>
      if w.be.toNat.testBit j then
        let a := w.addr.toNat / 8 * 8 + j
        let v : Byte := BitVec.ofNat 8 (w.data.toNat / 256 ^ j)
        [.put a [v], .put (drArea t + drStateB + mirrorOff x.stateBytes (a - base)) [v]]
      else []

/-- SAFETY_RELEASE_FENCE_DONE (R363): at or before the deadline the breath is verified; later, pass B counts as
incomplete for every enabled task. -/
def safetyReleaseFenceDone (b : Blk) : BW :=
  if b.dr.fenceRunning = false ∨ b.outstanding .safety ≠ 0 then (b, [])
  else
    let b1 := b.onDr fun d => { d with fenceRunning := false }
    if b.inGuard then
      (b.dr.enabled.foldl (fun b t => b.taskFails t oIncompleteB) b1, [])
    else
      let b2 := b1.onBre fun r => { r with doneV := true }
      (b2.onDr fun d => { d with verifiedBn := b.breath.bn, tasks := d.tasks.map fun x => { x with consec := 0 } },
        b.dr.enabled.flatMap b.drainState)

/-! ### Passes that do not complete -/

/-- PASS_BUDGET_EXPIRY (R365). -/
def passBudgetExpiry (t : Fin 2) (b : Blk) : Blk :=
  let x := b.task t
  if x.runs = false then b else b.taskFails t (if x.inPassB then oIncompleteB else oIncompleteA)

/-- PASS_UNCORRECTABLE (R359). -/
def passUncorrectable (t : Fin 2) (addr : Word) (b : Blk) : Blk :=
  let x := b.task t
  if x.runs = false then b
  else ((b.taskFails t oUncorrectable).onDr fun d => { d with sticky := orBits d.sticky 4 }).dev t 3 3 addr.toNat
    (pin := true)

/-- PASS_DEADLINE_STOP (R365): every pass still running at the deadline is stopped; a fence still running
counts as pass B incomplete when it completes. -/
def Blk.stopPasses (b : Blk) : Blk :=
  if b.safetyRuns = false then b
  else b.dr.enabled.foldl (fun b t =>
    match (b.task t).pass with
    | .idle | .inA => b.taskFails t oIncompleteA
    | .betweenAB | .inB => b.taskFails t oIncompleteB
    | .ended => b) b

/-- Bits [1:0] of SAFETY_OVERRUN: pass A, pass B incomplete. -/
def Blk.incompleteBits (b : Blk) : Nat :=
  let a := !(b.dr.enabled.all (fun t => (b.task t).doneA))
  let bb := !(b.dr.enabled.all (fun t => (b.task t).doneB)) || b.dr.fenceRunning
  b2n a + 2 * b2n bb

/-- An unverified breath (R364): the buffers are discarded and the scratch regions cleared. -/
def Blk.discardPasses (b : Blk) : BW :=
  let clear : List Store := (upTo 2).flatMap fun t =>
    [.clear (drArea t + drScratchA) (b.task t).scratchBytes, .clear (drArea t + drScratchB) (b.task t).scratchBytes]
  ((upTo 2).foldl (fun b t => b.modTask t fun x => { x with capA := [], capB := [] }) b, clear)

/-- A fence that still runs at the tick completes late: pass B counts as incomplete for every enabled task (R363, R366). -/
def Blk.lateFence (b : Blk) : Blk :=
  if b.dr.fenceRunning then
    (b.dr.enabled.foldl (fun b t => b.taskFails t oIncompleteB) b).onDr fun d => { d with fenceRunning := false }
  else b

/-- A new breath: the passes wait for their inbox; a task whose own passes verified has no count (R366). -/
def Blk.newPasses (b : Blk) : Blk :=
  (upTo 2).foldl (fun b t => b.modTask t fun x =>
    { x with pass := .idle, doneA := false, doneB := false, verified := false, counted := false, capA := [],
             capB := [], consec := if x.verified then 0 else x.consec })
    (b.lateFence.onDr fun d => { d with origin := false, originNow := d.origin })

/-! ### Safety resets (R367) -/

/-- The channels that the safety program owns take fallback until its first verified breath (R122, R367). -/
def Blk.safetyFallback (b : Blk) : Blk :=
  let b1 := b.onDr fun d => { d with fbUntilVerified := true }
  (upTo 4).foldl (fun b k => b.fallback k ((chansOf k).filter (fun c => (b.ch c).owner = .safety)) 6) b1

/-- Resets with cause divergence inside RESET_WINDOW. -/
def Blk.divResets (b : Blk) : List (BitVec 64) :=
  b.dr.resets.filter (fun d => decide (b.since d < b.dr.windowMin * 60000000000))

/-- The safety program given up (R367): it stops, FAULT_N is asserted. -/
def Blk.giveUpSafety (b : Blk) : Blk :=
  let n := b.divResets.length
  let b1 := b.onDr fun d => { d with run := false, givenUp := true, assertReset := none, resetting := false }
  (b1.onRcc fun r => { r with gpioFault := orBits r.gpioFault 2 }).dev 0 8 4 n (pin := true)

/-- A safety reset: steps 1 and 2; the load that follows completes with SAFETY_RESET_COMPLETE. -/
def Blk.safetyReset (b : Blk) (cause : Nat) : Blk :=
  if b.dr.present = false ∨ b.dr.givenUp then b.onDr fun d => { d with assertReset := none }
  else
    let b1 := b.onDr fun d =>
      { d with assertReset := none, resetting := true, run := true, fenceRunning := false,
               tasks := d.tasks.map fun x => { x with pass := .ended, consec := 0, capA := [], capB := [],
                                                      doneA := false, doneB := false, verified := false } }
    let b2 := (b1.resetProgram .safety).dev 0 7 3 cause (pin := true)
    if cause = 4 ∨ cause = 6 then b2.safetyFallback else b2

/-- The safety program's image copied, its state filled from the image's initial data, whose place in the image
the spec does not give (log entry 3), and the scratch regions cleared. -/
def Blk.loadSafety (m : Mem) (b : Blk) : BW :=
  let i : Fin 13 := 1
  let c := b.comp i
  let (n, b1) := b.fresh
  let img := imageBytes m cSafety c.runB (c.slot c.runB)
  let fill : List Store := b.dr.enabled.flatMap fun t =>
    let x := b.task t
    let l := padTo x.stateBytes (Config.freeBytes n)
    [.put (drArea t + drStateA) l] ++ mirrorStores (drArea t + drStateB) x.stateBytes 0 l ++
      [.clear (drArea t + drScratchA) x.scratchBytes, .clear (drArea t + drScratchB) x.scratchBytes]
  (b1.onDr fun d => { d with run := true, resetting := false, origin := true }, .put drCode img :: fill)

/-- SAFETY_RESET_COMPLETE (R367 steps 3 and 4): the code is measured against the stored digest. A mismatch
leaves the program in reset. -/
def safetyResetComplete (m : Mem) (b : Blk) : BW :=
  let c := b.comp 1
  if b.dr.resetting = false then (b, [])
  else if measured m cSafety c.runB (c.slot c.runB) then b.loadSafety m
  else (b, [])

/-- SAFETY_DIVERGENCE_LIMIT (R366, R367): a task's count has reached DIV_LIMIT. -/
def safetyDivergenceLimit (b : Blk) : Blk :=
  if b.safetyRuns = false ∨ b.dr.enabled.all (fun t => (b.task t).consec < b.dr.divLimit) then b
  else
    let past := b.divResets
    if past.length + 1 ≥ b.dr.resetLimit then (b.onDr fun d => { d with resets := past }).giveUpSafety
    else b.onDr fun d => { d with resets := past ++ [b.time.dt], assertReset := some 1 }

/-- SAFETY_RESET (R367): the reset of a cause of R372, asserted by the unit or commanded by its source. -/
def safetyReset (cause : Fin 7) (b : Blk) : Blk :=
  if cause.val = 0 then b
  else if cause.val = 1 ∧ b.dr.assertReset ≠ some 1 then b
  else b.safetyReset cause.val

/-- The reset asserted for the tick. -/
def Blk.safetyTick (b : Blk) : Blk :=
  match b.dr.assertReset with
  | some c => b.safetyReset c
  | none => b

/-- The safety program stopped (R355, R494): its epoch advances, its queues are flushed, its view emptied. -/
def Blk.stopSafety (b : Blk) : Blk :=
  if b.dr.run = false then b
  else
    let b1 := b.onDr fun d => { d with run := false, resetting := false, assertReset := none, fenceRunning := false }
    b1.resetProgram .safety

/-! ### Self-test, code check, debug (R368 to R370) -/

/-- SELFTEST_SLICE (R368): both cores run the slice; the next one follows core 1's. -/
def selftestSlice (core : Fin 2) (ok : Bool) (b : Blk) : Blk :=
  let n := b.dr.slice
  let b1 := if core = 1 then b.onDr fun d =>
      { d with slice := (n + 1) % 64, cycles := if n = 63 then satInc d.cycles 0xFFFF else d.cycles } else b
  if ok then b1
  else
    let b2 := b1.onDr fun d => { d with failed := vmod d.failed core (fun _ => true), lastBad := n,
                                        sticky := orBits d.sticky 0x40 }
    let b3 := b2.dev core 9 4 n (pin := true)
    if b.dr.taskOn core ∧ b.dr.run then b3.giveUpSafety else b3

/-- CODE_CHECK_BLOCK (R369): one 4 KiB block of the code copy. -/
def codeCheckBlock (ok : Bool) (b : Blk) : Blk :=
  let n := b.dr.nextBlock
  if b.safetyRuns = false then b
  else
    let b1 := b.onDr fun d => { d with nextBlock := (n + 1) % 256,
                                       checks := if n = 255 then satInc d.checks 0xFFFF else d.checks }
    if ok then b1
    else
      let b2 := b1.onDr fun d => { d with blocksBad := satInc d.blocksBad 0xFFFF, sticky := orBits d.sticky 0x80,
                                          assertReset := some 3 }
      b2.dev 0 0xA 4 n (pin := true)

/-- DEBUG_ATTACHED (R370): in SERVICE only. -/
def debugAttached (core : Fin 2) (b : Blk) : Blk :=
  if b.rcc.mode ≠ .service ∨ b.dr.debugOn.toNat.testBit core.val then b
  else
    let b1 := b.onDr fun d => { d with debugOn := d.debugOn ||| BitVec.ofNat 8 (2 ^ core.val),
                                       debugSince := if d.debugOn = 0 then b.time.dt else d.debugSince,
                                       sticky := orBits d.sticky 0x100 }
    b1.dev core 0xB 3 0 (pin := true)

/-- DEBUG_DETACHED (R370): a safety reset follows. -/
def debugDetached (core : Fin 2) (b : Blk) : Blk :=
  if b.dr.debugOn.toNat.testBit core.val = false then b
  else
    let s := min (b.since b.dr.debugSince / 1000000000) 0xFFFFFFFF
    let b1 := b.dev core 0xC 2 s (pin := true)
    b1.onDr fun d => { d with debugOn := d.debugOn &&& ~~~ (BitVec.ofNat 8 (2 ^ core.val)), assertReset := some 2 }

/-! ### Meanings -/

def execPassAStart (t : Fin 2) (s : State) : Res := .next (s.onBlk (passAStart t))
def execPassEnd (t : Fin 2) (res : PassResult) (s : State) : Res := .next (s.onMem fun _ b => passEnd t res b)
def execSafetyReleaseFenceDone (s : State) : Res := .next (s.onMem fun _ b => safetyReleaseFenceDone b)
def execPassBudgetExpiry (t : Fin 2) (s : State) : Res := .next (s.onBlk (passBudgetExpiry t))
def execPassTrap (t : Fin 2) (mcause : Byte) (pc : Word) (s : State) : Res :=
  .next (s.onBlk (passTrap t mcause pc))
def execPassUncorrectable (t : Fin 2) (addr : Word) (s : State) : Res := .next (s.onBlk (passUncorrectable t addr))
def execPassBufferFull (t : Fin 2) (stateBuf : Bool) (s : State) : Res :=
  .next (s.onBlk (passBufferFull t stateBuf))
def execSafetyDivergenceLimit (s : State) : Res := .next (s.onBlk safetyDivergenceLimit)
def execSafetyReset (cause : Fin 7) (s : State) : Res := .next (s.onBlk (safetyReset cause))
def execSafetyResetComplete (s : State) : Res := .next (s.onMem safetyResetComplete)
def execSelftestSlice (core : Fin 2) (ok : Bool) (s : State) : Res := .next (s.onBlk (selftestSlice core ok))
def execCodeCheckBlock (ok : Bool) (s : State) : Res := .next (s.onBlk (codeCheckBlock ok))
def execDebugAttached (core : Fin 2) (s : State) : Res := .next (s.onBlk (debugAttached core))
def execDebugDetached (core : Fin 2) (s : State) : Res := .next (s.onBlk (debugDetached core))

end Sys2Proof.Machine
end

