-- ==== Sys2Proof/Machine/Keys.lean ====
section
/-! DEFINITION. Husk slots, handles and trust anchors (R402, R405 to R409): who may sign what. -/

namespace Sys2Proof.Machine
open Sys2Proof

/-- Life-cycle codes of R402. -/
def lcBlank : Nat := 0
def lcPersonalised : Nat := 1
def lcOwned : Nat := 2
def lcReturned : Nat := 3
def lcDecommissioned : Nat := 4

/-- Key types of R407. -/
def ktMldsaPriv : Nat := 2
def ktAnchor : Nat := 3
def ktCak : Nat := 6

/-- Roles of R408. -/
def roleConfig : Nat := 1
def roleManifest : Nat := 2
def roleDebug : Nat := 3
def roleKeyUpdate : Nat := 4
def roleUnlock : Nat := 5
def roleHost : Nat := 6

/-- Lengths of an ML-DSA-87 signature and public key. -/
def sigLen : Nat := 4627
def pubLen : Nat := 2592

/-- The handle of a slot; 0 means empty (R407). -/
def handleOf (n : Fin 64) (s : Slot) : Nat := if s.used then n.val + s.gen * 64 else 0

/-- The slot a handle names, when its generation matches. -/
def Blk.slotOfHandle (b : Blk) (h : Nat) : Option (Fin 64 × Slot) :=
  let n : Fin 64 := ⟨h % 64, Nat.mod_lt _ (by decide)⟩
  let s := b.sec.slots.get n
  if s.used ∧ s.gen = h / 64 then some (n, s) else none

/-- Whether the Husk gives any anchor: its cache is powered off in SLEEP, and nothing is unsealed before (R406). -/
def Blk.anchorsReady (b : Blk) : Bool := b.sec.husk ≠ .sealed && b.rcc.mode ≠ .sleep

/-- Whether the anchor in a slot acts in a role (R408): the Lumnel anchor in slot 5, the owner root in slot 6, an
installed anchor in the role it was installed with. -/
def Blk.anchorActs (b : Blk) (n : Fin 64) (s : Slot) (role : Nat) : Bool :=
  s.used && decide (s.type = ktAnchor) &&
    (if n.val = 5 then decide (b.sec.lc = lcPersonalised ∨ b.sec.lc = lcReturned)
     else if n.val = 6 then decide (b.sec.lc = lcOwned)
     else decide (16 ≤ n.val ∧ s.role = role))

/-- Whether some anchor of a role verifies a signature. -/
def Blk.verifiedBy (b : Blk) (role : Nat) (msg sig : List Byte) : Bool :=
  (upTo 64).any fun n =>
    let s := b.sec.slots.get n
    b.anchorActs n s role && Config.mldsaVerify s.key msg sig

/-- A message split before its signature. -/
def splitSig (l : List Byte) : List Byte × List Byte := (l.take (l.length - sigLen), l.drop (l.length - sigLen))

/-- Life-cycle bytes: the state code, then g. -/
def Blk.lcBytes (b : Blk) : List Byte := [BitVec.ofNat 8 b.sec.lc, BitVec.ofNat 8 b.sec.gen]

end Sys2Proof.Machine
end

