-- ==== Sys2Proof/Machine/Image.lean ====
section
/-! DEFINITION. The configuration image (R259 to R265): its records, the bodies whose layout the spec states, and
the verification of R263. Bodies whose layout it leaves to other chapters without stating one are read by constants
of `Config` without a body, which answer `none` for a field out of range (log entry 16). -/

namespace Sys2Proof.Config
open Sys2Proof.Machine

/-- The `BREATH` body: length, guard, overrun limit, command maximum, `BRE_REC_CTRL`, the Chanter's fault queue. -/
opaque breathBody : List Byte → Option (Nat × Nat × Nat × Nat × Word × Nat)
/-- The `SAFETY` body. -/
opaque safetyBody : List Byte → Option SafetyCfg
/-- A `VIEW` body. -/
opaque viewBody : List Byte → Option ViewCfg
/-- A `GATHER` body. -/
opaque gatherBody : List Byte → Option (List Extract)
/-- A `CAN` body. -/
opaque canBody : List Byte → Option CanCfg
/-- The `SWITCH` body of a port. -/
opaque portBody : List Byte → Option PortCfg
/-- The `SWITCH` body of the core. -/
opaque switchBody : List Byte → Option SwitchCfg
/-- The module's network-management registers of R352, which some record carries. -/
opaque nmBody : List Byte → Option (Word × Word × Word)

end Sys2Proof.Config

namespace Sys2Proof.Machine
open Sys2Proof

/-! ### Records (R259, R260) -/

/-- One record with its offset from the image start. -/
structure CRec where
  off  : Nat
  type : Nat
  inst : Nat
  body : List Byte
  deriving DecidableEq, Repr

/-- The records of an image, or the offset of the first that does not parse. -/
def parseRecs : Nat → Nat → List Byte → Except Nat (List CRec)
  | 0, off, l => if l.isEmpty then .ok [] else .error off
  | n + 1, off, l =>
    let len := leAt l 4 4
    let full := 8 + ceilDiv len 8 * 8
    if l.length < full ∨ (slice l (8 + len) (full - 8 - len)).any (· ≠ 0) then .error off
    else match parseRecs n (off + full) (l.drop full) with
      | .ok t => .ok ({ off := off, type := leAt l 0 2, inst := leAt l 2 2, body := slice l 8 len } :: t)
      | .error e => .error e

/-- Whether a record type is known or optional. -/
def knownType (t : Nat) : Bool :=
  0x8000 ≤ t || t ∈ [0x0001, 0x0002, 0x0003, 0x0010, 0x0011, 0x0020, 0x0021, 0x0022, 0x0030, 0x0031, 0x0040, 0x0050]

/-- The first record out of order, repeated or of an unknown type. -/
def badOrder : List CRec → Option Nat
  | [] => none
  | [r] => if knownType r.type then none else some r.off
  | r :: s :: t =>
    if knownType r.type = false then some r.off
    else if r.type * 65536 + r.inst < s.type * 65536 + s.inst then badOrder (s :: t) else some s.off

/-- Whether a record names a unit that the variant lacks (R263 check 5). -/
def Blk.namesAbsent (b : Blk) (r : CRec) : Bool :=
  let small := decide (b.variant = .nz820)
  match r.type with
  | 0x0002 => decide (8 ≤ r.inst) || (small && decide (4 ≤ r.inst))
  | 0x0010 => decide (4 ≤ r.inst) || (small && decide (2 ≤ r.inst))
  | 0x0011 => decide (40 ≤ r.inst) || (small && decide (20 ≤ r.inst))
  | 0x0020 => decide (256 ≤ r.inst) || (small && decide (12 ≤ r.inst ∧ r.inst < 24))
  | 0x0021 => decide (9 ≤ r.inst) || (small && decide (4 ≤ r.inst ∧ r.inst < 8))
  | 0x0022 => decide (r.inst ≠ 0x10) && (decide (8 ≤ r.inst) || (small && decide (4 ≤ r.inst)))
  | 0x0040 => decide (6 ≤ r.inst)
  | 0x0050 => decide (r.inst ≠ 0xFF) && (decide (13 ≤ r.inst) || (!b.full && decide (r.inst < 2)))
  | _ => false

/-! ### Bodies with a stated layout -/

/-- A 32-bit word of a body. -/
def wordAt (l : List Byte) (i : Nat) : Word := BitVec.ofNat 32 (leAt l i 4)

/-- Every check of a list holds. -/
def allOk (l : List Bool) : Bool := l.all id

/-- A number within bounds. -/
def within (lo hi n : Nat) : Bool := decide (lo ≤ n ∧ n ≤ hi)

/-- Whether a word's bits outside a mask are zero. -/
def onlyBits (w : Word) (mask : Nat) : Bool := decide (w &&& ~~~ (BitVec.ofNat 32 mask) = 0)

/-- The owner byte of a `CHANNEL` record. -/
def ownerOf (n : Nat) : Option Initiator :=
  match Initiator.ofId n with
  | some (.tenant t) => some (.tenant t)
  | some .safety => some .safety
  | some .chanter => some .chanter
  | _ => none

/-- Current limits of a class in 10 mA units (R132). -/
def limitRange : ChClass → Nat × Nat
  | .h => (2000, 8000) | .m => (800, 3200) | .l => (200, 1000)

/-- The ranges of a channel's image-set registers (R101, R112, R116, R124, R131 to R144, R158). -/
def chanRegsOk (c : Nat) (r : List Word) : Bool :=
  let g := fun i => r.getD i 0
  let cls := if h : c < 40 then classOf ⟨c, h⟩ else .l
  let deg := fun (w : Word) (lo : Nat) => let v := (BitVec.ofNat 8 (bits w (lo + 7) lo)).toInt; decide (-40 ≤ v ∧ v ≤ 125)
  allOk
    [onlyBits (g 0) 0x7F, onlyBits (g 1) 0x03FF0003, decide (bits (g 1) 25 16 ≤ 1000),
     onlyBits (g 2) 0x00FF7FFF, within 50 20000 (bits (g 2) 14 0), onlyBits (g 3) 0x1FFFF,
     within (limitRange cls).1 (limitRange cls).2 (g 4).toNat, within 5 10000 (g 5).toNat,
     onlyBits (g 6) 0x037F01FF, within 1 500 (bits (g 6) 8 0), within 0 64 (bits (g 6) 22 16),
     onlyBits (g 7) 0x001F0FFF, within 1 1000 (bits (g 7) 9 0), within 1 31 (bits (g 7) 20 16),
     onlyBits (g 8) 0x0FFFFFFF, within 10 6000 (bits (g 8) 15 0), within 1 3600 (bits (g 8) 27 16),
     onlyBits (g 9) 0xFFF, within 100 160 (bits (g 9) 7 0), within 1 15 (bits (g 9) 11 8),
     onlyBits (g 10) 0x00FFFF37, deg (g 10) 8, deg (g 10) 16, within 100 100000 (g 11).toNat,
     within 100 20000 (bits (g 12) 15 0), within 100 50000 (bits (g 12) 31 16),
     within 10 6000 (bits (g 13) 15 0), within 10 7200 (bits (g 13) 31 16),
     onlyBits (g 14) 0x00FFFFFF, within 60 200 (bits (g 14) 7 0), within 2 50 (bits (g 14) 15 8),
     within 0 50 (bits (g 14) 23 16), onlyBits (g 15) 0x00FF7FF3, onlyBits (g 16) 0xFFFF]

/-- A `CHANNEL` body (R261). -/
def chanBody (c : Nat) (l : List Byte) : Option ChanCfg :=
  let regs := (List.range 17).map fun i => wordAt l (28 + 4 * i)
  match ownerOf (byteAt l 0).toNat with
  | none => none
  | some o =>
    if allOk [decide (l.length = 96), within 0 (if c % 2 = 0 then 1 else 0) (byteAt l 1).toNat,
        decide (leAt l 2 2 = 0), onlyBits (wordAt l 4) 0x1FF, onlyBits (wordAt l 8) 0x1FF, decide (leAt l 12 4 = 0),
        onlyBits (wordAt l 16) 0x00FF7FFF, within 50 20000 (bits (wordAt l 16) 14 0), onlyBits (wordAt l 20) 0x0FFF0FFF,
        within 0 4000 (bits (wordAt l 20) 11 0), within 0 4000 (bits (wordAt l 20) 27 16), within 0 2 (leAt l 24 4),
        chanRegsOk c regs] then
      some { owner := o, paired := decide (byteAt l 1 = 1), roGrant := wordAt l 4, cmdGrant := wordAt l 8,
             start := (wordAt l 16, wordAt l 20, wordAt l 24), regs := regs }
    else none

/-- A `KERNEL` body (R260): hold times, routing, motion, eight inputs twice, four analogue inputs. -/
def kernelBody (l : List Byte) : Option KernelCfg :=
  let ws := fun (i n : Nat) => (List.range n).map fun j => wordAt l (i + 4 * j)
  let di := ws 16 8
  let di2 := ws 48 8
  let ai := ws 80 4
  if allOk ([decide (l.length = 96), within 10 10000 (leAt l 0 4), within 10 10000 (leAt l 4 4),
      onlyBits (wordAt l 8) 0x8F8F8F8F, onlyBits (wordAt l 12) 0xFFFF] ++
      di.map (fun w => onlyBits w 0xFFFF7FFF && within 20 80 (bits w 8 2) && within 1 255 (bits w 23 16)
        && within 1 255 (bits w 31 24)) ++
      di2.map (fun w => within 1 65535 w.toNat) ++
      ai.map (fun w => onlyBits w 0x1FFFFFFD && within 100 10000 (bits w 15 2) && within 2000 5000 (bits w 28 16))) then
    some { holdTime := wordAt l 0, coreHold := wordAt l 4, route := wordAt l 8, motCfg := wordAt l 12, di := di,
           di2 := di2, ai := ai }
  else none

/-- A `QUEUE` body (R208, R224): `PQ_LIMITS`, `PQ_OWNERS`, `PQ_HOLD`. -/
def queueBody (q : Nat) (l : List Byte) : Option (Word × Word × Word) :=
  let lim := wordAt l 0
  let own := wordAt l 4
  let hold := wordAt l 8
  let party := fun (id eng : Nat) => if id = 0xFF then within 1 7 eng else (Initiator.ofId id).isSome && decide (eng = 0)
  if allOk [decide (l.length = 12), onlyBits lim 0x1FFF1FFF, onlyBits own 0x0FFFFFFF, onlyBits hold 0x1FFF1FFF,
      within 0 4096 (bits lim 12 0), within 1 4096 (bits lim 28 16), decide (bits lim 12 0 ≤ bits lim 28 16),
      decide (36 ≤ q) || within 64 4096 (bits lim 28 16), within 0 4096 (bits hold 12 0),
      !bit own 16 || within 1 4096 (bits hold 12 0),
      party (bits own 7 0) (bits own 23 20) || decide (q < 36), party (bits own 15 8) (bits own 27 24) || decide (q < 36)] then
    some (lim, own, hold)
  else none

/-- A `TENANT` body (R264). -/
def tenantBody (t : Nat) (l : List Byte) : Option TenantCfg :=
  let g := leAt l 4 2
  let w := (byteAt l 6).toNat
  let win := fun (i : Nat) =>
    let o := 40 + 8 * i
    ({ vcpu := (byteAt l o).toNat, core := (byteAt l (o + 1)).toNat, start := leAt l (o + 4) 2, len := leAt l (o + 6) 2 } : Window)
  let gran := (List.range g).map fun i => leAt l (40 + 8 * w + 2 * i) 2
  if allOk [decide ((byteAt l 0).toNat = t), within 0 1 (byteAt l 1).toNat, within 1 4 (byteAt l 2).toNat,
      within 0 1 (byteAt l 3).toNat, within 1 480 g, within 1 16 w, within 36 255 (byteAt l 7).toNat,
      within 256 65536 (leAt l 24 4), within 1 10000 (leAt l 28 2), within 1 32 (byteAt l 30).toNat,
      decide (byteAt l 31 = 0), within 1 1440 (leAt l 32 2), decide (leAt l 34 6 = 0),
      (List.range w).all (fun i => decide (leAt l (42 + 8 * i) 2 = 0)), gran.all (within 64 1023),
      decide (l.length = 40 + 8 * w + 2 * g)] then
    some { enabled := true, free := decide (byteAt l 1 = 1), vcpus := (byteAt l 2).toNat, autostart := decide (byteAt l 3 = 1),
           granules := gran, windows := (List.range w).map win, faultQ := (byteAt l 7).toNat,
           inboxEven := BitVec.ofNat 64 (leAt l 8 8), inboxOdd := BitVec.ofNat 64 (leAt l 16 8), inboxSize := leAt l 24 4,
           faultLimit := leAt l 28 2, resetLimit := (byteAt l 30).toNat, resetWindow := leAt l 32 2 }
  else none

/-- A `TIMEBASE` body: the eight registers of R90. -/
def timeBody (l : List Byte) : Option (List Word) :=
  let w := fun i => wordAt l (4 * i)
  if allOk [decide (l.length = 32), onlyBits (w 0) 0x3FF7, within 1000 1000000000 (w 2).toNat, within 10 1000 (w 3).toNat,
      within 1000 600000 (w 4).toNat, within 0 127 (w 5).toNat, onlyBits (w 6) 0xFFFFFF,
      decide ((w 7).toNat = 0) || within 0xFB 0xFF (w 7).toNat] then
    some ((List.range 8).map w)
  else none

/-- A `LOG` body: `EVS_LOG_SEV`, `EVS_LOG_RATE`, `EVS_SEAL_PERIOD` (R91). -/
def logBody (l : List Byte) : Option (Nat × Nat × Nat) :=
  if allOk [decide (l.length = 12), within 0 7 (leAt l 0 4), within 100 8000 (leAt l 4 4), within 1 1440 (leAt l 8 4)] then
    some (leAt l 0 4, leAt l 4 4, leAt l 8 4)
  else none

/-! ### The decoded image -/

/-- An image with a header's fields and no record. -/
def emptyImage (id : Word) (fmt : Nat) : Image :=
  { id := id, dataFormat := fmt, breathLen := 250, guard := 30, ovrLimit := 8, cmdMax := 32, recCtrl := 0, chFaultQ := 0,
    tenants := [], safety := default, kernels := [], channels := [], queues := [], views := [], gathers := [],
    timebase := none, log := none, cans := [], ports := [], switch := none, nmGlobal := none }

/-- One record put into an image; none when a field is out of range. -/
def Image.put (im : Image) (r : CRec) : Option Image :=
  match r.type with
  | 0x0001 => (Config.breathBody r.body).bind fun x =>
      if within 100 2000 x.1 ∧ x.1 % 10 = 0 ∧ within 20 (x.1 - 60) x.2.1 ∧ within 1 64 x.2.2.1 ∧ within 8 64 x.2.2.2.1 then
        some { im with breathLen := x.1, guard := x.2.1, ovrLimit := x.2.2.1, cmdMax := x.2.2.2.1,
                       recCtrl := x.2.2.2.2.1, chFaultQ := x.2.2.2.2.2 }
      else none
  | 0x0002 => (tenantBody r.inst r.body).map fun x => { im with tenants := im.tenants ++ [(r.inst, x)] }
  | 0x0003 => (Config.safetyBody r.body).map fun x => { im with safety := { x with present := true } }
  | 0x0010 => (kernelBody r.body).map fun x => { im with kernels := im.kernels ++ [(r.inst, x)] }
  | 0x0011 => (chanBody r.inst r.body).map fun x => { im with channels := im.channels ++ [(r.inst, x)] }
  | 0x0020 => (queueBody r.inst r.body).map fun x => { im with queues := im.queues ++ [(r.inst, x)] }
  | 0x0021 => (Config.viewBody r.body).bind fun x =>
      if within 6 16 x.size then some { im with views := im.views ++ [(r.inst, x)] } else none
  | 0x0022 => (Config.gatherBody r.body).map fun x => { im with gathers := im.gathers ++ [(r.inst, x)] }
  | 0x0030 => (timeBody r.body).map fun x => { im with timebase := some x }
  | 0x0031 => (logBody r.body).map fun x => { im with log := some x }
  | 0x0040 => (Config.canBody r.body).map fun x =>
      { im with cans := im.cans ++ [(r.inst, x)], nmGlobal := im.nmGlobal <|> Config.nmBody r.body }
  | 0x0050 =>
    if r.inst = 0xFF then (Config.switchBody r.body).map fun x => { im with switch := some x }
    else (Config.portBody r.body).map fun x => { im with ports := im.ports ++ [(r.inst, x)] }
  | _ => some im

/-- All records, or the offset of the first with a field out of range. -/
def Image.putAll (im : Image) : List CRec → Except Nat Image
  | [] => .ok im
  | r :: t => match im.put r with | some x => x.putAll t | none => .error r.off

/-! ### Cross-checks (R263 check 8) -/

/-- Whether an initiator is enabled by an image. -/
def Image.enables (im : Image) : Initiator → Bool
  | .tenant t => (findKey im.tenants t.val).isSome
  | .safety => im.safety.present
  | _ => true

/-- The offset of a record, the image start when it is missing. -/
def offsetOf (rs : List CRec) (type inst : Nat) : Nat :=
  ((rs.find? (fun r => r.type = type ∧ r.inst = inst)).map (·.off)).getD 0

/-- Whether two windows on one core keep 2 µs apart, and those of one vCPU do not overlap (R265). -/
def windowsApart (w v : Window) : Bool :=
  decide (w.core ≠ v.core ∨ w.start + w.len + 2 ≤ v.start ∨ v.start + v.len + 2 ≤ w.start)
def vcpuApart (w v : Window) : Bool :=
  decide (w.vcpu ≠ v.vcpu ∨ w.start + w.len ≤ v.start ∨ v.start + v.len ≤ w.start)

/-- Every pair of distinct places of a list meets a relation. -/
def pairwiseOk {α : Type} (f : α → α → Bool) : List α → Bool
  | [] => true
  | x :: t => t.all (f x) && pairwiseOk f t

/-- A tenant's own checks of R264 and R265. -/
def Blk.tenantOk (b : Blk) (im : Image) (c : TenantCfg) : Bool :=
  let cores := if b.full then 4 else 2
  let inbox := fun (a : BitVec 64) =>
    decide (0x80000000 ≤ a.toNat ∧ a.toNat + c.inboxSize ≤ 0x80000000 + c.granules.length * 0x200000)
  allOk [decide (c.vcpus ≤ cores), inbox c.inboxEven, inbox c.inboxOdd, pairwiseOk vcpuApart c.windows,
    c.windows.all fun w =>
      decide (10 ≤ w.len ∧ w.vcpu < c.vcpus ∧ w.core < cores) &&
        (if c.free then decide (w.start + w.len ≤ im.breathLen)
         else decide (35 ≤ w.start ∧ w.start + w.len ≤ im.breathLen - im.guard))]

/-- Owners of a mailbox queue under R209: producer byte, consumer byte, producer engine, consumer engine. -/
def mailboxParties (q : Nat) : Nat × Nat × Nat × Nat :=
  let m : Fin 12 := ⟨q / 3 % 12, Nat.mod_lt _ (by decide)⟩
  let id := (mbOwner m).id
  let eng := match mbOwner m with | .spi => 4 | .mgmt => 5 | .uart => 6 | _ => 0
  if q % 3 = 0 then (id, 0x20, eng, 0) else (0x20, id, 0, eng)

/-- Whether a queue record agrees with R209. -/
def mailboxOwnersOk (q : Nat) (own : Word) : Bool :=
  let p := mailboxParties q
  let side := fun (id pid eng peng : Nat) => decide (id = pid) && decide (eng = peng ∨ peng = 0 ∨ eng = 0) ||
    (decide (id = 0xFF) && decide (eng = peng) && decide (peng ≠ 0))
  side (bits own 7 0) p.1 (bits own 23 20) p.2.2.1 && side (bits own 15 8) p.2.1 (bits own 27 24) p.2.2.2
    && (bit own 18 == decide (q % 3 = 0))

/-- Whether a fault queue has the bridge engine as producer and its initiator as consumer (R187). -/
def Image.faultQOk (im : Image) (q : Nat) (i : Initiator) : Bool :=
  match findKey im.queues q with
  | some x => decide (bits x.2.1 23 20 = 3) && decide (bits x.2.1 15 8 = i.id)
  | none => false

/-- Microseconds of R365's bound. -/
def passBoundOk (im : Image) (t : Fin 2) : Bool :=
  let s := im.safety
  let f4 := 32 + bits s.ctrl 23 16
  !bit s.ctrl t.val ||
    decide (4 * (30 + bits (s.budget.get t) 15 0 + bits (s.budget.get t) 31 16) + f4 ≤ 4 * (im.breathLen - im.guard))

/-- The first cross-check that fails, with the record it names. -/
def Blk.crossBad (b : Blk) (im : Image) (rs : List CRec) : Option Nat :=
  let chan := im.channels.find? fun p => !im.enables p.2.owner ||
    (p.2.paired && (match findKey im.channels (p.1 + 1) with | some d => decide (d.owner ≠ p.2.owner) | none => decide (p.2.owner ≠ .chanter)))
  let route := (List.range 4).find? fun n => decide (1 < (im.kernels.filter (fun p => bit p.2.route (8 * n + 7))).length)
  let sums := (im.queues.map (fun p => bits p.2.1 12 0 + bits p.2.2.2 12 0)).foldl (· + ·) 0
  let mbBad := (upTo 12).find? fun m => (List.range 3).any fun j =>
    match findKey im.queues (3 * m.val + j) with
    | some x => !im.enables (mbOwner m) || !mailboxOwnersOk (3 * m.val + j) x.2.1
    | none => im.enables (mbOwner m)
  let tBad := im.tenants.find? fun p =>
    !b.tenantOk im p.2 || (if h : p.1 < 8 then !im.faultQOk p.2.faultQ (.tenant ⟨p.1, h⟩) else true)
  let wins := im.tenants.flatMap (fun p => p.2.windows)
  let grans := im.tenants.flatMap (fun p => p.2.granules)
  let gBad := im.gathers.find? fun p => match Initiator.ofId p.1 with | some i => !im.enables i | none => true
  match chan, route, mbBad, tBad, gBad with
  | some p, _, _, _, _ => some (offsetOf rs 0x0011 p.1)
  | _, some n, _, _, _ => some (((im.kernels.find? (fun p => bit p.2.route (8 * n + 7))).map (fun p => offsetOf rs 0x0010 p.1)).getD 0)
  | _, _, some m, _, _ => some (offsetOf rs 0x0020 (3 * m.val))
  | _, _, _, some p, _ => some (offsetOf rs 0x0002 p.1)
  | _, _, _, _, some p => some (offsetOf rs 0x0022 p.1)
  | none, none, none, none, none =>
    if 15360 < sums then some (((im.queues.head?).map (fun p => offsetOf rs 0x0020 p.1)).getD 0)
    else if pairwiseOk windowsApart wins = false ∨ grans.eraseDups.length ≠ grans.length then
      some (((im.tenants.head?).map (fun p => offsetOf rs 0x0002 p.1)).getD 0)
    else if im.faultQOk im.chFaultQ .chanter = false then some (offsetOf rs 0x0001 0)
    else if im.safety.present ∧ (im.faultQOk im.safety.faultQ .safety = false ∨ (upTo 2).any (fun t => !passBoundOk im t)) then
      some (offsetOf rs 0x0003 0)
    else none

/-! ### Verification (R263) -/

/-- The value of checks 1 to 3. -/
def noOffset : Nat := 0xFFFFFFFF

/-- The checks of R263 in order; `full` runs checks 7 and 8 as well. -/
def Blk.verifyImage (b : Blk) (l : List Byte) (len : Nat) (digest : BitVec 512) (full : Bool) : Except Err Image :=
  let recs := slice l 256 (l.length - 256 - sigLen)
  let parsed := parseRecs (leAt l 14 2) 256 recs
  let vbit := match b.variant with | .nz840 => 0 | .nz830 => 1 | .nz820 => 2
  let bad := fun (off : Nat) => err stBadParam 5 off
  let head : List (Bool × Err) :=
    [(decide (l.length < 256 + sigLen ∨ Config.sha3 l ≠ digest ∨ leAt l 8 4 ≠ len ∨ len ≠ l.length), bad noOffset),
     (!b.verifiedBy roleConfig (splitSig l).1 (splitSig l).2, err stAuth 1 noOffset),
     (decide (leAt l 16 16 ≠ 0 ∧ leAt l 16 16 ≠ b.uid.toNat), err stAuth 2 noOffset),
     (decide (slice l 40 64 ≠ digestBytes (Config.sha3 recs) ∨ leAt l 0 2 ≠ 1), bad 0)]
  match firstErr head with
  | some e => .error e
  | none => match parsed with
    | .error off => .error (bad off)
    | .ok rs =>
      match badOrder rs with
      | some off => .error (bad off)
      | none =>
        if (byteAt l 32).toNat.testBit vbit = false then .error (bad 0)
        else match rs.find? b.namesAbsent with
          | some r => .error (bad r.off)
          | none =>
            if leAt l 4 4 = 0 ∨ leAt l 2 2 ≠ 256 ∨ 8 ≤ (byteAt l 32).toNat ∨ leAt l 33 3 ≠ 0 ∨
                (slice l 104 152).any (· ≠ 0) then .error (bad 0)
            else match (emptyImage (wordAt l 4) (leAt l 12 2)).putAll rs with
              | .error off => .error (bad off)
              | .ok im =>
                if full = false then .ok im
                else if im.id = b.cfg.activeId then .error (bad 0)
                else match b.crossBad im rs with
                  | some off => .error (bad off)
                  | none => .ok im

end Sys2Proof.Machine
end

