-- ==== Sys2Proof/Machine/Nm.lean ====
section
/-! DEFINITION. Network management (R331 to R353): the consent ring, agreement and settle, keep-alive mode, wakes,
requests, and the meanings of the network-management family. -/

namespace Sys2Proof.Machine
open Sys2Proof

/-- SRC of network management on a bus, and of the module (R353). -/
def srcNm (c : Fin 6) : BitVec 16 := srcOf 6 c.val
def srcNmModule : BitVec 16 := srcOf 6 0xFF

def Blk.nm (b : Blk) (c : Fin 6) : Nm := b.nms.get c
/-- A record of network management on a bus. -/
def Blk.nmev (b : Blk) (c : Fin 6) (code sev arg : Nat) (pin : Bool := false) : Blk :=
  b.ev (srcNm c) code sev (arg32 arg) hw pin

/-! ### Fields of the control page (R351) -/

def Nm.en (n : Nm) : Bool := bit n.ctrl 0
def Nm.ring (n : Nm) : Bool := bit n.ctrl 1
def Nm.addr (n : Nm) : Nat := bits n.ctrl 7 2
def Nm.always (n : Nm) : Bool := bit n.ctrl 8
def Nm.localBus (n : Nm) : Bool := bit n.ctrl 9
def Nm.swEn (n : Nm) : Bool := bit n.ctrl 10
def Nm.wupEn (n : Nm) : Bool := bit n.ctrl 11
def Nm.fecWake (n : Nm) : Bool := bit n.ctrl 12
def Nm.base (n : Nm) : Nat := bits n.ctrl 26 16
def Nm.localHoldNs (n : Nm) : Nat := bits n.wakeT 27 16 * 1000000000

/-- Keep-awake requests held (R332). -/
def Nm.ownReq (n : Nm) : Nat := n.requests.length + b2n n.always + b2n n.localHold.isSome + b2n n.serviceReq

/-- The successor of the node in P (R337): the next address above its own, wrapping to the lowest. -/
def Nm.succ (n : Nm) : Nat :=
  let least := fun (l : List Nat) => l.foldl (fun (m : Option Nat) x => match m with
    | some y => some (min x y) | none => some x) none
  match least (n.present.filter (fun a => n.addr < a)) with
  | some a => a
  | none => (least n.present).getD n.addr

/-- Whether the node has the lowest address in P. -/
def Nm.isLowest (n : Nm) : Bool := n.present.all (fun a => decide (n.addr ≤ a))

/-- Frame types of R334. -/
def kRing : Nat := 1
def kAlive : Nat := 2
def kWake : Nat := 3
def kKeepAlive : Nat := 4

/-- A frame of the node with its flags (R334, R338). -/
def Nm.frame (n : Nm) (kind dst : Nat) (ack : Bool) : NmFrame :=
  { src := n.addr, dst := dst, kind := kind,
    flags := b2n (decide (n.ownReq = 0)) + 2 * b2n ack + 4 * b2n (decide (n.ownReq ≠ 0))
      + 8 * b2n (decide (n.state = .keepalive)),
    round := n.round, count := n.present.length }

/-- A frame put into the slot: the latest wins (R335). -/
def Nm.send (n : Nm) (kind dst : Nat) (ack : Bool) : Nm :=
  { n with slot := some (n.frame kind dst ack), lastSleepInd := decide (n.ownReq = 0), confirming := ack }

/-! ### WAKE_OUT (R349) -/

/-- The level of WAKE_OUT. In SLEEP it is low. -/
def Blk.wakeOutLevel (b : Blk) : Bool :=
  let g := b.nmg
  let busAwake := (upTo 6).any fun c => bit g.wakeOut (16 + c.val) && decide ((b.nm c).state ≠ .asleep)
  if b.rcc.mode = .sleep ∨ b.rcc.vioB = false then false
  else match bits g.wakeOut 1 0 with | 1 => busAwake | 2 => g.pulse | _ => false

/-- The pin follows its mode. -/
def Blk.wakeOutNow (b : Blk) : Blk := { b with nmg := { b.nmg with pin := b.wakeOutLevel } }

/-- A pulse begins, in pulse mode. -/
def Blk.wakePulse (b : Blk) : Blk := ({ b with nmg := { b.nmg with pulse := decide (bits b.nmg.wakeOut 1 0 = 2) } }).wakeOutNow

/-! ### The controller of the bus -/

/-- The state that error counters give a running controller (R322). -/
def Can.running (x : Can) : Can :=
  { x with state := if 255 < x.tec then .busOff else if 127 < x.tec ∨ 127 < x.recCnt then .passive else .active }

/-- The controller stopped for sleep: its FIFO is discarded and counted (R340). -/
def Can.sleepNow (x : Can) : Can :=
  { x with state := .asleep, txDrop := satAdd x.txDrop x.fifo.length 0xFFFF, fifo := [], sending := none,
           fifoHeld := false, trefSlot := none }

/-! ### States -/

/-- Keep-alive mode entered with a cause of R341. -/
def Blk.nmKeepAlive (b : Blk) (c : Fin 6) (cause : Nat) : Blk :=
  let b1 := b.modNm c fun n =>
    { n with state := .keepalive, token := false, tokenSent := false, confirming := false,
             kaLast := b.time.dt, sticky := orBits n.sticky 4 }
  (b1.nmev c 3 2 cause).wakeOutNow

/-- FORMING entered (R336, R344): P is cleared, the controller runs, and the frame goes into the slot unless a frame
of the node itself caused the entry. A node without a ring takes keep-alive mode instead. -/
def Blk.nmForming (b : Blk) (c : Fin 6) (kind : Option Nat) : Blk :=
  let b1 := b.modCan c fun x => if x.state = .asleep then { x.running with fifoHeld := false } else { x with fifoHeld := false }
  let b2 := b1.modNm c fun n =>
    { n with state := .forming, present := [n.addr], ringSeen := false, expiries := 0, token := false, tokenSent := false,
             confirming := false, armed := false, confirmers := [] }
  let b3 := if (b2.nm c).ring = false then b2.nmKeepAlive c 1 else b2
  let b4 := match kind with
    | some k => b3.modNm c fun n => n.send k n.addr false
    | none => b3
  b4.wakeOutNow

/-- A record granted at once, with its SEQ. -/
def Blk.grantNow (b : Blk) (p : PRec) : (BitVec 64) × BW :=
  let x := b.dueLost
  let (r, b1) := x.1.grantRec p
  let y := b1.deliver r
  (r.seq, (y.1, x.2 ++ y.2))

/-- The agreement instant (R339, R340, R341). -/
def Blk.nmAgree (b : Blk) (c : Fin 6) (addr : Nat) (ka : Bool) : BW :=
  let n := b.nm c
  let p := b.capture (srcNm c) 4 1 (arg32 (addr + 256 * b2n ka + 65536 * n.present.length)) hw 0 false
  let (seq, x) := b.grantNow p
  x.map fun b =>
    let b1 := b.modNm c fun n =>
      { n with agreeSeq := seq, cntSleep := satInc n.cntSleep 0xFFFFFFFF, armed := decide (c.val < 4), state := .settle,
               token := false, tokenSent := false, confirming := false,
               slot := match n.slot with | some f => if f.kind = kWake then some f else none | none => none }
    b1.modCan c fun x => { x with fifoHeld := true }

/-- The bus goes to sleep (R340 step 4, R345). -/
def Blk.nmAsleep (b : Blk) (c : Fin 6) : Blk :=
  (((b.modCan c Can.sleepNow).modNm c fun n =>
    { n with state := .asleep, slot := none, inFlight := none, armed := decide (c.val < 4), frameWake := false,
             wakeFilter := none, fec := 0 })).wakeOutNow

/-- `NM_LAST_WAKE.CAUSE` (R351). -/
def wakeCode : WakeCause → Nat
  | .local => 1 | .wakeFrame => 2 | .aliveFrame => 3 | .filter _ => 4 | .pattern => 5 | .frameErrors => 6
  | .ownRequest => 7

/-- Whether a cause is the module's own. -/
def ownWake : WakeCause → Bool
  | .local | .ownRequest => true
  | _ => false

/-- A wake event honoured in SETTLE or ASLEEP (R342, R344). -/
def Blk.busWake (b : Blk) (c : Fin 6) (cause : WakeCause) (ident : BitVec 30) : Blk :=
  let n := b.nm c
  if n.state ≠ .settle ∧ n.state ≠ .asleep then b
  else
    let f : Nat := match cause with | .filter f => f.val | _ => 0
    let settle := decide (n.state = .settle)
    let last := wakeCode cause + f * 16 + 128 * b2n settle
    let heard := settle && (match cause with | .wakeFrame | .aliveFrame => true | _ => false)
    let b1 := b.modNm c fun n =>
      { n with lastWake := arg32 last, lastWakeId := if ownWake cause then n.lastWakeId else ident.zeroExtend 32,
               fecLatched := min n.fec 63, fec := 0, frameWake := !ownWake cause, heardOther := heard,
               wakeOwn := if ownWake cause then satInc n.wakeOwn 0xFFFF else n.wakeOwn,
               wakeBus := if ownWake cause then n.wakeBus else satInc n.wakeBus 0xFFFF,
               wakeFilter := (match cause with | .filter f => some f | _ => none),
               wfCount := (match cause with | .filter f => vmod n.wfCount f (fun p => (satInc p.1 0xFFFF, p.2)) | _ => n.wfCount),
               awakeSince := if settle then n.awakeSince else b.time.dt }
    let b2 := b1.nmev c 7 1 last
    let b3 := b2.nmForming c (some (if ownWake cause then kWake else kAlive))
    if bit b3.nmg.wakeOut (16 + c.val) then b3.wakePulse else b3

/-- A keep-awake request that the module did not hold before (R342, R344): it wakes a settling or sleeping bus, and
in RING, after the last SLEEP_IND, WAKE goes out without waiting for the token. -/
def Blk.nmOwnWake (b : Blk) (c : Fin 6) (cause : WakeCause) : Blk :=
  let n := b.nm c
  match n.state with
  | .settle | .asleep => b.busWake c cause 0
  | .ring =>
    if n.lastSleepInd ∨ cause = .local then b.modNm c fun n => { n.send kWake n.addr false with confirming := false } else b
  | .forming | .keepalive => if cause = .local then b.modNm c fun n => n.send kWake n.addr false else b
  | .off => b

/-- Every bus in its state at the end of BOOT (R331, R336, R341). -/
def Blk.nmStart (b : Blk) (powerOn : Bool) : Blk :=
  (upTo 6).foldl (fun b c =>
    if (b.nm c).en = false then b.modNm c fun n => { n with state := .off }
    else
      let hold : Bool := powerOn && (b.nm c).localBus
      let b1 := b.modNm c fun n =>
        { n with localHold := if hold then some (b.time.dt + BitVec.ofNat 64 n.localHoldNs) else n.localHold,
                 awakeSince := b.time.dt }
      b1.nmForming c (some kAlive)) b

/-- Network management off, as in BOOT and RECOVERY. -/
def Blk.nmOff (b : Blk) : Blk :=
  (upTo 6).foldl (fun b c => b.modNm c fun n =>
    { n with state := .off, token := false, tokenSent := false, confirming := false, slot := none, inFlight := none,
             present := [], armed := false }) b

/-- Entry into or exit from SERVICE (R332). -/
def Blk.nmService (b : Blk) (on : Bool) : Blk :=
  (upTo 6).foldl (fun b c =>
    let held := decide (0 < (b.nm c).ownReq)
    let b1 := b.modNm c fun n => { n with serviceReq := on }
    if on ∧ held = false ∧ (b.nm c).en then b1.nmOwnWake c .ownRequest else b1) b

/-- `NM_MODULE_STATUS` [5:0] (R352). -/
def Blk.nmQuiet (b : Blk) (c : Fin 6) : Bool := !(b.nm c).en || decide ((b.nm c).state = .asleep)

/-- `SLEEP_READY` (R347). -/
def Blk.sleepReady (b : Blk) : Bool := (upTo 6).all b.nmQuiet && !b.nmg.localWake

/-! ### Frames received (R334, R336 to R341, R344, R346) -/

/-- The frame of a valid network-management frame. -/
def decodeNm (base : Nat) (f : CanFrame) : Option NmFrame :=
  let d := fun i => (byteAt f.data i).toNat
  if f.fdf ∨ f.remote ∨ f.dlc.toNat ≠ 8 ∨ d 2 = 0 ∨ 4 < d 2 ∨ d 0 ≠ f.ident.toNat - base then none
  else some { src := d 0, dst := d 1 % 64, kind := d 2, flags := d 3, round := BitVec.ofNat 16 (d 4 + 256 * d 5),
              count := d 6 % 128 }

/-- Whether a frame lies in the range of `NM_BASE`. -/
def inNmRange (base : Nat) (f : CanFrame) : Bool := !f.ide && decide (base ≤ f.ident.toNat ∧ f.ident.toNat < base + 64)

/-- Runs of AWAKE_REQ (R346). -/
def Nm.trackHold (n : Nm) (f : NmFrame) (now : BitVec 64) : Nm :=
  if f.flags.testBit 2 then
    let hold := if (findKey n.hold f.src).isSome then n.hold else (f.src, now) :: n.hold
    let run := match findKey hold f.src with | some t => (now.toNat - t.toNat) / 1000000000 | none => 0
    let best := match n.longest with
      | some (_, r) => if r < run then some (f.src, run) else n.longest
      | none => some (f.src, run)
    { n with hold := hold, longest := best, kaLast := now }
  else { n with hold := n.hold.filter (fun p => p.1 ≠ f.src) }

/-- What every valid frame does: its sender is in P, and it restarts the ring timer. -/
def Nm.heard (n : Nm) (f : NmFrame) (now : BitVec 64) : Nm :=
  ({ n with present := addOnce n.present f.src, heardOther := n.heardOther || decide (f.src ≠ n.addr) }).trackHold f now

/-- A RING frame: the round, the token, and what the holder needs for agreement. -/
def Nm.ringFrame (n : Nm) (f : NmFrame) : Nm :=
  { n with state := .ring, ringSeen := true, round := f.round,
           tokenSent := if f.src = n.succ then false else n.tokenSent,
           confirmers := (n.confirmers.filter (fun p => p.1 ≠ f.src)) ++ [(f.src, f.flags.testBit 0 &&
             (match findKey n.confirmers f.src with | some v => v | none => true))],
           token := decide (f.dst = n.addr) }

/-- A WAKE or an ALIVE in RING (R336, R344): a pending confirmation is withdrawn. -/
def Blk.nmRestart (b : Blk) (c : Fin 6) (f : NmFrame) : Blk :=
  let n := b.nm c
  let b1 := if n.confirming ∧ n.slot.isSome then
      (b.modNm c fun n => { n with slot := none, confirming := false, sticky := orBits n.sticky 0x10 }).nmev c 5 1 f.src
    else b
  b1.nmForming c (some kAlive)

/-- NM_FRAME_RECEIVED (R334). -/
def nmFrameReceived (c : Fin 6) (f : CanFrame) (b : Blk) : BW :=
  let n := b.nm c
  if n.en = false ∨ n.state = .off ∨ n.state = .asleep ∨ inNmRange n.base f = false then (b, [])
  else match decodeNm n.base f with
    | none => (b.modNm c fun n => { n with sticky := orBits n.sticky 1 }, [])
    | some g =>
      let b1 := b.modNm c fun n => n.heard g b.time.dt
      let starts := decide (g.kind = kAlive ∨ g.kind = kWake)
      match n.state with
      | .forming => (if g.kind = kRing then b1.modNm c fun n => n.ringFrame g else b1, [])
      | .ring =>
        if starts then (b1.nmRestart c g, [])
        else if g.kind = kRing then
          let b2 := b1.modNm c fun n => n.ringFrame g
          if g.flags.testBit 1 then b2.nmAgree c g.src false else (b2, [])
        else (b1, [])
      | .keepalive =>
        (if n.ring ∧ (b.cans.get c).alone = false ∧ g.src ≠ n.addr then b1.nmForming c (some kAlive) else b1, [])
      | .settle =>
        (if starts then b1.busWake c (if g.kind = kWake then .wakeFrame else .aliveFrame) (f.ident.zeroExtend 30) else b1, [])
      | _ => (b1, [])

/-- NM_FRAME_SENT (R339, R336): the frame of the slot was transmitted. -/
def nmFrameSent (c : Fin 6) (b : Blk) : BW :=
  let n := b.nm c
  match n.inFlight with
  | none => (b, [])
  | some f =>
    let b1 := b.modNm c fun n => { n with inFlight := none, coll := 0 }
    if f.kind = kRing then
      let b2 := b1.modNm c fun n => { n with token := false, tokenSent := true }
      if f.flags.testBit 1 ∧ n.state = .ring then b2.nmAgree c n.addr false else (b2, [])
    else if (f.kind = kWake ∨ f.kind = kAlive) ∧ (n.state = .ring ∨ n.state = .settle) then (b1.nmForming c none, [])
    else (b1, [])

/-! ### Timers -/

/-- Whether the holder reaches agreement (R339). -/
def Nm.agreed (n : Nm) : Bool :=
  decide (n.ownReq = 0) && n.confirmers.all (·.2) &&
    (n.present.filter (· ≠ n.addr)).all (fun a => (findKey n.confirmers a).isSome)

/-- TOKEN_TIMER_EXPIRY (R338, R339): the holder sends RING, or the confirmation. -/
def tokenTimerExpiry (c : Fin 6) (b : Blk) : Blk :=
  let n := b.nm c
  if n.state ≠ .ring ∨ n.token = false then b
  else b.modNm c fun n =>
    let n1 := if n.isLowest then { n with round := n.round + 1 } else n
    { n1.send kRing n1.succ n.agreed with confirmers := [], token := false }

/-- RING_TIMER_EXPIRY (R337, R338). -/
def ringTimerExpiry (c : Fin 6) (b : Blk) : Blk :=
  let n := b.nm c
  match n.state with
  | .forming =>
    if n.ringSeen ∨ n.isLowest = false then b
    else if 2 ≤ n.present.length then
      (b.modNm c fun n =>
        let n1 := { n with round := n.round + 1, state := .ring }
        n1.send kRing n1.succ false).nmev c 1 1 n.present.length
    else if n.expiries = 0 then b.modNm c fun n => { n with expiries := 1 }
    else b.nmKeepAlive c 2
  | .ring =>
    if n.tokenSent = false then b
    else
      let gone := n.succ
      let b1 := (b.modNm c fun n =>
        { n with present := n.present.filter (· ≠ gone), tokenSent := false, skips := satInc n.skips 0xFFFF,
                 sticky := orBits n.sticky 2 }).nmev c 2 2 gone
      if (b1.nm c).present.length ≤ 1 then b1.nmKeepAlive c 2
      else b1.modNm c fun n => n.send kRing n.succ false
  | _ => b

/-- SETTLE_EXPIRY (R340). -/
def settleExpiry (c : Fin 6) (b : Blk) : Blk :=
  let n := b.nm c
  if n.state ≠ .settle then b
  else (b.nmAsleep c).nmev c 6 1 (min (b.since n.awakeSince / 1000000000) 0xFFFFFFFF)

/-- KA_INTERVAL_EXPIRY (R341). -/
def kaIntervalExpiry (c : Fin 6) (b : Blk) : Blk :=
  let n := b.nm c
  if n.state ≠ .keepalive ∨ n.ownReq = 0 then b else b.modNm c fun n => n.send kKeepAlive n.addr false

/-- KA_SILENCE_EXPIRY (R341). -/
def kaSilenceExpiry (c : Fin 6) (b : Blk) : BW :=
  let n := b.nm c
  if n.state ≠ .keepalive ∨ n.ownReq ≠ 0 then (b, []) else b.nmAgree c n.addr true

/-- FALSE_WAKE_EXPIRY (R345). -/
def falseWakeExpiry (c : Fin 6) (b : Blk) : Blk :=
  let n := b.nm c
  if n.frameWake = false ∨ n.state = .asleep ∨ n.state = .off then b
  else if n.heardOther ∨ n.ownReq ≠ 0 then b.modNm c fun n => { n with frameWake := false }
  else
    let b1 := b.modNm c fun n =>
      { n with falseWakes := satInc n.falseWakes 0xFFFF, sticky := orBits n.sticky 8,
               wfCount := match n.wakeFilter with
                 | some f => vmod n.wfCount f (fun p => (p.1, satInc p.2 0xFFFF))
                 | none => n.wfCount }
    (b1.nmAsleep c).nmev c 8 2 n.lastWakeId.toNat

/-- REQUEST_LAPSED (R333). -/
def requestLapsed (c : Fin 6) (i : Initiator) (b : Blk) : Blk :=
  let n := b.nm c
  let m := bits b.nmg.maxAwake 13 0
  if m = 0 ∨ (findKey n.requests i).isNone then b
  else (b.modNm c fun n => { n with requests := n.requests.filter (fun r => r.1 ≠ i) }).ev (srcNm c) 0xA 2 (arg32 m)
    (idByte i)

/-- LOCAL_HOLD_EXPIRY (R332). -/
def localHoldExpiry (c : Fin 6) (b : Blk) : Blk := b.modNm c fun n => { n with localHold := none }

/-- NODE_HOLDS_AWAKE (R346). -/
def nodeHoldsAwake (c : Fin 6) (a : Fin 64) (b : Blk) : Blk :=
  match findKey (b.nm c).hold a.val with
  | none => b
  | some t => b.nmev c 9 2 (a.val + min (b.since t / 3600000000000) 0xFFFF * 65536) (pin := true)

/-- WAKE_OUT_PULSE_END (R349). -/
def wakeOutPulseEnd (b : Blk) : Blk := ({ b with nmg := { b.nmg with pulse := false } }).wakeOutNow

/-! ### The detector (R343) and local wakes (R348) -/

/-- The first wake filter that a frame matches. -/
def Nm.matchFilter (n : Nm) (f : CanFrame) : Option (Fin 4) :=
  (upTo 4).find? fun j =>
    let (id, mask, dlc, lo, hi) := n.filters.get j
    let m := bits mask 28 0
    let dm := bytesOf [lo, hi]
    bit id 30 && decide (f.ident.toNat &&& m = bits id 28 0 &&& m) && (f.ide == bit id 29)
      && (!bit id 31 || decide (f.dlc.toNat = bits dlc 3 0))
      && (dm.all (· = 0) || (List.range 8).any (fun i => decide (byteAt f.data i &&& byteAt dm i ≠ 0)))

/-- A local wake cause recorded by the always-on region; MODULE_WAKE handles it. -/
def Blk.localCause (b : Blk) (bits_ : Nat) (src : BitVec 16) : Blk :=
  { b with nmg := { b.nmg with localWake := true, wakeSrc := arg32 (bits_ + src.toNat * 65536) } }

/-- A wake that a detector saw: in SLEEP it wakes the module, otherwise the bus. -/
def Blk.detected (b : Blk) (c : Fin 6) (cause : WakeCause) (ident : BitVec 30) : Blk :=
  if b.rcc.mode = .sleep then
    (b.modNm c fun n =>
      { n with lastWake := arg32 (wakeCode cause + (match cause with | .filter f => f.val * 16 | _ => 0)),
               lastWakeId := ident.zeroExtend 32, frameWake := true, heardOther := false,
               wakeFilter := match cause with | .filter f => some f | _ => none }).localCause (2 ^ (8 + c.val)) 0
  else b.busWake c cause ident

/-- DETECTOR_WAKE (R343): what the armed detector of CAN0 to CAN3 saw. -/
def detectorWake (c : Fin 6) (e : DetectorEvent) (b : Blk) : Blk :=
  let n := b.nm c
  if 4 ≤ c.val ∨ n.armed = false ∨ (b.rcc.mode = .sleep ∧ n.swEn = false) then b
  else match e with
    | .frame f =>
      if f.fdf then b
      else
        let b1 := b.modNm c fun n => { n with fec := n.fec - 1 }
        match n.matchFilter f with
        | some j => b1.detected c (.filter j) (BitVec.ofNat 30 (f.ident.toNat + 2 ^ 29 * b2n f.ide))
        | none => b1
    | .wakeUpPattern => if n.wupEn then b.detected c .pattern 0 else b
    | .erroneousFrame =>
      let b1 := b.modNm c fun n => { n with fec := n.fec + 1 }
      if n.fecWake ∧ 31 < n.fec + 1 then b1.detected c .frameErrors 0 else b1

/-- DI_WAKE_REQUEST (R168): a wake source has been active for WAKE_FILT. -/
def diWakeRequest (d : Fin 32) (b : Blk) : Blk :=
  if b.hasKernel (kOfDi d) = false ∨ (b.di d).wakeSource = false then b
  else b.localCause 1 (srcDi d)

/-- A local wake handled while the shell runs (R348): MODULE_WAKE, the local holds, WAKE on awake buses. -/
def Blk.localWakeNow (b : Blk) : Blk :=
  let b1 := ({ b with nmg := { b.nmg with localWake := false } }).ev srcNmModule 0xC 1 b.nmg.wakeSrc
  let b2 := (upTo 6).foldl (fun b c =>
    let n := b.nm c
    if n.en = false ∨ n.localBus = false then b
    else (b.modNm c fun n => { n with localHold := some (b.time.dt + BitVec.ofNat 64 n.localHoldNs) }).nmOwnWake c .local) b1
  b2.wakePulse

/-! ### NM_REQUEST (R253, R332) -/

def cmdNmRequest : Cmd :=
  { op := 0x804, len := .exactly 4, parts := false, modes := [3, 4, 5, 6],
    who := fun i => isProgram i || i = .spi || i = .mgmt }

/-- A bus number of byte 0. -/
def busArg (p : List Byte) : Option (Fin 6) :=
  let n := (byteAt p 0).toNat
  if h : n < 6 then some ⟨n, h⟩ else none

/-- NM_REQUEST. -/
def nmRequest (r : Req) (b : Blk) : Blk :=
  serve cmdNmRequest r noAbsent noGrant (fun b i p =>
    match busArg p with
    | none => b.refuseReq 0x804 r (errAt 0 stBadParam 1 0)
    | some c =>
      answerI cmdNmRequest r b
        ([(!(b.nm c).en, errAt 0 stBadParam 6 0), (decide (1 < (byteAt p 1).toNat), errAt 1 stBadParam 1 0)] ++ zeroErr p 2 2)
        fun b =>
          let n := b.nm c
          let b1 := if byteAt p 1 = 1 then
              let b' := b.modNm c fun n => { n with requests := setKey n.requests i b.time.dt }
              if n.ownReq = 0 then b'.nmOwnWake c .ownRequest else b'
            else b.modNm c fun n => { n with requests := n.requests.filter (fun q => q.1 ≠ i) }
          ([BitVec.ofNat 8 (min (b1.nm c).ownReq 255)], b1)) b

/-! ### Swaps (R350) -/

/-- Network management of a bus without a record: its Reset values. -/
def nmDefault : Word × Word × Word × Word × List (List Word) := (0x05000202, 0x0C841064, 0x003203E8, 0x000A07D0, [])

/-- The settings of a bus applied at step S2. -/
def Blk.nmConfigure (b : Blk) (c : Fin 6) (cfg : Word × Word × Word × Word × List (List Word)) : Blk :=
  let (ctrl, times, ka, wakeT, filters) := cfg
  let n := b.nm c
  let moved := decide ((n.ctrl &&& 0x07FF00FE) ≠ (ctrl &&& 0x07FF00FE))
  let f := fun (j : Fin 4) =>
    let w := fun i => ((filters.getD j.val []).getD i 0 : Word)
    (w 0, w 1, w 2, w 3, w 4)
  let b1 := b.modNm c fun n =>
    { n with ctrl := ctrl, times := times, ka := ka, wakeT := wakeT, filters := Vector.ofFn f }
  let runs := decide (b.rcc.mode ≠ .boot ∧ b.rcc.mode ≠ .recovery ∧ b.rcc.mode ≠ .sleep)
  if bit ctrl 0 = false then
    if n.en = false then b1
    else
      let b2 := b1.modNm c fun n =>
        { n with state := .off, requests := [], localHold := none, slot := none, token := false, tokenSent := false }
      (b2.modCan c fun x => if x.state = .asleep then { x.running with fifoHeld := false } else { x with fifoHeld := false }).wakeOutNow
  else if runs = false then b1
  else if n.en = false ∨ moved then b1.nmForming c (some kAlive)
  else if bit ctrl 8 ∧ n.ownReq = 0 then b1.nmOwnWake c .ownRequest
  else b1.wakeOutNow

/-! ### Meanings -/

def execNmFrameReceived (c : Fin 6) (f : CanFrame) (s : State) : Res := .next (s.onMem fun _ b => nmFrameReceived c f b)
def execNmFrameSent (c : Fin 6) (s : State) : Res := .next (s.onMem fun _ b => nmFrameSent c b)
def execRingTimerExpiry (c : Fin 6) (s : State) : Res := .next (s.onBlk (ringTimerExpiry c))
def execTokenTimerExpiry (c : Fin 6) (s : State) : Res := .next (s.onBlk (tokenTimerExpiry c))
def execSettleExpiry (c : Fin 6) (s : State) : Res := .next (s.onBlk (settleExpiry c))
def execKaIntervalExpiry (c : Fin 6) (s : State) : Res := .next (s.onBlk (kaIntervalExpiry c))
def execKaSilenceExpiry (c : Fin 6) (s : State) : Res := .next (s.onMem fun _ b => kaSilenceExpiry c b)
def execDetectorWake (c : Fin 6) (e : DetectorEvent) (s : State) : Res := .next (s.onBlk (detectorWake c e))
def execBusWake (c : Fin 6) (cause : WakeCause) (ident : BitVec 30) (s : State) : Res :=
  .next (s.onBlk fun b => b.busWake c cause ident)
def execFalseWakeExpiry (c : Fin 6) (s : State) : Res := .next (s.onBlk (falseWakeExpiry c))
def execRequestLapsed (c : Fin 6) (i : Initiator) (s : State) : Res := .next (s.onBlk (requestLapsed c i))
def execLocalHoldExpiry (c : Fin 6) (s : State) : Res := .next (s.onBlk (localHoldExpiry c))
def execNodeHoldsAwake (c : Fin 6) (a : Fin 64) (s : State) : Res := .next (s.onBlk (nodeHoldsAwake c a))
def execWakeOutPulseEnd (s : State) : Res := .next (s.onBlk wakeOutPulseEnd)
def execDiWakeRequest (d : Fin 32) (s : State) : Res := .next (s.onBlk (diWakeRequest d))
def execNmRequest (r : Req) (s : State) : Res := .next (s.onBlk (nmRequest r))

end Sys2Proof.Machine
end

