-- ==== Sys2Proof/WellFormed.lean ====
section
/-! DEFINITION. What makes a command well formed: the lists it carries have the lengths that its rule gives
them. Numbers that name a unit are bounded by their types. -/

namespace Sys2Proof

/-- A request's header fields agree with its bytes: at least the 16-byte header (R229), and a payload that the
words hold. -/
def Req.wf (r : Req) : Bool := decide (4 ≤ r.words) && decide (r.payload.length = 4 * (r.words - 4))

/-- The payload length that a DLC stands for (R313). -/
def dlcBytes (fdf : Bool) (d : BitVec 4) : Nat :=
  if d.toNat ≤ 8 then d.toNat
  else if fdf then (match d.toNat with | 9 => 12 | 10 => 16 | 11 => 20 | 12 => 24 | 13 => 32 | 14 => 48 | _ => 64)
  else 8

/-- A CAN frame: its data has the length of its DLC, and none for a remote frame (R313). -/
def CanFrame.wf (f : CanFrame) : Bool :=
  decide (f.data.length = if f.remote then 0 else dlcBytes f.fdf f.dlc) && (f.ide || decide (f.ident.toNat < 2048))

/-- A kernel's measurements: ten channels and four analogue inputs (R13). -/
def KernelMeas.wf (m : KernelMeas) : Bool := decide (m.chans.length = 10) && decide (m.ais.length = 4)

/-- Whether a command is well formed. -/
def Instr.wf : Instr → Bool
  | .tick m => decide (m.length = 4) && m.all KernelMeas.wf
  | .kernelWindowEnd _ m => m.wf
  | .wireModelStep _ l => decide (l.length = 10)
  | .energyAccumulate _ l => decide (l.length = 10)
  | .arcFrame _ _ l => decide (l.length = 8)
  | .nmFrameReceived _ f => f.wf
  | .canFrameReceived _ f _ => f.wf
  | .detectorWake _ (.frame f) => f.wf
  | .badOpcodeRequest r _ => r.wf
  | .echo r | .getCaps r | .getVersions r | .getIdentity r | .attest r | .getHealth r | .modeGet r | .modeSet r
  | .tenantCtrlStop r | .tenantCtrlStart r | .tenantCtrlReset r | .resetDevice r | .resetCause r | .cfgInfo r
  | .cfgLoadBegin r | .cfgLoadData r | .cfgVerify r | .cfgSwap r | .cfgCancel r | .kernelServiceOut r
  | .kernelServiceReturn r | .kernelServiceRecalibrate r | .kernelServiceReload r | .tenantReplace r | .chGet r
  | .chSet r | .chClear r | .senseRoute r | .inGet r | .motionRefSet r | .logInfo r | .logRead r | .logSeal r
  | .sealGet r | .pinRelease r | .notifySet r | .timeGet r | .timeSet r | .portGet r | .portSet r | .canGet r
  | .nmRequest r | .keyUpdate r | .keyInfo r | .debugAuth r | .lifecycleSet r | .tamperGet r | .lockdownExit r
  | .ownerLock r | .updBegin r | .updData r | .updFinish r | .updActivate r | .updAbort r | .updStatus r
  | .bridgeClear r | .regRead r | .regWrite r => r.wf
  | .reqMalformed _ n => decide (n.toNat < 16)
  | .uartFrameReceived l => decide (l ≠ [])
  | .exitStepDone l => decide (l.length ≤ 16)
  | _ => true

end Sys2Proof
end

