-- ==== Sys2Proof/Machine/Can.lean ====
section
/-! DEFINITION. The CAN controllers (R312 to R330): receive objects and their freeze, the transmit FIFO, error
confinement, lone nodes, identifier collisions, time references, and the meanings of the CAN family. -/

namespace Sys2Proof.Machine
open Sys2Proof

/-- SRC of a controller (R330). -/
def srcCan (c : Fin 6) : BitVec 16 := srcOf 4 c.val
def Blk.can (b : Blk) (c : Fin 6) : Can := b.cans.get c
def Blk.cev (b : Blk) (c : Fin 6) (code sev arg : Nat) (tenant : Byte := hw) (pin : Bool := false) : Blk :=
  b.ev (srcCan c) code sev (arg32 arg) tenant pin

/-! ### Fields of CAN_CTRL, CAN_TIMEOUTS and CAN_TREF (R329) -/

def Can.en (x : Can) : Bool := bit x.ctrl 0
def Can.fd (x : Can) : Bool := bit x.ctrl 1
def Can.listen (x : Can) : Bool := bit x.ctrl 2
def Can.boffAuto (x : Can) : Bool := bit x.ctrl 3
def Can.aloneHold (x : Can) : Bool := bit x.ctrl 4
def Can.boffFlush (x : Can) : Bool := bit x.ctrl 5
def Can.ageMax (x : Can) : Nat := bits x.timeouts 13 0
def Can.trefEn (x : Can) : Bool := bit x.tref 0
def Can.trefPeriod (x : Can) : Nat := bits x.tref 15 8

/-- Whether the controller takes part in the bus. -/
def Can.onBus (x : Can) : Bool := x.state = .active || x.state = .passive
/-- `CAN_STATUS.HELD` (R324, R340). -/
def Can.held (x : Can) : Bool := (x.alone && x.aloneHold) || x.fifoHeld

/-- An identifier as registers hold it: [28:0] identifier, [29] IDE. -/
def canId (f : CanFrame) : Nat := f.ident.toNat + 2 ^ 29 * b2n f.ide

/-! ### Receiving (R316, R317, R319) -/

/-- Whether an object takes a frame: identifier, format, and the accepted frame formats. -/
def RxObj.takes (o : RxObj) (f : CanFrame) : Bool :=
  bit o.cfg 30 && decide (bits o.cfg 28 0 = f.ident.toNat) && (bit o.cfg 29 == f.ide)
    && (if f.fdf then bit o.cfg2 9 else bit o.cfg2 8)

/-- A frame stored: the newest wins (R317). -/
def RxObj.store (o : RxObj) (f : CanFrame) (sof : BitVec 64) : RxObj :=
  { o with isNew := true, lost := o.lost || o.isNew, overwrites := if o.isNew then satInc o.overwrites 255 else o.overwrites,
           frame := some f, sofDt := sof }

/-- The flags byte of a queued frame. -/
def canFlags (f : CanFrame) : Nat := b2n f.fdf + 2 * b2n f.brs + 4 * b2n f.esi

/-- The message of R319. -/
def canMessage (sof : BitVec 64) (idWord flags dlc obj n : Nat) (data : List Byte) : List Word :=
  let l := leBytes 8 sof.toNat ++ leBytes 4 idWord ++ leBytes 1 flags ++ leBytes 1 dlc ++ leBytes 1 obj ++ leBytes 1 n ++ data
  wordsOf 32 l

/-- The queue that `CAN_QMAP_i` names for an initiator; none for 0. -/
def Can.queueFor (x : Can) (i : Initiator) (receive : Bool) : Option (Fin 256) :=
  match slotOf i with
  | none => none
  | some n =>
    let w := x.qmap.get n
    let q := if receive then bits w 15 8 else bits w 7 0
    if h : q < 256 then if q = 0 then none else some ⟨q, h⟩ else none

/-- A successful reception and REC (R322). -/
def recOk (n : Nat) : Nat := if 127 < n then 127 else n - 1

/-- The state follows the counters, each change logged (R322, R323). -/
def Blk.canState (b : Blk) (c : Fin 6) : Blk :=
  let x := b.can c
  if x.onBus = false then b
  else
    let y := x.running
    if y.state = x.state then b
    else
      let arg := x.tec + x.recCnt * 65536
      match y.state with
      | .passive => (b.modCan c fun x => { y with sticky := orBits x.sticky 1 }).cev c 1 2 arg
      | .active => (b.modCan c fun _ => y).cev c 2 1 arg
      | .busOff =>
        let drop := y.boffFlush
        let late := y.trefSlot
        let b1 := b.modCan c fun x =>
          { y with sticky := orBits x.sticky 2, unack := 0, sending := none, boffDt := b.time.dt, boffWait := false,
                   trefSlot := none, trefSkip := if late.isSome then satInc x.trefSkip 0xFFFF else x.trefSkip,
                   txDrop := if drop then satAdd x.txDrop x.fifo.length 0xFFFF else x.txDrop,
                   fifo := if drop then [] else x.fifo }
        let b2 := (b1.modNm c fun n => { n with slot := n.slot <|> n.inFlight, inFlight := none }).cev c 3 3
          (bits x.lastErr 2 0) hw true
        match late with
        | some (_, _, seq) => b2.cev c 0xB 1 seq.toNat
        | none => b2
      | _ => b

/-- CAN_FRAME_RECEIVED (R316): `sof` is the DT of its start-of-frame bit. -/
def canFrameReceived (c : Fin 6) (f : CanFrame) (sof : BitVec 64) (b : Blk) : Blk :=
  let x := b.can c
  if x.onBus = false then b
  else
    let b1 := (b.modCan c fun x => { x with rxFrames := x.rxFrames + 1, recCnt := recOk x.recCnt }).canState c
    if f.remote then b1.modCan c fun x => { x with rxRemote := satInc x.rxRemote 0xFFFF }
    else match (upTo 256).find? (fun j => (x.rxo.get j).takes f) with
      | none => b1.modCan c fun x => { x with rxOther := satInc x.rxOther 0xFFFF }
      | some j =>
        let o := x.rxo.get j
        let b2 := b1.modCan c fun x =>
          { x with rxo := vmod x.rxo j (fun o => o.store f sof),
                   lost := if o.isNew then satInc x.lost 0xFFFFFFFF else x.lost,
                   sticky := if o.isNew then orBits x.sticky 0x20 else x.sticky }
        match Initiator.ofId (bits o.cfg2 7 0) with
        | some i => match bit o.cfg 31, x.queueFor i true with
          | true, some q =>
            b2.engineWrite q (canMessage sof (canId f) (canFlags f) f.dlc.toNat j.val f.data.length f.data)
          | _, _ => b2
        | none => b2

/-- Step S1 (R317): every object is copied into the snapshot, then NEW, LOST and the counts clear. -/
def Can.freeze (x : Can) : Can :=
  { x with frozen := x.rxo, rxo := x.rxo.map fun o => { o with isNew := false, lost := false, overwrites := 0 } }

/-- The 80 bytes of a frozen object (R318); an object that is not enabled reads zero. -/
def RxObj.bytes (o : RxObj) : List Byte :=
  if bit o.cfg 30 = false then List.replicate 80 0
  else match o.frame with
    | none => leBytes 4 (bits o.cfg 29 0) ++ List.replicate 76 0
    | some f =>
      leBytes 4 (canId f)
        ++ leBytes 1 (b2n o.isNew + 2 * b2n o.lost + 4 * b2n f.fdf + 8 * b2n f.brs + 16 * b2n f.esi + 32)
        ++ leBytes 1 f.dlc.toNat ++ leBytes 1 f.data.length ++ leBytes 1 o.overwrites ++ leBytes 8 o.sofDt.toNat
        ++ padTo 64 f.data

/-! ### Transmitting (R320, R321) -/

/-- The DLC of a number of data bytes; none where no DLC stands for it. -/
def dlcOf (fdf : Bool) (n : Nat) : Option (BitVec 4) :=
  if n ≤ 8 then some (BitVec.ofNat 4 n)
  else if fdf then ((List.range 7).map (· + 9)).find? (fun d => dlcBytes true (BitVec.ofNat 4 d) = n) |>.map (BitVec.ofNat 4)
  else none

/-- A request refused (R320), logged at most once per program and breath. -/
def Blk.txRefuse (b : Blk) (c : Fin 6) (i : Initiator) (obj reason : Nat) : Blk :=
  let b1 := b.modCan c fun x => { x with txDrop := satInc x.txDrop 0xFFFF }
  if (c, i) ∈ b.breath.txRefused then b1
  else (b1.onBre fun r => { r with txRefused := (c, i) :: r.txRefused }).cev c 9 2 (obj % 64 + reason * 256) (idByte i)

/-- A request message judged (R320): the entry, or the reason of its refusal. -/
def Can.judge (x : Can) (i : Initiator) (l : List Byte) (now : BitVec 64) : Except Nat TxEntry :=
  let obj : Fin 64 := ⟨(byteAt l 0).toNat % 64, Nat.mod_lt _ (by decide)⟩
  let o := x.txo.get obj
  let fl := (byteAt l 1).toNat
  let fdf := fl.testBit 0
  let n := (byteAt l 2).toNat
  if 64 ≤ (byteAt l 0).toNat ∨ bit o.cfg 30 = false ∨ bits o.cfg2 7 0 ≠ i.id then .error 1
  else if o.withdrawn then .error 2
  else match dlcOf fdf n with
    | none => .error 3
    | some d =>
      if 8 ≤ fl ∨ (fl.testBit 1 ∧ fdf = false) ∨ (fdf ∧ (bit o.cfg 31 = false ∨ x.fd = false)) ∨ leAt l 3 5 ≠ 0 ∨
          l.length < 8 + n then .error 3
      else .ok { obj := obj, who := i, report := fl.testBit 2, since := now,
                 frame := { ident := BitVec.ofNat 29 (bits o.cfg 28 0), ide := bit o.cfg 29, fdf := fdf, brs := fl.testBit 1,
                            esi := false, remote := false, dlc := d, data := slice l 8 n } }

/-- The visible request with the lowest close SEQ across the transmit queues of the bus. -/
def Blk.nextRequest (b : Blk) (c : Fin 6) : Option (Fin 10 × Fin 256 × Msg) :=
  let x := b.can c
  (upTo 10).foldl (fun (best : Option (Fin 10 × Fin 256 × Msg)) n =>
    match x.queueFor (slotInit n) false with
    | none => best
    | some q =>
      let qu := b.queues.get q
      if qu.enabled = false ∨ qu.consEngine ≠ 2 then best
      else match b.visible qu, best with
        | m :: _, none => some (n, q, m)
        | m :: _, some (n', q', m') =>
          if (m.seq.getD 0).toNat < (m'.seq.getD 0).toNat then some (n, q, m) else some (n', q', m')
        | [], _ => best) none

/-- CAN_TX_ENQUEUE (R321). -/
def canTxEnqueue (c : Fin 6) (b : Blk) : Blk :=
  let x := b.can c
  if x.state = .stopped ∨ x.state = .asleep ∨ (x.alone ∧ x.aloneHold) then b
  else match b.nextRequest c with
    | none => b
    | some (n, q, m) =>
      if 64 ≤ x.fifo.length then b.modCan c fun x => { x with sticky := orBits x.sticky 0x10 }
      else
        let i := slotInit n
        let l := bytesOf m.words
        let b1 := b.popMsg q
        match x.judge i l b.time.dt with
        | .error r => b1.txRefuse c i (byteAt l 0).toNat r
        | .ok e => b1.modCan c fun x =>
            { x with fifo := x.fifo ++ [e],
                     sticky := if 64 ≤ x.fifo.length + 1 then orBits x.sticky 0x10 else x.sticky }

/-- Whether an entry has waited longer than TX_AGE_MAX. -/
def Blk.aged (b : Blk) (x : Can) (e : TxEntry) : Bool := decide (0 < x.ageMax ∧ x.ageMax * 1000000 < b.since e.since)

/-- Entries that are too old when they would enter arbitration are discarded (R321). -/
def Blk.dropAged (b : Blk) (c : Fin 6) : Blk :=
  let x := b.can c
  let rest := x.fifo.dropWhile (b.aged x)
  let n := x.fifo.length - rest.length
  if n = 0 then b
  else
    let total := x.agedNew + n
    let due : Bool := match x.agedDt with | some t => decide (1000000000 ≤ b.since t) | none => true
    let b1 := b.modCan c fun x =>
      { x with fifo := rest, txAged := satAdd x.txAged n 0xFFFF, agedNew := if due then 0 else total,
               agedDt := if due then some b.time.dt else x.agedDt }
    if due then b1.cev c 0xA 1 total else b1

/-- CAN_HEAD_ARBITRATION (R321, R326, R335): the time reference, then the network-management slot, then the head of
the FIFO enters arbitration; its start of frame is now. -/
def canHeadArbitration (c : Fin 6) (b : Blk) : Blk :=
  let x := b.can c
  if x.onBus = false ∨ x.listen ∨ x.sending.isSome then b
  else
    let settle := decide ((b.nm c).state = .settle)
    let start := fun (b : Blk) (sl : CanSlot) => b.modCan c fun x => { x with sending := some sl, trefStart := b.time.dt }
    let nmReady : Bool := match (b.nm c).slot with | some f => !settle || decide (f.kind = kWake) | none => false
    if x.trefSlot.isSome ∧ settle = false then start b .tref
    else if nmReady then
      (start b .nm).modNm c fun n => { n with inFlight := n.slot, slot := none, confirming := false }
    else if x.fifoHeld then b
    else
      let b1 := b.dropAged c
      if (b1.can c).fifo.isEmpty then b1 else start b1 .fifo

/-- ALONE clears at the first acknowledged frame (R324). -/
def Blk.aloneClear (b : Blk) (c : Fin 6) : Blk :=
  let x := b.can c
  if x.alone = false then b
  else (b.modCan c fun x => { x with alone := false }).cev c 6 1 (min (b.since x.aloneDt / 1000000) 0xFFFFFFFF)

/-- `CAN_TDCV` after a frame sent with a data phase at the faster rate: the controller measured its transmitter delay, which
no row gives (log entry 3). -/
def Blk.measureDelay (b : Blk) (c : Fin 6) (slot : CanSlot) : Blk :=
  let x := b.can c
  match slot, x.fifo with
  | .fifo, e :: _ =>
    if e.frame.fdf ∧ e.frame.brs ∧ bit x.tdc 15 then
      let f := b.fresh
      f.2.modCan c fun x => { x with tdcv := arg32 (bits (Config.freeWord f.1) 6 0) }
    else b
  | _, _ => b

/-- CAN_TX_SUCCESS (R322, R320, R326). -/
def canTxSuccess (c : Fin 6) (slot : CanSlot) (b : Blk) : Blk :=
  let x := b.can c
  if x.sending ≠ some slot then b
  else
    let b1 := (b.measureDelay c slot).modCan c fun x => { x with sending := none, txFrames := x.txFrames + 1, tec := x.tec - 1, unack := 0 }
    let b2 := (b1.aloneClear c).canState c
    match slot with
    | .nm => b2
    | .tref => b2.modCan c fun y =>
        { y with trefSlot := match y.trefSlot with
            | some (false, dt, seq) => some (true, BitVec.ofNat 64 (x.trefStart.toNat - dt.toNat), seq)
            | _ => none }
    | .fifo => match x.fifo with
      | [] => b2
      | e :: rest =>
        let b3 := b2.modCan c fun y =>
          { y with fifo := rest, txo := vmod y.txo e.obj (fun o => { o with coll := 0 }) }
        match e.report, x.queueFor e.who true with
        | true, some q =>
          b3.engineWrite q (canMessage x.trefStart ((canId e.frame) + 2 ^ 30) (canFlags e.frame) e.frame.dlc.toNat e.obj.val 0 [])
        | _, _ => b3

/-! ### Errors (R322, R324, R325) -/

def errCode : CanErr → Nat
  | .stuff => 1 | .form => 2 | .ack => 3 | .bitRecDom => 4 | .bitDomRec => 5 | .crc => 6

/-- `CAN_LAST_ERR`. -/
def lastErrWord (e : CanErr) (data tx : Bool) : Word := mkWord [errCode e, fld (b2n data) 1 3, fld (b2n tx) 1 4]

/-- What a transmitter's error adds to TEC. -/
def Can.tecAdd (x : Can) (e : CanErr) : CanErrKind → Nat
  | .plain | .activeFlagBit | .fourteenDominant | .dominantAfterFlag => 8
  | .passiveAckNoDom => if x.state = .passive ∧ e = .ack then 0 else 8
  | .arbStuff => 0

/-- What a receiver's error adds to REC. -/
def recAdd : CanErrKind → Nat
  | .plain => 1
  | .dominantAfterFlag | .activeFlagBit | .fourteenDominant => 8
  | .passiveAckNoDom | .arbStuff => 1

/-- Whether an error ends an attempt, rather than falling in the error flag that follows one. -/
def endsAttempt : CanErrKind → Bool
  | .plain | .passiveAckNoDom | .arbStuff => true
  | .dominantAfterFlag | .activeFlagBit | .fourteenDominant => false

/-- Sixteen acknowledgement errors in a row set ALONE (R324, R341). -/
def Blk.countUnack (b : Blk) (c : Fin 6) (e : CanErr) : Blk :=
  if e ≠ .ack then b
  else
    let n := satInc (b.can c).unack 255
    let b1 := b.modCan c fun x => { x with unack := n }
    if n < 16 ∨ (b.can c).alone then b1
    else
      let head := match (b.can c).fifo with | h :: _ => (canId h.frame) | [] => (b.nm c).base + (b.nm c).addr
      let b2 := (b1.modCan c fun x => { x with alone := true, aloneDt := b.time.dt, sticky := orBits x.sticky 4 }).cev c 5 2 head
      if (b2.nm c).en ∧ ((b2.nm c).state = .forming ∨ (b2.nm c).state = .ring) then b2.nmKeepAlive c 3 else b2

/-- A collision on the frame in transmission (R325, R335). -/
def Blk.countCollision (b : Blk) (c : Fin 6) (slot : CanSlot) : Blk :=
  match slot, (b.can c).fifo with
  | .fifo, e :: rest =>
    let o := (b.can c).txo.get e.obj
    if o.coll + 1 < 4 then
      b.modCan c fun x => { x with txo := vmod x.txo e.obj (fun o => { o with coll := o.coll + 1 }) }
    else
      let wd := bit o.cfg2 8
      let id := (canId e.frame)
      let due : Bool := wd || (match o.conflictDt with | some t => decide (1000000000 ≤ b.since t) | none => true)
      let b1 := b.modCan c fun x =>
        { x with conflict := arg32 id, conflicts := x.conflicts + 1, sticky := orBits x.sticky 8,
                 txo := vmod x.txo e.obj (fun o => { o with coll := 0, withdrawn := o.withdrawn || wd,
                                                            conflictDt := if due then some b.time.dt else o.conflictDt }),
                 txDrop := if wd then satAdd x.txDrop (1 + (rest.filter (fun r => r.obj = e.obj)).length) 0xFFFF else x.txDrop,
                 fifo := if wd then rest.filter (fun r => r.obj ≠ e.obj) else x.fifo }
      if due then b1.cev c 7 3 (id + 2 ^ 30 * b2n wd) (BitVec.ofNat 8 (bits o.cfg2 7 0)) true else b1
  | .nm, _ =>
    let n := b.nm c
    if n.coll + 1 < 4 then b.modNm c fun n => { n with coll := n.coll + 1 }
    else
      let b1 := b.modNm c fun n => { n with coll := 0, sticky := orBits n.sticky 0x20 }
      let b2 := b1.modCan c fun x => { x with conflict := arg32 (n.base + n.addr), conflicts := x.conflicts + 1, sticky := orBits x.sticky 8 }
      (b2.cev c 7 3 (n.base + n.addr) 0x20 true).nmev c 0xB 3 n.addr (pin := true)
  | _, _ => b

/-- CAN_TX_ERROR (R322): the attempt ends at its error; the frame enters arbitration again. -/
def canTxError (c : Fin 6) (slot : CanSlot) (e : CanErr) (kind : CanErrKind) (where_ : CanField) (data : Bool) (b : Blk) : Blk :=
  let x := b.can c
  if x.onBus = false ∨ (endsAttempt kind ∧ x.sending ≠ some slot) then b
  else
    let b1 := b.modCan c fun x =>
      { x with tec := min (x.tec + x.tecAdd e kind) 256, errFrames := satInc x.errFrames 0xFFFFFFFF,
               lastErr := lastErrWord e data true, sending := if endsAttempt kind then none else x.sending }
    let hit := decide (where_ = .control ∨ where_ = .data) && decide (e = .bitRecDom ∨ e = .bitDomRec)
    let b2 := if endsAttempt kind then
        let b' := if slot = .nm then b1.modNm c fun n => { n with slot := n.slot <|> n.inFlight, inFlight := none } else b1
        let b'' := if hit then b'.countCollision c slot else b'
        b''.countUnack c e
      else b1
    b2.canState c

/-- CAN_RX_ERROR (R322). -/
def canRxError (c : Fin 6) (e : CanErr) (kind : CanErrKind) (data : Bool) (b : Blk) : Blk :=
  let x := b.can c
  if x.onBus = false then b
  else (b.modCan c fun x =>
    { x with recCnt := satAdd x.recCnt (recAdd kind) 255, errFrames := satInc x.errFrames 0xFFFFFFFF,
             lastErr := lastErrWord e data false }).canState c

/-! ### Bus-off and rearm (R323, R325) -/

/-- BOFF_DELAY_EXPIRY: with BOFF_AUTO, the wait for 128 occurrences begins. -/
def boffDelayExpiry (c : Fin 6) (b : Blk) : Blk :=
  let x := b.can c
  if x.state ≠ .busOff ∨ x.boffAuto = false then b else b.modCan c fun x => { x with boffWait := true }

/-- BUS_OFF_RECOVERED. -/
def busOffRecovered (c : Fin 6) (b : Blk) : Blk :=
  let x := b.can c
  if x.state ≠ .busOff ∨ x.boffWait = false then b
  else (b.modCan c fun x => { x with state := .active, tec := 0, recCnt := 0, boffWait := false }).cev c 4 1
    (min (b.since x.boffDt / 1000000) 0xFFFFFFFF)

/-- CAN_CMD_RESTART: without BOFF_AUTO, the same wait begins when the Chanter writes RESTART. -/
def canCmdRestart (c : Fin 6) (b : Blk) : Blk :=
  let x := b.can c
  if x.state ≠ .busOff ∨ x.boffAuto then b else b.modCan c fun x => { x with boffWait := true }

/-- CAN_CMD_REARM: every withdrawn object is rearmed. -/
def canCmdRearm (c : Fin 6) (b : Blk) : Blk :=
  (upTo 64).foldl (fun b j =>
    if ((b.can c).txo.get j).withdrawn = false then b
    else (b.modCan c fun x => { x with txo := vmod x.txo j (fun o => { o with withdrawn := false, coll := 0 }) }).cev c 8 1 j.val) b

/-! ### Time references (R326, R327) -/

/-- The part of a tick for one controller: a reference that has not started is dropped, and the new one takes the
slot. -/
def Blk.trefTick (b : Blk) (c : Fin 6) : Blk :=
  let x := b.can c
  if x.trefEn = false ∨ x.trefPeriod = 0 ∨ b.breath.bn.toNat % x.trefPeriod ≠ 0 ∨ x.onBus = false ∨ x.listen then b
  else
    let seq := x.trefSeq + 1
    if x.sending = some .tref then
      (b.modCan c fun x => { x with trefSeq := seq, trefSkip := satInc x.trefSkip 0xFFFF }).cev c 0xB 1 seq.toNat
    else
      let b1 := match x.trefSlot with
        | some (false, _, old) =>
          (b.modCan c fun x => { x with trefSkip := satInc x.trefSkip 0xFFFF }).cev c 0xB 1 old.toNat
        | _ => b
      b1.modCan c fun x => { x with trefSeq := seq, trefSlot := some (false, b.breath.tickDt, seq) }

def Blk.trefTicks (b : Blk) : Blk := (upTo 6).foldl Blk.trefTick b

/-! ### Starting, stopping and swaps (R314, R328, R329) -/

/-- Controllers with EN start when the mode lets them run. -/
def Blk.canStart (b : Blk) : Blk :=
  { b with cans := b.cans.map fun x => if x.en ∧ (x.state = .stopped ∨ x.state = .asleep) then { x with state := .active } else x }

/-- Controllers stopped: error counters at 0 (R314). -/
def Blk.canStop (b : Blk) : Blk :=
  { b with cans := b.cans.map fun x =>
      { x with state := .stopped, tec := 0, recCnt := 0, unack := 0, alone := false, boffWait := false, sending := none,
               fifo := [], fifoHeld := false, trefSlot := none } }

/-- The settings of a bus without a `CAN` record: its Reset values. -/
def canDefault : CanCfg :=
  { ctrl := 0xA, nbt := 0x0F9F7E00, dbt := 0x07071E00, tdc := 0x8020, timeouts := 0x006403E8, tref := 0x2800,
    trefId := 0x00010000, qmap := Vector.replicate 10 0, txo := [], rxo := [], nmCtrl := 0x05000202,
    nmTimes := 0x0C841064, nmKa := 0x003203E8, nmWakeT := 0x000A07D0, filters := [] }

/-- A transmit object that changed loses its FIFO entries, except one in transmission (R328). -/
def Can.dropChanged (x : Can) (changed : Fin 64 → Bool) : Can :=
  let keep := match x.sending, x.fifo with
    | some .fifo, h :: rest => h :: rest.filter (fun e => !changed e.obj)
    | _, l => l.filter (fun e => !changed e.obj)
  { x with fifo := keep, txDrop := satAdd x.txDrop (x.fifo.length - keep.length) 0xFFFF }

/-- The image-set registers of a controller applied at step S2 (R328). -/
def Can.configure (x : Can) (g : CanCfg) (runs : Bool) : Can :=
  let tx := fun (j : Fin 64) => g.txo.getD j.val (0, 0)
  let rx := fun (j : Fin 256) => g.rxo.getD j.val (0, 0)
  let changed := fun (j : Fin 64) => let o := x.txo.get j; decide (o.cfg ≠ (tx j).1 ∨ bits o.cfg2 7 0 ≠ bits (tx j).2 7 0)
  let x1 := x.dropChanged changed
  let newTx := fun (j : Fin 64) =>
    let o := x.txo.get j
    if o.cfg = (tx j).1 ∧ o.cfg2 = (tx j).2 then o
    else ({ cfg := (tx j).1, cfg2 := (tx j).2, coll := 0, withdrawn := false, conflictDt := none } : TxObj)
  let newRx := fun (j : Fin 256) =>
    let o := x.rxo.get j
    if o.cfg = (rx j).1 ∧ o.cfg2 = (rx j).2 then o
    else ({ cfg := (rx j).1, cfg2 := (rx j).2, isNew := false, lost := false, overwrites := 0, frame := none, sofDt := 0 } : RxObj)
  { x1 with ctrl := g.ctrl, nbt := g.nbt, dbt := g.dbt, tdc := g.tdc, timeouts := g.timeouts, tref := g.tref,
            trefId := g.trefId, qmap := g.qmap, txo := Vector.ofFn newTx, rxo := Vector.ofFn newRx,
            state := if bit g.ctrl 0 = false then .stopped else if runs ∧ x.state = .stopped then .active else x.state }

/-- The `CAN` part of a shell swap for one bus. -/
def Blk.canConfigure (b : Blk) (c : Fin 6) (g : CanCfg) : Blk :=
  let runs := decide (b.rcc.mode ≠ .boot ∧ b.rcc.mode ≠ .recovery ∧ b.rcc.mode ≠ .sleep)
  (b.modCan c fun x => x.configure g runs).nmConfigure c (g.nmCtrl, g.nmTimes, g.nmKa, g.nmWakeT, g.filters)

/-! ### CAN_GET (R253) -/

def cmdCanGet : Cmd := { op := 0x803, len := .exactly 4, parts := false, modes := [3, 4, 5, 6, 8], who := anyone }

/-- Codes of `CAN_STATUS.STATE`. -/
def CanState.code : CanState → Nat
  | .active => 0 | .passive => 1 | .busOff => 2 | .stopped => 3 | .asleep => 4

/-- CAN_GET. -/
def canGet (r : Req) (b : Blk) : Blk :=
  serve cmdCanGet r noAbsent noGrant (fun b _ p =>
    match busArg p with
    | none => b.refuseReq 0x803 r (errAt 0 stBadParam 1 0)
    | some c => answerI cmdCanGet r b (zeroErr p 1 3) fun b =>
      let x := b.can c
      let n := b.nm c
      (leBytes 1 c.val ++ leBytes 1 x.state.code ++ leBytes 1 (min x.tec 255) ++ leBytes 1 x.recCnt
        ++ leBytes 1 (b2n x.alone + 2 * b2n x.held + 4 * b2n (decide (n.state = .keepalive)) + 8 * b2n n.armed)
        ++ leBytes 1 n.present.length ++ leBytes 2 x.fifo.length ++ leBytes 4 x.rxFrames.toNat
        ++ leBytes 4 x.conflicts, b)) b

/-! ### Meanings -/

def execCanFrameReceived (c : Fin 6) (f : CanFrame) (sof : BitVec 64) (s : State) : Res :=
  .next (s.onBlk (canFrameReceived c f sof))
def execCanTxEnqueue (c : Fin 6) (s : State) : Res := .next (s.onBlk (canTxEnqueue c))
def execCanHeadArbitration (c : Fin 6) (s : State) : Res := .next (s.onBlk (canHeadArbitration c))
def execCanTxSuccess (c : Fin 6) (slot : CanSlot) (s : State) : Res := .next (s.onBlk (canTxSuccess c slot))
def execCanTxError (c : Fin 6) (slot : CanSlot) (e : CanErr) (kind : CanErrKind) (where_ : CanField) (data : Bool)
    (s : State) : Res := .next (s.onBlk (canTxError c slot e kind where_ data))
def execCanRxError (c : Fin 6) (e : CanErr) (kind : CanErrKind) (data : Bool) (s : State) : Res :=
  .next (s.onBlk (canRxError c e kind data))
def execBoffDelayExpiry (c : Fin 6) (s : State) : Res := .next (s.onBlk (boffDelayExpiry c))
def execBusOffRecovered (c : Fin 6) (s : State) : Res := .next (s.onBlk (busOffRecovered c))
def execCanCmdRestart (c : Fin 6) (s : State) : Res := .next (s.onBlk (canCmdRestart c))
def execCanCmdRearm (c : Fin 6) (s : State) : Res := .next (s.onBlk (canCmdRearm c))
def execCanGet (r : Req) (s : State) : Res := .next (s.onBlk (canGet r))

end Sys2Proof.Machine
end

