-- ==== Sys2Proof/Machine/Switch.lean ====
section
/-! DEFINITION. The Ethernet switch (R284 to R311): classification, forwarding, the cell buffer, colours and
early drop, gate lists, redundancy, counters, PHY access, and the meanings of the switch family. -/

namespace Sys2Proof.Machine
open Sys2Proof

/-- SRC of a switch port and of the core (R311). -/
def srcPort (p : Fin 13) : BitVec 16 := srcOf 5 p.val
def srcSw : BitVec 16 := srcOf 5 0xFF
def Blk.port (b : Blk) (p : Fin 13) : Port := b.sw.ports.get p
/-- A record of a port. -/
def Blk.pev (b : Blk) (p : Fin 13) (code sev arg : Nat) (who : Byte := hw) (pin : Bool := false) : Blk :=
  b.ev (srcPort p) code sev (arg32 arg) who pin

/-! ### Registers (R308 to R310) -/

def Port.pvid (x : Port) : Nat := bits x.cfg 11 0
def Port.defPcp (x : Port) : Nat := bits x.cfg 14 12
def Port.enabled (x : Port) : Bool := bit x.cfg 15
def Port.untaggedOk (x : Port) : Bool := bit x.cfg 16
def Port.colourAware (x : Port) : Bool := bit x.cfg 17
def Port.msRequired (x : Port) : Bool := bit x.cfg 18
def Port.cbActive (x : Port) : Bool := bit x.cfg 19
/-- The traffic class of a PCP. -/
def Port.tcOf (x : Port) (pcp : Nat) : Fin 8 := ⟨bits x.pcpMap (3 * pcp + 2) (3 * pcp) % 8, Nat.mod_lt _ (by decide)⟩
def Port.gmin (x : Port) (c : Fin 8) : Nat := bits (x.qcfg.get c) 11 0
def Port.alphaK (x : Port) (c : Fin 8) : Nat := bits (x.qcfg.get c) 14 12
/-- The meter of a traffic class; 0xFF for none. -/
def Port.meterOf (x : Port) (c : Fin 8) : Nat :=
  if c.val < 4 then bits x.mtr0 (8 * c.val + 7) (8 * c.val) else bits x.mtr1 (8 * (c.val - 4) + 7) (8 * (c.val - 4))
def Port.gclOn (x : Port) : Bool := bit x.gclCtrl 0
def Port.cycleBreaths (x : Port) : Nat := bits x.gclCtrl 7 1
def Port.standbyGates (x : Port) : Byte := BitVec.ofNat 8 (bits x.gclCtrl 23 16)

/-- Whether the variant has the port (R286). -/
def Blk.hasPort (b : Blk) (p : Fin 13) : Bool := b.full || decide (2 ≤ p.val)

/-- The rate of a port in Mbit/s (R284). -/
def portRate (p : Fin 13) : Nat :=
  if p.val < 2 ∨ p.val = 11 then 10000 else if p.val < 6 ∨ p.val = 12 then 1000 else if p.val < 10 then 100 else 10

/-- A port counter of R306 advanced. -/
def Blk.count (b : Blk) (p : Fin 13) (j : Fin 10) (n : Nat) : Blk :=
  b.modPort p fun x => { x with counters := vmod x.counters j (· + n) }

/-- A VLAN's word (R310). -/
def Blk.vlan (b : Blk) (v : Nat) : Word := if v = 0 ∨ v = 4095 then 0 else (findKey b.sw.vlans v).getD 0
/-- The program or the Chanter that owns a VLAN, and its internal port (R289). -/
def vlanOwner (w : Word) : Option Initiator :=
  let o := bits w 29 26
  if h : o < 8 then some (.tenant ⟨o, h⟩) else if o = 8 then some .safety else if o = 9 then some .chanter else none
def ownerPort : Initiator → Fin 13
  | .tenant _ => 11
  | _ => 12
/-- Whether a port is a member: on the internal side only the owner's virtual interface is (R289). -/
def isMember (w : Word) (p : Fin 13) : Bool :=
  bit w p.val && (decide (p.val < 11) || (match vlanOwner w with | some i => decide (ownerPort i = p) | none => false))

/-- The queue between a program's virtual interface and the switch engine (R289). -/
def Blk.swQueue (b : Blk) (i : Initiator) : Option (Fin 256) :=
  (upTo 256).find? fun q =>
    let x := b.queues.get q
    x.enabled && decide (x.prodEngine = 1 ∧ x.consumer = i.id)

/-! ### MACsec (R303) -/

/-- Whether a port uses MACsec: it requires it, or an SA is installed. -/
def Blk.msUsed (b : Blk) (p : Fin 13) : Bool := decide (p.val < 2) && ((b.port p).msRequired || (b.port p).msSa)
/-- Whether the port carries traffic that is not MKA or gPTP. -/
def Blk.ctlOpen (b : Blk) (p : Fin 13) : Bool := !b.msUsed p || (b.port p).msUp
/-- EtherTypes of the uncontrolled port: MKA and gPTP. -/
def uncontrolled (t : BitVec 16) : Bool := t = 0x888E || t = 0x88F7

/-- Whether the Chanter can run MKA on a port: the keys are available and a CAK is installed that grants the port's engine (R409). -/
def Blk.mkaReady (b : Blk) (p : Fin 13) : Bool :=
  b.full && decide (p.val < 2) && (b.port p).link && b.keysReady
    && (upTo 64).any fun n => let s := b.sec.slots.get n; s.used && decide (s.type = ktCak) && s.grant.testBit (9 + p.val)

/-- The controlled port of P0 and P1 after a change of link or keys: with the keys unavailable or locked it goes
down; MKA brings it up where it can run. DESIGN CHOICE, log entry 21: the partner answers. -/
def Blk.macsecRefresh (b0 : Blk) : Blk :=
  ([0, 1] : List (Fin 13)).foldl (fun b p =>
    let x := b.port p
    if x.msUp ∧ b.keysReady = false then
      (b.modPort p fun x => { x with msUp := false, msSa := false }).pev p 7 3 1 (pin := true)
    else if x.msUp = false ∧ b.mkaReady p then b.modPort p fun x => { x with msUp := true, msSa := true }
    else b) b0

/-- MKA_LOST (R303): MKA with the partner is lost (3), or no SA remains (2). -/
def mkaLost (p : Fin 2) (reason : BitVec 2) (b : Blk) : Blk :=
  let q : Fin 13 := ⟨p.val, by omega⟩
  if (b.port q).msUp = false then b
  else (b.modPort q fun x => { x with msUp := false, msSa := false }).pev q 7 3 (if reason = 2 then 2 else 3) (pin := true)

/-! ### The cell buffer (R293 to R296) -/

/-- Cells of the buffer, and cells of a frame. -/
def bufferCells : Nat := 32768
def QFrame.cells (q : QFrame) : Nat := ceilDiv q.f.size 128

/-- Cells and frames an egress queue holds, the frame in transmission included. -/
def Port.inQueue (x : Port) (c : Fin 8) : List QFrame :=
  x.queues.get c ++ (match x.sending with | some (q, d, _) => if d = c then [q] else [] | none => [])
def Port.cellsOf (x : Port) (c : Fin 8) : Nat := (x.inQueue c).foldl (fun n q => n + q.cells) 0

/-- The shared pool S. -/
def Blk.sharedPool (b : Blk) : Nat :=
  bufferCells - b.sw.ports.toList.foldl (fun n x => n + x.qcfg.toList.foldl (fun m w => m + bits w 11 0) 0) 0

/-- Cells of a frame beyond the free guarantee of a queue (R293). -/
def Port.sharedNeed (x : Port) (c : Fin 8) (n : Nat) : Nat := n - (x.gmin c - x.cellsOf c)

/-- Whether R293 accepts a frame of `n` cells. -/
def Blk.roomFor (b : Blk) (p : Fin 13) (c : Fin 8) (n : Nat) : Bool :=
  let x := b.port p
  let need := x.sharedNeed c n
  need = 0 || decide (((x.cellsOf c - x.gmin c) + need) * 16 ≤ 2 ^ x.alphaK c * (b.sharedPool - b.sw.sharedUsed))

/-- The verdict of an egress queue on a frame, judged on the occupancy `b` at the start of the cycle; early drop is
judged before the threshold. -/
inductive Verdict where
  | accept | red | buf
  deriving DecidableEq, Repr

/-- The probability of an early drop (R298). -/
def redProb (w w2 : Word) (a : Rat) : Rat :=
  let lo : Rat := bits w 15 0
  let hi : Rat := bits w 31 16
  if a < lo then 0 else if hi ≤ a then 1 else (bits w2 7 0 : Rat) / 256 * (a - lo) / (hi - lo)

/-- One queue's judgement: its verdict, its new average, the LFSR after the draw. -/
def Blk.judge (b : Blk) (p : Fin 13) (c : Fin 8) (colour n : Nat) (lfsr : Word) : Verdict × Rat × Word :=
  let x := b.port p
  let prof := b.sw.red.get ⟨(3 * c.val + colour) % 24, Nat.mod_lt _ (by decide)⟩
  let a0 := x.avg.get c
  let a := a0 + ((x.cellsOf c : Rat) - a0) / ((2 ^ bits prof.2 11 8 : Nat) : Rat)
  let r := Config.lfsrNext lfsr
  if bit prof.2 12 ∧ (r.toNat : Rat) / 4294967296 < redProb prof.1 prof.2 a then (.red, a, r)
  else if b.roomFor p c n then (.accept, a, if bit prof.2 12 then r else lfsr)
  else (.buf, a, if bit prof.2 12 then r else lfsr)

/-- A copy of a frame has left or was dropped: with the last one its cells return (R295). -/
def Blk.freeCopy (b : Blk) (ref : Nat) : Blk :=
  match b.sw.refs.find? (fun r => r.1 = ref) with
  | none => b
  | some (_, cells, sh, n) =>
    let others := b.sw.refs.filter (fun r => r.1 ≠ ref)
    if n ≤ 1 then b.onSw fun w => { w with refs := others, used := w.used - cells, sharedUsed := w.sharedUsed - sh }
    else b.onSw fun w => { w with refs := (ref, cells, sh, n - 1) :: others }

/-- A frame stored once and queued at every egress queue that accepts it (R295). -/
def Blk.enqueueFrame (b : Blk) (outs : List (Fin 13)) (c : Fin 8) (q0 : QFrame) (copy : Fin 13 → QFrame → QFrame) : Blk :=
  let n := q0.cells
  let ref := b.sw.nextRef
  let step := fun (acc : Blk × List (Fin 13) × Nat) (p : Fin 13) =>
    let j := b.judge p c q0.colour n acc.1.sw.lfsr
    let b1 := (acc.1.onSw fun w => { w with lfsr := j.2.2 }).modPort p fun x => { x with avg := vmod x.avg c (fun _ => j.2.1) }
    match j.1 with
    | .red => (b1.count p 7 1, acc.2)
    | .buf =>
      let b2 := if b.sharedPool - b.sw.sharedUsed < (b.port p).sharedNeed c n
        then b1.onSw fun w => { w with sticky := orBits w.sticky 2 } else b1
      (b2.count p 6 1, acc.2)
    | .accept =>
      (b1.modPort p fun x => { x with queues := vmod x.queues c (· ++ [copy p { q0 with ref := ref }]) },
        acc.2.1 ++ [p], max acc.2.2 ((b.port p).sharedNeed c n))
  let r := outs.foldl step (b, [], 0)
  if r.2.1.isEmpty then r.1
  else r.1.onSw fun w =>
    let used := w.used + n
    { w with nextRef := ref + 1, refs := (ref, n, r.2.2, r.2.1.length) :: w.refs, used := used,
             minFree := min w.minFree (bufferCells - used), sharedUsed := w.sharedUsed + r.2.2 }

/-! ### Meters (R297) -/

/-- A bucket of a meter in 10^-9 bytes, filled for `ns` nanoseconds. -/
def fillBucket (cur rate size ns : Nat) : Nat := min (cur + ns * (rate * 8000)) (size * 1000000000)

/-- The meter after its fill up to now. -/
def Meter.fill (x : Meter) (now : BitVec 64) : Meter :=
  let ns := now.toNat - x.dt.toNat
  { x with c := fillBucket x.c (bits x.cir 17 0) (bits x.cbs 19 0) ns,
           e := fillBucket x.e (bits x.eir 17 0) (bits x.ebs 19 0) ns, dt := now }

/-- The colour of a frame of `size` bytes and the meter after it. -/
def Meter.colour (x : Meter) (aware yellow : Bool) (size : Nat) : Nat × Meter :=
  let n := size * 1000000000
  if (aware = false ∨ yellow = false) ∧ n ≤ x.c then (0, { x with c := x.c - n })
  else if n ≤ x.e then (1, { x with e := x.e - n })
  else (2, x)

/-- The colour of a frame at ingress, and whether its meter drops it. -/
def Blk.meterFrame (b : Blk) (p : Fin 13) (c : Fin 8) (dei : Bool) (size : Nat) : Nat × Bool × Blk :=
  let x := b.port p
  let yellow := x.colourAware && dei
  match findKey b.sw.meters (x.meterOf c) with
  | none => (b2n yellow, false, b)
  | some m =>
    let r := (m.fill b.time.dt).colour x.colourAware yellow size
    (r.1, decide (r.1 = 2) && bit m.cir 31, b.onSw fun w => { w with meters := setKey w.meters (x.meterOf c) r.2 })

/-! ### Learning and forwarding (R291) -/

def fdbSize : Nat := 16384
def isGroup (m : BitVec 48) : Bool := m.getLsbD 40
/-- 01-80-C2-00-00-00 to 01-80-C2-00-00-0F. -/
def isReserved (m : BitVec 48) : Bool := m.toNat / 16 = 0x0180C2000000 / 16
def Switch.lookup (w : Switch) (m : BitVec 48) (v : Nat) : Option Fdb := w.fdb.find? (fun e => e.mac = m && e.vid = v)

/-- FDB_FULL at most once per second. -/
def Blk.notLearned (b : Blk) : Blk :=
  let n := b.sw.fdbFullNew + 1
  let due : Bool := match b.sw.fdbFullDt with | some t => decide (1000000000 ≤ b.since t) | none => true
  let b1 := b.onSw fun w => { w with sticky := orBits w.sticky 1, fdbFullNew := if due then 0 else n,
                                     fdbFullDt := if due then some b.time.dt else w.fdbFullDt }
  if due then b1.ev srcSw 3 2 (arg32 n) else b1

/-- The port of an entry. -/
def Fdb.port (e : Fdb) : Nat := ((List.range 13).find? (fun p => e.mask.testBit p)).getD 0

/-- The source address of a valid frame learned. -/
def Blk.learn (b : Blk) (p : Fin 13) (m : BitVec 48) (v : Nat) : Blk :=
  if isGroup m then b
  else
    let e : Fdb := { mac := m, vid := v, stat := false, mask := 2 ^ p.val, seen := b.time.dt }
    match b.sw.lookup m v with
    | none => if b.sw.fdb.length < fdbSize then b.onSw fun w => { w with fdb := w.fdb ++ [e] } else b.notLearned
    | some o =>
      if o.stat = false then
        b.onSw fun w => { w with fdb := w.fdb.map fun (x : Fdb) => if x.mac = m ∧ x.vid = v then e else x }
      else if o.mask.testBit p.val then b
      else
        let b1 := b.onSw fun w => { w with sticky := orBits w.sticky 8 }
        let due : Bool := match b.sw.staticMoveDt with | some t => decide (1000000000 ≤ b.since t) | none => true
        if due then (b1.onSw fun w => { w with staticMoveDt := some b.time.dt }).pev p 4 2 (v + o.port * 4096) else b1

/-- The egress ports of a frame. -/
def Blk.egress (b : Blk) (p : Fin 13) (m : BitVec 48) (v : Nat) : List (Fin 13) :=
  let w := b.vlan v
  (upTo 13).filter fun q =>
    isMember w q && decide (q ≠ p) && (b.port q).link && (b.port q).enabled && b.ctlOpen q &&
      (match b.sw.lookup m v with | some e => e.mask.testBit q.val | none => true)

/-! ### Redundancy (R302) -/

/-- The stream of a frame. -/
def Blk.streamOf (b : Blk) (m : BitVec 48) (v : Nat) : Option (Fin 64) :=
  (upTo 64).find? fun s =>
    let x := b.sw.frer.get s
    bit x.cfg 12 && decide (bits x.cfg 11 0 = v) && decide (bits x.daHi 15 0 * 2 ^ 32 + x.daLo.toNat = m.toNat)

def Blk.modFrer (b : Blk) (s : Fin 64) (f : Frer → Frer) : Blk := b.onSw fun w => { w with frer := vmod w.frer s f }

/-- Sequence recovery with the vector recovery algorithm and a history of 32: whether the frame passes. -/
def Frer.recover (x : Frer) (n : BitVec 16) (now : BitVec 64) : Bool × Frer :=
  let y := { x with last := now }
  match x.recSeq with
  | none => (true, { y with recSeq := some n, hist := [n] })
  | some r =>
    let d : Int := (n - r).toInt
    if 32 ≤ d ∨ d ≤ -32 then (false, { y with rogues := satInc x.rogues 0xFFFF })
    else if n ∈ x.hist then (false, { y with dups := satInc x.dups 0xFFFF })
    else if d ≤ 0 then (true, { y with hist := n :: x.hist })
    else (true, { y with recSeq := some n, hist := n :: x.hist.filter (fun h => decide (((n - h).toInt : Int) < 32)) })

/-- Recovery of a frame from P0 or P1: whether it goes on, and the frame without its R-tag. -/
def Blk.frerIn (b : Blk) (p : Fin 13) (f : EthFrame) (v : Nat) : Option (EthFrame × Bool) × Blk :=
  if 2 ≤ p.val ∨ (b.port p).cbActive = false then (some (f, false), b)
  else match b.streamOf f.dst v, f.seqNo with
    | some s, some n =>
      if bit (b.sw.frer.get s).cfg 14 = false then (some (f, false), b)
      else
        let r := (b.sw.frer.get s).recover n b.time.dt
        (if r.1 then some ({ f with seqNo := none, size := f.size - 6 }, true) else none, b.modFrer s fun _ => r.2)
    | _, _ => (some (f, false), b)

/-- Sequence generation for frames that leave through P0 and P1: one number for both copies. -/
def Blk.frerOut (b : Blk) (outs : List (Fin 13)) (f : EthFrame) (v : Nat) : Option (BitVec 16) × Blk :=
  match b.streamOf f.dst v with
  | some s =>
    let x := b.sw.frer.get s
    if bit x.cfg 13 ∧ outs.any (fun q => decide (q.val < 2) && (b.port q).cbActive) then
      (some x.genSeq, b.modFrer s fun y => { y with genSeq := y.genSeq + 1 })
    else (none, b)
  | none => (none, b)

/-- FRER_TIMEOUT (R302): no frame of the stream within its reset timeout; recovery starts afresh. -/
def frerTimeout (s : Fin 64) (p : Fin 13) (b : Blk) : Blk :=
  let x := b.sw.frer.get s
  if bit x.cfg 12 = false ∨ bit x.cfg 14 = false then b
  else (b.modFrer s fun y => { y with recSeq := none, hist := [], last := b.time.dt }).pev p 6 2 s.val

/-! ### Stamps (R305) -/

/-- FRAME_STAMPED for every filter that a frame matches, at most one per filter and microsecond. -/
def Blk.stampFrame (b : Blk) (p : Fin 13) (v : Nat) (f : EthFrame) (stamp : BitVec 64) : Blk :=
  (upTo 16).foldl (fun b k =>
    let w := b.sw.stamps.get k
    let hit := bit w.1 13 && bit w.1 p.val && (!bit w.1 14 || decide (bits w.1 27 16 = v))
      && (!bit w.1 15 || decide (bits w.2 15 0 = f.etype.toNat))
    let soon : Bool := match findKey b.sw.stampDt k with
      | some t => decide (stamp.toNat < t.toNat + 1000)
      | none => false
    if hit ∧ soon = false then
      let r := b.capture (srcPort p) 5 0 (arg32 (v + k.val * 4096 + f.size % 65536 * 65536)) hw 0 false
      (b.onSw fun w => { w with stampDt := setKey w.stampDt k stamp }).offer { r with dt := stamp }
    else b) b

/-! ### Frames in (R285, R288, R289) -/

/-- The VID, PCP, DEI and whether it is tagged, as R288 step 1 takes them; none for a drop. -/
def Port.classify (x : Port) (f : EthFrame) : Option (Nat × Nat × Bool × Bool) :=
  match f.tag with
  | some (pcp, dei, vid) => some (if vid = 0 then x.pvid else vid.toNat, pcp.toNat, dei, true)
  | none => if x.untaggedOk then some (x.pvid, x.defPcp, false, false) else none

/-- A classified frame: recovered, metered, learned, forwarded and accepted. -/
def Blk.switchFrame (b : Blk) (p : Fin 13) (f0 : EthFrame) (v pcp : Nat) (c : Fin 8) (dei tagged verified : Bool)
    (stamp : BitVec 64) (report : Option (Initiator × Byte)) : Blk :=
  match b.frerIn p f0 v with
  | (none, b1) => b1
  | (some (f, recovered), b1) =>
    let m := b1.meterFrame p c dei f0.size
    if m.2.1 then m.2.2.count p 7 1
    else
      let b2 := m.2.2.learn p f.src v
      let outs := b2.egress p f.dst v
      let g := b2.frerOut outs f v
      let q : QFrame :=
        { ref := 0, f := f, vid := v, pcp := pcp, dei := dei, colour := m.1, since := b.time.dt, stamp := stamp,
          inPort := p.val, tagged := tagged, verified := verified, recovered := recovered, report := report }
      let copy := fun (o : Fin 13) (q : QFrame) =>
        if o.val < 2 ∧ (g.2.port o).cbActive ∧ g.1.isSome then { q with f := { q.f with seqNo := g.1 } } else q
      g.2.enqueueFrame outs c q copy

/-- FRAME_RECEIVED (R285, R288): a frame wholly received on an external port, with its ingress timestamp. -/
def frameReceived (p : Fin 13) (f : EthFrame) (stamp : BitVec 64) (b : Blk) : Blk :=
  let x := b.port p
  if 11 ≤ p.val ∨ b.hasPort p = false ∨ b.sw.running = false ∨ x.link = false ∨ x.enabled = false then b
  else if f.fcsOk = false ∨ f.size < 64 ∨ 2000 < f.size then b.count p 4 1
  else
    let b1 := (b.count p 0 1).count p 1 f.size
    let plain := !b.msUsed p || uncontrolled f.etype
    let valid := decide (f.macsecOk = some true)
    let bad := !plain && !valid && decide (x.msMode ≠ 2)
    let b2 := if plain then b1
      else if valid then b1.modPort p fun y => { y with msOk := satInc y.msOk 0xFFFFFFFF }
      else if bad then b1.modPort p fun y => { y with msBad := satInc y.msBad 0xFFFFFFFF }
      else b1
    if !plain && !x.msUp then b1
    else if bad && decide (x.msMode = 0) then b2
    else
      match x.classify f with
      | none => b2.count p 5 1
      | some (v, pcp, dei, tagged) =>
        let b3 := b2.stampFrame p v f stamp
        if isReserved f.dst then b3
        else if bit (b3.vlan v) 31 = false ∨ isMember (b3.vlan v) p = false then b3.count p 5 1
        else b3.switchFrame p f v pcp (x.tcOf pcp) dei tagged (!plain && valid) stamp none

/-- A number as bytes in network order. -/
def beBytesN (n x : Nat) : List Byte := (leBytes n x).reverse
def ofBe (l : List Byte) : Nat := ofLe l.reverse

/-- FRAME_FROM_PROGRAM (R289, R290): the next message of a program's transmit queue. -/
def frameFromProgram (q : Fin 256) (b : Blk) : Blk :=
  let x := b.queues.get q
  if b.sw.running = false ∨ x.enabled = false ∨ x.consEngine ≠ 1 then b
  else match b.visible x, Initiator.ofId x.producer with
    | msg :: _, some i =>
      let l := bytesOf msg.words
      let p := ownerPort i
      let n := leAt l 8 2
      let v := leAt l 12 2 % 4096
      let fr := slice l 16 n
      let b1 := b.popMsg q
      let w := b1.vlan v
      if bit w 31 = false ∨ vlanOwner w ≠ some i then
        let b2 := b1.count p 9 1
        if i ∈ b.breath.vlanDenied then b2
        else (b2.onBre fun r => { r with vlanDenied := i :: r.vlanDenied }).pev p 8 2 v (idByte i)
      else if n < 60 ∨ 1996 < n ∨ l.length < 16 + n then b1.count p 4 1
      else
        let f : EthFrame :=
          { dst := BitVec.ofNat 48 (ofBe (slice fr 0 6)), src := BitVec.ofNat 48 (ofBe (slice fr 6 6)), tag := none,
            etype := BitVec.ofNat 16 (ofBe (slice fr 12 2)), size := n + 4, fcsOk := true, seqNo := none,
            macsecOk := none, data := fr.drop 14 }
        let c : Fin 8 := ⟨(byteAt l 11).toNat % 8, Nat.mod_lt _ (by decide)⟩
        let rep := if (byteAt l 14).toNat.testBit 0 then some (i, byteAt l 15) else none
        let b2 := ((b1.count p 0 1).count p 1 f.size).stampFrame p v f b.time.dt
        if isReserved f.dst then b2
        else if isMember w p = false then b2.count p 5 1
        else b2.switchFrame p f v (leAt l 12 2 / 4096 % 8) c false false false b.time.dt rep
    | _, _ => b

/-! ### Gate lists (R299 to R301) -/

/-- The cycle of a gate list in ns. -/
def Blk.gateCycle (b : Blk) (x : Port) : Nat := x.cycleBreaths * b.breath.len * 1000

/-- Whether the gate list of a port acts: enabled, the breath running and not in STANDBY. -/
def Blk.gatesRun (b : Blk) (x : Port) : Bool :=
  x.gclOn && !x.gcl.isEmpty && b.breath.running && decide (b.rcc.mode ≠ .standby)

/-- The first multiple of a cycle after an instant. -/
def nextCycle (now cycle : Nat) : BitVec 64 := BitVec.ofNat 64 (if cycle = 0 then now else (now / cycle + 1) * cycle)

/-- The gates of a port while its list does not run, and when a list is applied: it starts with the last entry held. -/
def Blk.gateIdle (b : Blk) (p : Fin 13) : Blk :=
  b.modPort p fun x =>
    if x.gclOn ∧ b.breath.running ∧ b.rcc.mode = .standby then { x with gateNow := x.standbyGates, gateEntry := 0 }
    else match b.gatesRun x, x.gcl.getLast? with
      | true, some e =>
        { x with gclWait := true, gateEntry := 0, gateNow := e.1.truncate 8, gateEnd := nextCycle b.time.dt.toNat (b.gateCycle x) }
      | _, _ => { x with gateNow := 0xFF, gateEntry := 0, gclWait := false }

/-- Every port's gates after a change of mode or of the breath's running. -/
def Blk.gatesIdle (b : Blk) : Blk := (upTo 11).foldl (fun b p => b.gateIdle ⟨p.val, by omega⟩) b

/-- At a tick: a cycle starts at every tick whose DT is a whole multiple of the cycle (R299). -/
def Blk.gateTick (b : Blk) : Blk :=
  (upTo 11).foldl (fun b p =>
    let q : Fin 13 := ⟨p.val, by omega⟩
    let x := b.port q
    let cyc := b.gateCycle x
    match b.gatesRun x, x.gcl with
    | true, e :: _ =>
      if cyc ≠ 0 ∧ b.breath.tickDt.toNat % cyc = 0 then
        b.modPort q fun x => { x with gclWait := false, gateEntry := 0, gateNow := e.1.truncate 8,
                                      gateEnd := b.breath.tickDt + e.2.zeroExtend 64 }
      else b
    | _, _ => b) b

/-- GCL_ENTRY_EXPIRY (R299): the next entry's gates apply; after the last one its state holds. -/
def gclEntryExpiry (p : Fin 13) (b : Blk) : Blk :=
  let x := b.port p
  if b.gatesRun x = false ∨ x.gclWait then b
  else match x.gcl[x.gateEntry + 1]? with
    | some e => b.modPort p fun x => { x with gateEntry := x.gateEntry + 1, gateNow := e.1.truncate 8,
                                              gateEnd := x.gateEnd + e.2.zeroExtend 64 }
    | none => b

/-- When the gate of a class next closes, seen from the entry at `i` that ends at `t`: the first following entry, the list
taken round once, that closes it. -/
def closesAt (gcl : List (Word × Word)) (c : Nat) : Nat → Nat → Nat → Option Nat
  | 0, _, _ => none
  | fuel + 1, i, t =>
    match gcl[i % max gcl.length 1]? with
    | none => none
    | some e => if bit e.1 c then closesAt gcl c fuel (i + 1) (t + e.2.toNat) else some t

/-- Whether a frame of a class may start now: its gate is open and stays open until its end (R300). -/
def Blk.gateAllows (b : Blk) (p : Fin 13) (c : Fin 8) (size : Nat) : Bool :=
  let x := b.port p
  let ends := b.time.dt.toNat + (size + 20) * 8 * 1000 / portRate p
  x.gateNow.toNat.testBit c.val &&
    (if b.gatesRun x then
      let first := if x.gclWait then 0 else x.gateEntry + 1
      match closesAt x.gcl c.val x.gcl.length first x.gateEnd.toNat with
      | some t => decide (ends ≤ t)
      | none => true
    else true)

/-! ### Frames out (R290, R296, R300) -/

/-- Whether a frame leaves a port with its tag. -/
def Blk.leavesTagged (b : Blk) (p : Fin 13) (q : QFrame) : Bool := !bit (b.vlan q.vid) (13 + p.val)

/-- The length of a copy with its FCS. -/
def Blk.wireSize (b : Blk) (p : Fin 13) (q : QFrame) : Nat :=
  max 64 (q.f.size - (if q.tagged then 4 else 0) + (if b.leavesTagged p q then 4 else 0)
    + (if p.val < 2 ∧ q.f.seqNo.isSome then 6 else 0))

/-- The head of a queue, after what has waited too long there is dropped (R296). -/
def Blk.ageHead (b : Blk) (p : Fin 13) (c : Fin 8) : Blk :=
  let x := b.port p
  let old := (x.queues.get c).takeWhile fun q => decide (bits b.sw.ageMax 9 0 * 1000000 < b.since q.since)
  let b1 := b.modPort p fun y => { y with queues := vmod y.queues c (·.drop old.length) }
  old.foldl (fun b q => b.freeCopy q.ref) (b1.count p 8 old.length)

/-- Whether a class may not start now: a higher class has a frame that may (R287). -/
def Blk.outranked (b : Blk) (p : Fin 13) (c : Fin 8) : Bool :=
  (upTo 8).any fun d => decide (c < d) &&
    (match (b.port p).queues.get d with | q :: _ => b.gateAllows p d (b.wireSize p q) | [] => false)

/-- FRAME_TX_START (R300). -/
def frameTxStart (p : Fin 13) (c : Fin 8) (b0 : Blk) : Blk :=
  let x := b0.port p
  if x.link = false ∨ x.sending.isSome ∨ b0.sw.running = false then b0
  else
    let b := b0.ageHead p c
    match (b.port p).queues.get c with
    | [] => b
    | q :: rest =>
      if b.gateAllows p c (b.wireSize p q) = false ∨ b.outranked p c ∨ b.ctlOpen p = false then b
      else b.modPort p fun y => { y with queues := vmod y.queues c (fun _ => rest), sending := some (q, c, b.time.dt) }

/-- The frame header of a received frame (R290). -/
def QFrame.header (q : QFrame) (n : Nat) (c : Fin 8) : List Byte :=
  leBytes 8 q.stamp.toNat ++ leBytes 2 n ++ [BitVec.ofNat 8 q.inPort, BitVec.ofNat 8 (c.val + 8 * b2n q.dei + 16 * q.colour)]
    ++ leBytes 2 (q.vid + 4096 * q.pcp + 32768 * b2n q.tagged) ++ [BitVec.ofNat 8 (b2n q.verified + 2 * b2n q.recovered), 0]

/-- A frame's bytes from the destination address up to the FCS, as they leave a port. -/
def Blk.frameBytes (b : Blk) (p : Fin 13) (q : QFrame) : List Byte :=
  let tag := if b.leavesTagged p q then
      [0x81, 0x00] ++ beBytesN 2 (q.vid + 4096 * (b2n (q.dei || decide (q.colour = 1))) + 8192 * q.pcp) else []
  padTo (b.wireSize p q - 4) (beBytesN 6 q.f.dst.toNat ++ beBytesN 6 q.f.src.toNat ++ tag ++ beBytesN 2 q.f.etype.toNat ++ q.f.data)

/-- A message of the switch engine on a program's receive queue. -/
def Blk.toProgram (b : Blk) (i : Initiator) (l : List Byte) : Blk :=
  match b.swQueue i with
  | some q => b.engineWrite q (wordsOf 1024 l)
  | none => b

/-- FRAME_TX_DONE (R289, R290, R295): the frame has left; on P11 and P12 it is written to the owner's receive queue. -/
def frameTxDone (p : Fin 13) (b : Blk) : Blk :=
  match (b.port p).sending with
  | none => b
  | some (q, c, dt) =>
    let n := b.wireSize p q
    let b1 := (b.modPort p fun y => { y with sending := none, msOut := if b.msUsed p then satInc y.msOut 0xFFFFFFFF else y.msOut })
    let b2 := ((b1.count p 2 1).count p 3 n).freeCopy q.ref
    let b3 := if p.val < 11 then b2
      else match vlanOwner (b.vlan q.vid) with
        | some i => b2.toProgram i (q.header (n - 4) c ++ b.frameBytes p q)
        | none => b2
    match q.report with
    | some (i, tag) =>
      b3.toProgram i (leBytes 8 dt.toNat ++ [0, 0, BitVec.ofNat 8 p.val, 0, 0, 0, 4, tag])
    | none => b3

/-! ### Links (R284, R296, R311) -/

/-- LINK_UP. -/
def linkUp (p : Fin 13) (mbps : BitVec 16) (b : Blk) : Blk :=
  let x := b.port p
  if 11 ≤ p.val ∨ b.hasPort p = false ∨ b.sw.running = false ∨ b.sw.noSerdes ∨ x.enabled = false ∨ x.link ∨
      mbps.toNat ≠ portRate p then b
  else ((b.modPort p fun x => { x with link := true, mbps := portRate p }).pev p 1 1 (portRate p)).macsecRefresh

/-- A link goes down (R296, R291, R69). -/
def Blk.dropLink (b : Blk) (p : Fin 13) : Blk :=
  let x := b.port p
  let gone := x.queues.toList.flatMap id
  let all := gone ++ (match x.sending with | some (q, _, _) => [q] | none => [])
  let b1 := b.modPort p fun y =>
    { y with link := false, mbps := 0, msUp := false, msSa := false, plca := false, sending := none,
             queues := Vector.replicate 8 [] }
  let b2 := all.foldl (fun b q => b.freeCopy q.ref) (b1.count p 8 all.length)
  let b3 := b2.onSw fun w => { w with fdb := w.fdb.filter (fun e => e.stat || e.mask ≠ 2 ^ p.val) }
  b3.pev p 2 2 all.length

/-- LINK_DOWN. -/
def linkDown (p : Fin 13) (b : Blk) : Blk :=
  if 11 ≤ p.val ∨ (b.port p).link = false then b
  else
    let b1 := b.dropLink p
    if b.time.slavePort = BitVec.ofNat 8 p.val ∧ p.val < 10 ∧ b.time.syncEn then b1.slaveLost else b1

/-- PLCA_CHANGE (R311): on P10. -/
def plcaChange (active : Bool) (nodes : BitVec 4) (b : Blk) : Blk :=
  if (b.port 10).link = false then b
  else (b.modPort 10 fun x => { x with plca := active }).pev 10 0xB 1 (b2n active + nodes.toNat * 256)

/-- The switch core starts: the internal ports are up (R284). -/
def Blk.switchStart (b : Blk) : Blk :=
  (([11, 12] : List (Fin 13)).foldl (fun b p => b.modPort p fun x => { x with link := true, mbps := portRate p })
    (b.onSw fun w => { w with running := true, noSerdes := decide (bits b.rcc.straps 4 3 = 3) })).gatesIdle

/-- SLEEP: the switch and every PHY are off (R286). -/
def Blk.switchStop (b : Blk) : Blk :=
  let down := fun (x : Port) => { x with link := false, mbps := 0, msUp := false, msSa := false, plca := false, sending := none,
                                         queues := Vector.replicate 8 [] }
  b.onSw fun w => { w with running := false, refs := [], used := 0, sharedUsed := 0,
                           fdb := w.fdb.filter (·.stat), ports := w.ports.map down }

/-! ### The database, PHYs and counters (R291, R306 to R308) -/

/-- FDB_AGE_EXPIRY (R291). -/
def fdbAgeExpiry (m : BitVec 48) (v : BitVec 12) (b : Blk) : Blk :=
  b.onSw fun w => { w with fdb := w.fdb.filter (fun e => e.stat || !(decide (e.mac = m ∧ e.vid = v.toNat))) }

/-- An operation started through SW_FDB_CMD (R308): a write while one runs starts nothing. -/
def Blk.fdbStart (b : Blk) (op : Nat) : Blk := if b.sw.busy then b else b.onSw fun w => { w with cmd := op, busy := true }
/-- SW_FDB_LOOKUP, SW_FDB_FLUSH_VID and SW_FDB_FLUSH_ALL. -/
def swFdbLookup (b : Blk) : Blk := b.fdbStart 1
def swFdbFlushVid (b : Blk) : Blk := b.fdbStart 2
def swFdbFlushAll (b : Blk) : Blk := b.fdbStart 3

/-- FDB_OPERATION_DONE (R308). -/
def fdbOperationDone (b : Blk) : Blk :=
  let w := b.sw
  let vid := bits w.macHi 27 16
  if w.busy = false then b
  else if w.cmd = 1 then
    let res : Word := match w.lookup (BitVec.ofNat 48 (w.macLo.toNat + bits w.macHi 15 0 * 2 ^ 32)) vid with
      | some e => mkWord [1, fld (b2n e.stat) 1 1, fld e.port 4 8, fld (if e.stat then 0 else min (b.since e.seen / 1000000000) 4095) 12 16]
      | none => 0
    b.onSw fun w => { w with busy := false, result := res }
  else if w.cmd = 2 then b.onSw fun w => { w with busy := false, fdb := w.fdb.filter (fun e => e.stat || e.vid ≠ vid) }
  else b.onSw fun w => { w with busy := false, fdb := w.fdb.filter (·.stat) }

/-- SW_MDIO_ACCESS (R307): a write of SW_MDIO_DATA; with GO it starts an access. -/
def swMdioAccess (i : Initiator) (w : Word) (b : Blk) : Blk :=
  if i ≠ .chanter then b.denied i 0x400A0044
  else if b.sw.mdioBusy then b
  else b.onSw fun x => { x with mdioData := mkWord [bits w 16 0], mdioBusy := bit w 17 }

/-- MDIO_ACCESS_DONE (R307). A port outside P2 to P10 sets ERR. -/
def mdioAccessDone (data : BitVec 16) (bad : Bool) (b : Blk) : Blk :=
  let p := bits b.sw.mdioAddr 3 0
  let e := bad || decide (p < 2 ∨ 10 < p)
  if b.sw.mdioBusy = false then b
  else b.onSw fun x =>
    { x with mdioBusy := false,
             mdioData := mkWord [if bit x.mdioData 16 ∨ e then bits x.mdioData 16 0 else data.toNat, fld (b2n e) 1 30] }

/-- SW_COUNTER_LO_READ (R306). -/
def swCounterLoRead (i : Initiator) (p : Fin 13) (j : Fin 10) (b : Blk) : Blk :=
  if i ≠ .chanter then b.denied i (arg32 (0x400A1060 + p.val * 0x100 + 8 * j.val))
  else
    let n := (b.port p).counters.get j
    let hi : Word := BitVec.ofNat 32 (n / 2 ^ 32)
    (b.modPort p fun x => { x with latch := (i, j, hi) :: x.latch.filter (fun l => !(decide (l.1 = i ∧ l.2.1 = j))) }).answer (n % 2 ^ 32)

/-- BUFFER_DROP (R306): at most once per second and port. -/
def bufferDrop (p : Fin 13) (b : Blk) : Blk :=
  let x := b.port p
  let total := x.counters.get 6 + x.counters.get 7 + x.counters.get 8
  let due : Bool := match x.dropsDt with | some t => decide (1000000000 ≤ b.since t) | none => true
  if total ≤ x.dropsLogged ∨ due = false then b
  else (b.modPort p fun y => { y with dropsLogged := total, dropsDt := some b.time.dt }).pev p 9 2 (total - x.dropsLogged)

/-! ### The image (R292, R301) -/

/-- A port without a record: its Reset values. -/
def portDefault : PortCfg :=
  { cfg := 0x00018001, pcpMap := 0x00FAC681, qcfg := List.replicate 8 0x4010, mtr0 := 0xFFFFFFFF, mtr1 := 0xFFFFFFFF,
    msMode := 0, gclCtrl := 0x00FF0102, gcl := [] }
/-- A switch without a core record: its Reset values. -/
def switchDefault : SwitchCfg :=
  { fdbAge := 0x12C, ageMax := 0x1F4, stamps := [], red := [], meters := [], frer := [], vlans := [], statics := [] }

/-- One port of a new image. A changed gate list waits for its first cycle-start tick and is logged. -/
def Blk.portConfigure (b : Blk) (p : Fin 13) (g : PortCfg) : Blk :=
  let x := b.port p
  let changed := decide (x.gclCtrl ≠ g.gclCtrl ∨ x.gcl ≠ g.gcl)
  let b1 := b.modPort p fun x =>
    { x with cfg := g.cfg, pcpMap := g.pcpMap, qcfg := Vector.ofFn fun c => g.qcfg.getD c.val 0x4010, mtr0 := g.mtr0,
             mtr1 := g.mtr1, msMode := g.msMode, gclCtrl := g.gclCtrl, gcl := g.gcl }
  let b2 := if changed then b1.gateIdle p else b1
  let b3 := if bit g.cfg 15 = false ∧ x.link ∧ p.val < 11 then b2.dropLink p else b2
  if changed ∧ p.val < 11 ∧ b.hasPort p then b3.pev p 0xA 1 (bits g.gclCtrl 7 1 + bits g.gclCtrl 15 8 * 256) else b3

/-- The core tables of a new image: static entries replaced; dynamic entries kept but where the member set of their VLAN
changed. A new meter starts with full buckets. -/
def Blk.switchConfigure (b : Blk) (g : SwitchCfg) : Blk :=
  let oldMembers := fun (v : Nat) => bits (b.vlan v) 12 0
  let newMembers := fun (v : Nat) => bits ((findKey g.vlans v).getD 0) 12 0
  let stat : List Fdb := g.statics.map fun s =>
    { mac := s.1, vid := s.2.1, stat := true, mask := s.2.2.toNat, seen := b.time.dt }
  let keep := b.sw.fdb.filter fun e =>
    !e.stat && decide (oldMembers e.vid = newMembers e.vid) && !(stat.any fun s => decide (s.mac = e.mac ∧ s.vid = e.vid))
  let meters : List (Nat × Meter) := g.meters.mapIdx fun m r =>
    match findKey b.sw.meters m with
    | some o => if o.cir = r.1 ∧ o.eir = r.2.1 ∧ o.cbs = r.2.2.1 ∧ o.ebs = r.2.2.2 then (m, o)
      else (m, { cir := r.1, eir := r.2.1, cbs := r.2.2.1, ebs := r.2.2.2, c := bits r.2.2.1 19 0 * 1000000000,
                 e := bits r.2.2.2 19 0 * 1000000000, dt := b.time.dt })
    | none => (m, { cir := r.1, eir := r.2.1, cbs := r.2.2.1, ebs := r.2.2.2, c := bits r.2.2.1 19 0 * 1000000000,
                    e := bits r.2.2.2 19 0 * 1000000000, dt := b.time.dt })
  let frer := fun (s : Fin 64) =>
    let o := b.sw.frer.get s
    let r := g.frer.getD s.val (0, 0, 0x00640000)
    if o.cfg = r.1 ∧ o.daLo = r.2.1 ∧ o.daHi = r.2.2 then o
    else { (default : Frer) with cfg := r.1, daLo := r.2.1, daHi := r.2.2, last := b.time.dt }
  b.onSw fun w =>
    { w with fdbAge := g.fdbAge, ageMax := g.ageMax, stamps := Vector.ofFn fun f => g.stamps.getD f.val (0, 0),
             red := Vector.ofFn fun k => g.red.getD k.val (0, 0), meters := meters, frer := Vector.ofFn frer,
             vlans := g.vlans, fdb := stat ++ keep }

/-! ### Meanings -/

def execFrameReceived (p : Fin 13) (f : EthFrame) (stamp : BitVec 64) (s : State) : Res :=
  .next (s.onBlk (frameReceived p f stamp))
def execFrameFromProgram (q : Fin 256) (s : State) : Res := .next (s.onBlk (frameFromProgram q))
def execFrameTxStart (p : Fin 13) (c : Fin 8) (s : State) : Res := .next (s.onBlk (frameTxStart p c))
def execFrameTxDone (p : Fin 13) (s : State) : Res := .next (s.onBlk (frameTxDone p))
def execLinkUp (p : Fin 13) (mbps : BitVec 16) (s : State) : Res := .next (s.onBlk (linkUp p mbps))
def execLinkDown (p : Fin 13) (s : State) : Res := .next (s.onBlk (linkDown p))
def execFdbAgeExpiry (m : BitVec 48) (v : BitVec 12) (s : State) : Res := .next (s.onBlk (fdbAgeExpiry m v))
def execSwFdbLookup (s : State) : Res := .next (s.onBlk swFdbLookup)
def execSwFdbFlushVid (s : State) : Res := .next (s.onBlk swFdbFlushVid)
def execSwFdbFlushAll (s : State) : Res := .next (s.onBlk swFdbFlushAll)
def execSwMdioAccess (i : Initiator) (w : Word) (s : State) : Res := .next (s.onBlk (swMdioAccess i w))
def execGclEntryExpiry (p : Fin 13) (s : State) : Res := .next (s.onBlk (gclEntryExpiry p))
def execFrerTimeout (k : Fin 64) (p : Fin 13) (s : State) : Res := .next (s.onBlk (frerTimeout k p))
def execSwCounterLoRead (i : Initiator) (p : Fin 13) (j : Fin 10) (s : State) : Res :=
  .next (s.onBlk (swCounterLoRead i p j))
def execBufferDrop (p : Fin 13) (s : State) : Res := .next (s.onBlk (bufferDrop p))
def execPlcaChange (active : Bool) (nodes : BitVec 4) (s : State) : Res := .next (s.onBlk (plcaChange active nodes))
def execMkaLost (p : Fin 2) (reason : BitVec 2) (s : State) : Res := .next (s.onBlk (mkaLost p reason))
def execMdioAccessDone (data : BitVec 16) (bad : Bool) (s : State) : Res := .next (s.onBlk (mdioAccessDone data bad))
def execFdbOperationDone (s : State) : Res := .next (s.onBlk fdbOperationDone)

end Sys2Proof.Machine
end

