-- ==== Sys2Proof/Machine/ConfigSvc.lean ====
section
/-! DEFINITION. The configuration service (R246, R247, R262 to R271, R281) and live kernel service (R277 to R279,
R283): loading, verification, the swap of R268 part by part, and the meanings of their rows. -/

namespace Sys2Proof.Machine
open Sys2Proof

/-! ### The kernel part of an image (R268 step K3) -/

/-- The `KERNEL` registers without a record: their Reset values (R127, R176). -/
def kernelDefault : KernelCfg :=
  { holdTime := 0x64, coreHold := 0x64, route := 0, motCfg := 0x1414, di := [], di2 := [], ai := [] }

/-- The `CHANNEL` settings without a record: the Chanter's, with the Reset values of R128 and R158. -/
def chanDefault (c : Fin 40) : ChanCfg :=
  let x := Channel.reset (c.val % 10)
  { owner := .chanter, paired := false, roGrant := 0, cmdGrant := 0, start := (0x3E8, 0, 1),
    regs := [x.actions, x.fallback, x.fallbackPwm, x.openLoadCfg, x.limit, x.limTime, x.inrush, x.retry, x.retryTime,
             x.therm, x.wmCtrl, x.wmRho, x.wmRth, x.wmTau, x.wmLim, x.arcCtrl, x.arcImin] }

/-- One channel's image-set registers. -/
def Channel.configure (ch : Channel) (g : ChanCfg) : Channel :=
  let r := fun i => (g.regs.getD i 0 : Word)
  { ch with owner := g.owner, paired := g.paired, roGrant := g.roGrant, cmdGrant := g.cmdGrant, actions := r 0,
            fallback := r 1, fallbackPwm := r 2, openLoadCfg := r 3, limit := r 4, limTime := r 5, inrush := r 6,
            retry := r 7, retryTime := r 8, therm := r 9, wmCtrl := r 10, wmRho := r 11, wmRth := r 12, wmTau := r 13,
            wmLim := r 14, arcCtrl := r 15, arcImin := r 16 }

/-- The fallback store's contents as the registers stand (R126). -/
def Blk.fbContents (b : Blk) (k : Fin 4) (gen : Nat) : FbStore :=
  let kn := b.kn k
  { gen := gen, holdTime := kn.holdTime, coreHold := kn.coreHold, route := kn.route,
    chans := (chansOf k).map fun c => let ch := b.ch c; (ch.actions, ch.fallback, ch.fallbackPwm) }

/-- The fallback store written, copy A then copy B, when its contents change (R126). -/
def Blk.fbStore (b : Blk) (k : Fin 4) : Blk :=
  let kn := b.kn k
  let same : Bool := match kn.fbBest with
    | some f => decide (b.fbContents k f.gen = f)
    | none => false
  if same then b
  else
    let g := (match kn.fbBest with | some f => f.gen | none => 0) + 1
    let f := b.fbContents k g
    (b.modK k fun x => { x with fbA := some f, fbB := some f, fbGen := g }).kev k (srcK k) 5 1 (arg32 g)

/-- The kernel part of an image applied by one kernel. A kernel that has started since it last held a configuration loads
the start values too (R261), and takes the stored wire state once the parameters are known (R115). -/
def Blk.kernelPart (b : Blk) (k : Fin 4) (im : Image) : Blk :=
  let g := (findKey im.kernels k.val).getD kernelDefault
  let fresh := decide ((b.kn k).configId = 0)
  let now := b.time.dt
  let b1 := b.modK k fun kn =>
    { kn with holdTime := g.holdTime, coreHold := g.coreHold, route := g.route, configId := im.id,
              dis := Vector.ofFn fun d => (kn.dis.get d).configure (g.di.getD d.val 0x0A1002C9) (g.di2.getD d.val 0x708) now,
              ais := Vector.ofFn fun a => { kn.ais.get a with cfg := g.ai.getD a.val 0x0D6B0FA0 } }
  let b2 := if k.val = 0 then b1.onMotion fun m => { m with cfg := g.motCfg } else b1
  let b3 := (chansOf k).foldl (fun b c =>
    let cg := (findKey im.channels c.val).getD (chanDefault c)
    b.modCh c fun ch =>
      let y := ch.configure cg
      if fresh then
        { y with shadow := { y.shadow with pwm := cg.start.1, ramp := cg.start.2.1, slew := cg.start.2.2 },
                 applied := if y.inAction then y.applied
                   else { y.applied with pwm := cg.start.1, ramp := cg.start.2.1, slew := cg.start.2.2 } }
      else y) b2
  let b4 := if (b3.kn k).wireWait then
      (b3.wireRestore k).modK k fun kn => { kn with wireWait := false } else b3
  b4.fbStore k

/-! ### SENSE routing (R110) -/

/-- The channel that the kernels' routing registers name for an output. -/
def Blk.routeWanted (b : Blk) (n : Fin 4) : Option (Fin 40) :=
  (upTo 4).foldl (fun (r : Option (Fin 40)) k =>
    let w := (b.kn k).route
    let l := bits w (8 * n.val + 3) (8 * n.val)
    match r with
    | some c => some c
    | none => if h : l < 10 then (if bit w (8 * n.val + 7) ∧ b.kernelRuns k then some (chanOf k ⟨l, h⟩) else none) else none) none

/-- The routing at a tick: an output whose routing has changed is released, and driven again from 10 µs after the tick. -/
def Blk.reroute (b : Blk) : Blk :=
  (upTo 4).foldl (fun b n =>
    let held := b.senseDrive.get n <|> b.senseNext.get n
    let want := b.routeWanted n
    if held = want then b
    else
      let b1 : Blk := { b with senseDrive := vmod b.senseDrive n (fun _ => none), senseNext := vmod b.senseNext n (fun _ => want) }
      match want, held with
      | none, some c => b1.kev (kOf c) (srcK (kOf c)) 9 1 (arg32 (n.val + 0xFF * 256))
      | _, _ => b1) b

/-! ### The shell part of an image (R268 step S2) -/

/-- A queue number as the registers hold it. -/
def queueNo (n : Nat) : Fin 256 := ⟨n % 256, Nat.mod_lt _ (by decide)⟩

/-- One queue's registers (R270): a new producer or consumer flushes it. -/
def Blk.queueConfigure (b : Blk) (q : Fin 256) (r : Word × Word × Word) : Blk :=
  let x := b.queues.get q
  let parties := fun (w : Word) => w &&& 0x0FF0FFFF
  let moved := decide (parties x.owners ≠ parties r.2.1 ∨ x.enabled ≠ bit r.2.1 19)
  let b1 := if moved ∧ x.enabled then b.flushQueue q else b
  b1.modQ q fun y =>
    { y with limits := r.1, owners := r.2.1, holdCfg := r.2.2,
             holdNow := if moved then bits r.2.2 12 0 else min y.holdNow (bits r.2.2 12 0) }

/-- The queues of an image; a queue without a record is not enabled. -/
def Blk.queuesConfigure (b : Blk) (im : Image) : Blk :=
  (upTo 256).foldl (fun b q => b.queueConfigure q ((findKey im.queues q.val).getD (0, 0, 0))) b

/-- The views of an image. A ring that moves starts empty. -/
def Blk.viewsConfigure (b : Blk) (im : Image) : Blk :=
  (upTo 9).foldl (fun b v =>
    let g := (findKey im.views v.val).getD { base := 0, size := 0, filter := 0 }
    b.onEvs fun e => { e with views := vmod e.views v fun w =>
      if w.base = g.base ∧ w.size = g.size then { w with filter := g.filter }
      else { w with base := g.base, size := g.size, filter := g.filter, wr := 0, wrVis := 0, rd := 0 } }) b

/-- Whether a tenant's partition changes (R270). -/
def TenantCfg.moved (x y : TenantCfg) : Bool :=
  decide (x.granules ≠ y.granules ∨ x.vcpus ≠ y.vcpus ∨ x.free ≠ y.free ∨ x.inboxEven ≠ y.inboxEven
    ∨ x.inboxOdd ≠ y.inboxOdd ∨ x.inboxSize ≠ y.inboxSize)

/-- One tenant's record (R270). `boot` says that no tenant has run yet. -/
def Blk.tenantConfigure (b : Blk) (t : Fin 8) (g : TenantCfg) (boot : Bool) : Blk :=
  let x := b.tn t
  let old := x.cfg
  let shut := decide (x.state = .stopping ∨ x.state = .resetting)
  let live := decide (x.state = .running ∨ x.state = .starting)
  let lost := if old.granules = g.granules then [] else old.granules
  let b1 := b.modT t fun y => { y with cfg := g, extraZero := if shut ∨ live then y.extraZero ++ lost else y.extraZero }
  if boot then b1
  else if old.enabled ∧ g.enabled = false then (if live then b1.assertShut t false 5 else b1)
  else if old.enabled = false ∧ g.enabled then
    (if g.autostart ∧ x.state = .stopped ∧ b.rcc.mode ≠ .limp then b1.beginStart t else b1)
  else if old.enabled ∧ old.moved g ∧ live then b1.assertShut t true 5
  else b1

/-- The `SAFETY` record (R494). -/
def Blk.safetyConfigure (b : Blk) (g : SafetyCfg) (boot : Bool) : Blk :=
  let d := b.dr
  let changed := decide (bits d.ctrl 1 0 ≠ bits g.ctrl 1 0) ||
    (upTo 2).any fun t => decide ((b.task t).entry ≠ g.entry.get t ∨ (b.task t).size ≠ g.size.get t)
  let b1 := b.onDr fun d =>
    { d with present := g.present, ctrl := g.ctrl, window := g.window, chanTask := g.taskOf, queueTask := g.qTaskOf,
             givenUp := d.givenUp && d.present && g.present,
             tasks := Vector.ofFn fun t =>
               { d.tasks.get t with budget := g.budget.get t, entry := g.entry.get t, size := g.size.get t } }
  if boot then b1
  else if d.present ∧ g.present = false then
    (b1.onDr fun d => { d with fbUntilVerified := false }).stopSafety
  else if g.present ∧ (d.present = false ∨ changed) then b1.safetyReset 6
  else b1

/-- The safety registers without a record: their Reset values (R371). -/
def safetyDefault : SafetyCfg := { (default : SafetyCfg) with ctrl := 0x3300, window := 0xA }

/-- The time base registers (R90). -/
def Blk.timeConfigure (b : Blk) (w : List Word) : Blk :=
  let r := fun i => (w.getD i 0 : Word)
  b.onTb fun t => { t with ctrl := r 0, rate := r 1, rateNow := if t.rate = r 1 then t.rateNow else clampRate (sint (r 1)),
                           stepThresh := r 2, slewMax := r 3, holdover := r 4, domain := r 5, prio := r 6, syncInt := r 7 }

/-- The Reset values of the time base (R90). -/
def timeDefault : List Word := [0, 0, 0xF4240, 0x1F4, 0x2710, 0, 0x00F8F8F8, 0xFD]

/-- Networks and the switch: only what changes is touched (R292, R301, R328). -/
def Blk.networksConfigure (b : Blk) (old : Option Image) (im : Image) : Blk :=
  let canOf := fun (i : Image) (c : Fin 6) => (findKey i.cans c.val).getD canDefault
  let b1 := (upTo 6).foldl (fun b c =>
    let same : Bool := match old with | some o => decide (canOf o c = canOf im c) | none => false
    if same then b else b.canConfigure c (canOf im c)) b
  let portOf := fun (i : Image) (p : Fin 13) => (findKey i.ports p.val).getD portDefault
  let b2 := (upTo 13).foldl (fun b p =>
    let same : Bool := match old with | some o => decide (portOf o p = portOf im p) | none => false
    if same then b else b.portConfigure p (portOf im p)) b1
  let sw := fun (i : Image) => i.switch.getD switchDefault
  let same : Bool := match old with | some o => decide (sw o = sw im) | none => false
  let b3 := if same then b2 else b2.switchConfigure (sw im)
  let g := im.nmGlobal.getD (0xF0, 0x003F0A01, 0)
  ({ b3 with nmg := { b3.nmg with maxAwake := g.1, wakeOut := g.2.1, timerWake := g.2.2 } }).wakeOutNow

/-- The image becomes the active one, with every register of the shell that it sets. -/
def Blk.shellPart (b : Blk) (old : Option Image) (im : Image) (boot : Bool) : Blk :=
  let free := im.tenants.foldl (fun n t => n + if t.2.free then 2 ^ t.1 else 0) 0
  let b1 := b.onBre fun r =>
    { r with len := im.breathLen, guard := im.guard, ovrLimit := im.ovrLimit, cmdMax := im.cmdMax, recCtrl := im.recCtrl,
             modeSel := BitVec.ofNat 8 free }
  let b2 := (b1.queuesConfigure im).viewsConfigure im
  let b3 := (upTo 8).foldl (fun b t => b.tenantConfigure t ((findKey im.tenants t.val).getD default) boot) b2
  let b4 := b3.safetyConfigure (if im.safety.present then im.safety else safetyDefault) boot
  let fq := fun (n : Fin 10) =>
    if n.val < 8 then ((findKey im.tenants n.val).map fun t => queueNo t.faultQ)
    else if n.val = 8 then (if im.safety.present then some (queueNo im.safety.faultQ) else none)
    else some (queueNo im.chFaultQ)
  let b5 := forAll 10 (fun b n => b.modSlot n fun s => { s with faultQ := fq n }) b4
  let b6 := b5.timeConfigure (im.timebase.getD timeDefault)
  let lg := im.log.getD (1, 8000, 60)
  let b7 := b6.onEvs fun e => { e with logSev := lg.1, logRate := lg.2.1, sealPeriod := lg.2.2 }
  (b7.networksConfigure old im).onCfg fun c => { c with active := some im, activeId := im.id, gathers := im.gathers }

/-! ### The swap at its tick (R268) -/

/-- Step K3: the kernels that received the swap flag. -/
def Blk.swapKernels (b : Blk) (im : Image) : Blk :=
  (upTo 4).foldl (fun b k =>
    if (b.kn k).gotCommit ∧ (b.kn k).swapFlag ∧ (b.bridges.get k).state = .joined then b.kernelPart k im else b) b

/-- Step S2: the shell part; the old image stays in the other slot. -/
def Blk.swapShell (b : Blk) (im : Image) : Blk :=
  let b1 := b.shellPart b.cfg.active im false
  let b2 := b1.modComp 4 fun c =>
    let new := !b.cfg.activeSlot
    { (c.modSlot b.cfg.activeSlot fun x => { x with state := .previous }).modSlot new (fun x => { x with state := .active }) with
      runB := new }
  b2.onCfg fun c =>
    { c with activeSlot := !c.activeSlot, prevId := some b.cfg.activeId, shadow := .empty, shadowId := 0, loaded := 0,
             swapBn := none, swapImage := none, swapFlag := false }

/-- The payload of `CONFIG_SWAPPED` (R240). -/
def swappedPayload (new old : Word) (bn : BitVec 48) : List Byte :=
  leBytes 4 new.toNat ++ leBytes 4 old.toNat ++ leBytes 8 bn.toNat

/-- What follows in breath T: the journal commit, the record, the completion and the notification. -/
def Blk.swapDone (b : Blk) (old : Word) : Blk :=
  let pay := swappedPayload b.cfg.activeId old b.breath.bn
  let b1 := b.onNvm fun n => n.transact [(jSlot, [BitVec.ofNat 8 (b2n b.cfg.activeSlot)])]
  let b2 := b1.ev srcSys 0x42 2 b.cfg.activeId (pin := true)
  let b3 := match b.cfg.swapDue with
    | some d => (b2.onCfg fun c => { c with swapDue := none }).complete d stOk b.ebn pay
    | none => b2
  b3.notifyAll 0x0380 pay

/-- The image in the other slot stays as it was verified, or as it ran before. -/
def CfgSvc.unschedule (c : CfgSvc) : CfgSvc :=
  { c with swapBn := none, swapImage := none, swapDue := none, swapFlag := false,
           shadow := if c.prevId.isSome then .empty else .verified }

/-- A swap abandoned at the commit deadline (R269); `mask` names the kernels concerned. -/
def Blk.abandonSwap (b : Blk) (mask : Nat) : Blk :=
  let b1 := (b.onCfg CfgSvc.unschedule).ev srcSys 0x43 3 (arg32 mask) (pin := true)
  match b.cfg.swapDue with
  | some d => b1.completeErr d (err stIsolated 1 ((List.range 4).find? (fun k => mask.testBit k) |>.getD 0))
  | none => b1

/-- The swap at the commit deadline of the breath before it (R268, R269): every kernel that takes part is joined and has
confirmed, and the swap flag is set; otherwise the swap is abandoned. -/
def Blk.swapDeadline (b : Blk) : Blk :=
  match b.cfg.swapBn, b.cfg.swapImage with
  | some t, some im =>
    if t ≠ b.breath.bn + 1 then b
    else
      let missing := (upTo 4).filter fun k =>
        match (b.bridges.get k).state with
        | .isolated | .rejoining => true
        | .joined => decide ((b.kn k).confirmed ≠ some im.id)
        | _ => false
      if missing.isEmpty then b.onCfg fun c => { c with swapFlag := true }
      else b.abandonSwap ((missing.map fun k => 2 ^ k.val).foldl (· + ·) 0)
  | _, _ => b

/-- SWAP_KERNEL_STAGING (R268): in breath T - 1 the Chanter writes the kernel parts; `confirmed` names the kernels that
confirm the identifier they hold. -/
def swapKernelStaging (confirmed : BitVec 4) (b : Blk) : Blk :=
  match b.cfg.swapBn, b.cfg.swapImage with
  | some t, some im =>
    if t ≠ b.breath.bn + 1 then b
    else forAll 4 (fun b k =>
      if confirmed.toNat.testBit k.val ∧ (b.bridges.get k).state = .joined then
        b.modK k fun x => { x with confirmed := some im.id }
      else b) b
  | _, _ => b

/-! ### Loading and verification (R246, R247, R263) -/

def cmdCfgInfo : Cmd := { op := 0x301, len := .exactly 0, parts := false, modes := [1, 3, 4, 5, 6, 8], who := anyone }
def cmdCfgLoadBegin : Cmd := { op := 0x302, len := .exactly 72, parts := false, modes := [3, 4, 5], who := hosts }
def cmdCfgLoadData : Cmd := { op := 0x303, len := .within 9 4080, parts := false, modes := [3, 4, 5], who := hosts }
def cmdCfgVerify : Cmd := { op := 0x304, len := .exactly 0, parts := false, modes := [3, 4, 5], who := hosts }
def cmdCfgSwap : Cmd := { op := 0x305, len := .exactly 16, parts := false, modes := [3, 4, 5], who := hosts }
def cmdCfgCancel : Cmd := { op := 0x306, len := .exactly 0, parts := false, modes := [3, 4, 5], who := hosts }

def Shadow.code : Shadow → Nat
  | .empty => 0 | .loading => 1 | .loaded => 2 | .verifying => 3 | .verified => 4 | .failed => 5 | .scheduled => 6

/-- The slot that is not active, as a place in the code region (R262). -/
def Blk.shadowBase (b : Blk) : Nat := slotBase cConfig (!b.cfg.activeSlot)

/-- CFG_INFO (R246). -/
def cfgInfo (r : Req) (b : Blk) : Blk :=
  serve cmdCfgInfo r noAbsent noGrant (fun b _ _ =>
    let c := b.cfg
    b.ok 0x301 r (leBytes 4 c.activeId.toNat ++ leBytes 4 c.shadowId.toNat ++ [BitVec.ofNat 8 c.shadow.code, 0, 0, 0]
      ++ leBytes 8 (match c.swapBn with | some n => n.toNat | none => 0) ++ leBytes 4 c.loaded)) b

/-- The largest image (R259). -/
def maxImage : Nat := 2097152

/-- CFG_LOAD_BEGIN (R247, R262): the slot is erased, and the shadow and the image of before with it. -/
def cfgLoadBegin (r : Req) (b : Blk) : BW :=
  serveW cmdCfgLoadBegin r noAbsent noGrant (fun b _ p =>
    let n := leAt p 0 4
    match firstErr ([(!within 1 maxImage n, errAt 0 stBadParam 1 0)] ++ zeroErr p 4 4
        ++ [(decide (b.cfg.shadow = .scheduled), err stBusy 4 0), (decide (b.cfg.shadow = .verifying), err stBusy 1 0)]) with
    | some e => (b.refuseReq 0x302 r e, [])
    | none =>
      let b1 := b.onCfg fun c =>
        { c with shadow := .loading, shadowId := 0, shadowLen := n, shadowDigest := BitVec.ofNat 512 (leAt p 8 64),
                 loaded := 0, prevId := none }
      let b2 := b1.modComp 4 fun c => c.modSlot (!b.cfg.activeSlot) fun x => { x with state := .receiving }
      (b2.ok 0x302 r [], [.clear b.shadowBase maxImage])) b

/-- CFG_LOAD_DATA (R247). -/
def cfgLoadData (r : Req) (m : Mem) (b : Blk) : BW :=
  serveW cmdCfgLoadData r noAbsent noGrant (fun b _ p =>
    let c := b.cfg
    let data := p.drop 8
    let total := c.loaded + data.length
    match firstErr ([(decide (leAt p 0 4 ≠ c.loaded), errAt 0 stBadParam 2 c.loaded)] ++ zeroErr p 4 4
        ++ [(decide (c.shadow ≠ .loading ∨ c.shadowLen < total), errAt 8 stBadParam 1 0)]) with
    | some e => (b.refuseReq 0x303 r e, [])
    | none =>
      let head := Mem.readBytes m b.shadowBase (min c.loaded 8) ++ data
      let b1 := b.onCfg fun c =>
        { c with loaded := total, shadow := if total = c.shadowLen then .loaded else .loading,
                 shadowId := if 8 ≤ total then BitVec.ofNat 32 (leAt head 4 4) else c.shadowId }
      (b1.ok 0x303 r (leBytes 4 total), [.put (b.shadowBase + c.loaded) data])) b

/-- CFG_VERIFY (R263): the check starts. -/
def cfgVerify (r : Req) (b : Blk) : Blk :=
  serve cmdCfgVerify r noAbsent noGrant (fun b _ _ =>
    match firstErr [(decide (b.cfg.shadow = .scheduled), err stBusy 4 0), (decide (b.cfg.shadow = .verifying), err stBusy 1 0)] with
    | some e => b.refuseReq 0x304 r e
    | none => (b.onCfg fun c => { c with shadow := .verifying, verifyDue := some (reqDue r 0x304) }).respond 0x304 r
        stAccepted ebnUnknown []) b

/-- CFG_VERIFY_DONE (R263, R281): the eight checks in order. -/
def cfgVerifyDone (m : Mem) (b : Blk) : Blk :=
  let c := b.cfg
  if c.shadow ≠ .verifying then b
  else
    let l := Mem.readBytes m b.shadowBase c.loaded
    let b0 := b.onCfg fun c => { c with verifyDue := none }
    match b.verifyImage l c.shadowLen c.shadowDigest true with
    | .ok im =>
      let b1 := (b0.onCfg fun c => { c with shadow := .verified, shadowId := im.id }).modComp 4 fun x =>
        x.modSlot (!c.activeSlot) fun y =>
          { y with state := .verified, len := c.shadowLen, digest := c.shadowDigest, format := im.dataFormat }
      let b2 := b1.ev srcSys 0x40 1 im.id
      match c.verifyDue with
      | some d => b2.complete d stOk b.ebn (leBytes 4 im.id.toNat)
      | none => b2
    | .error e =>
      let b1 := (b0.onCfg fun c => { c with shadow := .failed }).modComp 4 fun x =>
        x.modSlot (!c.activeSlot) fun y => { y with state := .invalid }
      let b2 := b1.ev srcSys 0x41 2 (arg32 e.value)
      match c.verifyDue with
      | some d => b2.completeErr d e
      | none => b2

/-- The image of the slot that is not active, decoded again. -/
def Blk.otherImage (b : Blk) (m : Mem) : Option Image :=
  let x := (b.comp 4).slot (!b.cfg.activeSlot)
  match b.verifyImage (Mem.readBytes m b.shadowBase x.len) x.len x.digest false with
  | .ok im => some im
  | .error _ => none

/-- CFG_SWAP (R247, R268). -/
def cfgSwap (r : Req) (m : Mem) (b : Blk) : Blk :=
  serve cmdCfgSwap r noAbsent noGrant (fun b _ p =>
    let c := b.cfg
    let id := wordAt p 0
    let isShadow := decide (c.shadow ≠ .empty ∧ id = c.shadowId)
    let isPrev := decide (c.shadow = .empty ∧ c.prevId = some id)
    let bn := b.targetBn p 8
    let im := b.otherImage m
    match firstErr ([(!isShadow && !isPrev, errAt 0 stBadParam 6 0)] ++ zeroErr p 4 4
        ++ [(b.targetEarly p 8 || decide (b.breath.bn.toNat + 2 ^ 24 < bn.toNat), errAt 8 stBadParam 1 0),
            (c.swapBn.isSome, err stBusy 4 0),
            (isShadow && decide (c.shadow ≠ .verified) || im.isNone, err stRefused 12 0)]) with
    | some e => b.refuseReq 0x305 r e
    | none => (b.onCfg fun c => { c with shadow := .scheduled, swapBn := some bn, swapImage := im, swapFlag := false,
                                         swapDue := some (reqDue r 0x305) }).respond 0x305 r stAccepted (bnWord bn) []) b

/-- CFG_CANCEL (R247). -/
def cfgCancel (r : Req) (b : Blk) : Blk :=
  serve cmdCfgCancel r noAbsent noGrant (fun b _ _ =>
    match b.cfg.swapBn with
    | none => b.refuseReq 0x306 r (err stBadParam 6 0)
    | some t =>
      if t.toNat < b.breath.bn.toNat + 2 then b.refuseReq 0x306 r (err stRefused 10 0)
      else
        let b1 := (b.onCfg CfgSvc.unschedule).ev srcSys 0x44 1 (bnWord t)
        let b2 := match b.cfg.swapDue with | some d => b1.displaced [d] | none => b1
        b2.ok 0x306 r (leBytes 8 t.toNat)) b

/-! ### Live kernel service (R277 to R279) -/

def Boundary.code : Boundary → Nat
  | .joined => 0 | .isolated => 1 | .rejoining => 2 | .service => 3 | .absent => 4

/-- The kernel that byte 0 of a payload names. -/
def kernelArg (p : List Byte) : Option (Fin 4) :=
  let n := (byteAt p 0).toNat
  if h : n < 4 then some ⟨n, h⟩ else none

/-- Step 3 for a kernel of byte 0. -/
def absentKernel (b : Blk) (p : List Byte) : Option (UnitName × Nat) :=
  match kernelArg p with
  | some k => if b.hasKernel k then none else some (.kernels23, k.val)
  | none => none

def cmdKernelService : Cmd := { op := 0x307, len := .exactly 4, parts := false, modes := [3, 4], who := hosts }

/-- A completion of KERNEL_SERVICE: kernel and boundary state. -/
def Blk.serviceDone (b : Blk) (k : Fin 4) (w : Option (Fin 12 × Word)) : Blk :=
  match w with
  | some (m, c) => b.complete { mb := m, client := c, who := idByte (mbOwner m), opcode := 0x307 } stOk b.ebn
      [BitVec.ofNat 8 k.val, BitVec.ofNat 8 (b.bridges.get k).state.code]
  | none => b

/-- The removal whose request is answered, or any running action. -/
def Kernel.busy (kn : Kernel) : Bool := kn.service.isSome || kn.removing || kn.joinNext

/-- KERNEL_SERVICE with the action of its row; a request with another valid action is another row's. `checks` are the
conditions of R277, `f` the start of the work. -/
def kernelService (action : Nat) (r : Req) (checks : Blk → Fin 4 → List (Bool × Err)) (f : Blk → Fin 4 → Blk) (b : Blk) : Blk :=
  let a := (byteAt r.payload 1).toNat
  if a ≤ 3 ∧ a ≠ action then b
  else serve cmdKernelService r absentKernel noGrant (fun b _ p =>
    match kernelArg p with
    | none => b.refuseReq 0x307 r (errAt 0 stBadParam 1 0)
    | some k =>
      let st := (b.bridges.get k).state
      match firstErr ([(decide (b.rcc.mode = .run) && !b.full, err stRefused 2 0),
          (decide (3 < a), errAt 1 stBadParam 1 0)] ++ zeroErr p 2 2
          ++ [(decide (st = .isolated ∨ st = .rejoining), err stIsolated 1 k.val)] ++ checks b k) with
      | some e => b.refuseReq 0x307 r e
      | none => f b k) b

/-- A service action starts; its tick is not known. -/
def Blk.serviceStart (b : Blk) (r : Req) (k : Fin 4) (a : Fin 4) (ebn : Word) : Blk :=
  (b.modK k fun kn => { kn with service := some a, serviceReq := some (r.mb, r.client) }).respond 0x307 r stAccepted ebn []

/-- Whether any kernel is in an action. -/
def Blk.anyService (b : Blk) : Bool := (upTo 4).any fun k => (b.kn k).busy

/-- KERNEL_SERVICE_OUT (R277, R278). -/
def kernelServiceOut (r : Req) (b : Blk) : Blk :=
  kernelService 0 r (fun b k =>
    let others := (upTo 4).any fun j => decide (j ≠ k ∧ (b.bridges.get j).state = .service)
    let live := (chansOf k).any fun c => decide ((b.ch c).owner = .safety ∧ (b.ch c).snap.state ≠ 0)
    [(b.anyService, err stBusy 1 0), (b.cfg.swapBn.isSome, err stBusy 4 0),
     (decide ((b.bridges.get k).state ≠ .joined) || others || (decide (b.rcc.mode = .run) && live), err stRefused 7 0)])
    (fun b k => b.serviceStart r k 0 b.ebn1) b

/-- KERNEL_SERVICE_RETURN (R277, R279): a return requested while the removal completes is held, the latest winning. -/
def kernelServiceReturn (r : Req) (b : Blk) : Blk :=
  kernelService 1 r (fun b k =>
    let kn := b.kn k
    [(b.anyService && !kn.removing && !decide (kn.service = some 0), err stBusy 1 0),
     (decide ((b.bridges.get k).state ≠ .service ∧ kn.service ≠ some 0), err stRefused 7 0)])
    (fun b k =>
      let kn := b.kn k
      if kn.removing ∨ kn.service = some 0 then
        let old := match kn.returnPending with
          | some (m, c) => [({ mb := m, client := c, who := idByte (mbOwner m), opcode := 0x307 } : Due)]
          | none => []
        ((b.modK k fun x => { x with returnPending := some (r.mb, r.client) }).displaced old).respond 0x307 r stPending
          ebnUnknown []
      else b.serviceStart r k 1 ebnUnknown) b

/-- Actions 2 and 3 need the boundary in SERVICE. -/
def serviceChecks (b : Blk) (k : Fin 4) : List (Bool × Err) :=
  [(b.anyService, err stBusy 1 0), (decide ((b.bridges.get k).state ≠ .service), err stRefused 7 0)]

/-- KERNEL_SERVICE_RECALIBRATE and KERNEL_SERVICE_RELOAD (R277). -/
def kernelServiceRecalibrate (r : Req) (b : Blk) : Blk :=
  kernelService 2 r (fun b k => serviceChecks b k ++ [(decide (100 ≤ (b.kn k).trimWrites), err stRefused 7 0)])
    (fun b k => b.serviceStart r k 2 ebnUnknown) b
def kernelServiceReload (r : Req) (b : Blk) : Blk :=
  kernelService 3 r serviceChecks (fun b k => b.serviceStart r k 3 ebnUnknown) b

/-- The removals asserted for the tick (R278): the boundary reads SERVICE, writes on their way fail with reason 2, every
channel shuts down. -/
def Blk.removeKernel (b : Blk) (k : Fin 4) : BW :=
  let kn := b.kn k
  if kn.service ≠ some 0 ∨ kn.removing then (b, [])
  else if (b.bridges.get k).state ≠ .joined then
    let b1 := b.modK k fun x => { x with service := none, serviceReq := none }
    (match kn.serviceReq with
      | some (m, c) => b1.completeErr { mb := m, client := c, who := idByte (mbOwner m), opcode := 0x307 } (err stIsolated 1 k.val)
      | none => b1, [])
  else
    let b1 := (b.modBr k fun x => { x with state := .service }).modK k fun x =>
      { x with removing := true, serviceStart := b.time.dt }
    let b2 := (chansOf k).foldl (fun b c => if b.isFollower c then b
      else b.applySet c { (b.ch c).applied with cmd := 0 }) b1
    let b3 := if k.val = 0 then b2.onMotion fun m => { m with notReady := true } else b2
    b3.failAll k rService

/-- KERNEL_OUT_OF_SERVICE (R278): every channel reads OFF; a held return follows. -/
def kernelOutOfService (k : Fin 4) (b : Blk) : Blk :=
  let kn := b.kn k
  if kn.removing = false ∨ (chansOf k).any (fun c => (b.ch (b.lead c)).conducting) then b
  else
    let b1 := b.modK k fun x =>
      { x with removing := false, service := if x.returnPending.isSome then some 1 else none,
               serviceReq := x.returnPending, returnPending := none }
    (b1.kev k (srcK k) 0x80 2 (arg32 (min (b.since kn.serviceStart / 1000000) 0xFFFFFFFF)) hw (pin := true)).serviceDone k
      kn.serviceReq

/-- KERNEL_SERVICE_DONE (R277, R279): the work of a running action has completed. A return has loaded the trims, the
active parts and the protection store, and joins at the next tick. -/
def kernelServiceDone (k : Fin 4) (b : Blk) : Blk :=
  let kn := b.kn k
  if kn.joinNext then b
  else match kn.service with
  | some 1 =>
    let b1 := (b.clearChannels k).modK k fun x => { x with configId := 0 }
    let b2 := match b.cfg.active with | some im => b1.kernelPart k im | none => b1
    (b2.protRestore k).modK k fun x => { x with joinNext := true }
  | some 2 =>
    let b1 := b.modK k fun x => { x with service := none, serviceReq := none, trimWrites := x.trimWrites + 1 }
    (b1.kev k (srcK k) 0x81 2 (arg32 (kn.trimWrites + 1)) hw (pin := true)).serviceDone k kn.serviceReq
  | some 3 =>
    let c := b.comp 3
    let v : Byte := BitVec.ofNat 8 (c.slot c.runB).major
    let b1 := b.modK k fun x => { x with service := none, serviceReq := none, micro := v }
    (b1.kev k (srcK k) 0x82 2 (arg32 v.toNat) hw (pin := true)).serviceDone k kn.serviceReq
  | _ => b

/-- The join of a return at its tick (R279). -/
def Blk.returnKernel (b : Blk) (k : Fin 4) : Blk :=
  let kn := b.kn k
  if kn.joinNext = false then b
  else
    let b1 := (b.joinBoundary k).modK k fun x => { x with joinNext := false, service := none, serviceReq := none }
    (b1.kev k (srcK k) 0x83 2 kn.configId hw (pin := true)).serviceDone k kn.serviceReq

/-- A boundary that joins takes the active parts when it does not hold them (R269, R201). -/
def Blk.lateConfig (b : Blk) (k : Fin 4) : Blk :=
  let old := (b.kn k).configId
  match b.cfg.active with
  | some im =>
    if old = im.id then b
    else
      let b1 := b.kernelPart k im
      if old = 0 then b1 else b1.kev k (srcK k) 0x84 2 im.id
  | none => b

/-! ### Meanings -/

def execCfgInfo (r : Req) (s : State) : Res := .next (s.onBlk (cfgInfo r))
def execCfgLoadBegin (r : Req) (s : State) : Res := .next (s.onMem fun _ b => cfgLoadBegin r b)
def execCfgLoadData (r : Req) (s : State) : Res := .next (s.onMem (cfgLoadData r))
def execCfgVerify (r : Req) (s : State) : Res := .next (s.onBlk (cfgVerify r))
def execCfgVerifyDone (s : State) : Res := .next (s.onMem fun m b => (cfgVerifyDone m b, []))
def execCfgSwap (r : Req) (s : State) : Res := .next (s.onMem fun m b => (cfgSwap r m b, []))
def execCfgCancel (r : Req) (s : State) : Res := .next (s.onBlk (cfgCancel r))
def execSwapKernelStaging (confirmed : BitVec 4) (s : State) : Res := .next (s.onBlk (swapKernelStaging confirmed))
def execKernelServiceOut (r : Req) (s : State) : Res := .next (s.onBlk (kernelServiceOut r))
def execKernelServiceReturn (r : Req) (s : State) : Res := .next (s.onBlk (kernelServiceReturn r))
def execKernelServiceRecalibrate (r : Req) (s : State) : Res := .next (s.onBlk (kernelServiceRecalibrate r))
def execKernelServiceReload (r : Req) (s : State) : Res := .next (s.onBlk (kernelServiceReload r))
def execKernelOutOfService (k : Fin 4) (s : State) : Res := .next (s.onBlk (kernelOutOfService k))
def execKernelServiceDone (k : Fin 4) (s : State) : Res := .next (s.onBlk (kernelServiceDone k))

end Sys2Proof.Machine
end

