-- ==== Sys2Proof/Machine/Modes.lean ====
section
/-! DEFINITION. Operating modes (R27, R389 to R393): the breath's start and stop (R33), what a transition does, the
guards of R390, scheduling by the ranks of R391, the hold-up commit's start (R386), and the meanings of MODE_GET and
MODE_SET. -/

namespace Sys2Proof.Machine
open Sys2Proof

/-- SRC of resets, power and modes (R400), of debug and of the Husk (R432). -/
def srcRcc : BitVec 16 := srcOf 0xB 0
def srcHusk : BitVec 16 := srcOf 9 0
def srcDebug : BitVec 16 := srcOf 9 3

/-! ### Mode-transition causes (R389) -/

def mcStart : Nat := 0x01
def mcModeSet : Nat := 0x02
def mcSafety : Nat := 0x03
def mcTamper1 : Nat := 0x04
def mcTamper2 : Nat := 0x05
def mcStrap : Nat := 0x06
def mcNoImage : Nat := 0x07
def mcWake : Nat := 0x08
def mcAutoSleep : Nat := 0x09
def mcExit : Nat := 0x0A
def mcApp : Nat := 0x0B
def mcStored : Nat := 0x0C
def mcReset : Nat := 0x0D

/-! ### The breath's start and stop (R27, R33) -/

/-- The first grid instant at or after an instant, for a length in ns (R30). -/
def gridAt (t len : Nat) : Nat := if len = 0 then t else ceilDiv t len * len

/-- The breath length of a mode in µs (R29). -/
def Blk.lenFor (b : Blk) (m : Mode) : Nat := if m = .standby then 2000 else b.breath.len

/-- Whether the breath runs in a mode (R27). -/
def Mode.breathes : Mode → Bool
  | .run | .service | .limp | .standby | .lockdown => true
  | _ => false

/-- The breath starts (R33): the first tick falls on the grid at least one length later. -/
def Blk.startBreath (b : Blk) (m : Mode) : Blk :=
  if b.breath.running then b
  else
    let len := b.lenFor m
    let due := gridAt (b.time.dt.toNat + len * 1000) (len * 1000)
    (b.onBre fun r =>
      { r with running := true, phase := 0, lenInUse := len, trimLeft := 0, dueDt := BitVec.ofNat 64 due, doneT := 0,
               doneA := false, doneB := false, doneV := false, doneCh := false, commitT := 0, commitS := false,
               commit := Vector.replicate 40 false, staged := 0, outcome := 0, prevOutcome := 0 }).ev srcBre 0x10 1 (arg32 len)

/-- The breath stops (R375, R386, R393). -/
def Blk.stopBreath (b : Blk) : Blk :=
  b.onBre fun r =>
    { r with running := false, phase := 0, trimLeft := 0, curLenNs := 0, doneT := 0, doneA := false, doneB := false,
             doneV := false, doneCh := false, commitT := 0, commitS := false, commit := Vector.replicate 40 false,
             staged := 0 }

/-! ### Journalled flags, debug access, keys -/

/-- The lockdown flag journalled (R392, R395). -/
def Blk.journalLockdown (b : Blk) (on : Bool) : Blk :=
  (b.onNvm fun n => n.transact [(jLockdown, [BitVec.ofNat 8 (b2n on)])]).onRcc fun r => { r with lockFlag := on }

/-- Debug access ends (R421, R432): 1 time, 2 SERVICE exit, 3 reset, 4 tamper; a safety core that was attached is
detached (R370). -/
def Blk.closeDebug (b : Blk) (why : Nat) : Blk :=
  if b.sec.debugScope = 0 then b
  else
    let b1 := (b.onSec fun x => { x with debugScope := 0 }).ev srcDebug 0x31 2 (arg32 why)
    (upTo 2).foldl (fun b c => debugDetached c b) b1

/-- The derived slots 0 to 4 (R405) in or out of the Husk cache, injected keys with them (R406, R407). -/
def Security.cache (x : Security) (on : Bool) : Security :=
  { x with slots := x.slots.map fun s => { s with cached := on && s.used } }

/-- The Husk state changes, with what depends on keys (R303). -/
def Blk.huskTo (b : Blk) (h : HuskState) : Blk := (b.onSec fun x => { (x.cache (decide (h = .available))) with husk := h }).macsecRefresh

/-- The keys of slots 0 to 4 derived at an unseal (R405): types of R407; the handle's generation starts at 1. -/
def Security.derive (x : Security) : Security :=
  let put := fun (v : Vector Slot 64) (n : Fin 64) (t : Nat) =>
    vmod v n fun s => { s with used := true, type := t, derived := true, injected := false, gen := max s.gen 1 }
  { x with slots := put (put (put (put (put x.slots 0 2) 1 2) 2 2) 3 1) 4 4 }

/-- The unseal (R405, R406, R432): AVAILABLE unless a class 1 hold runs. -/
def Blk.unseal (b : Blk) : Blk :=
  let b1 := (b.onSec Security.derive).huskTo (if b.sec.cl1Hold then .unavailable else .available)
  b1.ev srcHusk 1 1 (arg32 (b.sec.lc + b.sec.gen * 256))

/-! ### Updates that a mode ends (R441, R446) -/

/-- An update that is not yet scheduled ends with its slot invalid (R441, R446): why is the ARG of UPDATE_ABORTED. A
completion that waits carries `REFUSED_STATE` in LOCKDOWN and `BUSY` otherwise. -/
def Blk.dropUpdate (b : Blk) (why : Nat) : Blk :=
  match b.upd.state with
  | .receiving | .verifying | .verified =>
    let b1 := match compIdx b.upd.comp with
      | some i => b.modComp i fun c => c.modSlot (!c.runB) fun x => { x with state := .invalid }
      | none => b
    let b2 := ((b1.onUpd fun u => { u with due := none }).updTo .idle).ev (srcUpd b.upd.comp) 4 1 (arg32 why)
    match b.upd.due with
    | some d => if why = 3 then b2.completeErr d (err stRefused 5 0) else b2.displaced [d]
    | none => b2
  | _ => b

/-! ### Programs started as from BOOT (R355, R390) -/

/-- The safety program and the `AUTOSTART` tenants start. A given-up safety program stays stopped (R367). -/
def Blk.startPrograms (m : Mem) (b : Blk) : BW :=
  let c := b.comp 1
  let x : BW :=
    if b.dr.present ∧ b.dr.givenUp = false ∧ measured m cSafety c.runB (c.slot c.runB) then
      (b.onDr fun d => { d with tasks := d.tasks.map fun t => { t with pass := .ended, consec := 0 } }).loadSafety m
    else (b, [])
  x.map Blk.startAuto

/-! ### The hold-up commit (R386) -/

/-- CAN controllers off at SLEEP entry and in a hold-up commit: those of sleeping buses are off already. -/
def Blk.canHalt (b : Blk) : Blk :=
  { b with cans := b.cans.map fun x =>
      if x.state = .asleep then x
      else { x with state := .stopped, sending := none, fifo := [], fifoHeld := false, trefSlot := none } }
/-- The controllers that stopped run again. -/
def Blk.canResume (b : Blk) : Blk :=
  { b with cans := b.cans.map fun x => if x.en ∧ x.state = .stopped then x.running else x }

/-- A key update that has not begun to write its marker is aborted (R415, R425): by a tamper alarm of a class, with
`TAMPER` in its completion, or by a hold-up commit, after which no completion is sent (R241). -/
def Blk.abortKeyUpdate (b : Blk) (cls : Option Nat) : Blk :=
  match b.sec.ku with
  | none => b
  | some k =>
    let b1 := (b.onSec fun x => { x with ku := none }).ev srcHusk 4 2 (if cls.isSome then 1 else 2)
    match cls with
    | some c => b1.completeErr k.due (err stTamper 1 c)
    | none => b1

/-- Step 1 of the commit: the domains APP, DDR, NET and CAN are off; the commit runs. -/
def Blk.startHoldup (b : Blk) : Blk :=
  if b.rcc.holdup then b
  else ((b.switchStop.canHalt).abortKeyUpdate none).onRcc fun r => { r with holdup := true, holdupDone := false, pwrSticky := orBits r.pwrSticky 4 }

/-! ### Transitions (R389, R390) -/

/-- The payload of `MODE_GET` (R245). -/
def Blk.modePayload (b : Blk) : List Byte :=
  let r := b.rcc
  [BitVec.ofNat 8 r.mode.code, BitVec.ofNat 8 r.prevMode.code] ++ leBytes 2 r.modeCause ++ leBytes 8 r.entryBn.toNat
    ++ leBytes 8 r.entryDt.toNat

/-- Tenant-owned channels of every kernel at fallback (R122 cause 5), or all of them. -/
def Blk.modeFallback (b : Blk) (which : Initiator → Bool) : Blk :=
  (upTo 4).foldl (fun b k =>
    if b.kernelRuns k then b.fallback k ((chansOf k).filter (fun c => which (b.ch c).owner)) 5 else b) b

def isTenant : Initiator → Bool
  | .tenant _ => true
  | _ => false

/-- What leaving SERVICE does (R219, R332, R421). -/
def Blk.leaveService (b : Blk) : Blk :=
  let b1 := ([33, 34, 35] : List (Fin 256)).foldl (fun b q => if (b.queues.get q).enabled then b.flushQueue q else b) b
  (b1.closeDebug 2).nmService false

/-- The mode registers, MODE_CHANGE and MODE_CHANGED (R389, R240), and the FAULT_N bits of R398. -/
def Blk.noteMode (b : Blk) (new : Mode) (cause : Nat) : Blk :=
  let old := b.rcc.mode
  let b1 := b.onRcc fun r =>
    { r with mode := new, prevMode := old, modeCause := cause, entryBn := b.breath.bn, entryDt := b.time.dt,
             gpioFault := setBits (setBits r.gpioFault 2 2 (b2n (decide (new = .lockdown)))) 3 3
               (b2n (decide (new = .recovery))) }
  let b2 := b1.ev srcRcc 4 2 (arg32 (new.code + old.code * 16 + cause * 256)) (pin := true)
  b2.notifyAll 0x0280 ([BitVec.ofNat 8 new.code, BitVec.ofNat 8 old.code] ++ leBytes 2 cause ++ leBytes 8 b.breath.bn.toNat)

/-- SLEEP is entered (R393 steps 1 to 3): sleep actions, the breath stops, the shutdown seal, the commit starts. -/
def Blk.enterSleep (m : Mem) (b : Blk) : BW :=
  let b1 := (upTo 40).foldl (fun b c => if b.kernelRuns (kOf c) then b.toSleep c else b) b.stopBreath
  let b2 := (b1.stopAll 7).stopSafety
  let x := storeSeal m 2 b2
  x.map fun b => ((b.huskTo .locked).startHoldup.onRcc fun r => { r with sleepStep := 3, sleepFrom := r.prevMode }).wakeOutNow

/-- LOCKDOWN is entered (R390, R392, R446). -/
def Blk.enterLockdown (b : Blk) : Blk :=
  let b1 := (b.journalLockdown true).huskTo .locked
  let b2 := ((b1.stopAll 7).stopSafety).modeFallback (fun _ => true)
  b2.dropUpdate 3

/-- A transition takes effect: what it leaves, the records, what it enters, the completion of the command. -/
def Blk.enterMode (m : Mem) (new : Mode) (cause : Nat) (due : Option Due) (b : Blk) : BW :=
  let old := b.rcc.mode
  let b0 := if old = .service ∧ new ≠ .service then b.leaveService else b
  let b1 := b0.noteMode new cause
  let x : BW := match new with
    | .run | .standby =>
      match old with
      | .boot => b1.startPrograms m
      | .lockdown => ((b1.journalLockdown false).unseal).startPrograms m
      | .limp => (b1.startAuto, [])
      | .sleep => (b1.canResume.huskTo (if b1.sec.cl1Hold then .unavailable else .available)).startPrograms m
      | _ => (b1, [])
    | .service => (b1.nmService true, [])
    | .limp => ((b1.stopAll 7).modeFallback isTenant, [])
    | .sleep => b1.enterSleep m
    | .lockdown => (b1.enterLockdown, [])
    | .boot | .recovery => (b1.modeFallback (fun _ => decide (new = .recovery)), [])
  x.map fun b =>
    let b2 := b.gatesIdle
    match due with
    | some d => b2.complete d stOk b2.ebn b2.modePayload
    | none => b2

/-! ### Guards (R390) -/

/-- Whether an update is in any state but idle (R441). -/
def Blk.updateRuns (b : Blk) : Bool := decide (b.upd.state ≠ .idle)

/-- The safety program verified in the last breath, when the active image has a `SAFETY` record. -/
def Blk.safetyGood (b : Blk) : Bool := !b.dr.present || (b.safetyRuns && !bit b.breath.prevOutcome 16)

/-- A safety image scheduled or on trial (R441, R443). -/
def Blk.safetyUpdate (b : Blk) : Bool :=
  let c := b.comp 1
  c.pendingAct || decide ((c.slot c.runB).state = .trial)

/-- The guard of a transition, as it stands now; `none` when the table has no such transition. -/
def Blk.guard (b : Blk) (new : Mode) : Option Bool :=
  match b.rcc.mode, new with
  | .run, .service => some b.keysReady
  | .service, .run =>
    some (!b.dr.resetting && (upTo 4).all (fun k => decide ((b.kn k).service ≠ some 2)) && b.sec.lcPending.isNone
      && !b.safetyUpdate && b.safetyGood)
  | .run, .limp | .service, .limp | .standby, .limp => some true
  | .limp, .run => some (decide (b.rcc.blkState.get 4 = .running))
  | .run, .standby => some (!b.updateRuns && b.cfg.swapBn.isNone && !b.anyService)
  | .standby, .run => some true
  | .run, .sleep | .standby, .sleep =>
    some (b.sleepReady && b.rcc.vka && !b.updateRuns && b.cfg.swapBn.isNone && b.sec.ku.isNone && b.sec.lcPending.isNone
      && !b.anyService)
  | .run, .lockdown | .service, .lockdown | .limp, .lockdown | .standby, .lockdown => some true
  | .lockdown, .run => some (!b.sec.class2Now)
  | .sleep, .run | .sleep, .standby | .sleep, .lockdown => some true
  | _, _ => none

/-! ### Scheduling (R390, R391) -/

/-- A transition scheduled for tick N+2, unless one of the same or a higher rank is scheduled; one that it displaces
completes with `BUSY`. -/
def Blk.schedule (b : Blk) (new : Mode) (cause rank : Nat) (due : Option Due) : Blk :=
  let put := fun (b : Blk) => b.onRcc fun r =>
    { r with sched := some { target := new, cause := cause, at_ := b.breath.bn + 2, rank := rank, due := due } }
  match b.rcc.sched with
  | none => put b
  | some s =>
    if s.rank ≤ rank then b
    else
      let b1 := put b
      match s.due with | some d => b1.displaced [d] | none => b1

/-- The scheduled transition at its tick: the guard is judged again (R390). -/
def Blk.modeTick (m : Mem) (b : Blk) : BW :=
  match b.rcc.sched with
  | none => (b, [])
  | some s =>
    if s.at_ ≠ b.breath.bn then (b, [])
    else
      let b1 := b.onRcc fun r => { r with sched := none }
      match b1.guard s.target with
      | some true => b1.enterMode m s.target s.cause s.due
      | _ => (match s.due with | some d => b1.completeErr d (err stRefused 7 0) | none => b1, [])

/-! ### MODE_GET and MODE_SET (R245, R390) -/

def cmdModeGet : Cmd := { op := 0x201, len := .exactly 0, parts := false, modes := [1, 3, 4, 5, 6, 8], who := anyone }
def cmdModeSet : Cmd := { op := 0x202, len := .exactly 8, parts := false, modes := [3, 4, 5, 6], who := hostsSafety }

/-- MODE_GET. -/
def modeGet (r : Req) (b : Blk) : Blk := serve cmdModeGet r noAbsent noGrant (fun b _ _ => b.ok 0x201 r b.modePayload) b

/-- The guard of a transition that `MODE_SET` triggers: the table gives it none from STANDBY to LIMP (R390). -/
def Blk.setGuard (b : Blk) (new : Mode) : Option Bool :=
  if b.rcc.mode = .standby ∧ new = .limp then none else b.guard new

/-- Whether a `MODE_SET` 8 displaces what is scheduled in this breath (R391). -/
def Blk.outranks (b : Blk) (rank : Nat) : Bool :=
  match b.rcc.sched with
  | none => true
  | some s => decide (rank < s.rank ∧ s.at_ = b.breath.bn + 2)

/-- MODE_SET: MODE_REQUESTED at acceptance, effect at tick N+2. -/
def modeSet (r : Req) (b : Blk) : Blk :=
  serve cmdModeSet r noAbsent
    (fun _ i p => if i = .safety ∧ (byteAt p 0).toNat ≠ 5 ∧ (byteAt p 0).toNat ≠ 8 then some (err stDenied 1 0) else none)
    (fun b i p =>
      let target := Mode.ofCode (byteAt p 0).toNat
      let rank := if (byteAt p 0).toNat = 8 then 3 else 5
      match target, firstErr ([(target.isNone, errAt 0 stBadParam 1 0)] ++ zeroErr p 1 3
          ++ [(!b.outranks rank, err stBusy 1 0),
              (decide ((target.bind b.setGuard) ≠ some true), err stRefused 7 0)]) with
      | some t, none =>
        let b1 := b.ev srcRcc 0xC 1 (wordAt p 4) (idByte i)
        let b2 := b1.respond 0x202 r stAccepted (bnWord (b.breath.bn + 2)) []
        b2.schedule t (if i = .safety then mcSafety else mcModeSet) rank (some (reqDue r 0x202))
      | _, some e => b.refuseReq 0x202 r e
      | none, none => b) b

def execModeGet (r : Req) (s : State) : Res := .next (s.onBlk (modeGet r))
def execModeSet (r : Req) (s : State) : Res := .next (s.onBlk (modeSet r))

end Sys2Proof.Machine
end

