-- ==== Sys2Proof/Machine/Trials.lean ====
section
/-! DEFINITION. Activations, trials, confirmation and reverts of components (R442 to R446), and the meanings of
UPDATE_ACTIVATED, UPDATE_CONFIRMED and UPDATE_TRIAL_FAILED. -/

namespace Sys2Proof.Machine
open Sys2Proof

/-- The anti-rollback counter of a component (R433): fuse counters 0 to 3, the NVM counter of a tenant. -/
def Blk.rollback (b : Blk) (i : Fin 13) : Nat :=
  if i.val < 4 then (b.comp i).counter
  else if i.val = 4 then 0
  else (b.ctrValue (ctrTenant (i.val - 5))).toNat

/-- The image that a component runs. -/
def Blk.running (b : Blk) (i : Fin 13) : ImgSlot := (b.comp i).slot (b.comp i).runB

/-- A component on trial (R443). -/
def Blk.onTrial (b : Blk) (i : Fin 13) : Bool := decide ((b.running i).state = .trial)

/-- A trial that has not failed. -/
def Blk.trialOpen (b : Blk) (i : Fin 13) : Bool := b.onTrial i && !(b.comp i).revert

/-- The stored data formats as journal item 0x0050. -/
def Blk.journalFormats (b : Blk) : Blk :=
  b.onNvm fun n => n.transact [(jFormats, (upTo 13).flatMap fun i => leBytes 2 (b.comp i).format)]

/-- The active configuration slot as journal item 0x0020. -/
def Blk.journalSlot (b : Blk) : Blk := b.onNvm fun n => n.transact [(jSlot, [BitVec.ofNat 8 (b2n b.cfg.activeSlot)])]

/-- What depends on which slot of a component is active: the configuration slot and the tenants' slots are journalled. -/
def Blk.followSlot (b : Blk) (i : Fin 13) : Blk :=
  if i.val = 4 then (b.onCfg fun c => { c with activeSlot := (b.comp 4).runB }).journalSlot
  else if 5 ≤ i.val then b.journalTenantSlots
  else b

/-! ### Migration (R444, R445) -/

/-- The first start of a Chanter image with a newer data format: the old copies are kept, each item of the journal is
migrated. -/
def Blk.migrate (b : Blk) : Blk :=
  let x := b.running 0
  let old := (b.comp 0).format
  if x.state ≠ .trial ∨ x.format ≤ old ∨ b.upd.held.isSome then b
  else
    let h : Held := { journal := b.nvm.journal, wire := b.chans.toList.map (·.wmSave), energy := b.chans.toList.map (·.energySave) }
    let b1 := (b.onUpd fun u => { u with comp := 0, held := some h }).updTo .migrating
    let b2 := (b1.onNvm fun n => n.transact [(jMigration, leBytes 2 0)]).ev (srcUpd 0) 9 1 (arg32 (old + x.format * 65536))
    let n := b.nvm.journal.length
    let b3 := b2.onNvm fun v => v.transact [(jMigration, leBytes 2 n)]
    b3.updTo .idle

/-- A revert discards the new copies: the journal items return to their values at activation, the lockdown flag apart
(R392), and ENERGY_GAP is logged. -/
def Blk.dropMigration (b : Blk) : Blk :=
  match b.upd.held with
  | none => b
  | some h =>
    let lock := b.nvm.journal.filter (fun j => j.id = jLockdown)
    let b1 := { b with chans := Vector.ofFn fun c =>
      { b.ch c with wmSave := h.wire.getD c.val none, energySave := h.energy.getD c.val none } }
    let b2 := (b1.onNvm fun n => { n with journal := lock ++ h.journal.filter (fun j => j.id ≠ jLockdown) }).onUpd fun u =>
      { u with held := none }
    (upTo 4).foldl (fun b k =>
      match (b.ch (chanOf k 0)).energySave with
      | some (_, _, _, t0) =>
        if b.kernelRuns k then b.kev k (srcK k) 8 2 (arg32 (min (b.since t0 / 1000000000) 0xFFFFFFFF)) else b
      | none => b) b2

/-! ### Confirmation (R445) -/

/-- A trial confirmed: the counter, the stored data format, the slots, in this order. -/
def Blk.confirm (b : Blk) (i : Fin 13) : Blk :=
  let x := b.running i
  let src := srcUpd (compCode i)
  let b1 := if i.val ≠ 4 ∧ b.rollback i < x.secVer then
      let b' := if i.val < 4 then b.modComp i fun c => { c with counter := x.secVer }
        else b.counterPut (ctrTenant (i.val - 5)) (BitVec.ofNat 64 x.secVer)
      b'.ev src 0xB 2 (arg32 x.secVer)
    else b
  let b2 := if (b1.comp i).format = x.format then b1
    else
      let b' := (b1.modComp i fun c => { c with format := x.format }).journalFormats
      (if i.val = 0 then b'.onUpd fun u => { u with held := none } else b').ev src 0xA 2 (arg32 x.format)
  let floor := b2.rollback i
  let b3 := b2.modComp i fun c =>
    let c1 := c.modSlot c.runB fun y => { y with state := .active }
    { c1.modSlot (!c.runB) (fun y =>
        if y.state = .previous ∧ ((i.val ≠ 4 ∧ y.secVer < floor) ∨ y.format < c.format) then { y with state := .invalid } else y) with
      trialStarts := 0 }
  b3.ev src 6 2 (arg32 x.secVer)

/-- Whether a component has reached its point of R443, as far as the block's state tells. -/
def Blk.confirmable (b : Blk) (i : Fin 13) : Bool :=
  let m := b.rcc.mode
  let up := decide (m = .run ∨ m = .service ∨ m = .limp ∨ m = .standby) && b.rcc.episode.isNone
  match i.val with
  | 0 => up && decide (60000000000 ≤ b.since b.rcc.relDt)
  | 1 => b.safetyRuns && !b.dr.givenUp
  | 2 => up && (upTo 8).all (fun t => !((b.tn t).cfg.enabled && (b.tn t).cfg.autostart) || decide ((b.tn t).state = .running))
  | 3 => up && (upTo 4).all (fun k => !b.hasKernel k || decide ((b.bridges.get k).state = .joined))
  | 4 => decide (m ≠ .boot ∧ m ≠ .recovery)
  | n => match b.tenants.toList[n - 5]? with
    | some t => decide (t.state = .running) && decide (10000000000 ≤ b.since t.runSince)
    | none => false

/-- UPDATE_CONFIRMED (R445). -/
def updateConfirmed (comp : Byte) (b : Blk) : Blk :=
  match compIdx comp.toNat with
  | some i => if b.trialOpen i ∧ b.confirmable i then b.confirm i else b
  | none => b

/-! ### Failure (R443, R450) -/

/-- The previous slot becomes active again, and the failed one reads invalid; with no previous slot nothing is active. -/
def Blk.revertComp (b : Blk) (i : Fin 13) : Blk :=
  let c := b.comp i
  let good := decide ((c.slot (!c.runB)).state = .previous)
  let b1 := b.modComp i fun c =>
    let c1 := c.modSlot c.runB fun x => { x with state := .invalid }
    if good then { c1.modSlot (!c.runB) (fun x => { x with state := .active }) with runB := !c.runB, revert := false, trialStarts := 0 }
    else { c1 with revert := false, trialStarts := 0 }
  let b2 := (if i.val = 0 then b1.dropMigration else b1).followSlot i
  if good then b2.ev (srcUpd (compCode i)) 8 3 (arg32 (b2n (!c.runB))) else b2

/-- The tenant of a component from 5 on restarts from the slot that is active again: a tenant reset. -/
def Blk.resetForRevert (b : Blk) (t : Fin 8) : Blk :=
  b.modT t fun x => { x with givenUp := false, next := if x.state = .stopped then .start else .reset 6 }

/-- A failed trial (R443); `why` is the ARG of UPDATE_TRIAL_FAILED. -/
def Blk.trialFail (b : Blk) (i : Fin 13) (why : Nat) : Blk :=
  let b1 := b.ev (srcUpd (compCode i)) 7 3 (arg32 why)
  if i.val = 1 then
    ((b1.revertComp 1).onDr fun d => { d with givenUp := false, assertReset := some 4 }).onRcc fun r =>
      { r with gpioFault := setBits r.gpioFault 1 1 0 }
  else if h : 5 ≤ i.val then (b1.revertComp i).resetForRevert ⟨i.val - 5, by omega⟩
  else (b1.modComp i fun c => { c with revert := true }).onRcc fun r => { r with gpioFault := orBits r.gpioFault 1 }

/-- Sources 5, 6, 13 and 14 of R374. -/
def crashSources : Nat := 0x6060

/-- Whether a trial fails for a reason of R443's codes, as far as the block's state tells. -/
def Blk.failable (b : Blk) (i : Fin 13) (why : Nat) : Bool :=
  match why with
  | 1 => decide (3 ≤ (b.comp i).trialStarts) && (i.val == 0 || i.val == 2 || i.val == 3)
  | 2 => decide (b.rcc.cause.toNat &&& crashSources ≠ 0) && (i.val == 0 || i.val == 2 || i.val == 3)
  | 3 => decide (600000000000 ≤ b.since (b.comp i).trialSince)
  | 4 => match i.val with
    | 0 | 3 => false
    | 1 => b.dr.givenUp || decide (b.dr.assertReset = some 3) || b.dr.resetting
    | 2 => decide (b.rcc.modeCause = mcApp)
    | _ => true
  | _ => false

/-- UPDATE_TRIAL_FAILED (R443). -/
def updateTrialFailed (comp : Byte) (why : BitVec 3) (b : Blk) : Blk :=
  match compIdx comp.toNat with
  | some i => if b.trialOpen i ∧ b.failable i why.toNat then b.trialFail i why.toNat else b
  | none => b

/-- What a start finds of the trials of components 0, 2 and 3 (R443): one more start, and their failure by the source of
the episode that brought it about or by the third start. -/
def Blk.trialStart (b : Blk) (i : Fin 13) : Blk :=
  if b.trialOpen i = false then b
  else
    let b1 := b.modComp i fun c => { c with trialStarts := c.trialStarts + 1 }
    if b1.failable i 2 then b1.trialFail i 2 else if b1.failable i 1 then b1.trialFail i 1 else b1

/-! ### Activation (R442) -/

/-- The state of an update whose activation takes place. -/
def Blk.activationDone (b : Blk) (i : Fin 13) : Blk :=
  if b.upd.comp ≠ compCode i ∨ b.upd.state ≠ .scheduled then b
  else
    let b1 := (b.onUpd fun u => { u with due := none, target := none }).updTo .idle
    match b.upd.due with
    | some d => b1.complete d stOk b1.ebn (b1.versionEntry i)
    | none => b1

/-- A pending activation that is due: at a start for components 0 and 2 to 4; for the safety program at its tick, with
a safety reset whose cause is the replaced image. A tenant activates when it starts. -/
def Blk.activateDue (b : Blk) (i : Fin 13) : Blk :=
  let c := b.comp i
  if c.pendingAct = false ∨ 5 ≤ i.val then b
  else if i.val = 1 then
    match b.upd.target with
    | some n =>
      if b.breath.bn.toNat < n.toNat then b
      else (((b.activate 1 (!c.runB)).onDr fun d => { d with givenUp := false }).safetyReset 4).activationDone 1
    | none => b
  else if b.rcc.mode = .boot ∧ b.rcc.episode.isNone then ((b.activate i (!c.runB)).followSlot i).activationDone i
  else b

/-- UPDATE_ACTIVATED (R442). -/
def updateActivated (comp : Byte) (b : Blk) : Blk :=
  match compIdx comp.toNat with
  | some i => b.activateDue i
  | none => b

/-- What the start does with components 0 and 2 to 4 (R442, R443): failed trials give way, pending activations take
place, and trials count the start. -/
def Blk.startComponents (b : Blk) : Blk :=
  ([0, 2, 3, 4] : List (Fin 13)).foldl (fun b i =>
    if (b.comp i).revert then b.revertComp i
    else if (b.comp i).pendingAct then b.activateDue i
    else if i.val = 4 then b else b.trialStart i) b

def execUpdateActivated (comp : Byte) (s : State) : Res := .next (s.onBlk (updateActivated comp))
def execUpdateConfirmed (comp : Byte) (s : State) : Res := .next (s.onBlk (updateConfirmed comp))
def execUpdateTrialFailed (comp : Byte) (why : BitVec 3) (s : State) : Res :=
  .next (s.onBlk (updateTrialFailed comp why))

end Sys2Proof.Machine
end

