-- ==== Sys2Proof/Machine/Reset.lean ====
section
/-! DEFINITION. Resets (R373 to R379): what each reach resets, the episode and its exit sequence, the start of a boot
(R34, R67, R75, R83, R423), and the meanings of the rows of reset sources, clocks, straps and reset commands. -/

namespace Sys2Proof.Machine
open Sys2Proof

/-! ### Reach and sources (R374, R378) -/

/-- Reach as `RCC_CAUSE` and `RCC_STATE` code it. -/
def Reach.num : Reach → Nat
  | .c => 1 | .s => 2 | .p => 3

/-- The wider of two reaches. -/
def Reach.wider (x y : Reach) : Reach := if x.num < y.num then y else x

/-- The reach of a source. -/
def srcReach (n : Nat) : Reach := if n ≤ 1 then .p else if n ≤ 9 then .s else .c

/-- The first step that a reach runs. -/
def Reach.firstStep : Reach → Nat
  | .p => 1 | .s => 3 | .c => 7

/-- The first step of an episode: E1 when source 8 or 9 began it. -/
def Rcc.firstStep (r : Rcc) (e : Reach) : Nat := if r.fromE1 then 1 else e.firstStep

/-- The first step that an asserted source keeps from running. The rails of E1 release sources 0 and 8. -/
def Rcc.blocks (r : Rcc) (n : Nat) : Nat :=
  if n = 0 ∨ n = 8 then 2 else if n = 9 ∧ r.fromE1 then 1 else (srcReach n).firstStep

/-- Whether step `k` may run. -/
def Rcc.mayRun (r : Rcc) (k : Nat) : Bool :=
  (List.range 16).all fun n => !r.asserted.toNat.testBit n || decide (k < r.blocks n)

/-- `RCC_STATE.HOLDING`: a sequence that has begun waits for a source. -/
def Blk.noteHolding (b : Blk) : Blk :=
  b.onRcc fun r =>
    { r with holding := match r.episode with
        | some e => decide (r.firstStep e < r.step) && !r.mayRun r.step
        | none => false }

/-! ### What a reach resets (R375) -/

/-- The sequencer and log at a reset: what NVM holds stays (R83, R84, R85, R91); queued records are lost (R468). -/
def Evs.restart (e : Evs) (uid : BitVec 128) : Evs :=
  { Evs.reset uid with
    highWater := e.highWater, logWr := e.logWr, logTotal := e.logTotal, unwritten := e.unwritten, pinHeld := e.pinHeld,
    pinWr := e.pinWr, pinFullLogged := e.pinFullLogged, chain := e.chain, startChain := e.startChain,
    pinChain := e.pinChain, newestSeq := e.newestSeq, newestDt := e.newestDt, lastSealDt := e.lastSealDt,
    sealCount := e.sealCount, sealEndSeq := e.sealEndSeq, prevSeal := e.prevSeal, scanning := true }

/-- The Husk, the crypto engine, debug access and sessions at a reset: stores, counters and the tamper records stay. -/
def Security.restart (x : Security) : Security :=
  { x.cache false with
    husk := .sealed, cl1Hold := false, ku := none, debugScope := 0, debugEnd := 0, cryCtrl := 0,
    cryRing := 0, crySize := 4, cryHead := 0, cryTail := 0, entropyOk := true, crySticky := 0, entRep := 0, entProp := 0,
    session := none, challenge := none, failedHs := [], badDatagrams := 0, hsBlockUntil := none, sent := [] }

/-- The update service at a reset: the boot header stays, and so does what it records of an update (R441). -/
def Update.restart (u : Update) : Update :=
  { u with state := if u.comps.toList.any (·.pendingAct) then .scheduled else u.state, due := none,
           refusal := 0, recHost := none, recLast := none, recSegs := [], recMsg := none }

/-- The NVM controller at a reset (R471): what the arrays hold stays. -/
def Nvm.restart (n : Nvm) : Nvm :=
  { n with scanning := true, scrub := false, scrubProg := 0, corr := 0, uncorr := 0, errAddr := 0, sticky := 0,
           memCorrS := 0, memCorrD := 0, memUncS := 0, memUncD := 0, memErrAddr := 0,
           badWords := n.badWords.filter (fun a => a.toNat < 0x10000000) }

/-- The power registers as their journal item holds them (R395), restored at each start. -/
def Blk.readPower (b : Blk) : Blk :=
  let l := b.jItem jPower
  if l.isEmpty then b.onRcc fun r => { r with holdCfg := 0x46, sleepCtrl := 0xA00, updThresh := 0x28 }
  else b.onRcc fun r => { r with holdCfg := BitVec.ofNat 32 (leAt l 0 4), sleepCtrl := BitVec.ofNat 32 (leAt l 4 4),
                                 updThresh := BitVec.ofNat 32 (leAt l 8 4) }

/-- The reset and clock unit at a reset of reach S or P (R396 to R399): the cause registers as R375 and R378 state, what
the pins and supplies show, and FAULT_N's bit 5. -/
def Rcc.restart (r : Rcc) (p : Bool) (variant : Variant) (uid : BitVec 128) : Rcc :=
  let z := (Blk.powerUp variant uid 0).rcc
  { z with
    cause := if p then z.cause else r.cause, causePrev := if p then 0 else r.causePrev,
    episode := r.episode, fromE1 := r.fromE1, asserted := r.asserted, seen := r.seen, step := r.step, holding := r.holding,
    recorded := r.recorded, prevMode := if r.mode = .boot ∧ r.modeCause = 0 then r.prevMode else r.mode,
    wdtCfg := if p then z.wdtCfg else r.wdtCfg, wdtLast := if p then none else r.wdtLast, lockFlag := r.lockFlag,
    bootTamper := if r.mode = .sleep then r.bootTamper else 0, vholdOk := r.vholdOk, feedA := r.feedA, feedB := r.feedB,
    feedALow := r.feedALow, feedBLow := r.feedBLow, vbat := r.vbat, vhold := r.vhold, pwrCore := r.pwrCore,
    holdLast := r.holdLast, holdup := r.holdup, holdupDone := r.holdupDone, vka := r.vka, vioA := r.vioA, vioB := r.vioB,
    powered := r.powered, nPoreset := r.nPoreset, nSysreset := r.nSysreset, resetoutLow := true,
    gpioFault := arg32 (32 * b2n (r.asserted.toNat.testBit 4)) }

/-- A channel's registers of reach S and C at a reset request that its running kernel receives. -/
def Channel.requestReset (ch : Channel) : Channel :=
  { ch with shadow := { ch.shadow with cmd := 0 }, sticky := 0, protSticky := 0, clearBits := 0, clearBy := none,
            energyLatch := [] }

/-- A kernel's registers of reach S at a reset request; its controller, its inputs and its stores run on. -/
def Kernel.requestReset (kn : Kernel) : Kernel :=
  { kn with supplySticky := 0, diSticky := 0, gotCommit := false, commitBits := 0, swapFlag := false, confirmed := none,
            sems := Vector.replicate 8 .free, semBroken := 0, kept := [], unconfirmed := [],
            peaks := Vector.replicate 10 0, vbatMin := 0xFFFF, vbatMax := 0, service := none, serviceReq := none,
            returnPending := none, removing := false, joinNext := false, wdHold := false, isoHoldStart := none,
            coreHoldStart := none }

/-- A kernel before its power-up: its NVM alone. -/
def Kernel.unpowered (kn : Kernel) : Kernel :=
  { Kernel.reset with fbA := kn.fbA, fbB := kn.fbB, protRing := kn.protRing, protGen := kn.protGen, protSlot := kn.protSlot,
                      trimWrites := kn.trimWrites, reversed := kn.reversed, micro := kn.micro }

/-- The kernels at a reset of reach S: fallback, and their registers at the Reset values. -/
def Blk.kernelsRequest (b : Blk) : Blk :=
  (upTo 4).foldl (fun b k =>
    if b.kernelRuns k then
      let b1 := (chansOf k).foldl (fun b c => b.modCh c Channel.requestReset) (b.modK k Kernel.requestReset)
      b1.fallback k (chansOf k) 4
    else b) b

/-- The kernels at a reset of reach P: as at power-up. -/
def Blk.kernelsPower (b : Blk) : Blk :=
  (upTo 4).foldl (fun b k =>
    let on := b.kernelRuns k
    let b1 := (chansOf k).foldl (fun b c => b.modCh c fun ch =>
      { Channel.reset (c.val % 10) with wmSave := ch.wmSave, energySave := ch.energySave }) (b.modK k Kernel.unpowered)
    if on then kernelPowerUp k b1 else b1) b

/-- The shell and the kernels at a reset of reach S, or P. NVM, fuses and the always-on region stay (R373, R468). -/
def Blk.shellReset (p : Bool) (b : Blk) : Blk :=
  let z := Blk.powerUp b.variant b.uid b.rev
  let n : Blk :=
    { z with
      freeCtr := b.freeCtr, chans := b.chans, kernels := b.kernels,
      motion := if p then { z.motion with ref := b.motion.ref } else b.motion,
      senseDrive := if p then z.senseDrive else b.senseDrive, senseNext := if p then z.senseNext else b.senseNext,
      breath := { z.breath with bn := b.breath.bn, bnStored := b.breath.bnStored },
      time := { z.time with dt := b.time.dt, dtFrac := b.time.dtFrac, aot := b.time.aot, aotFrac := b.time.aotFrac,
                            aotContinuous := b.time.aotContinuous, anchorDt := b.time.anchorDt,
                            anchorAot := b.time.anchorAot },
      evs := b.evs.restart b.uid,
      trans := { z.trans with uartCfg := b.trans.uartCfg },
      cfg := { z.cfg with activeSlot := b.cfg.activeSlot, prevId := b.cfg.prevId },
      rcc := b.rcc.restart p b.variant b.uid,
      nmg := { z.nmg with wakeSrc := b.nmg.wakeSrc, sleepAot := b.nmg.sleepAot, localWake := b.nmg.localWake },
      sec := b.sec.restart, upd := b.upd.restart, nvm := b.nvm.restart }
  let b1 := if p then n.kernelsPower else n.kernelsRequest
  let b2 := if b.sec.debugScope = 0 then b1 else b1.ev srcDebug 0x31 2 3
  if b.upd.state = .receiving ∨ b.upd.state = .verifying then b2.dropUpdate 2 else b2

/-- The states of the blocks that a C-reach reset resets: the Chanter, the safety cores, the application cluster. -/
def Blk.coreBlocks (b : Blk) (st : BlkState) : Blk :=
  b.onRcc fun r => { r with blkState := Vector.ofFn fun i =>
    if (i.val = 1 ∨ i.val = 3 ∨ i.val = 4) ∧ r.blkState.get i ≠ .fail then st else r.blkState.get i }

/-- What a C-reach reset does at its assertion (R375, R186, R219): the cores stop, the kernels take their core-reset
action, the tenants' partitions are shut, the Chanter's queues are flushed. -/
def Blk.coreReset (b : Blk) : Blk :=
  let b1 := (upTo 4).foldl (fun b k => if b.kernelRuns k then b.startCoreHold k else b) b
  let b2 := (b1.stopAll 8).coreBlocks .inReset
  let b3 := b2.onDr fun d => { d with fenceRunning := false, tasks := d.tasks.map fun t =>
    { t with pass := .ended, capA := [], capB := [], doneA := false, doneB := false, verified := false } }
  let b4 := ((b3.initReset .chanter).flushProgram 0x20).onEvs fun e =>
    { e with views := e.views.map fun w => { w with wr := 0, wrVis := 0, rd := 0, lost := 0 } }
  if b.upd.state = .receiving ∨ b.upd.state = .verifying then b4.dropUpdate 2 else b4

/-! ### Assertion and release (R378) -/

/-- A source asserted. -/
def Blk.assertSource (b : Blk) (n : Nat) : Blk :=
  let reach := srcReach n
  let old := b.rcc.episode
  let e1 := decide (n = 8 ∨ n = 9)
  let bit_ : BitVec 16 := BitVec.ofNat 16 (2 ^ n)
  let b1 := b.onRcc fun r =>
    match old with
    | none =>
      { r with episode := some reach, fromE1 := e1, asserted := r.asserted ||| bit_, seen := bit_, recorded := none,
               step := if e1 then 1 else reach.firstStep }
    | some e =>
      { r with episode := some (e.wider reach), asserted := if n = 8 then r.asserted else r.asserted ||| bit_,
               seen := r.seen ||| bit_, step := min r.step reach.firstStep,
               cause := if r.recorded.isSome then r.cause ||| bit_.zeroExtend 32 else r.cause }
  let b2 := match reach with
    | .p => b1.shellReset true
    | .s => b1.shellReset false
    | Reach.c => if old = none ∨ old = some Reach.c then b1.coreReset else b1
  b2.noteHolding

/-- A source released. -/
def Blk.releaseSource (b : Blk) (n : Nat) : Blk :=
  (b.onRcc fun r =>
    { r with asserted := r.asserted &&& ~~~ (BitVec.ofNat 16 (2 ^ n)),
             gpioFault := if n = 4 then setBits r.gpioFault 5 5 0 else r.gpioFault }).noteHolding

/-! ### The start of a boot -/

/-- DT at a start (R67). -/
def Blk.startTime (b : Blk) : Blk :=
  b.onTb fun t =>
    match t.anchorDt with
    | none => { t with dt := 0, dtFrac := 0 }
    | some d =>
      let step := if t.aotContinuous then (t.aot.toNat - t.anchorAot.toNat) * 1000000000 / 32768 else 1000000000
      { t with dt := d + BitVec.ofNat 64 step, dtFrac := 0 }

/-- The sequencer and the bellows resume in new blocks (R34, R75), which are stored first; the records that lead the boot
are SEQ_RESUME, what the log lost (R83), TAMPER_UNWATCHED (R423), the hold-up commit (R386), then what was journalled
while the sequencer was in reset (R400). -/
def Blk.startSequencer (b : Blk) : Blk :=
  let h := (b.ctrValue ctrSeq).toNat + 1
  let g := (b.ctrValue ctrBn).toNat + 1
  let b1 := (b.counterPut ctrSeq (BitVec.ofNat 64 h)).counterPut ctrBn (BitVec.ofNat 64 g)
  let b2 := (b1.onBre fun r => { r with bn := BitVec.ofNat 48 (g * 2 ^ 24), bnStored := BitVec.ofNat 24 g }).storeAnchor
  let rec_ := fun (src : BitVec 16) (code sev : Nat) (arg : Word) (pin : Bool) => b2.capture src code sev arg hw 0 pin
  let torn := b2.evs.unwritten
  let lead := [rec_ srcSeq 0x31 1 (arg32 h) false]
    ++ (if torn = 0 then [] else [b2.lostRec srcSeq hw torn, rec_ srcSeq 0x34 2 (arg32 torn) true])
    ++ (if bit b2.sec.tmpStatus 5 then [] else [rec_ (srcOf 9 2) 0x21 3 0 false])
    ++ (if b2.rcc.holdup = false then []
        else if b2.rcc.holdupDone then [rec_ srcRcc 7 2 (arg32 (bits b2.rcc.holdLast 15 0)) true]
        else [rec_ srcRcc 8 3 0 true])
  let b3 := b2.onEvs fun e =>
    { e with nextSeq := BitVec.ofNat 64 (h * 2 ^ 32), highWater := BitVec.ofNat 32 h, resumed := true, scanning := false,
             unwritten := 0, queue := lead ++ e.queue }
  (b3.onSec fun x => { x with tmpStatus := orBits x.tmpStatus 0x20 }).onRcc fun r => { r with holdup := false, feedBack := false }

/-- The module in BOOT after an episode of reach S or P (R389, R390): cause 0x08 after a wake, 0x0D otherwise. -/
def Blk.enterBoot (b : Blk) : Blk :=
  let cause := if b.rcc.seen.toNat.testBit 8 then mcWake else mcReset
  (b.onRcc fun r => { r with mode := .boot, modeCause := cause, entryBn := b.breath.bn, entryDt := b.time.dt }).ev srcRcc 4 2
    (arg32 (1 + b.rcc.prevMode.code * 16 + cause * 256)) (pin := true)

/-- What follows a C-reach episode (R378): the mode goes on, the `AUTOSTART` tenants start, the safety program resets. -/
def Blk.resumeCores (b : Blk) : Blk :=
  let m := b.rcc.mode
  let b1 := if m = .run ∨ m = .service ∨ m = .standby then b.startAuto else b
  let b2 := if b1.dr.run then b1.safetyReset 5 else b1
  if m = .boot ∨ m = .recovery then b2 else ([0, 2, 3] : List (Fin 13)).foldl Blk.trialStart b2

/-- Alarms held in TMP_PENDING are added to the tamper counter at the start (R423). -/
def Blk.addPending (b : Blk) : Blk :=
  if b.sec.tmpPending = 0 then b
  else (b.counterPut ctrTamper (b.ctrValue ctrTamper + BitVec.ofNat 64 b.sec.tmpPending)).onSec fun x => { x with tmpPending := 0 }

/-! ### A life-cycle change (R403, R404, R410) -/

/-- Steps 2 to 5 of R404 with a target state, its g and the new owner root: the fuse is blown, the Husk store is erased,
the certificates are reissued, the pending record is cleared, LIFECYCLE_CHANGED is logged, source 7 is asserted. -/
def Blk.lifecycleFinish (b : Blk) (target g : Nat) (root : List Byte) : Blk :=
  let owner : Slot := { (default : Slot) with gen := 1, used := true, type := ktAnchor, key := root }
  let id := Config.identityCert b.sec.certId target g
  let b1 := b.onSec fun x =>
    let fixed := (Vector.replicate 64 (default : Slot)).set 5 (x.slots.get 5)
    { x with lc := target, gen := g, lcPending := none, receipt := [], kuDigest := 0, epochAtt := 0, epochSeal := 0,
             ownerLock := false, slots := if target = lcOwned then fixed.set 6 owner else fixed,
             certId := id, certAtt := Config.attestCert id 0 0 }
  let b2 := b1.onNvm fun n => n.transact [(jLifeCycle, [])]
  (b2.assertSource 7).ev srcHusk 6 4 (arg32 (target + g * 256)) (pin := true)

/-- A change that a start finds pending (R404). -/
def Blk.lifecycleResume (b : Blk) : Blk :=
  match b.sec.lcPending with
  | some (t, g) => b.lifecycleFinish t g (b.sec.slots.get 6).key
  | none => b

/-- Step E8: the episode ends (R378); RESET_EPISODE is logged. -/
def Blk.endEpisode (b : Blk) (e : Reach) : Blk :=
  let shell := decide (e ≠ .c)
  let b1 := if shell then
      let b' := ((b.counterScan.addPending.startTime).readPower).startSequencer
      b'.onNvm fun n => { n with scanning := false, torn := false, sticky := if n.torn then orBits n.sticky 8 else n.sticky }
    else b
  let b2 := b1.onRcc fun r =>
    { r with episode := none, step := 0, holding := false, fromE1 := false, recorded := none, relDt := b1.time.dt,
             wdtStart := b1.time.dt }
  let b3 := b2.ev srcRcc 1 2 b2.rcc.cause (pin := true)
  if shell then b3.enterBoot else b3.resumeCores

/-! ### The exit sequence (R378) -/

/-- RCC_CAUSE and RCC_CAUSE_PREV at the first step that the effective reach runs. -/
def Rcc.record (r : Rcc) (e : Reach) : Rcc :=
  { r with causePrev := if e = .p then 0 else r.cause, cause := mkWord [r.seen.toNat, e.num * 2 ^ 28], recorded := some e }

/-- Step E3 (R381): the samples of the straps, BOOT[2:0] in bits [2:0] and CLKMODE[1:0] in bits [4:3]. A strap whose four
samples disagree, and a value that no boot source has, is taken as 0. -/
def Blk.sampleStraps (b : Blk) (samples : List (BitVec 5)) : Blk :=
  let four := samples.take 4
  let last := (four.getLast?.getD 0).toNat
  let agree := fun (f : Nat → Nat) => decide (four.length = 4) && four.all (fun s => decide (f s.toNat = f last))
  let boot := last % 8
  let bootOk := agree (· % 8) && decide (boot < 6) && !(decide (boot = 5) && decide (b.sec.lc ≠ lcBlank))
  let clkOk := agree (· / 8)
  let eff := if bootOk then boot else 0
  let clk := if clkOk then last / 8 else 0
  let bad := !bootOk || !clkOk
  let b1 := b.onRcc fun r =>
    { r with bootSel := BitVec.ofNat 3 eff, straps := mkWord [boot, fld clk 2 3, fld (b2n bad) 1 5, fld eff 3 8],
             blkState := Vector.replicate 11 .pending }
  if bad then b1.ev srcRcc 3 2 (arg32 boot) (pin := true) else b1

/-- Blocks that have no clock with CLKMODE[1:0] = 0b11 (R380). -/
def Blk.clockless (b : Blk) (i : Block) : Bool := decide (bits b.rcc.straps 4 3 = 3) && decide (6 ≤ i.val ∧ i.val ≤ 8)

/-- Step E4: the clocks that CLKMODE selects; blocks 0 to 2 are released, and the fault bit of their clocks goes. -/
def Blk.startClocks (b : Blk) : Blk :=
  let clk := bits b.rcc.straps 4 3
  let ext := b2n (decide (clk ≠ 3))
  b.onRcc fun r =>
    { r with clkSrc := mkWord [clk, fld ext 1 2, 8, fld ext 1 4],
             blkState := Vector.ofFn fun i => if i.val < 3 then .running else r.blkState.get i,
             blkGood := Vector.ofFn fun i => if i.val < 3 then 64 else r.blkGood.get i }

/-- The shell core level at a start (R383): between 0.72 and 0.88 V in steps of 5 mV; the spec gives no value. -/
def Blk.startCoreLevel (b : Blk) : Blk :=
  let (c, b1) := b.fresh
  b1.onRcc fun r => { r with powered := true, pwrCore := arg32 (720 + 5 * (Config.freeNat c % 33)) }

/-- What a step of the sequence does. -/
def Blk.runStep (b : Blk) (e : Reach) (samples : List (BitVec 5)) : Nat → BW
  | 1 => ((((b.startCoreLevel).releaseSource 0).releaseSource 8), [])
  | 3 => (b.sampleStraps samples, [])
  | 4 => (b.startClocks, [])
  | 5 => (b.emptyPool, [.clear 0x10000000 0x1000000, .clear 0x80000000 0x80000000])
  | 7 => ((if e = .c then b.coreBlocks .running else b).onRcc fun r => { r with resetoutLow := false }, [])
  | 8 => ((b.endEpisode e).lifecycleResume, [])
  | _ => (b, [])

/-- EXIT_STEP_DONE (R378): the step the sequence stands at completes, unless a source holds it. -/
def exitStepDone (samples : List (BitVec 5)) (b : Blk) : BW :=
  match b.rcc.episode with
  | none => (b, [])
  | some e =>
    let k := b.rcc.step
    if b.rcc.mayRun k = false then (b.noteHolding, [])
    else
      let b1 := if b.rcc.firstStep e = k ∧ b.rcc.recorded ≠ some e then b.onRcc fun r => r.record e else b
      let x := b1.runStep e samples k
      if k = 8 then x else x.map fun b => (b.onRcc fun r => { r with step := k + 1 }).noteHolding

/-! ### Sources -/

/-- SHELL_POWER_ON (R374). -/
def shellPowerOn (b : Blk) : Blk := b.assertSource 0
/-- PORESET_N low and high for 1 µs; without VIO_B the pin reads as released. -/
def poresetAssert (b : Blk) : Blk :=
  if b.rcc.vioB then (b.onRcc fun r => { r with nPoreset := false }).assertSource 1 else b
def poresetRelease (b : Blk) : Blk := (b.onRcc fun r => { r with nPoreset := true }).releaseSource 1
/-- SYSRESET_N low and high for 1 µs. -/
def sysresetAssert (b : Blk) : Blk :=
  if b.rcc.vioB then (b.onRcc fun r => { r with nSysreset := false }).assertSource 2 else b
def sysresetRelease (b : Blk) : Blk := (b.onRcc fun r => { r with nSysreset := true }).releaseSource 2
/-- SUPPLY_DIFFERENCE (R198). -/
def supplyDifference (b : Blk) : Blk := b.assertSource 3
/-- SHELL_OVERTEMP (R374, R398, R400): a junction above 130 °C, in 1/16 °C. -/
def shellOvertemp (tj : BitVec 16) (b : Blk) : Blk :=
  if tj.toInt ≤ 130 * 16 then b else (b.assertSource 4).ev srcRcc 0xA 4 (argInt tj.toInt) (pin := true)

/-- WATCHDOG (R374): an expiry within 10 s of the one before is a second expiry. The Chanter in reset kicks nothing and its
watchdog does not run. -/
def watchdog (b : Blk) : Blk :=
  if b.rcc.episode.isSome then b
  else
    let second : Bool := match b.rcc.wdtLast with
      | some d => decide (b.since d ≤ 10000000000)
      | none => false
    let b1 := b.onRcc fun r => { r with wdtLast := some b.time.dt, wdtStart := b.time.dt }
    (b1.assertSource (if second then 5 else 13)).ev srcRcc 0xB 3 (arg32 (b2n second)) (pin := true)

/-- RCC_WDT_KICK (R396), which the Chanter alone reaches (R16). -/
def rccWdtKickWrite (i : Initiator) (w : Word) (b : Blk) : Blk :=
  if i ≠ .chanter then b.denied i 0x40000020
  else if w = 0x5A5A then b.onRcc fun r => { r with wdtStart := b.time.dt } else b

/-- CHANTER_FATAL_FAULT (R374). -/
def chanterFatalFault (b : Blk) : Blk := b.assertSource 14
/-- DEBUG_RESET_REQUEST (R374, R421): JTAG offers it only while debug access is open, or in BLANK. -/
def debugResetRequest (b : Blk) : Blk :=
  if b.sec.debugScope ≠ 0 ∨ b.sec.lc = lcBlank then b.assertSource 15 else b
/-- RESET_SOURCE_RELEASE (R374): sources 3 to 7, 9 and 12 to 15. The pins and the rails release the others. -/
def resetSourceRelease (n : ResetBit) (b : Blk) : Blk :=
  if n.val ≤ 2 ∨ n.val = 8 ∨ b.rcc.asserted.toNat.testBit n.val = false then b else b.releaseSource n.val

/-! ### Clocks (R379, R380) -/

/-- A block released: what runs in it starts again. -/
def Blk.blockUp (b : Blk) (i : Block) : Blk :=
  if b.rcc.mode.breathes = false then b
  else match i.val with
    | 4 => if b.rcc.mode = .run ∨ b.rcc.mode = .service ∨ b.rcc.mode = .standby then b.startAuto else b
    | 6 => b.switchStart
    | 9 => b.canStart
    | _ => b

/-- A block put in reset: what runs in it stops. -/
def Blk.blockDown (b : Blk) (i : Block) : Blk :=
  let links := fun (l : List (Fin 13)) => l.foldl (fun b p => if (b.port p).link then b.dropLink p else b) b
  match i.val with
  | 3 => b.onDr fun d => { d with fenceRunning := false, tasks := d.tasks.map fun t =>
      { t with pass := if t.pass = .ended then .ended else .betweenAB, capA := [], capB := [], doneA := false, doneB := false } }
  | 4 => b.stopAll 8
  | 6 => b.switchStop
  | 7 => links [0, 1]
  | 8 => links [2, 3, 4, 5, 6, 7, 8, 9, 10]
  | 9 => b.canStop
  | _ => b

/-- The deviation and the windows of a block's clock. -/
def Blk.setClock (b : Blk) (i : Block) (st : BlkState) (good : Nat) (dev : BitVec 16) : Blk :=
  b.onRcc fun r => { r with blkState := vmod r.blkState i (fun _ => st), blkGood := vmod r.blkGood i (fun _ => good),
                            blkDev := vmod r.blkDev i (fun _ => dev) }

/-- CLOCK_GOOD: a waiting block is released. -/
def clockGood (i : Block) (dev : BitVec 16) (b : Blk) : Blk :=
  if b.rcc.blkState.get i ≠ .pending ∨ b.clockless i then b else (b.setClock i .running 64 dev).blockUp i

/-- CLOCK_FAIL: the block stays in reset, and from 3 to 10 is absent (R2); 0 to 2 assert source 6; 4 sends the module to
LIMP (R390, R391). -/
def clockFail (i : Block) (dev : BitVec 16) (b : Blk) : Blk :=
  if b.rcc.blkState.get i ≠ .pending ∨ b.clockless i then b
  else
    let b1 := b.setClock i .fail 0 dev
    let b2 := if i.val < 3 then b1.assertSource 6 else b1
    let b3 := (b2.onRcc fun r => { r with gpioFault := orBits r.gpioFault 0x10 }).ev srcRcc 2 4 (arg32 i.val) (pin := true)
    if i = 4 ∧ b3.guard .limp = some true then b3.schedule .limp mcApp 4 none else b3

/-- CLOCK_LOST: a running block is put in reset. -/
def clockLost (i : Block) (dev : BitVec 16) (b : Blk) : Blk :=
  if b.rcc.blkState.get i ≠ .running then b else (b.setClock i .pending 0 dev).blockDown i

/-! ### RESET_DEVICE and RESET_CAUSE (R245) -/

def cmdResetDevice : Cmd := { op := 0x204, len := .exactly 4, parts := false, modes := [1, 2, 3, 4, 5, 6, 8], who := hosts }
def cmdResetCause : Cmd := { op := 0x205, len := .exactly 0, parts := false, modes := [1, 2, 3, 4, 5, 6, 8], who := hosts }

/-- RESET_DEVICE: the reset follows 10 ms after the response is visible. In RECOVERY the ROM serves reach S. -/
def resetDevice (r : Req) (b : Blk) : Blk :=
  serve cmdResetDevice r noAbsent noGrant (fun b _ p =>
    let k := (byteAt p 0).toNat
    match firstErr ([(decide (¬ (k = 1 ∨ (k = 2 ∧ b.rcc.mode ≠ .recovery))), errAt 0 stBadParam 1 0)] ++ zeroErr p 1 3) with
    | some e => b.refuseReq 0x204 r e
    | none => (b.ok 0x204 r []).onRcc fun x => { x with resetDue := some (decide (k = 1)) }) b

/-- RESET_CAUSE. -/
def resetCause (r : Req) (b : Blk) : Blk :=
  serve cmdResetCause r noAbsent noGrant
    (fun b _ _ => b.ok 0x205 r (leBytes 4 b.rcc.cause.toNat ++ leBytes 8 b.rcc.relDt.toNat)) b

/-- RESET_DEVICE_ASSERTED: source 7 for reach S, 12 for reach C. -/
def resetDeviceAsserted (reachS : Bool) (b : Blk) : Blk :=
  if b.rcc.resetDue ≠ some reachS then b
  else (b.onRcc fun x => { x with resetDue := none }).assertSource (if reachS then 7 else 12)

/-! ### Meanings -/

def execShellPowerOn (s : State) : Res := .next (s.onBlk shellPowerOn)
def execPoresetNAssert (s : State) : Res := .next (s.onBlk poresetAssert)
def execPoresetNRelease (s : State) : Res := .next (s.onBlk poresetRelease)
def execSysresetNAssert (s : State) : Res := .next (s.onBlk sysresetAssert)
def execSysresetNRelease (s : State) : Res := .next (s.onBlk sysresetRelease)
def execSupplyDifference (s : State) : Res := .next (s.onBlk supplyDifference)
def execShellOvertemp (tj : BitVec 16) (s : State) : Res := .next (s.onBlk (shellOvertemp tj))
def execWatchdog (s : State) : Res := .next (s.onBlk watchdog)
def execRccWdtKickWrite (i : Initiator) (w : Word) (s : State) : Res := .next (s.onBlk (rccWdtKickWrite i w))
def execChanterFatalFault (s : State) : Res := .next (s.onBlk chanterFatalFault)
def execDebugResetRequest (s : State) : Res := .next (s.onBlk debugResetRequest)
def execResetSourceRelease (n : ResetBit) (s : State) : Res := .next (s.onBlk (resetSourceRelease n))
def execExitStepDone (samples : List (BitVec 5)) (s : State) : Res := .next (s.onMem fun _ b => exitStepDone samples b)
def execClockGood (i : Block) (dev : BitVec 16) (s : State) : Res := .next (s.onBlk (clockGood i dev))
def execClockFail (i : Block) (dev : BitVec 16) (s : State) : Res := .next (s.onBlk (clockFail i dev))
def execClockLost (i : Block) (dev : BitVec 16) (s : State) : Res := .next (s.onBlk (clockLost i dev))
def execResetDevice (r : Req) (s : State) : Res := .next (s.onBlk (resetDevice r))
def execResetCause (r : Req) (s : State) : Res := .next (s.onBlk (resetCause r))
def execResetDeviceAsserted (reachS : Bool) (s : State) : Res := .next (s.onBlk (resetDeviceAsserted reachS))

end Sys2Proof.Machine
end

