-- ==== Sys2Proof/Machine/Power.lean ====
section
/-! DEFINITION. The completion of a start (R271, R390, R437, R438, R447), supplies and the hold-up commit (R383 to
R388), SLEEP and wakes (R348, R393), the always-on region (R373), and the meanings of their rows. -/

namespace Sys2Proof.Machine
open Sys2Proof

/-! ### Start completion (R271, R390, R437, R438) -/

/-- RECOVERY entered by the ROM (R390, R447); the queues of its transports are enabled as DESIGN CHOICE, log entry 15. -/
def Blk.romServes (b : Blk) (mbs : List (Fin 12)) : Blk :=
  mbs.foldl (fun b m => (upTo 3).foldl (fun b j =>
    let q := mbQueue m j
    let p := mailboxParties q.val
    b.modQ q fun x => { x with limits := mkWord [64, fld 64 13 16],
                               owners := mkWord [p.1, fld p.2.1 8 8, fld (b2n (decide (j.val = 0))) 1 18, fld 1 1 19,
                                                 fld p.2.2.1 4 20, fld p.2.2.2 4 24], holdCfg := 0 }) b) b

/-- RECOVERY with a mode cause, the ARG of RECOVERY_ENTERED and the mailboxes that the ROM serves. Management frames over
P2 take the place of MB10 (R449). -/
def Blk.enterRecovery (m : Mem) (b : Blk) (cause arg : Nat) (mbs : List (Fin 12)) : BW :=
  ((b.romServes mbs).ev (srcUpd 0) 0xC 3 (arg32 arg)).enterMode m .recovery cause none

/-- The Chanter slot passes R438: the ROM's verdict on the slot it takes and the stored measurement. -/
def Blk.chanterPasses (m : Mem) (b : Blk) (firmwareOk slotB : Bool) : Bool :=
  firmwareOk && measured m cChanter slotB ((b.comp 0).slot slotB)

/-- Component 0 from a slot that passes: the one that is active or on trial, or the other with UPDATE_REVERTED. -/
def Blk.pickChanter (m : Mem) (b : Blk) (firmwareOk : Bool) : Option Blk :=
  let c := b.comp 0
  let other := (c.slot (!c.runB)).state
  if b.chanterPasses m firmwareOk c.runB then some b
  else if (other = .active ∨ other = .previous) ∧ b.chanterPasses m firmwareOk (!c.runB) then
    let b1 := b.modComp 0 fun x =>
      { (x.modSlot x.runB fun y => { y with state := .invalid }).modSlot (!x.runB) (fun y => { y with state := .active }) with
        runB := !x.runB, trialStarts := 0, revert := false }
    some (b1.dropMigration.ev (srcUpd 0) 8 3 (arg32 (b2n (!c.runB))))
  else none

/-- The partition monitor and the kernel microcode checked in the same way: a slot that fails gives way to the other. -/
def Blk.pickOther (m : Mem) (i : Fin 13) (b : Blk) : Blk :=
  let c := b.comp i
  let other := (c.slot (!c.runB)).state
  if measured m (compCode i) c.runB (c.slot c.runB) then b
  else if (other = .active ∨ other = .previous) ∧ measured m (compCode i) (!c.runB) (c.slot (!c.runB)) then
    (b.modComp i fun x =>
      { (x.modSlot x.runB fun y => { y with state := .invalid }).modSlot (!x.runB) (fun y => { y with state := .active }) with
        runB := !x.runB, trialStarts := 0, revert := false }).ev (srcUpd (compCode i)) 8 3 (arg32 (b2n (!c.runB)))
  else b

/-- The image of a configuration slot, when it passes R263 steps 1 to 6. -/
def Blk.slotImage (m : Mem) (b : Blk) (slotB : Bool) : Option Image :=
  let x := (b.comp 4).slot slotB
  if x.usable = false then none
  else match b.verifyImage (imageBytes m cConfig slotB x) x.len x.digest false with
    | .ok im => some im
    | .error _ => none

/-- The configuration that a start loads (R271): the active slot, or the other with CONFIG_SLOT_BAD; a configuration on
trial then fails its trial (R443). -/
def Blk.pickConfig (m : Mem) (b : Blk) : Option (Blk × Image) :=
  let a := b.cfg.activeSlot
  match b.slotImage m a with
  | some im => some (b, im)
  | none => match b.slotImage m (!a) with
    | none => none
    | some im =>
      let b1 := if b.onTrial 4 then (b.trialFail 4 4).revertComp 4
        else (b.modComp 4 fun c =>
          { (c.modSlot a fun y => { y with state := .invalid }).modSlot (!a) (fun y => { y with state := .active }) with
            runB := !a }).followSlot 4
      some ((b1.onCfg fun c => { c with activeSlot := !a }).ev srcSys 0x45 4 (arg32 (b2n a)) (pin := true), im)

/-- The image applied at a start (R390): microcode and trims loaded, shell and networks configured, running. -/
def Blk.startWith (m : Mem) (b : Blk) (im : Image) : Blk :=
  let b1 := (b.shellPart none im true).pickOther m 2 |>.pickOther m 3
  let v : Byte := BitVec.ofNat 8 (b1.running 3).major
  let b2 := forAll 4 (fun b k => b.modK k fun kn => { kn with micro := v }) b1
  let b3 := (b2.onCfg fun c => { c with prevId := (b2.otherImage m).map (·.id) }).migrate
  let powerOn := decide (bits b3.rcc.cause 0 0 = 1)
  ((b3.canStart.nmStart powerOn).switchStart)

/-- The mode that a start completes into (R390, R392): LOCKDOWN with the stored flag or after a class 2 alarm during it,
otherwise RUN. -/
def Blk.startMode (m : Mem) (b : Blk) : BW :=
  let t := b.rcc.bootTamper
  let b1 := b.onRcc fun r => { r with bootTamper := 0 }
  let x : BW :=
    if b.rcc.lockFlag ∨ t = 2 then
      (b1.startBreath .lockdown).enterMode m .lockdown (if t = 2 then mcTamper2 else mcStored) none
    else if t = 1 then ((b1.huskTo .unavailable).startBreath .run).enterMode m .run mcTamper1 none
    else (b1.unseal.startBreath .run).enterMode m .run mcStart none
  x.map fun b => if b.nmg.localWake then b.localWakeNow else b

/-- BOOT_COMPLETE (R390): the start completes into RUN, LOCKDOWN or RECOVERY. -/
def bootComplete (firmwareOk : Bool) (m : Mem) (b0 : Blk) : BW :=
  if b0.rcc.mode ≠ .boot ∨ b0.rcc.episode.isSome then (b0, [])
  else
    let sel := b0.rcc.bootSel.toNat
    if sel = 1 then b0.enterRecovery m mcStrap 1 [10]
    else if sel = 2 then b0.enterRecovery m mcStrap 1 [11]
    else if sel = 3 then b0.enterRecovery m mcStrap 1 [9]
    else if b0.upd.bootA = false ∧ b0.upd.bootB = false then
      (b0.ev (srcUpd 0) 0xD 4 3).enterRecovery m mcNoImage 2 [9, 11]
    else
      let b := b0.startComponents
      match b.pickChanter m firmwareOk with
      | none => b.enterRecovery m mcNoImage 2 [9, 11]
      | some b1 => match b1.pickConfig m with
        | none => b1.enterRecovery m mcNoImage 3 [9, 11]
        | some (b2, im) => (b2.startWith m im).startMode m

/-! ### Core supply and feeds (R383, R384, R388) -/

/-- AVS_STEP: the target moves 5 mV and stays within 720 and 880 mV. -/
def avsStep (up : Bool) (measured : BitVec 12) (b : Blk) : Blk :=
  let t := bits b.rcc.pwrCore 11 0
  let want := if up then t + 5 else t - 5
  let now := min 880 (max 720 want)
  b.onRcc fun r =>
    { r with pwrCore := mkWord [now, fld measured.toNat 12 16],
             pwrSticky := if now = want then r.pwrSticky else orBits r.pwrSticky 8 }

/-- VBATA or VBATB as measured, 2 mV units. -/
def Blk.setVbat (b : Blk) (feedB : Bool) (v : BitVec 16) : Blk :=
  b.onRcc fun r => { r with vbat := if feedB then setBits r.vbat 31 16 v.toNat else setBits r.vbat 15 0 v.toNat }

/-- FEED_LOST (R384): a feed falls below 8.0 V; logged while the other is good. -/
def feedLost (feedB : Bool) (v : BitVec 16) (b : Blk) : Blk :=
  let r := b.rcc
  if 4000 ≤ v.toNat ∨ (if feedB then r.feedB else r.feedA) = false then b
  else
    let log := (if feedB then r.feedA else r.feedB) && !(feedB && decide (b.variant = .nz820))
    let b1 := (b.setVbat feedB v).onRcc fun r =>
      if feedB then { r with feedB := false, feedBLow := log, pwrSticky := orBits r.pwrSticky 2 }
      else { r with feedA := false, feedALow := log, pwrSticky := orBits r.pwrSticky 1 }
    if log then b1.ev srcRcc 5 3 (arg32 (b2n feedB)) else b1

/-- FEED_GOOD (R384, R385, R388): a feed has stood above 8.5 V for 10 ms; VHOLD charges from it. In a hold-up commit it
asserts source 9 once the commit has completed. -/
def feedGood (feedB : Bool) (v : BitVec 16) (b : Blk) : Blk :=
  let r := b.rcc
  if v.toNat < 4250 then b
  else
    let low := if feedB then r.feedBLow else r.feedALow
    let b1 := (b.setVbat feedB v).onRcc fun r =>
      let r1 := if feedB then { r with feedB := true, feedBLow := false } else { r with feedA := true, feedALow := false }
      { r1 with vhold := setBits r1.vhold 15 0 (max (bits r1.vbat 15 0) (bits r1.vbat 31 16)), vholdOk := true }
    let b2 := if low then b1.ev srcRcc 6 1 (arg32 (b2n feedB)) else b1
    if b2.rcc.holdup = false ∨ b2.rcc.mode = .sleep then b2
    else if b2.rcc.holdupDone then b2.assertSource 9
    else b2.onRcc fun r => { r with feedBack := true }

/-! ### The hold-up commit (R386, R388) -/

/-- HOLDUP_TRIP: the higher feed stayed below TRIP for 5 µs. -/
def holdupTrip (b : Blk) : Blk := if b.rcc.powered then b.startHoldup else b

/-- Temperatures in units of 1/64 K as the journal holds them. -/
def sixtyFourths (r : Rat) : Nat := ((r * 64).floor).toNat

/-- The items of the hold-up commit (R115, R126, R67, R83, R386) in the order of their owners. -/
def Blk.holdupItems (b : Blk) (left us : Nat) : List (BitVec 16 × List Byte) :=
  [(jWire, leBytes 6 b.time.aot.toNat ++ b.chans.toList.flatMap fun c => leBytes 4 (sixtyFourths c.th1) ++ leBytes 4 (sixtyFourths c.th2)),
   (jEnergy, b.chans.toList.flatMap fun c => leBytes 8 c.energy.toNat ++ leBytes 4 c.onTime ++ leBytes 4 c.switches),
   (jAnchor, leBytes 8 b.time.dt.toNat ++ leBytes 6 b.time.aot.toNat),
   (jUnwritten, leBytes 4 left),
   (jHoldup, leBytes 4 us)]

/-- HOLDUP_COMMITTED: the items and the queued log records are written and the journal is committed. How many of the
queued records VHOLD still carries is a free value. -/
def holdupCommitted (us : BitVec 16) (m : Mem) (b : Blk) : BW :=
  if b.rcc.holdup = false ∨ b.rcc.holdupDone then (b, [])
  else
    let (c, b0) := b.fresh
    let x := (b0.saveChannels true true).drain m (Config.freeNat c % (b.evs.logQ.length + 1))
    x.map fun b =>
      let left := b.evs.logQ.length
      let b1 := b.onNvm fun n => n.transact (b.holdupItems left us.toNat)
      let b2 := (b1.onTb fun t => { t with anchorDt := some t.dt, anchorAot := t.aot, aotContinuous := true }).onEvs fun e =>
        { e with unwritten := left, logQ := [] }
      let b3 := b2.onRcc fun r =>
        { r with holdupDone := true, holdLast := arg32 (us.toNat + 65536), sleepStep := if r.sleepStep = 3 then 4 else r.sleepStep }
      if b3.rcc.feedBack then (b3.onRcc fun r => { r with feedBack := false }).assertSource 9 else b3

/-- VHOLD_DEPLETED: VHOLD below 5.0 V in a commit leaves the shell powered down. -/
def vholdDepleted (b : Blk) : Blk :=
  if b.rcc.holdup = false then b
  else b.stopBreath.onRcc fun r => { r with powered := false, vholdOk := false,
                                            holdLast := if r.holdupDone then r.holdLast else setBits r.holdLast 16 16 0 }

/-! ### Mode triggers (R390, R393) -/

/-- PARTITION_MONITOR_FAILURE: the third within 10 min sends the module to LIMP. -/
def partitionMonitorFailure (b : Blk) : Blk :=
  let l := b.rcc.pmFails.filter (fun t => decide (b.since t < 600000000000)) ++ [b.time.dt]
  let b1 := b.onRcc fun r => { r with pmFails := l }
  if 3 ≤ l.length ∧ b1.guard .limp = some true then
    (b1.onRcc fun r => { r with pmFails := [] }).schedule .limp mcApp 4 none
  else b1

/-- AUTO_SLEEP_REQUEST: with AUTO set, SLEEP_READY has read 1 for DELAY in RUN or STANDBY. -/
def autoSleepRequest (b : Blk) : Blk :=
  if bit b.rcc.sleepCtrl 0 ∧ b.guard .sleep = some true ∧ b.rcc.sched.isNone then b.schedule .sleep mcAutoSleep 5 none else b

/-- SLEEP_POWER_DOWN (R393 step 4). -/
def sleepPowerDown (b : Blk) : Blk :=
  if b.rcc.mode ≠ .sleep ∨ b.rcc.sleepStep ≠ 4 then b
  else
    let b1 := (b.onRcc fun r => { r with powered := false, sleepStep := 5 }).onEvs fun e => { e with resumed := false }
    { b1 with nmg := { b1.nmg with sleepAot := b1.time.aot } }

/-- SLEEP_ABORTED_ENTRY (R393): a wake before step 4; the previous mode returns at the next tick. -/
def sleepAbortedEntry (step : Fin 4) (b : Blk) : Blk :=
  if b.rcc.mode ≠ .sleep ∨ 5 ≤ b.rcc.sleepStep then b
  else
    let b1 := (b.ev srcRcc 9 1 (arg32 step.val)).onRcc fun r => { r with holdup := false, holdupDone := false, sleepStep := 0 }
    let b2 := ((b1.addPending.startBreath b1.rcc.sleepFrom).switchStart)
    b2.onRcc fun r =>
      let lock := decide (r.bootTamper = 2)
      { r with bootTamper := 0,
               sched := some { target := if lock then .lockdown else r.sleepFrom, cause := if lock then mcTamper2 else mcWake,
                               at_ := b2.breath.bn + 1, rank := 1, due := none } }

/-! ### Wakes (R348) -/

/-- A local cause wakes the module from SLEEP, or counts at once when it is awake. -/
def Blk.wakeNow (b : Blk) : Blk :=
  if b.rcc.mode = .sleep then (if b.rcc.sleepStep = 5 then b.assertSource 8 else b)
  else if b.nmg.localWake ∧ b.rcc.episode.isNone ∧ b.rcc.mode ≠ .boot ∧ b.rcc.mode ≠ .recovery then b.localWakeNow else b

/-- MODULE_WAKE: a digital input, a channel trip, or what a detector has recorded. `src` is the SRC of the cause. -/
def moduleWake (src : BitVec 16) (di trip : Bool) (b : Blk) : Blk :=
  let b1 := if di ∨ trip then b.localCause (b2n di + 2 * b2n trip) src else b
  b1.wakeNow

/-- TIMER_WAKE: AOT reaches the next multiple of NM_TIMER_WAKE since SLEEP entry; 0 disables the timer. -/
def timerWake (b : Blk) : Blk :=
  if b.nmg.timerWake = 0 ∨ b.rcc.mode ≠ .sleep then b else (b.localCause 4 0).wakeNow

/-! ### The always-on region and VIO (R373, R397) -/

/-- ALWAYS_ON_POWER_ON: VKA returned; AOT, the tamper records and NM_WAKE_SRC start again. -/
def alwaysOnPowerOn (b : Blk) : Blk :=
  let b1 := b.onTb fun t => { t with aot := 0, aotFrac := 0, aotContinuous := false }
  let b2 := b1.onSec fun x => { x with tmpStatus := 0, tmpLast := 0, tmpLastAot := 0, tmpPending := 0, class1 := [] }
  let b3 : Blk := { b2 with nmg := { b2.nmg with wakeSrc := 0, localWake := false, sleepAot := 0 } }
  b3.onRcc fun r => { r with vka := true }

/-- VIO_LOST: an I/O supply goes or returns. Without VIO_B the reset pins read as released. -/
def vioLost (bankB lost : Bool) (b : Blk) : Blk :=
  let b1 := b.onRcc fun r =>
    if bankB then { r with vioB := !lost, pwrSticky := if lost then orBits r.pwrSticky 0x20 else r.pwrSticky }
    else { r with vioA := !lost, pwrSticky := if lost then orBits r.pwrSticky 0x10 else r.pwrSticky }
  if bankB ∧ lost then
    (((b1.onRcc fun r => { r with nPoreset := true, nSysreset := true }).releaseSource 1).releaseSource 2)
  else b1

/-! ### Meanings -/

def execBootComplete (firmwareOk : Bool) (s : State) : Res := .next (s.onMem (bootComplete firmwareOk))
def execAvsStep (up : Bool) (measured : BitVec 12) (s : State) : Res := .next (s.onBlk (avsStep up measured))
def execFeedLost (feedB : Bool) (v : BitVec 16) (s : State) : Res := .next (s.onBlk (feedLost feedB v))
def execFeedGood (feedB : Bool) (v : BitVec 16) (s : State) : Res := .next (s.onBlk (feedGood feedB v))
def execHoldupTrip (s : State) : Res := .next (s.onBlk holdupTrip)
def execHoldupCommitted (us : BitVec 16) (s : State) : Res := .next (s.onMem (holdupCommitted us))
def execVholdDepleted (s : State) : Res := .next (s.onBlk vholdDepleted)
def execPartitionMonitorFailure (s : State) : Res := .next (s.onBlk partitionMonitorFailure)
def execAutoSleepRequest (s : State) : Res := .next (s.onBlk autoSleepRequest)
def execSleepPowerDown (s : State) : Res := .next (s.onBlk sleepPowerDown)
def execSleepAbortedEntry (step : Fin 4) (s : State) : Res := .next (s.onBlk (sleepAbortedEntry step))
def execModuleWake (src : BitVec 16) (di trip : Bool) (s : State) : Res := .next (s.onBlk (moduleWake src di trip))
def execTimerWake (s : State) : Res := .next (s.onBlk timerWake)
def execAlwaysOnPowerOn (s : State) : Res := .next (s.onBlk alwaysOnPowerOn)
def execVioLost (bankB lost : Bool) (s : State) : Res := .next (s.onBlk (vioLost bankB lost))

end Sys2Proof.Machine
end

