-- ==== Sys2Proof/Machine/Security.lean ====
section
/-! DEFINITION. Identity, keys and tamper (chapter 16): the key update of R412 to R416, signed control messages (R417,
R418), debug access (R421), tamper alarms (R422 to R425), entropy and the crypto ring (R426, R427), attestation (R410,
R411) and the handshake and datagrams of the management session (R419, R420), with the meanings of their rows. -/

namespace Sys2Proof.Machine
open Sys2Proof

/-- SRC of the crypto engine, the tamper monitor and the management endpoint (R432). -/
def srcCry : BitVec 16 := srcOf 9 1
def srcTmp : BitVec 16 := srcOf 9 2
def srcMgmt : BitVec 16 := srcOf 9 4

/-! ### Labels of R405 -/

def labelId : List Byte := [0x44, 0x45, 0x56, 0x2D, 0x49, 0x44]
def labelAttest : List Byte := [0x41, 0x54, 0x54, 0x45, 0x53, 0x54]
def labelWrap : List Byte := [0x57, 0x52, 0x41, 0x50, 0x2D, 0x4B, 0x45, 0x59]
def labelH2D : List Byte := [0x4D, 0x47, 0x4D, 0x54, 0x2D, 0x48, 0x32, 0x44]
def labelD2H : List Byte := [0x4D, 0x47, 0x4D, 0x54, 0x2D, 0x44, 0x32, 0x48]

/-- A signature by the identity key, slot 0, which depends on the state and g. -/
def Blk.signId (b : Blk) (msg : List Byte) : List Byte := padTo sigLen (Config.mldsaSign (b.keyLabel labelId) 0 msg)

/-! ### Signed messages -/

/-- A handle that no longer matches its slot (R407). -/
def Blk.staleHandle (b : Blk) (h : Nat) : Bool := decide (h ≠ 0) && (b.slotOfHandle h).isNone

/-- The anchor that a handle names, when it acts in a role. -/
def Blk.signer (b : Blk) (h role : Nat) : Option Slot :=
  match b.slotOfHandle h with
  | some (n, s) => if b.anchorsReady ∧ b.anchorActs n s role then some s else none
  | none => none

/-- A message bound to the UID, the life-cycle code and g of the module: bytes 4 to 21 (R412, R417, R421). -/
def Blk.boundHere (b : Blk) (l : List Byte) : Bool := decide (leAt l 4 16 = b.uid.toNat ∧ slice l 20 2 = b.lcBytes)

/-- Steps 1 to 3 of R413 for a message that an anchor may sign: UID and life cycle, anchor and role, signature. -/
def Blk.authChecks (b : Blk) (l : List Byte) (anchor : Option Slot) : List (Bool × Err) :=
  [(!b.boundHere l, err stAuth 2 0), (anchor.isNone, errAt 32 stAuth 3 0),
   (match anchor with
    | some s => !Config.mldsaVerify s.key (splitSig l).1 (splitSig l).2
    | none => true, err stAuth 1 0)]

/-- The head of a signed message: FORMAT, its zero bytes and its anchor handle (R236 step 7). -/
def Blk.headChecks (b : Blk) (l : List Byte) : List (Bool × Err) :=
  [(decide (leAt l 0 2 ≠ 1), errAt 0 stBadParam 1 0)] ++ zeroErr l 3 1 ++ zeroErr l 22 2 ++ zeroErr l 34 2
    ++ [(b.staleHandle (leAt l 32 2), errAt 32 stBadParam 6 0)]

/-! ### KEY_UPDATE (R255, R412 to R416) -/

/-- One operation of a key update message with its offset. -/
structure KeyOp where
  off   : Nat
  code  : Nat
  slot  : Nat
  type  : Nat
  grant : Nat
  param : Nat
  head  : List Byte
  body  : List Byte
  deriving DecidableEq, Repr

/-- The operations that a list of bytes holds; an error carries the offset at which it ends short. -/
def keyOps : Nat → Nat → List Byte → Except Nat (List KeyOp)
  | 0, off, l => if l.isEmpty then .ok [] else .error off
  | n + 1, off, l =>
    let len := leAt l 12 2
    if l.length < 16 + len then .error off
    else match keyOps n (off + 16 + len) (l.drop (16 + len)) with
      | .error o => .error o
      | .ok t =>
        .ok ({ off := off, code := (byteAt l 0).toNat, slot := (byteAt l 1).toNat, type := (byteAt l 2).toNat,
               grant := leAt l 4 4, param := leAt l 8 4, head := l.take 16, body := slice l 16 len } :: t)

/-- The body length of an operation code. -/
def keyBody (code : Nat) : Nat := if code = 1 then 1616 else if code = 2 then 2592 else 0

/-- The field checks of one operation; `all` are the operations of the message. -/
def KeyOp.checks (o : KeyOp) (all : List KeyOp) : List (Bool × Err) :=
  let bad := fun (i : Nat) => errAt (o.off + i) stBadParam 1 0
  let install := decide (o.code = 1 ∨ o.code = 2)
  let zeros := fun (i n : Nat) => match nonZeroAt o.head i n with
    | some j => [(true, errAt (o.off + j) stBadParam 3 0)]
    | none => []
  [(decide (o.code < 1 ∨ 5 < o.code), bad 0),
   (if o.code = 5 then decide (o.slot ≠ 0xFF) else decide (o.slot < 16 ∨ 63 < o.slot), bad 1),
   (install && all.any (fun x => decide (x.off ≠ o.off ∧ x.slot = o.slot)), bad 1),
   (decide (o.code = 1 ∧ ¬ (o.type = 1 ∨ o.type = 2 ∨ o.type = 4 ∨ o.type = 5 ∨ o.type = 6)), bad 2),
   (decide (o.code = 2 ∧ (o.type < 1 ∨ 6 < o.type)), bad 2)] ++ zeros 3 1
   ++ [(decide (2048 ≤ o.grant), bad 4), (decide (o.code = 5 ∧ ¬ (o.param = 1 ∨ o.param = 2)), bad 8),
       (decide (o.body.length ≠ keyBody o.code), bad 12)] ++ zeros 14 2

/-- The next generation of a slot (R407). -/
def nextGen (g : Nat) : Nat := if 1023 ≤ g then 1 else g + 1

/-- The key that a code 1 body carries, unwrapped (R414); `i` is the operation index and `head` header bytes 0 to 39. -/
def Blk.unwrapKey (b : Blk) (head : List Byte) (i : Nat) (o : KeyOp) : Option (List Byte) :=
  let ss := Config.kemDecap (b.sec.lc + b.sec.gen * 256) (o.body.take 1568)
  let key := Config.kmac ss (b.keyLabel labelWrap ++ leBytes 4 0) 32
  Config.gcmOpen key (slice head 24 8 ++ leBytes 4 i) (head ++ o.head) (o.body.drop 1568)

/-- The prepared key set: slots, epochs, the handles of the receipt, and whether every key unwrapped. -/
structure KeySet where
  slots   : Vector Slot 64
  epochs  : Nat × Nat
  handles : List (BitVec 16)
  unwraps : Bool

/-- One operation applied to a prepared set. -/
def Blk.applyOp (b : Blk) (head : List Byte) (k : KeySet) (x : Nat × KeyOp) : KeySet :=
  let o := x.2
  let n : Fin 64 := ⟨o.slot % 64, Nat.mod_lt _ (by decide)⟩
  let g := nextGen (k.slots.get n).gen
  let fresh : Slot := { (default : Slot) with gen := g, used := true, injected := true, cached := b.keysReady, grant := o.grant }
  let h := k.handles ++ [BitVec.ofNat 16 (if o.code = 1 ∨ o.code = 2 then n.val + g * 64 else 0)]
  let put := fun (s : Slot) => { k with slots := vmod k.slots n (fun _ => s), handles := h }
  match o.code with
  | 1 => match b.unwrapKey head x.1 o with
    | some key => put { fresh with type := o.type, key := key }
    | none => { k with unwraps := false, handles := h }
  | 2 => put { fresh with type := ktAnchor, role := o.type, key := o.body }
  | 3 => put { (default : Slot) with gen := g }
  | 4 => put { k.slots.get n with grant := o.grant }
  | _ => { k with epochs := if o.param = 1 then (k.epochs.1 + 1, k.epochs.2) else (k.epochs.1, k.epochs.2 + 1), handles := h }

def cmdKeyUpdate : Cmd :=
  { op := 0x901, len := .within 4683 25531, parts := true, modes := [3, 4, 5, 6], who := hosts }

/-- A key update refused under R412 or R413. -/
def Blk.rejectUpdate (b : Blk) (r : Req) (e : Err) : Blk :=
  (b.refuseReq 0x901 r e).ev srcHusk 3 2 (arg32 (e.status + e.sub * 65536))

/-- KEY_UPDATE (R255): the checks of R413 in order, then step 1 of R415. -/
def keyUpdate (r : Req) (b : Blk) : Blk :=
  serve cmdKeyUpdate r noAbsent noGrant (fun b _ p =>
    let n := (byteAt p 2).toNat
    let ops := keyOps n 40 (slice p 40 (p.length - 40 - sigLen))
    let list := match ops with | .ok l => l | .error _ => []
    let fields := [(decide (n < 1 ∨ 8 < n), errAt 2 stBadParam 1 0)] ++ b.headChecks p
      ++ [(decide (leAt p 36 4 + 40 + sigLen ≠ p.length), errAt 36 stBadParam 1 0),
          (match ops with | .ok _ => false | .error _ => true, match ops with | .error o => errAt o stBadParam 1 0 | .ok _ => err 0 0 0)]
      ++ list.flatMap (fun o => o.checks list)
    let c : BitVec 63 := BitVec.ofNat 63 (leAt p 24 8)
    let digest := Config.sha3 p
    let stored := b.sec.kuCnt.toNat
    let again := decide (leAt p 24 8 = stored ∧ digest = b.sec.kuDigest)
    match firstErr fields with
    | some e => b.rejectUpdate r e
    | none =>
      match firstErr [(b.sec.ku.isSome, err stBusy 1 0), (!b.keysReady, err stRefused 11 0)] with
      | some e => b.refuseReq 0x901 r e
      | none =>
        match firstErr (b.authChecks p (b.signer (leAt p 32 2) roleKeyUpdate)
            ++ [(!again && decide (leAt p 24 8 ≠ stored + 1), err stCounter 1 (stored % 2 ^ 32))]) with
        | some e => b.rejectUpdate r e
        | none =>
          if again then b.respond 0x901 r stApplied b.ebn b.sec.receipt
          else
            let start : KeySet := { slots := b.sec.slots, epochs := (b.sec.epochAtt, b.sec.epochSeal), handles := [], unwraps := true }
            let k := ((List.range n).zip list).foldl (b.applyOp (p.take 40)) start
            (b.onSec fun x =>
              { x with ku := some { due := reqDue r 0x901, counter := c, digest := digest, slots := k.slots, epochs := k.epochs,
                                    handles := k.handles, unwraps := k.unwraps } }).respond 0x901 r stAccepted ebnUnknown []) b

/-- The receipt of R416. -/
def Blk.makeReceipt (b : Blk) (k : KeyUpd) : List Byte :=
  let body := padTo 128 (leBytes 2 1 ++ [0, 0] ++ b.uidBytes ++ leBytes 8 k.counter.toNat ++ digestBytes k.digest
    ++ leBytes 8 b.time.dt.toNat ++ k.handles.flatMap (fun h => leBytes 2 h.toNat))
  body ++ b.signId body

/-- KEY_UPDATE_COMMITTED (R415): steps 2 to 5, or the failed unwrap of R413. -/
def keyUpdateCommitted (b : Blk) : Blk :=
  match b.sec.ku with
  | none => b
  | some k =>
    let b0 := b.onSec fun x => { x with ku := none }
    if k.unwraps = false then
      (b0.ev srcHusk 3 2 (arg32 (stAuth + 65536))).completeErr k.due (err stAuth 1 0)
    else
      let receipt := b.makeReceipt k
      let half := !b.sec.kuHalf
      let mark := BitVec.ofNat 64 (k.counter.toNat + b2n half * 2 ^ 63)
      let b1 := (b0.counterPut ctrKu1 mark).counterPut ctrKu2 mark
      let b2 := b1.onSec fun x =>
        { x with kuCnt := k.counter, kuHalf := half, kuDigest := k.digest, receipt := receipt, slots := k.slots,
                 epochAtt := k.epochs.1, epochSeal := k.epochs.2,
                 certAtt := if k.epochs = (x.epochAtt, x.epochSeal) then x.certAtt
                   else Config.attestCert x.certId k.epochs.1 k.epochs.2 }
      ((b2.macsecRefresh).ev srcHusk 2 2 (arg32 k.counter.toNat)).complete k.due stOk b2.ebn receipt

/-! ### KEY_INFO and TAMPER_GET (R254, R409) -/

def cmdKeyInfo : Cmd := { op := 0x902, len := .exactly 0, parts := false, modes := [3, 4, 5, 6], who := anyone }
def cmdTamperGet : Cmd := { op := 0x905, len := .exactly 0, parts := false, modes := [1, 3, 4, 5, 6, 8], who := hosts }

/-- Whether a slot is listed to a requester. -/
def Slot.listed (s : Slot) : Initiator → Bool
  | .tenant t => s.used && s.grant.testBit t.val
  | .safety => s.used && s.grant.testBit 8
  | _ => s.used

/-- One entry of KEY_INFO: handle, type, flags, epoch. -/
def Blk.keyEntry (b : Blk) (i : Initiator) (n : Fin 64) : List Byte :=
  let s := b.sec.slots.get n
  if s.listed i = false then List.replicate 8 0
  else leBytes 2 (handleOf n s) ++ [BitVec.ofNat 8 s.type, BitVec.ofNat 8 (b2n s.injected + 2 * b2n s.derived)]
    ++ leBytes 4 (if n.val = 1 then b.sec.epochAtt else if n.val = 2 then b.sec.epochSeal else 0)

/-- KEY_INFO. -/
def keyInfo (r : Req) (b : Blk) : Blk :=
  serve cmdKeyInfo r noAbsent noGrant (fun b i _ =>
    let used := ((upTo 64).filter fun n => (b.sec.slots.get n).listed i).length
    let counters := match i with
      | .tenant _ => List.replicate 24 0
      | _ => leBytes 8 b.sec.kuCnt.toNat ++ leBytes 8 b.sec.ctlCnt.toNat ++ leBytes 8 b.sec.dbgCnt.toNat
    b.ok 0x902 r ([BitVec.ofNat 8 used, 0, 0, 0] ++ (upTo 64).flatMap (b.keyEntry i) ++ counters)) b

/-- DT of the last alarm from its AOT; 0 when unknown. -/
def Blk.tamperDt (b : Blk) : Nat :=
  if b.sec.tmpLast = 0 ∨ b.time.aotContinuous = false then 0
  else b.time.dt.toNat - (b.time.aot.toNat - b.sec.tmpLastAot.toNat) * 1000000000 / 32768

/-- TAMPER_GET. -/
def tamperGet (r : Req) (b : Blk) : Blk :=
  serve cmdTamperGet r noAbsent noGrant (fun b _ _ =>
    b.ok 0x905 r (leBytes 4 (b.ctrValue ctrTamper).toNat
      ++ [BitVec.ofNat 8 (bits b.sec.tmpLast 9 8), BitVec.ofNat 8 (bits b.sec.tmpLast 7 0), 0, 0] ++ leBytes 8 b.tamperDt)) b

/-! ### Signed control messages (R404, R417, R418) -/

def cmdLifecycleSet : Cmd := { op := 0x904, len := .within 4671 7263, parts := true, modes := [4], who := service }
def cmdLockdownExit : Cmd := { op := 0x906, len := .exactly 4671, parts := true, modes := [8], who := service }
def cmdOwnerLock : Cmd := { op := 0x907, len := .exactly 4671, parts := true, modes := [3, 4], who := service }

/-- The fields of a control message of a type with a body length. -/
def Blk.ctlChecks (b : Blk) (p : List Byte) (type body : Nat) : List (Bool × Err) :=
  b.headChecks p ++ [(decide ((byteAt p 2).toNat ≠ type), errAt 2 stBadParam 1 0),
    (decide (leAt p 40 4 ≠ body ∨ p.length ≠ 44 + body + sigLen), errAt 40 stBadParam 1 0)]

/-- The transition of R403 from the present state: the slot of the anchor that signs it and the new g. -/
def Blk.lcTransition (b : Blk) (target : Nat) : Option (Nat × Nat) :=
  let g := b.sec.gen
  match b.sec.lc, target with
  | 1, 2 => some (5, 1)
  | 2, 3 => some (6, g)
  | 3, 2 => if g < 7 then some (5, g + 1) else none
  | 2, 4 => some (6, g)
  | 1, 4 | 3, 4 => some (5, g)
  | _, _ => none

/-- LIFECYCLE_SET (R404): the message verified, then the change whole; the reset takes the response with the pool. -/
def lifecycleSet (r : Req) (b : Blk) : Blk :=
  serve cmdLifecycleSet r noAbsent noGrant (fun b _ p =>
    let target := leAt p 36 4
    let anchor := match b.lcTransition target, b.slotOfHandle (leAt p 32 2) with
      | some (n, _), some (k, s) => if k.val = n ∧ b.anchorsReady ∧ s.used ∧ s.type = ktAnchor then some s else none
      | _, _ => none
    match firstErr (b.ctlChecks p 1 (if target = lcOwned then pubLen else 0) ++ zeroErr p 24 8
        ++ [(decide (4 < target), errAt 36 stBadParam 1 0), ((b.lcTransition target).isNone, err stRefused 7 0)]
        ++ b.authChecks p anchor), b.lcTransition target with
    | some e, _ => b.refuseReq 0x904 r e
    | none, none => b
    | none, some (_, g) =>
      let b1 := (b.onNvm fun n => n.transact [(jLifeCycle, [BitVec.ofNat 8 target, BitVec.ofNat 8 g])]).onSec fun x =>
        { x with lcPending := some (target, g) }
      (b1.respond 0x904 r stAccepted ebnUnknown []).lifecycleFinish target g (slice p 44 pubLen)) b

/-- The control counter, the debug counter and the owner lock stored under their own marker (R428). -/
def Blk.putControl (b : Blk) (f : Security → Security) : Blk :=
  let old := b.ctrValue ctrCtl1
  let mark := BitVec.ofNat 64 ((old.toNat % 2 ^ 63 + 1) + (if old.toNat < 2 ^ 63 then 2 ^ 63 else 0))
  ((b.onSec f).counterPut ctrCtl1 mark).counterPut ctrCtl2 mark

/-- A control message of type 2 or 3 checked; its counter is above the stored one (R418). -/
def Blk.counted (b : Blk) (p : List Byte) (type : Nat) (arg : Nat → Bool) : Option Err :=
  firstErr (b.ctlChecks p type 0 ++ [(!arg (leAt p 36 4), errAt 36 stBadParam 1 0)]
    ++ b.authChecks p (b.signer (leAt p 32 2) roleUnlock)
    ++ [(decide (leAt p 24 8 ≤ b.sec.ctlCnt.toNat), err stCounter 1 (b.sec.ctlCnt.toNat % 2 ^ 32))])

/-- LOCKDOWN_EXIT (R418, R390). -/
def lockdownExit (r : Req) (b : Blk) : Blk :=
  serve cmdLockdownExit r noAbsent noGrant (fun b _ p =>
    match (if b.rcc.sched.isSome then some (err stBusy 1 0) else none) <|> b.counted p 2 (fun a => decide (a = 0)) <|>
        (if b.sec.class2Now then some (err stRefused 7 0) else none) with
    | some e => b.refuseReq 0x906 r e
    | none =>
      let b1 := b.putControl fun x => { x with ctlCnt := BitVec.ofNat 64 (leAt p 24 8) }
      (b1.respond 0x906 r stAccepted (bnWord (b.breath.bn + 2)) []).schedule .run mcExit 5 (some (reqDue r 0x906))) b

/-- OWNER_LOCK (R418). -/
def ownerLock (r : Req) (b : Blk) : Blk :=
  serve cmdOwnerLock r noAbsent noGrant (fun b _ p =>
    match b.counted p 3 (fun a => decide (a ≤ 1)) with
    | some e => b.refuseReq 0x907 r e
    | none =>
      let on := decide (leAt p 36 4 = 1)
      let b1 := b.putControl fun x => { x with ctlCnt := BitVec.ofNat 64 (leAt p 24 8), ownerLock := on }
      b1.ok 0x907 r [BitVec.ofNat 8 (b2n on)]) b

/-! ### Debug access (R421) -/

def cmdDebugAuth : Cmd := { op := 0x903, len := .exactly 4675, parts := true, modes := [4], who := service }

/-- DEBUG_AUTH. -/
def debugAuth (r : Req) (b : Blk) : Blk :=
  serve cmdDebugAuth r noAbsent noGrant (fun b _ p =>
    let dur := leAt p 36 4
    let scope := leAt p 40 4
    match firstErr (b.headChecks p ++ zeroErr p 2 1 ++ [(decide (dur < 60 ∨ 28800 < dur), errAt 36 stBadParam 1 0),
          (decide (1024 ≤ scope), errAt 40 stBadParam 3 0),
          (scope.testBit 9 && decide (b.sec.lc ≠ lcReturned), errAt 40 stBadParam 1 0)] ++ zeroErr p 44 4
        ++ b.authChecks p (b.signer (leAt p 32 2) roleDebug)
        ++ [(decide (leAt p 24 8 ≤ b.sec.dbgCnt.toNat), err stCounter 1 (b.sec.dbgCnt.toNat % 2 ^ 32))]) with
    | some e => b.refuseReq 0x903 r e
    | none =>
      let till := b.time.dt + BitVec.ofNat 64 (dur * 1000000000)
      let b1 := b.putControl fun x =>
        { x with dbgCnt := BitVec.ofNat 64 (leAt p 24 8), debugScope := BitVec.ofNat 10 scope, debugEnd := till }
      (b1.ev srcDebug 0x30 3 (arg32 scope)).ok 0x903 r (leBytes 8 till.toNat)) b

/-- DEBUG_ACCESS_EXPIRY: the duration has passed. -/
def debugAccessExpiry (b : Blk) : Blk := b.closeDebug 1

/-! ### Identity and attestation (R243, R410, R411) -/

def cmdGetIdentity : Cmd := { op := 0x104, len := .exactly 4, parts := false, modes := [1, 2, 3, 4, 5, 6, 8], who := anyone }
def cmdAttest : Cmd := { op := 0x105, len := .exactly 64, parts := false, modes := [3, 4, 5, 6], who := anyone }

/-- GET_IDENTITY. -/
def getIdentity (r : Req) (b : Blk) : Blk :=
  serve cmdGetIdentity r noAbsent noGrant (fun b _ p =>
    let cert := if byteAt p 0 = 0 then b.sec.certId else b.sec.certAtt
    match firstErr ([(decide (1 < (byteAt p 0).toNat), errAt 0 stBadParam 1 0)] ++ zeroErr p 1 3) with
    | some e => b.refuseReq 0x104 r e
    | none => b.ok 0x104 r (leBytes 2 cert.length ++ [0, 0] ++ cert)) b

/-- One entry of the attestation report. -/
def Blk.attestEntry (b : Blk) (i : Fin 13) : List Byte :=
  let c := b.comp i
  let x := c.slot c.runB
  if c.hasImage = false then List.replicate 72 0
  else [BitVec.ofNat 8 (compCode i), BitVec.ofNat 8 (b2n c.runB), 1, 0] ++ leBytes 4 x.secVer ++ digestBytes x.digest

/-- Bytes 0 to 1,063 of the report. -/
def Blk.attestBody (b : Blk) (nonce : List Byte) (seq : BitVec 64) : List Byte :=
  leBytes 2 1 ++ leBytes 2 13 ++ leBytes 4 b.sec.epochAtt ++ padTo 64 nonce ++ b.uidBytes ++ b.lcBytes
    ++ [BitVec.ofNat 8 b.rcc.mode.code, BitVec.ofNat 8 (b2n (decide (b.time.state = .unsynced))
          + 2 * b2n (decide (b.sec.debugScope ≠ 0)) + 4 * b2n b.sec.ownerLock)]
    ++ leBytes 4 (b.ctrValue ctrTamper).toNat ++ leBytes 8 b.breath.bn.toNat ++ leBytes 8 b.time.dt.toNat
    ++ leBytes 4 b.cfg.activeId.toNat ++ leBytes 4 b.caps.toNat ++ leBytes 8 seq.toNat
    ++ (upTo 13).flatMap b.attestEntry

/-- ATTEST: one report per second and mailbox, signed with slot 1. -/
def attest (r : Req) (b : Blk) : Blk :=
  serve cmdAttest r noAbsent noGrant (fun b _ p =>
    let left : Nat := match (b.mboxes.get r.mb).lastAttest with
      | some d => 1000 - b.since d / 1000000
      | none => 0
    match firstErr [(decide (0 < left), err stBusy 2 left), (!b.keysReady, err stRefused 11 0)] with
    | some e => b.refuseReq 0x105 r e
    | none =>
      let (seq, b1) := b.takeSeq
      let body := b1.attestBody p seq
      (b1.modMb r.mb fun m => { m with lastAttest := some b1.time.dt }).ok 0x105 r
        (body ++ padTo sigLen (Config.mldsaSign (b1.keyLabel labelAttest) b1.sec.epochAtt body))) b

/-! ### Tamper (R422 to R425) -/

/-- The class of a source; 0 for no source of the table, or a loop that is not enabled. -/
def Blk.tamperClass (b : Blk) (code : Byte) : Nat :=
  match code.toNat with
  | 0x01 | 0x02 | 0x03 => 1
  | 0x10 | 0x11 => 2
  | 0x12 => if bit b.sec.tmpCtrl 0 then 2 else 0
  | 0x13 => if bit b.sec.tmpCtrl 1 then 2 else 0
  | _ => 0

/-- The key operation of the crypto engine that an alarm aborts (R425): its descriptor reads TAMPER. -/
def Blk.abortJob (b : Blk) (m : Mem) : BW :=
  let x := b.sec
  let op := (Mem.read m (x.cryRing.toNat + 64 * x.cryTail)).toNat
  if bit x.cryCtrl 0 = false ∨ x.cryTail = x.cryHead.toNat % 1024 ∨ op < 2 ∨ 8 < op then (b, [])
  else (b.onSec fun x => { x with cryTail := (x.cryTail + 1) % 2 ^ (bits x.crySize 3 0) % 1024, crySticky := orBits x.crySticky 2 },
        [.put (x.cryRing.toNat + 64 * x.cryTail + 1) [4]])

/-- The always-on record of an alarm of a class as it is handled (R423, R431). -/
def Blk.recordAlarm (b : Blk) (code : Byte) (cls : Nat) : Blk :=
  let c := code.toNat
  let asleep := decide (b.rcc.mode = .sleep)
  let b1 := b.onSec fun x =>
    { x with
      tmpLast := mkWord [c, fld cls 2 8, fld b.rcc.mode.code 4 10], tmpLastAot := b.time.aot,
      tmpSticky := orBits x.tmpSticky (if c < 4 then 2 ^ (c - 1) else 2 ^ (c - 0x10 + 4)),
      tmpStatus := if c < 4 then x.tmpStatus else orBits (setBits (orBits x.tmpStatus 0xF) (c - 0x10) (c - 0x10) 0) 0x10,
      class2Now := x.class2Now || decide (4 ≤ c), tmpPending := if asleep then satInc x.tmpPending 255 else x.tmpPending,
      class1 := if c < 4 then x.class1 ++ [b.time.aot] else x.class1 }
  if asleep then b1 else b1.counterPut ctrTamper (b1.ctrValue ctrTamper + 1)

/-- What an alarm of a handled class does in a mode (R424). -/
def Blk.tamperReact (b : Blk) (m : Mem) (code : Byte) (cls : Nat) : BW :=
  match b.rcc.mode with
  | .boot => (b.onRcc fun r => { r with bootTamper := max r.bootTamper cls }, [])
  | .recovery => (if cls = 2 then ((b.dropUpdate 3).journalLockdown true) else b, [])
  | .sleep =>
    let b1 := b.onRcc fun r => { r with bootTamper := max r.bootTamper cls }
    (if b1.rcc.sleepStep = 5 then b1.assertSource 8 else b1, [])
  | .lockdown => (b, [])
  | _ =>
    let x := (b.abortKeyUpdate (some cls)).abortJob m
    x.map fun b =>
      if cls = 2 then
        let wiped := if b.rcc.holdup ∧ b.rcc.holdupDone = false then b
          else b.ev srcHusk 5 4 (arg32 code.toNat)
        (wiped.huskTo .locked).schedule .lockdown mcTamper2 2 none
      else if b.sec.husk = .available then (b.onSec fun x => { x with cl1Hold := true }).huskTo .unavailable
      else b

/-- TAMPER_ALARM. A third class 1 alarm within 1 h is handled as class 2. -/
def tamperAlarm (code : Byte) (m : Mem) (b : Blk) : BW :=
  let c := b.tamperClass code
  if c = 0 then (b, [])
  else
    let recent := b.sec.class1.filter fun t => decide (b.time.aot.toNat - t.toNat < 3600 * 32768)
    let cls := if c = 1 ∧ 2 ≤ recent.length then 2 else c
    let b1 := (b.onSec fun x => { x with class1 := recent }).recordAlarm code cls
    let b2 := b1.closeDebug 4
    (b2.tamperReact m code cls).map fun x =>
      let x1 := x.ev srcTmp 0x20 4 b1.sec.tmpLast
      x1.notifyAll 0x0980 ([BitVec.ofNat 8 cls, 0, 0, 0] ++ leBytes 8 b.time.dt.toNat)

/-- CL1_HOLD_EXPIRY: the hold ends and the Husk is AVAILABLE again (R424). -/
def cl1HoldExpiry (b : Blk) : Blk :=
  if b.sec.cl1Hold = false then b
  else
    let b1 := b.onSec fun x => { x with cl1Hold := false }
    if b1.sec.husk = .unavailable then b1.huskTo .available else b1

/-- Whether a class 2 condition that an alarm found is still met (R422): no row says when it ends, so a free value says so
at each tick in LOCKDOWN. -/
def Blk.class2Watch (b : Blk) : Blk :=
  if b.sec.class2Now = false ∨ b.rcc.mode ≠ .lockdown then b
  else
    let (c, b1) := b.fresh
    if Config.freeNat c % 2 = 1 then b1
    else b1.onSec fun x => { x with class2Now := false, tmpStatus := setBits (orBits x.tmpStatus 0xF) 4 4 0 }

/-! ### Entropy and the crypto engine (R426, R427, R430) -/

/-- ENTROPY_FAIL. -/
def entropyFail (repetition proportion : Bool) (b : Blk) : Blk :=
  let b1 := b.onSec fun x =>
    { x with entropyOk := false, crySticky := orBits x.crySticky 1, entRep := if repetition then satInc x.entRep 0xFFFF else x.entRep,
             entProp := if proportion then satInc x.entProp 0xFFFF else x.entProp }
  b1.ev srcCry 0x10 3 (arg32 (b2n repetition + 2 * b2n proportion))

/-- ENTROPY_RETEST: success restores the DRBG. -/
def entropyRetest (ok : Bool) (b : Blk) : Blk :=
  if ok = false ∨ b.sec.entropyOk then b else (b.onSec fun x => { x with entropyOk := true }).ev srcCry 0x11 1 0

/-- CRY_HEAD_WRITE: the Chanter hands descriptors over. -/
def cryHeadWrite (i : Initiator) (w : Word) (b : Blk) : Blk :=
  if i ≠ .chanter then b.denied i 0x4007000C else b.onSec fun x => { x with cryHead := arg32 (bits w 9 0) }

/-- A free value of `n` bytes. -/
def Blk.freeBytes (b : Blk) (n : Nat) : List Byte × Blk :=
  let (c, b1) := b.fresh
  (padTo n (Config.freeBytes c), b1)

/-- The key that a descriptor's handle names, when its type fits and the Husk lets it be used (R406). -/
def Blk.jobKey (b : Blk) (h type : Nat) : Option (Fin 64 × Slot) :=
  match b.slotOfHandle h with
  | some (n, s) =>
    let usable := b.keysReady || (decide (n.val = 0 ∨ s.type = ktAnchor) && b.anchorsReady)
    if s.type = type ∧ usable then some (n, s) else none
  | none => none

/-- An ML-DSA-87 signature by a slot: derived keys by their label, injected ones by their seed. -/
def Blk.signSlot (b : Blk) (n : Fin 64) (s : Slot) (msg : List Byte) : List Byte :=
  let sg := match n.val with
    | 0 => Config.mldsaSign (b.keyLabel labelId) 0 msg
    | 1 => Config.mldsaSign (b.keyLabel labelAttest) b.sec.epochAtt msg
    | 2 => Config.mldsaSign (b.keyLabel labelSeal) b.sec.epochSeal msg
    | _ => Config.mldsaSign s.key 0 msg
  padTo sigLen sg

/-- What a descriptor's operation gives: the status and the output. -/
def Blk.runJob (b : Blk) (d input aux : List Byte) : Nat × List Byte × Blk :=
  let h := leAt d 2 2
  let space := leAt d 24 4
  let rand := fun (f : Blk → Nat × List Byte × Blk) => if b.sec.entropyOk then f b else (5, [], b)
  match (byteAt d 0).toNat with
  | 1 => (1, digestBytes (Config.sha3 input), b)
  | 2 => match b.jobKey h 5 with
    | some (_, s) => (1, Config.kmac s.key input space, b)
    | none => (2, [], b)
  | 3 => match b.jobKey h 2 with
    | some (n, s) => (1, b.signSlot n s input, b)
    | none => (2, [], b)
  | 4 => if h = 0 then (if Config.mldsaVerify (aux.take pubLen) input (aux.drop pubLen) then 1 else 3, [], b)
    else match b.jobKey h 3 with
      | some (_, s) => (if Config.mldsaVerify s.key input aux then 1 else 3, [], b)
      | none => (2, [], b)
  | 5 => rand fun b => (1, (Config.kemEncap b.freeCtr aux).1, b.fresh.2)
  | 6 => match b.jobKey h 4 with
    | some _ => (1, [], b)
    | none => (2, [], b)
  | 7 => match b.jobKey h 1 with
    | some (_, s) => (1, Config.gcmSeal s.key (aux.take 12) (aux.drop 12) input, b)
    | none => (2, [], b)
  | 8 => match b.jobKey h 1 with
    | some (_, s) => match Config.gcmOpen s.key (aux.take 12) (aux.drop 12) input with
      | some l => (1, l, b)
      | none => (3, [], b)
    | none => (2, [], b)
  | 9 => rand fun b => let x := b.freeBytes space; (1, x.1, x.2)
  | _ => let x := b.fresh; (Config.freeNat x.1 % 256, [], x.2)

/-- CRYPTO_DESCRIPTOR_DONE: the descriptor at the tail is served. -/
def cryptoDescriptorDone (m : Mem) (b : Blk) : BW :=
  let x := b.sec
  if bit x.cryCtrl 0 = false ∨ x.cryTail = x.cryHead.toNat % 1024 then (b, [])
  else
    let at_ := x.cryRing.toNat + 64 * x.cryTail
    let d := Mem.readBytes m at_ 64
    let res := b.runJob d (Mem.readBytes m (leAt d 8 8) (leAt d 4 4)) (Mem.readBytes m (leAt d 32 8) (leAt d 40 4))
    let out := res.2.1.take (leAt d 24 4)
    (res.2.2.onSec fun x =>
        { x with cryTail := (x.cryTail + 1) % 2 ^ (bits x.crySize 3 0) % 1024,
                 crySticky := if res.1 = 2 then orBits x.crySticky 4 else x.crySticky },
      [.put (leAt d 16 8) out, .put (at_ + 28) (leBytes 4 out.length), .put (at_ + 1) [BitVec.ofNat 8 res.1]])

/-! ### Management sessions (R419, R420) -/

/-- The endpoint serves while the Husk gives the identity key. -/
def Blk.mgmtServes (b : Blk) : Bool := b.anchorsReady && b.rcc.mode.breathes && b.rcc.episode.isNone

/-- A session ends; the unread responses of MB10 are lost (R420, R241). -/
def Blk.closeSession (b : Blk) (why : Nat) : Blk :=
  match b.sec.session with
  | none => b
  | some _ =>
    let b1 := (b.onSec fun x => { x with session := none }).modMb 10 fun m => { m with resps := [], notes := [], assembly := none }
    let b2 := ([31, 32] : List (Fin 256)).foldl (fun b q => b.modQ q fun y => { y with msgs := [], popped := 0 }) b1
    b2.ev srcMgmt 0x41 1 (arg32 why)

/-- A failed handshake; the fifth within 60 s stops HELLO for 60 s (R420). -/
def Blk.failHandshake (b : Blk) (why : Nat) : Blk :=
  let l := b.sec.failedHs.filter (fun t => decide (b.since t < 60000000000)) ++ [b.time.dt]
  let b1 := (b.onSec fun x => { x with failedHs := l, challenge := none, sent := [] }).ev srcMgmt 0x42 2 (arg32 why)
  if l.length < 5 then b1
  else (b1.onSec fun x => { x with failedHs := [], hsBlockUntil := some (b.time.dt + BitVec.ofNat 64 60000000000) }).ev srcMgmt 0x42 2 3

/-- Whether HELLO is ignored now. -/
def Blk.hsBlocked (b : Blk) : Bool :=
  match b.sec.hsBlockUntil with
  | some t => decide (b.time.dt.toNat < t.toNat)
  | none => false

/-- The host's key that a certificate carries, under an anchor of role 6. -/
def Blk.hostKey (b : Blk) (cert : List Byte) : Option (List Byte) :=
  (upTo 64).findSome? fun n =>
    let s := b.sec.slots.get n
    if b.anchorActs n s roleHost then Config.certKey s.key cert else none

/-- MGMT_HELLO: the assembled HELLO; the module answers with CHALLENGE. Encapsulation needs entropy (R426). -/
def mgmtHello (hello : List Byte) (b : Blk) : Blk :=
  let n := leAt hello 1600 4
  let cert := slice hello 1604 n
  if b.mgmtServes = false ∨ b.hsBlocked ∨ b.sec.entropyOk = false then b
  else match b.hostKey cert with
    | none => b.failHandshake 2
    | some key =>
      if hello.length ≠ 1604 + n + sigLen ∨ Config.mldsaVerify key (splitSig hello).1 (splitSig hello).2 = false then b.failHandshake 1
      else
        let (c, b1) := b.fresh
        let id := Config.freeWord c
        let (nonce, b2) := b1.freeBytes 32
        let (k, b3) := b2.fresh
        let kem := Config.kemEncap k (slice hello 32 1568)
        let fields := leBytes 4 id.toNat ++ nonce ++ padTo 1568 kem.1 ++ leBytes 4 b.sec.certId.length ++ b.sec.certId
        let chal := fields ++ b3.signId (digestBytes (Config.sha3 hello) ++ fields)
        b3.onSec fun x => { x with challenge := some (id, hello ++ chal, kem.2), sent := [chal] }

/-- MGMT_FINISH: the host signs the transcript; the session opens and closes the one before it. -/
def mgmtFinish (finish : List Byte) (b : Blk) : Blk :=
  match b.sec.challenge with
  | none => b
  | some (id, script, ss) =>
    let key := (b.hostKey (slice script 1604 (leAt script 1600 4))).getD []
    if leAt finish 0 4 ≠ id.toNat ∨ finish.length ≠ 4 + sigLen then b
    else if Config.mldsaVerify key (digestBytes (Config.sha3 script)) (finish.drop 4) = false then b.failHandshake 1
    else
      let t := digestBytes (Config.sha3 (script ++ finish))
      let b1 := b.closeSession 1
      let (c, b2) := b1.fresh
      let s : Session := { id := id, rxTop := 0, rxSeen := [], rxCount := 0, txCount := 0, lastDt := b.time.dt,
                           openDt := b.time.dt, keyIn := Config.kmac ss (labelH2D ++ t) 32,
                           keyOut := Config.kmac ss (labelD2H ++ t) 32, port := Config.freeNat c % 13 }
      (b2.onSec fun x => { x with session := some s, challenge := none, sent := [] }).ev srcMgmt 0x40 1 id

/-- Whether a sequence number may still be accepted (R420). -/
def Session.fresh (s : Session) (n : Nat) : Bool :=
  decide (BitVec.ofNat 64 n ∉ s.rxSeen) && (s.rxSeen.isEmpty || decide (s.rxTop.toNat ≤ n + 63))

/-- A sequence number accepted. -/
def Session.accept (s : Session) (n : Nat) (now : BitVec 64) : Session :=
  let top := max s.rxTop.toNat n
  { s with rxTop := BitVec.ofNat 64 top, rxCount := s.rxCount + 1, lastDt := now,
           rxSeen := (s.rxSeen.filter fun x => decide (top ≤ x.toNat + 63)) ++ [BitVec.ofNat 64 n] }

/-- SESSION_DATAGRAM: an authentic datagram delivers its message to MB10; any other is discarded and counted. -/
def sessionDatagram (d : List Byte) (b : Blk) : Blk :=
  let bad := b.onSec fun x => { x with badDatagrams := x.badDatagrams + 1 }
  match b.sec.session with
  | none => bad
  | some s =>
    let n := leAt d 8 8
    if d.length < 32 ∨ 4128 < d.length ∨ leAt d 0 4 ≠ 0x10 ∨ leAt d 4 4 ≠ s.id.toNat ∨ s.fresh n = false ∨ b.mgmtServes = false then bad
    else match Config.gcmOpen s.keyIn ([0, 0, 0, 0] ++ slice d 8 8) (d.take 16) (d.drop 16) with
      | none => bad
      | some msg =>
        let b1 := b.onSec fun x => { x with session := some (s.accept n b.time.dt) }
        b1.engineWrite (mbQueue 10 0) (wordsOf 1025 msg)

/-- SESSION_IDLE_CLOSE and SESSION_KEY_LIFE_CLOSE. -/
def sessionIdleClose (b : Blk) : Blk := b.closeSession 2
def sessionKeyLifeClose (b : Blk) : Blk := b.closeSession 3

/-! ### Meanings -/

def execKeyUpdate (r : Req) (s : State) : Res := .next (s.onBlk (keyUpdate r))
def execKeyUpdateCommitted (s : State) : Res := .next (s.onBlk keyUpdateCommitted)
def execKeyInfo (r : Req) (s : State) : Res := .next (s.onBlk (keyInfo r))
def execDebugAuth (r : Req) (s : State) : Res := .next (s.onBlk (debugAuth r))
def execDebugAccessExpiry (s : State) : Res := .next (s.onBlk debugAccessExpiry)
def execLifecycleSet (r : Req) (s : State) : Res := .next (s.onBlk (lifecycleSet r))
def execTamperGet (r : Req) (s : State) : Res := .next (s.onBlk (tamperGet r))
def execLockdownExit (r : Req) (s : State) : Res := .next (s.onBlk (lockdownExit r))
def execOwnerLock (r : Req) (s : State) : Res := .next (s.onBlk (ownerLock r))
def execGetIdentity (r : Req) (s : State) : Res := .next (s.onBlk (getIdentity r))
def execAttest (r : Req) (s : State) : Res := .next (s.onBlk (attest r))
def execTamperAlarm (code : Byte) (s : State) : Res := .next (s.onMem (tamperAlarm code))
def execCl1HoldExpiry (s : State) : Res := .next (s.onBlk cl1HoldExpiry)
def execEntropyFail (repetition proportion : Bool) (s : State) : Res := .next (s.onBlk (entropyFail repetition proportion))
def execEntropyRetest (ok : Bool) (s : State) : Res := .next (s.onBlk (entropyRetest ok))
def execCryHeadWrite (i : Initiator) (w : Word) (s : State) : Res := .next (s.onBlk (cryHeadWrite i w))
def execCryptoDescriptorDone (s : State) : Res := .next (s.onMem cryptoDescriptorDone)
def execMgmtHello (hello : List Byte) (s : State) : Res := .next (s.onBlk (mgmtHello hello))
def execMgmtFinish (finish : List Byte) (s : State) : Res := .next (s.onBlk (mgmtFinish finish))
def execSessionDatagram (d : List Byte) (s : State) : Res := .next (s.onBlk (sessionDatagram d))
def execSessionIdleClose (s : State) : Res := .next (s.onBlk sessionIdleClose)
def execSessionKeyLifeClose (s : State) : Res := .next (s.onBlk sessionKeyLifeClose)

end Sys2Proof.Machine
end

