-- ==== Sys2Proof/Machine/Update.lean ====
section
/-! DEFINITION. The update service and recovery (R256, R433 to R451): manifests, the refusal conditions, the states of an
update, the transports of RECOVERY, packages from QSPI, and the meanings of their rows. -/

namespace Sys2Proof.Machine
open Sys2Proof

/-! ### Manifests (R435, R436, R440) -/

/-- Bytes of a manifest. -/
def manifestLen : Nat := 4755

/-- The anchor that verifies a manifest: slot 5 for components 0x00, 0x02 and 0x03, an anchor of role 2 for the others. -/
def Blk.manifestSigner (b : Blk) (code h : Nat) : Option Slot :=
  match b.slotOfHandle h with
  | some (n, s) =>
    if code = 0 ∨ code = 2 ∨ code = 3 then (if n.val = 5 ∧ s.type = ktAnchor then some s else none)
    else if b.anchorActs n s roleManifest then some s else none
  | none => none

/-- Whether the variant has the component: it is known, and its tenant is present. -/
def Blk.hasComp (b : Blk) (code : Nat) : Bool :=
  match compIdx code with
  | some i => if 5 ≤ i.val then decide (b.variant ≠ .nz820 ∨ code < 0x14) else true
  | none => false

/-- The fields of a manifest (R435, R436). -/
def Blk.manifestFields (b : Blk) (p : List Byte) : List (Bool × Err) :=
  let code := (byteAt p 2).toNat
  let vbit := match b.variant with | .nz840 => 0 | .nz830 => 1 | .nz820 => 2
  let entry := leAt p 108 4
  [(decide (leAt p 0 2 ≠ 1), errAt 0 stBadParam 1 0), (!b.hasComp code, errAt 2 stBadParam 1 0)] ++ zeroErr p 3 1
    ++ [(decide (8 ≤ (byteAt p 20).toNat), errAt 20 stBadParam 3 0),
        (!(byteAt p 20).toNat.testBit vbit, errAt 20 stBadParam 1 0)] ++ zeroErr p 21 3
    ++ [(decide (code = 3 ∧ leAt p 28 2 ≠ 1), errAt 28 stBadParam 1 0)] ++ zeroErr p 30 2
    ++ [(decide (code < 4 ∧ 256 < leAt p 32 4), errAt 32 stBadParam 1 0),
        (decide (leAt p 36 4 < 1 ∨ (slotArea code).2 < leAt p 36 4), errAt 36 stBadParam 1 0),
        (b.staleHandle (leAt p 104 2), errAt 104 stBadParam 6 0)] ++ zeroErr p 106 2
    ++ [(decide ((code = 1 ∨ code = 3 ∨ code = 4) ∧ entry ≠ 0), errAt 108 stBadParam 3 0)] ++ zeroErr p 112 16

/-- The signature of a manifest (R435, R436). -/
def Blk.manifestAuth (b : Blk) (p : List Byte) : List (Bool × Err) :=
  let anchor := b.manifestSigner (byteAt p 2).toNat (leAt p 104 2)
  [(decide (leAt p 4 16 ≠ 0 ∧ leAt p 4 16 ≠ b.uid.toNat), err stAuth 2 0), (anchor.isNone, errAt 104 stAuth 3 0),
   (match anchor with
    | some s => !Config.mldsaVerify s.key (p.take 128) (slice p 128 sigLen)
    | none => true, err stAuth 1 0)]

/-- Anti-rollback (R440). -/
def Blk.manifestRollback (b : Blk) (i : Fin 13) (p : List Byte) : List (Bool × Err) :=
  let floor := b.rollback i
  [(decide (i.val ≠ 4 ∧ leAt p 32 4 < floor), err stCounter 1 floor),
   (decide (leAt p 28 2 < (b.comp i).format), err stCounter 1 (b.comp i).format)]

/-- What the boot header keeps of a manifest. -/
def manifestSlot (p : List Byte) (st : ImgState) : ImgSlot :=
  { state := st, major := (byteAt p 24).toNat, minor := (byteAt p 25).toNat, patch := leAt p 26 2, format := leAt p 28 2,
    secVer := leAt p 32 4, len := leAt p 36 4, digest := BitVec.ofNat 512 (leAt p 40 64), entry := wordAt p 108 }

/-! ### Refusal conditions (R439) -/

/-- `MOTION`: RMS over 10 s above 50 mg, tilt above 2.00°, or no valid motion; not judged in RECOVERY. -/
def Blk.inMotion (b : Blk) : Bool :=
  let m := b.motion
  decide (b.rcc.mode ≠ .recovery) &&
    (decide (500 < m.rms10.toNat) || (m.ref.isSome && decide (200 < m.tilt.toNat)) || m.notReady || m.fault)

/-- `LOW_SUPPLY`: the higher feed below the threshold, VHOLD not charged, or VKA not good. -/
def Blk.lowSupply (b : Blk) : Bool :=
  let r := b.rcc
  decide (max (bits r.vbat 15 0) (bits r.vbat 31 16) * 2 < bits r.updThresh 7 0 * 500) || !r.vholdOk || !r.vka

/-- The two conditions that an activation judges again. -/
def Blk.siteChecks (b : Blk) : List (Bool × Err) :=
  [(b.inMotion, err stRefused 3 0), (b.lowSupply, err stRefused 4 0)]

/-- An update refused under a condition of R256: UPDATE_REFUSED, and the subcode in UPD_STATUS. -/
def Blk.refuseUpdate (b : Blk) (op : Nat) (r : Req) (comp : Nat) (e : Err) : Blk :=
  ((b.refuseReq op r e).onUpd fun u => { u with refusal := e.sub }).ev (srcUpd comp) 2 2 (arg32 (e.status + e.sub * 65536))

/-! ### UPD_BEGIN, UPD_DATA, UPD_FINISH (R441) -/

def cmdUpdBegin : Cmd := { op := 0xA01, len := .exactly 4755, parts := true, modes := [2, 3, 4, 8], who := hosts }
def cmdUpdData : Cmd := { op := 0xA02, len := .within 9 4080, parts := false, modes := [2, 3, 4], who := hosts }
def cmdUpdFinish : Cmd := { op := 0xA03, len := .exactly 0, parts := false, modes := [2, 3, 4], who := hosts }
def cmdUpdActivate : Cmd := { op := 0xA04, len := .exactly 16, parts := false, modes := [2, 3, 4], who := hosts }
def cmdUpdAbort : Cmd := { op := 0xA05, len := .exactly 0, parts := false, modes := [2, 3, 4], who := hosts }
def cmdUpdStatus : Cmd := { op := 0xA06, len := .exactly 0, parts := false, modes := [1, 2, 3, 4, 5, 6, 8], who := hosts }

/-- Another update runs, a component is on trial, or the tenant's replacement is pending (R441). -/
def Blk.updBusy (b : Blk) (i : Fin 13) : Bool :=
  b.updateRuns || (upTo 13).any b.onTrial ||
    (match b.tenants.toList[i.val - 5]? with
     | some t => decide (5 ≤ i.val) && (t.replace.isSome || t.replacing.isSome)
     | none => false)

/-- UPD_BEGIN (R256, R441). LOCKDOWN answers subcode 5. -/
def updBegin (r : Req) (b : Blk) : BW :=
  serveW cmdUpdBegin r noAbsent noGrant (fun b _ p =>
    let code := (byteAt p 2).toNat
    match compIdx code with
    | none => (b.refuseReq 0xA01 r (errAt 2 stBadParam 1 0), [])
    | some i =>
      match firstErr (b.manifestFields p ++ [(decide (code = 4 ∧ b.rcc.mode ≠ .recovery ∧ b.rcc.mode ≠ .lockdown), errAt 2 stBadParam 1 0),
            (b.updBusy i && decide (b.rcc.mode ≠ .lockdown), err stBusy 1 0)]) with
      | some e => (b.refuseReq 0xA01 r e, [])
      | none =>
        match firstErr ([(decide (b.rcc.mode = .lockdown), err stRefused 5 0), (decide (code = 1 ∧ b.rcc.mode ≠ .service), err stRefused 6 0),
              (b.sec.ownerLock && decide (b.rcc.mode = .run ∨ b.rcc.mode = .service), err stOwner 2 0)]
            ++ b.siteChecks ++ b.manifestAuth p ++ b.manifestRollback i p) with
        | some e => (b.refuseUpdate 0xA01 r code e, [])
        | none =>
          let slotB := !(b.comp i).runB
          let b1 := b.modComp i fun c => c.setSlot slotB (manifestSlot p .receiving)
          let b2 := (b1.onUpd fun u =>
            { u with comp := code, received := 0, imgLen := leAt p 36 4, refusal := 0, due := none, target := none }).updTo .receiving
          ((b2.ev (srcUpd code) 1 1 (wordAt p 32)).ok 0xA01 r (slice p 36 4 ++ leBytes 4 4072),
            [.clear (slotBase code slotB) (slotArea code).2])) b

/-- UPD_DATA: chunks in order. -/
def updData (r : Req) (b : Blk) : BW :=
  serveW cmdUpdData r noAbsent noGrant (fun b _ p =>
    let u := b.upd
    let data := p.drop 8
    let total := u.received + data.length
    match firstErr ([(decide (leAt p 0 4 ≠ u.received), errAt 0 stBadParam 2 u.received)] ++ zeroErr p 4 4
        ++ [(decide (u.state ≠ .receiving ∨ u.imgLen < total), errAt 8 stBadParam 1 0)]), compIdx u.comp with
    | some e, _ => (b.refuseReq 0xA02 r e, [])
    | none, none => (b, [])
    | none, some i =>
      ((b.onUpd fun u => { u with received := total }).ok 0xA02 r (leBytes 4 total),
        [.put (slotBase u.comp (!(b.comp i).runB) + u.received) data])) b

/-- UPD_FINISH: every byte received; the check starts. -/
def updFinish (r : Req) (b : Blk) : Blk :=
  serve cmdUpdFinish r noAbsent noGrant (fun b _ _ =>
    let u := b.upd
    match firstErr [(decide (u.state = .receiving ∧ u.received < u.imgLen), err stBadParam 2 u.received),
        (decide (u.state = .verifying), err stBusy 1 0), (decide (u.state ≠ .receiving), err stBadParam 2 u.received)] with
    | some e => b.refuseReq 0xA03 r e
    | none => ((b.onUpd fun u => { u with due := some (reqDue r 0xA03) }).updTo .verifying).respond 0xA03 r stAccepted ebnUnknown []) b

/-- Whether a received image passes its check: the digest, and R263 for a configuration. -/
def Blk.imageGood (b : Blk) (m : Mem) (code : Nat) (slotB : Bool) (x : ImgSlot) : Bool :=
  let l := Mem.readBytes m (slotBase code slotB) x.len
  decide (Config.sha3 l = x.digest) &&
    (decide (code ≠ 4) || (match b.verifyImage l x.len x.digest true with | .ok _ => true | .error _ => false))

/-- UPDATE_VERIFIED (R441): the check has run. -/
def updateVerified (m : Mem) (b : Blk) : Blk :=
  let u := b.upd
  match u.state, compIdx u.comp with
  | .verifying, some i =>
    let slotB := !(b.comp i).runB
    let good := b.imageGood m u.comp slotB ((b.comp i).slot slotB)
    let b1 := (b.modComp i fun c => c.modSlot slotB fun x => { x with state := if good then .verified else .invalid }).onUpd fun u =>
      { u with due := none }
    let b2 := b1.updTo (if good then .verified else .idle)
    let b3 := if good then b2.ev (srcUpd u.comp) 3 1 (arg32 u.imgLen) else b2
    match u.due with
    | some d => if good then b3.complete d stOk b3.ebn b3.updStatus else b3.completeErr d (err stAuth 1 0)
    | none => b3
  | _, _ => b

/-! ### UPD_ACTIVATE, UPD_ABORT, UPD_STATUS (R442, R446, R450) -/

/-- The pending activation recorded, with what waits for it. -/
def Blk.schedUpdate (b : Blk) (i : Fin 13) (due : Option Due) (target : Option (BitVec 48)) : Blk :=
  ((b.modComp i fun c => { c with pendingAct := true }).onUpd fun u => { u with due := due, target := target }).updTo .scheduled

/-- UPD_ACTIVATE. -/
def updActivate (r : Req) (b : Blk) : Blk :=
  serve cmdUpdActivate r noAbsent noGrant (fun b _ p =>
    let u := b.upd
    let opt := (byteAt p 0).toNat
    match compIdx u.comp with
    | none => b.refuseReq 0xA04 r (err stBadParam 2 0)
    | some i =>
      let rom := decide (b.rcc.mode = .recovery)
      let x := b.tenants.toList[i.val - 5]?
      let busy : Bool := match x with
        | some t => decide (opt = 1) && (decide (t.state = .stopping ∨ t.state = .resetting) || t.replace.isSome || t.replacing.isSome)
        | none => false
      match firstErr ([(decide (1 < opt), errAt 0 stBadParam 1 0)] ++ zeroErr p 1 7
          ++ [(decide (opt = 1 ∧ (i.val < 5 ∨ rom)), errAt 0 stBadParam 1 0), (decide (opt = 1) && b.targetEarly p 8, errAt 8 stBadParam 1 0),
              (decide (u.state = .scheduled) || busy, err stBusy 1 0), (decide (u.state ≠ .verified), err stBadParam 2 0),
              (decide (opt = 1 ∧ b.rcc.mode = .run ∧ b.full = false), err stRefused 2 0)]) with
      | some e => b.refuseReq 0xA04 r e
      | none => match firstErr b.siteChecks with
        | some e => b.refuseUpdate 0xA04 r u.comp e
        | none =>
          let due := reqDue r 0xA04
          if rom ∨ (i.val < 5 ∧ i.val ≠ 1) then
            let b1 := (b.respond 0xA04 r stAccepted ebnUnknown []).schedUpdate i none none
            b1.complete due stOk ebnUnknown (b1.versionEntry i)
          else if i.val = 1 then
            (b.respond 0xA04 r stAccepted (bnWord (b.breath.bn + 2)) []).schedUpdate i (some due) (some (b.breath.bn + 2))
          else if opt = 0 then (b.respond 0xA04 r stAccepted ebnUnknown []).schedUpdate i (some due) none
          else
            let bn := b.targetBn p 8
            let b1 := (b.respond 0xA04 r stAccepted (bnWord bn) []).schedUpdate i none (some bn)
            match tenantArg [BitVec.ofNat 8 (u.comp - 0x10)] with
            | some t => b1.modT t fun y => { y with replace := some (bn, !(b.comp i).runB, due) }
            | none => b1) b

/-- A scheduled activation removed: the slot stays verified; the request that waits completes (R446). -/
def Blk.unscheduleUpdate (b : Blk) (why : Nat) : Blk :=
  match b.upd.state, compIdx b.upd.comp with
  | .scheduled, some i =>
    let b1 := b.modComp i fun c => { c with pendingAct := false }
    let b2 := ((b1.onUpd fun u => { u with due := none, target := none }).updTo .idle).ev (srcUpd b.upd.comp) 4 1 (arg32 why)
    let b3 := match b.upd.due with | some d => b2.displaced [d] | none => b2
    match tenantArg [BitVec.ofNat 8 (b.upd.comp - 0x10)] with
    | some t => if b.upd.comp < 0x10 then b3
      else match (b3.tn t).replace with
        | some (_, _, d) => if b.upd.target.isSome then (b3.modT t fun y => { y with replace := none }).displaced [d] else b3
        | none => b3
    | none => b3
  | _, _ => b

/-- UPD_ABORT. -/
def updAbort (r : Req) (b : Blk) : Blk :=
  serve cmdUpdAbort r noAbsent noGrant (fun b _ _ =>
    let b1 := if b.upd.state = .scheduled then b.unscheduleUpdate 1 else b.dropUpdate 1
    b1.ok 0xA05 r []) b

/-- UPD_STATUS. -/
def updStatusCmd (r : Req) (b : Blk) : Blk := serve cmdUpdStatus r noAbsent noGrant (fun b _ _ => b.ok 0xA06 r b.updStatus) b

/-- A swap that disables a tenant drops its scheduled activation (R446). -/
def Blk.swapDropsUpdate (b : Blk) : Blk :=
  match tenantArg [BitVec.ofNat 8 (b.upd.comp - 0x10)] with
  | some t => if 0x10 ≤ b.upd.comp ∧ (b.tn t).cfg.enabled = false then b.unscheduleUpdate 4 else b
  | none => b

/-! ### The management host's replies (R420) and RECOVERY over P2 (R449) -/

/-- The frames of one Ramdar message over P2. -/
def Blk.romFrames (b : Blk) (num : Word) (msg : List Byte) : List (List Byte) :=
  let n := max 1 (ceilDiv msg.length 1400)
  let host := match b.upd.recHost with | some h => h.toNat | none => 0
  (List.range n).map fun j =>
    beBytesN 6 host ++ [0x02] ++ b.uidBytes.take 5 ++ [0x88, 0xB5] ++ [0x20, BitVec.ofNat 8 j, BitVec.ofNat 8 n, 0]
      ++ leBytes 4 num.toNat ++ slice msg (1400 * j) 1400

/-- One datagram of the session. -/
def Blk.sessionSend (b : Blk) (s : Session) (msg : List Byte) : Blk :=
  let seq := leBytes 8 s.txCount
  let head := [0x10, 0, 0, 0] ++ leBytes 4 s.id.toNat ++ seq
  b.onSec fun x => { x with session := some { s with txCount := s.txCount + 1 },
                            sent := x.sent ++ [head ++ Config.gcmSeal s.keyOut ([1, 0, 0, 0] ++ seq) head msg] }

/-- The messages that stand in MB10's response and notification queues leave for the host. -/
def Blk.mgmtSend : Nat → Blk → Blk
  | 0, b => b
  | n + 1, b =>
    let q : Fin 256 := if b.hasMsg 31 then 31 else 32
    match b.visible (b.queues.get q) with
    | [] => b
    | m :: _ =>
      let msg := bytesOf m.words
      if b.rcc.mode = .recovery then
        match b.upd.recLast with
        | none => b
        | some (num, l) =>
          let b1 := (b.popMsg q).onSec fun x => { x with sent := x.sent ++ b.romFrames num msg }
          (b1.onUpd fun u => { u with recLast := some (num, if q = 31 then l ++ [msg] else l) }).mgmtSend n
      else match b.sec.session with
        | none => b
        | some s => ((b.popMsg q).sessionSend s msg).mgmtSend n

/-- RESPONSE_PLACE: the next message placed; MB10's engine sends at once what it finds. -/
def responsePlaceSend (m : Fin 12) (b : Blk) : Blk :=
  let b1 := responsePlace m b
  if m = 10 then (b1.onSec fun x => { x with sent := [] }).mgmtSend 256 else b1

/-- RECOVERY_FRAME (R449): a segment from the host; a whole message goes to MB10, a repeated one draws the last response. -/
def recoveryFrame (src : BitVec 48) (payload : List Byte) (b : Blk) : Blk :=
  let u := b.upd
  let idx := (byteAt payload 1).toNat
  let count := (byteAt payload 2).toNat
  let num := wordAt payload 4
  let known : Bool := match u.recHost with | some h => decide (h = src) | none => true
  if b.rcc.mode ≠ .recovery ∨ b.rcc.bootSel ≠ 1 ∨ payload.length < 8 ∨ 1408 < payload.length ∨ byteAt payload 0 ≠ 0x20 ∨
      byteAt payload 3 ≠ 0 ∨ count ≤ idx ∨ known = false then b
  else
    let old := if u.recMsg = some (num, count) then u.recSegs else []
    let segs := setKey old idx (payload.drop 8)
    let b1 := b.onUpd fun u => { u with recHost := some src, recMsg := some (num, count), recSegs := segs }
    if segs.length < count then b1
    else
      let msg := (List.range count).flatMap fun j => (findKey segs j).getD []
      let b2 := b1.onUpd fun u => { u with recMsg := none, recSegs := [] }
      match u.recLast with
      | some (n, l) =>
        if n = num then b2.onSec fun x => { x with sent := l.flatMap (b2.romFrames num) }
        else (b2.onUpd fun u => { u with recLast := some (num, []) }).engineWrite (mbQueue 10 0) (wordsOf 1025 msg)
      | none => (b2.onUpd fun u => { u with recLast := some (num, []) }).engineWrite (mbQueue 10 0) (wordsOf 1025 msg)

/-- RECOVERY_SEGMENT_TIMEOUT: a message with a missing segment is discarded. -/
def recoverySegmentTimeout (b : Blk) : Blk := b.onUpd fun u => { u with recMsg := none, recSegs := [] }

/-! ### Packages from QSPI (R451) -/

/-- QSPI_PACKAGE_INSTALL: the ROM installs, verifies and activates a package that differs from the active slot. -/
def qspiPackageInstall (manifest image : List Byte) (m : Mem) (b : Blk) : BW :=
  let p := padTo manifestLen manifest
  let code := (byteAt p 2).toNat
  match compIdx code with
  | none => (b, [])
  | some i =>
    let slotB := !(b.comp i).runB
    let x := manifestSlot p .verified
    let img := padTo x.len image
    if b.rcc.mode ≠ .boot ∨ b.rcc.episode.isSome ∨ b.rcc.bootSel ≠ 4 ∨ leAt p 0 2 = 0xFFFF ∨
        ((b.running i).usable ∧ (b.running i).digest = x.digest) then (b, [])
    else
      let stores : List Store := [.clear (slotBase code slotB) (slotArea code).2, .put (slotBase code slotB) img]
      match firstErr (b.manifestFields p ++ b.manifestAuth p ++ b.manifestRollback i p
          ++ [(!b.imageGood (Mem.stores m stores) code slotB x, err stAuth 1 0)]) with
      | some e => (b.ev (srcUpd code) 2 2 (arg32 (e.status + e.sub * 65536)), [])
      | none =>
        let b1 := (b.modComp i fun c => c.setSlot slotB x).activate i slotB
        ((b1.modComp i fun c => { c with trialStarts := 0 }).followSlot i, stores)

/-! ### Meanings -/

def execResponsePlace (m : Fin 12) (s : State) : Res := .next (s.onBlk (responsePlaceSend m))
def execUpdBegin (r : Req) (s : State) : Res := .next (s.onMem fun _ b => updBegin r b)
def execUpdData (r : Req) (s : State) : Res := .next (s.onMem fun _ b => updData r b)
def execUpdFinish (r : Req) (s : State) : Res := .next (s.onBlk (updFinish r))
def execUpdateVerified (s : State) : Res := .next (s.onMem fun m b => (updateVerified m b, []))
def execUpdActivate (r : Req) (s : State) : Res := .next (s.onBlk (updActivate r))
def execUpdAbort (r : Req) (s : State) : Res := .next (s.onBlk (updAbort r))
def execUpdStatus (r : Req) (s : State) : Res := .next (s.onBlk (updStatusCmd r))
def execRecoveryFrame (src : BitVec 48) (payload : List Byte) (s : State) : Res := .next (s.onBlk (recoveryFrame src payload))
def execRecoverySegmentTimeout (s : State) : Res := .next (s.onBlk recoverySegmentTimeout)
def execQspiPackageInstall (manifest image : List Byte) (s : State) : Res := .next (s.onMem (qspiPackageInstall manifest image))

end Sys2Proof.Machine
end

