-- ==== Sys2Proof/Machine/Commands.lean ====
section
/-! DEFINITION. The remaining Ramdar commands: system (R243, R244), channels (R248, R249), inputs (R250), log, seals
and notifications (R251), time (R252), ports (R253) and the bridge (R257), with the uncorrectable word of R459, and
the meanings of their rows. -/

namespace Sys2Proof.Machine
open Sys2Proof

/-! ### System (R243, R244) -/

def cmdEcho : Cmd := { op := 0x101, len := .atLeast 0, parts := true, modes := [1, 2, 3, 4, 5, 6, 8], who := anyone }
def cmdGetCaps : Cmd := { op := 0x102, len := .exactly 0, parts := false, modes := [1, 2, 3, 4, 5, 6, 8], who := anyone }
def cmdGetVersions : Cmd := { op := 0x103, len := .exactly 0, parts := false, modes := [1, 2, 3, 4, 5, 6, 8], who := anyone }
def cmdGetHealth : Cmd := { op := 0x106, len := .exactly 0, parts := false, modes := [1, 3, 4, 5, 6, 8], who := anyone }

/-- ECHO: the same bytes. -/
def echo (r : Req) (b : Blk) : Blk := serve cmdEcho r noAbsent noGrant (fun b _ p => b.ok 0x101 r p) b

/-- GET_CAPS. -/
def getCaps (r : Req) (b : Blk) : Blk :=
  serve cmdGetCaps r noAbsent noGrant (fun b _ _ => b.ok 0x102 r
    (leBytes 4 b.caps.toNat ++ leBytes 4 b.rev.toNat ++ b.uidBytes ++ [BitVec.ofNat 8 b.rcc.mode.code, BitVec.ofNat 8 b.sec.lc]
      ++ leBytes 2 4080 ++ leBytes 4 65280)) b

/-- GET_VERSIONS: components without an image are omitted. -/
def getVersions (r : Req) (b : Blk) : Blk :=
  serve cmdGetVersions r noAbsent noGrant (fun b _ _ =>
    let l := (upTo 13).filter fun i => (b.comp i).hasImage
    b.ok 0x103 r (leBytes 1 l.length ++ [0, 0, 0] ++ l.flatMap b.versionEntry)) b

/-- `KSTATE` of R44: 0 absent, 1 valid, 2 isolated, 3 out of service. -/
def Boundary.kstate : Boundary → Byte
  | .absent => 0 | .joined => 1 | .isolated | .rejoining => 2 | .service => 3

/-- The four bytes of `KSTATE`. -/
def Blk.kstates (b : Blk) : List Byte := (upTo 4).map fun k => (b.bridges.get k).state.kstate

/-- The highest kernel temperature of the kernels that run, as a signed number; 0 with none. -/
def Blk.hottest (b : Blk) : Int :=
  match ((upTo 4).filter b.kernelRuns).map fun k => (b.kn k).ktemp.toInt with
  | [] => 0
  | x :: l => l.foldl max x

/-- GET_HEALTH. The shell junction temperature is a sensor's: a free value (log entry 3). -/
def getHealth (r : Req) (b : Blk) : Blk :=
  serve cmdGetHealth r noAbsent noGrant (fun b _ _ =>
    let (n, b1) := b.fresh
    b1.ok 0x106 r ([BitVec.ofNat 8 b.rcc.mode.code, BitVec.ofNat 8 b.time.state.code, BitVec.ofNat 8 b.breath.unverified, 0]
      ++ b.kstates ++ leBytes 8 b.breath.bn.toNat ++ leBytes 8 b.breath.tickDt.toNat
      ++ leBytes 2 (Config.freeWord n).toNat ++ leBytes 2 (BitVec.ofInt 16 b.hottest).toNat
      ++ leBytes 4 b.breath.prevOutcome.toNat)) b

/-! ### Channels (R248, R249) -/

/-- The channel that a byte of a payload names. -/
def chanAt (p : List Byte) (i : Nat) : Option (Fin 40) :=
  let n := (byteAt p i).toNat
  if h : n < 40 then some ⟨n, h⟩ else none

/-- Step 3 for a channel of byte `i`. -/
def absentChan (i : Nat) (b : Blk) (p : List Byte) : Option (UnitName × Nat) :=
  match chanAt p i with
  | some c => if b.hasChan c then none else some (.kernels23, c.val)
  | none => none

/-- Step 8: the kernel's boundary. -/
def Blk.isoErrs (b : Blk) (k : Fin 4) : List (Bool × Err) :=
  let st := (b.bridges.get k).state
  [(decide (st = .isolated ∨ st = .rejoining), err stIsolated 1 k.val), (decide (st = .service), err stIsolated 2 k.val)]

/-- Step 6: the owner of a channel. -/
def ownedBy (i : Initiator) : Err := errAt 0 stOwner 1 i.id

/-- Whether an image grants a program commands on a channel (R249). -/
def Channel.grants (ch : Channel) : Initiator → Bool
  | .tenant t => ch.cmdGrant.toNat.testBit t.val
  | .safety => ch.cmdGrant.toNat.testBit 8
  | _ => true

/-- `CH_INFO` (R128). -/
def Blk.chInfo (b : Blk) (c : Fin 40) : Word :=
  let ch := b.ch c
  let cls := match classOf c with | .l => 0 | .m => 1 | .h => 2
  mkWord [c.val, fld cls 2 8, fld (kOf c).val 2 12, fld ch.owner.id 8 16, fld (b2n ch.paired) 1 24,
    fld (b2n (ch.paired && decide (c.val % 2 = 0))) 1 25, fld (b2n b.full) 1 26]

def cmdChGet : Cmd := { op := 0x401, len := .exactly 4, parts := false, modes := [3, 4, 5, 6, 8], who := anyone }
def cmdChSet : Cmd := { op := 0x402, len := .exactly 16, parts := false, modes := [3, 4, 5, 6], who := anyone }
def cmdChClear : Cmd := { op := 0x403, len := .exactly 4, parts := false, modes := [3, 4, 5, 6], who := anyone }
def cmdSenseRoute : Cmd := { op := 0x404, len := .exactly 4, parts := false, modes := [3, 4, 5, 6], who := hostsSafety }

/-- A part of a kernel's section of snapshot N. -/
def Blk.snapPart (b : Blk) (k : Fin 4) (off n : Nat) : List Byte := padTo n (slice (b.kn k).sect off n)

/-- CH_GET. -/
def chGet (r : Req) (b : Blk) : Blk :=
  serve cmdChGet r (absentChan 0) noGrant (fun b _ p =>
    match chanAt p 0 with
    | none => b.refuseReq 0x401 r (errAt 0 stBadParam 1 0)
    | some c => answerI cmdChGet r b (zeroErr p 1 3 ++ b.isoErrs (kOf c)) fun b =>
      (b.snapPart (kOf c) (64 + 64 * (c.val % 10)) 64 ++ leBytes 4 (b.chInfo c).toNat, b)) b

/-- The effective BN of a command staged now: the tick that follows (R40). -/
def Blk.nextBn (b : Blk) : Word := bnWord (b.breath.bn + 1)

/-- A command of kind B that passed its checks: carried, or staged and answered (R40, R41). -/
def Blk.staged (b : Blk) (c : Cmd) (r : Req) (status : Nat) (carried : Bool) (f : Blk → Blk) : Blk :=
  b.stage c.op r fun b => (f b).respond c.op r status b.nextBn [] carried

/-- Steps 5 and 6 of CH_SET: only channels of the Chanter, and for a program only those granted. -/
def chSetGrant (b : Blk) (i : Initiator) (p : List Byte) : Option Err :=
  match chanAt p 0 with
  | none => none
  | some c =>
    let ch := b.ch c
    if ch.owner ≠ .chanter then some (ownedBy ch.owner)
    else if ch.grants i then none else some (err stDenied 2 c.val)

/-- The field checks of CH_SET, of the fields that its flags name. -/
def Blk.chSetErrs (b : Blk) (c : Fin 40) (p : List Byte) : List (Bool × Err) :=
  let fl := (byteAt p 1).toNat
  let rng := fun (bit_ off : Nat) (lo hi v : Nat) => (fl.testBit bit_ && !decide (lo ≤ v ∧ v ≤ hi), errAt off stBadParam 1 0)
  [(b.isFollower c, errAt 0 stBadParam 4 0), (decide (16 ≤ fl), errAt 1 stBadParam 3 0),
    rng 0 2 0 2 (byteAt p 2).toNat, rng 3 3 0 2 (byteAt p 3).toNat, rng 0 4 0 1000 (leAt p 4 2),
    rng 1 6 50 20000 (leAt p 6 2)] ++ zeroErr p 9 1
    ++ [rng 2 10 0 4000 (leAt p 10 2), rng 2 12 0 4000 (leAt p 12 2)] ++ zeroErr p 14 2

/-- The staged set of CH_SET: fields without their flag keep what step K4 reloaded. -/
def ShadowSet.command (sh : ShadowSet) (p : List Byte) : ShadowSet :=
  let fl := (byteAt p 1).toNat
  { cmd := if fl.testBit 0 then mkWord [(byteAt p 2).toNat, fld (leAt p 4 2) 10 16] else sh.cmd,
    pwm := if fl.testBit 1 then mkWord [leAt p 6 2, fld (byteAt p 8).toNat 8 16] else sh.pwm,
    ramp := if fl.testBit 2 then mkWord [leAt p 10 2, fld (leAt p 12 2) 12 16] else sh.ramp,
    slew := if fl.testBit 3 then mkWord [(byteAt p 3).toNat] else sh.slew }

/-- CH_SET. -/
def chSetCmd (r : Req) (carried : Bool) (b : Blk) : Blk :=
  serve cmdChSet r (absentChan 0) chSetGrant (fun b _ p =>
    match chanAt p 0 with
    | none => b.refuseReq 0x402 r (errAt 0 stBadParam 1 0) carried
    | some c =>
      match firstErr (b.chSetErrs c p ++ b.isoErrs (kOf c)) with
      | some e => b.refuseReq 0x402 r e carried
      | none =>
        let st := (b.ch c).snap.state
        let pend := (byteAt p 1).toNat.testBit 0 && decide ((byteAt p 2).toNat ≠ 0) && decide (st = 7 ∨ st = 8)
        b.staged cmdChSet r (if pend then stPending else stOk) carried fun b =>
          b.modCh c fun ch => { ch with shadow := ch.shadow.command p, staged := true }) b carried

/-- Steps 5 and 6 of CH_CLEAR: the owner, and the hosts; for a channel of the safety program only in SERVICE. -/
def chClearGrant (b : Blk) (i : Initiator) (p : List Byte) : Option Err :=
  match chanAt p 0 with
  | none => none
  | some c =>
    let o := (b.ch c).owner
    if o = i then none
    else if hosts i ∧ (o ≠ .safety ∨ b.rcc.mode = .service) then none
    else some (ownedBy o)

/-- CH_CLEAR: the write of R141, held until the tick. -/
def chClearCmd (r : Req) (carried : Bool) (b : Blk) : Blk :=
  serve cmdChClear r (absentChan 0) chClearGrant (fun b i p =>
    match chanAt p 0 with
    | none => b.refuseReq 0x403 r (errAt 0 stBadParam 1 0) carried
    | some c =>
      match firstErr ([(b.isFollower c, errAt 0 stBadParam 4 0), (decide (8 ≤ (byteAt p 1).toNat), errAt 1 stBadParam 3 0)]
          ++ zeroErr p 2 2 ++ b.isoErrs (kOf c)) with
      | some e => b.refuseReq 0x403 r e carried
      | none => b.staged cmdChClear r stOk carried fun b =>
          b.modCh c fun ch => { ch with clearBits := ch.clearBits ||| BitVec.ofNat 3 (byteAt p 1).toNat, clearBy := some i }) b
    carried

/-- Step 3 of SENSE_ROUTE. -/
def absentRoute (b : Blk) (p : List Byte) : Option (UnitName × Nat) := if byteAt p 1 = 0xFF then none else absentChan 1 b p

/-- One output's byte of a routing register. -/
def routeByte (w : Word) (n : Fin 4) (v : Nat) : Word := setBits w (8 * n.val + 7) (8 * n.val) v

/-- The routing of an output moved: the kernel that holds it loses it and the channel's kernel takes it (R249). -/
def Blk.moveRoute (b : Blk) (n : Fin 4) (c : Option (Fin 40)) : Blk :=
  (upTo 4).foldl (fun b k => b.modK k fun kn =>
    { kn with route := routeByte kn.route n (match c with
        | some c => if kOf c = k then 0x80 + c.val % 10 else 0
        | none => 0) }) b

/-- SENSE_ROUTE. The kernel that holds the output is addressed too, since it must release it. -/
def senseRouteCmd (r : Req) (carried : Bool) (b : Blk) : Blk :=
  serve cmdSenseRoute r absentRoute noGrant (fun b _ p =>
    let o := (byteAt p 0).toNat
    let c := chanAt p 1
    if h : o < 4 then
      let n : Fin 4 := ⟨o, h⟩
      let iso := fun (x : Option (Fin 40)) => match x with | some c => b.isoErrs (kOf c) | none => []
      match firstErr ([(decide (byteAt p 1 ≠ 0xFF) && c.isNone, errAt 1 stBadParam 1 0)] ++ zeroErr p 2 2 ++ iso c
          ++ iso (b.routeWanted n)) with
      | some e => b.refuseReq 0x404 r e carried
      | none => b.staged cmdSenseRoute r stOk carried fun b => b.moveRoute n c
    else b.refuseReq 0x404 r (errAt 0 stBadParam 1 0) carried) b carried

def chSet (r : Req) (b : Blk) : Blk := chSetCmd r false b
def chClear (r : Req) (b : Blk) : Blk := chClearCmd r false b
def senseRoute (r : Req) (b : Blk) : Blk := senseRouteCmd r false b

/-- A carried command served in the breath it was carried into (R41). -/
def Blk.serveCarried (b : Blk) (x : BitVec 16 × Req) : Blk :=
  if x.1 = 0x402 then chSetCmd x.2 true b
  else if x.1 = 0x403 then chClearCmd x.2 true b
  else if x.1 = 0x404 then senseRouteCmd x.2 true b
  else b

/-! ### Inputs (R250) -/

def cmdInGet : Cmd := { op := 0x501, len := .exactly 4, parts := false, modes := [3, 4, 5, 6, 8], who := anyone }
def cmdMotionRefSet : Cmd := { op := 0x502, len := .exactly 0, parts := false, modes := [3, 4], who := hosts }

/-- The kernel and the place in its section of the input that IN_GET names, and the record's length. -/
def inputPlace (kind n : Nat) : Option (Fin 4 × Nat × Nat) :=
  if h : kind = 0 ∧ n < 32 then some (⟨n / 8, by omega⟩, 0x320 + 16 * (n % 8), 16)
  else if h : kind = 1 ∧ n < 16 then some (⟨n / 4, by omega⟩, 0x3A0 + 16 * (n % 4), 16)
  else if kind = 2 ∧ n = 0 then some (0, 0x3E0, 32) else none

/-- Step 3 of IN_GET. -/
def absentInput (b : Blk) (p : List Byte) : Option (UnitName × Nat) :=
  match inputPlace (byteAt p 0).toNat (byteAt p 1).toNat with
  | some x => if b.hasKernel x.1 then none else some (.kernels23, (byteAt p 1).toNat)
  | none => none

/-- IN_GET. -/
def inGet (r : Req) (b : Blk) : Blk :=
  serve cmdInGet r absentInput noGrant (fun b _ p =>
    match inputPlace (byteAt p 0).toNat (byteAt p 1).toNat with
    | none => b.refuseReq 0x501 r (errAt (if 2 < (byteAt p 0).toNat then 0 else 1) stBadParam 1 0)
    | some (k, off, n) => answerI cmdInGet r b (zeroErr p 2 2 ++ b.isoErrs k) fun b => (b.snapPart k off n, b)) b

/-- MOTION_REF_SET: the present vector becomes the reference (R172, R175). -/
def motionRefSet (r : Req) (b : Blk) : Blk :=
  serve cmdMotionRefSet r noAbsent noGrant (fun b _ _ =>
    let m := b.motion
    answerI cmdMotionRefSet r b (b.isoErrs 0 ++ [(m.notReady || m.fault, err stBusy 1 0)]) fun b =>
      (leBytes 2 m.x.toNat ++ leBytes 2 m.y.toNat ++ leBytes 2 m.z.toNat,
        b.onMotion fun x => { x with ref := some (m.x, m.y, m.z) })) b

/-! ### The log (R251) -/

def cmdLogInfo : Cmd := { op := 0x601, len := .exactly 0, parts := false, modes := [1, 3, 4, 5, 6, 8], who := hostsSafety }
def cmdLogRead : Cmd := { op := 0x602, len := .exactly 16, parts := false, modes := [1, 3, 4, 5, 6, 8], who := hostsSafety }
def cmdLogSeal : Cmd := { op := 0x603, len := .exactly 0, parts := false, modes := [3, 4, 5, 6], who := hosts }
def cmdSealGet : Cmd := { op := 0x604, len := .exactly 4, parts := false, modes := [1, 3, 4, 5, 6, 8], who := hostsSafety }
def cmdPinRelease : Cmd := { op := 0x605, len := .exactly 8, parts := false, modes := [4], who := service }
def cmdNotifySet : Cmd := { op := 0x606, len := .exactly 4, parts := false, modes := [1, 3, 4, 5, 6, 8], who := anyone }

/-- LOG_INFO. -/
def logInfo (r : Req) (m : Mem) (b : Blk) : Blk :=
  serve cmdLogInfo r noAbsent noGrant (fun b _ _ =>
    let e := b.evs
    b.ok 0x601 r (leBytes 8 (oldestSeq m e) ++ leBytes 8 e.newestSeq.toNat ++ leBytes 4 e.logWr ++ leBytes 4 e.pinHeld.length
      ++ leBytes 8 e.lastSealDt.toNat ++ leBytes 4 e.logLost)) b

/-- One of the two logs as LOG_READ walks it: where its slots begin, how many there are, the oldest and the number. -/
structure LogView where
  base  : Nat
  slots : Nat
  first : Nat
  count : Nat
  deriving DecidableEq, Repr

/-- The ring or the pinned log. -/
def Evs.logView (e : Evs) (pinned : Bool) : LogView :=
  if pinned then { base := pinBase, slots := pinSlots, count := e.pinHeld.length,
                   first := (e.pinWr + pinSlots - e.pinHeld.length) % pinSlots }
  else { base := logBase, slots := logSlots, first := e.oldest, count := e.ringCount }

/-- Slot index and address of the `j`-th oldest record. -/
def LogView.index (v : LogView) (j : Nat) : Nat := (v.first + j) % v.slots
def LogView.addr (v : LogView) (j : Nat) : Nat := v.base + v.index j * 32

/-- Whether a slot reads uncorrectable (R87). -/
def Blk.badSlot (b : Blk) (a : Nat) : Bool := b.nvm.badWords.any fun w => decide (a ≤ w.toNat ∧ w.toNat < a + 32)

/-- The record at a slot, or what stands for an unreadable one. -/
def Blk.logRecord (b : Blk) (m : Mem) (v : LogView) (j : Nat) : List Byte :=
  if b.badSlot (v.addr j) then List.replicate 8 0xFF ++ List.replicate 20 0 ++ leBytes 4 (v.index j)
  else Mem.readBytes m (v.addr j) 32

/-- The first record from the `j`-th on whose SEQ is at least `start`. -/
def Blk.seekSeq (b : Blk) (m : Mem) (v : LogView) (start : Nat) : Nat :=
  ((List.range v.count).find? fun j =>
    !b.badSlot (v.addr j) && decide (start ≤ ofLe (Mem.readBytes m (v.addr j) 8))).getD v.count

/-- LOG_READ. -/
def logRead (r : Req) (m : Mem) (b : Blk) : Blk :=
  serve cmdLogRead r noAbsent noGrant (fun b _ p =>
    let pinned := decide (byteAt p 0 = 1)
    let v := b.evs.logView pinned
    let byIdx := (byteAt p 1).toNat.testBit 0
    let n := leAt p 2 2
    let start := leAt p 8 8
    match firstErr ([(decide (1 < (byteAt p 0).toNat), errAt 0 stBadParam 1 0),
        (decide (1 < (byteAt p 1).toNat), errAt 1 stBadParam 3 0), (decide (n < 1 ∨ 127 < n), errAt 2 stBadParam 1 0)]
        ++ zeroErr p 4 4 ++ [(byIdx && decide (v.slots ≤ start), errAt 8 stBadParam 1 0), (b.evs.scanning, err stBusy 1 0)]) with
    | some e => b.refuseReq 0x602 r e
    | none =>
      let j := if byIdx then (start + v.slots - v.first) % v.slots else b.seekSeq m v start
      let got := min n (v.count - j)
      let recs := (List.range got).map fun i => b.logRecord m v (j + i)
      let bad := (List.range got).any fun i => b.badSlot (v.addr (j + i))
      let gap := !byIdx && !pinned && decide (logSlots < b.evs.logTotal) && decide (start < oldestSeq m b.evs)
      b.ok 0x602 r (padTo 8 (recs.headD []) ++ leBytes 2 got
        ++ leBytes 1 (b2n (decide (j + got < v.count)) + 2 * b2n gap + 4 * b2n bad) ++ List.replicate 5 0
        ++ recs.flatMap id)) b

/-- LOG_SEAL (R85). -/
def logSeal (r : Req) (m : Mem) (b : Blk) : Blk :=
  serve cmdLogSeal r noAbsent noGrant (fun b _ _ =>
    let left : Nat := match b.evs.lastCmdSeal with
      | some d => 10000 - b.since d / 1000000
      | none => 0
    answerI cmdLogSeal r b [(decide (0 < left), err stBusy 2 left), (!b.keysReady, err stRefused 11 0)] fun b =>
      commandSeal m b) b

/-- SEAL_GET: one of the two stored copies. -/
def sealGet (r : Req) (m : Mem) (b : Blk) : Blk :=
  serve cmdSealGet r noAbsent noGrant (fun b _ p =>
    let n := (byteAt p 0).toNat
    answerI cmdSealGet r b ([(decide (1 < n), errAt 0 stBadParam 1 0)] ++ zeroErr p 1 3) fun b =>
      (Mem.readBytes m (sealBase + ((b.evs.sealCount + 1 + n) % 2) * sealCopy) 4955, b)) b

/-- PIN_RELEASE: pinned records that a stored seal covers. -/
def pinRelease (r : Req) (b : Blk) : Blk :=
  serve cmdPinRelease r noAbsent noGrant (fun b _ p =>
    let n := leAt p 0 8
    answerI cmdPinRelease r b [(decide (b.evs.sealEndSeq.toNat < n), errAt 0 stBadParam 1 0)] fun b =>
      let keep := b.evs.pinHeld.filter fun q => decide (n < q.toNat)
      let gone := b.evs.pinHeld.length - keep.length
      (leBytes 4 gone ++ leBytes 4 keep.length,
        b.onEvs fun e => { e with pinHeld := keep, pinFullLogged := e.pinFullLogged && decide (gone = 0) })) b

/-- NOTIFY_SET. -/
def notifySet (r : Req) (b : Blk) : Blk :=
  serve cmdNotifySet r noAbsent noGrant (fun b _ p =>
    let n := leAt p 0 2
    answerI cmdNotifySet r b ([(decide (n % 2 = 1 ∨ 0x1000 ≤ n), errAt 0 stBadParam 3 0)] ++ zeroErr p 2 2) fun b =>
      (leBytes 2 n, b.modMb r.mb fun x => { x with mask := BitVec.ofNat 16 n })) b

/-! ### Time (R252) -/

def cmdTimeGet : Cmd := { op := 0x701, len := .exactly 0, parts := false, modes := [1, 3, 4, 5, 6, 8], who := anyone }
def cmdTimeSet : Cmd := { op := 0x702, len := .exactly 12, parts := false, modes := [3, 4, 5, 6], who := hosts }

/-- TIME_GET. -/
def timeGet (r : Req) (b : Blk) : Blk :=
  serve cmdTimeGet r noAbsent noGrant (fun b i _ =>
    let t := b.time
    b.ok 0x701 r (leBytes 8 (b.dtFor i).toNat ++ [BitVec.ofNat 8 t.state.code, t.slavePort, 0, 0] ++ leBytes 4 t.offset.toNat
      ++ leBytes 8 t.gmId.toNat ++ leBytes 4 t.holdLeftNow.toNat ++ leBytes 4 t.rateNow.toNat)) b

/-- The time base set by command while UNSYNCED: it is the master of its own time (R69). -/
def Blk.timeMaster (b : Blk) : Blk :=
  if b.time.state = .unsynced then
    (b.onTb fun t => { t with slavePort := noPort, gmId := Config.clockIdentity, gmSys := t.ownSys,
                              lastSlave := if t.slavePort = noPort then t.lastSlave else t.slavePort }).tbEnter .master
  else b

/-- TIME_SET: the corrections of R70, and MASTER from UNSYNCED (R69). -/
def timeSet (r : Req) (b : Blk) : Blk :=
  serve cmdTimeSet r noAbsent noGrant (fun b i p =>
    let t := b.time
    let raw := BitVec.ofNat 64 (leAt p 0 8)
    let d : Int := if (byteAt p 8).toNat.testBit 0 then raw.toInt else (raw.toNat : Int) - t.dt.toNat
    let th : Int := t.stepThresh.toNat
    let act : Nat := if th < d then 1 else if d < -th then 2 else 0
    answerI cmdTimeSet r b ([(decide (1 < (byteAt p 8).toNat), errAt 8 stBadParam 3 0)] ++ zeroErr p 9 3
        ++ [(t.syncEn && decide (t.state ≠ .unsynced), err stRefused 8 0)]) fun b =>
      let b1 := b.correct d false
      let b2 := if act = 0 ∧ t.state ≠ .unsynced then b1
        else b1.timeMaster.ev srcTb 0x26 2 (if act = 1 then usArg d else 0) (idByte i) (pin := true)
      (leBytes 8 t.dt.toNat ++ leBytes 8 (if act = 0 then 0 else (BitVec.ofInt 64 d).toNat) ++ [BitVec.ofNat 8 act, 0, 0, 0],
        b2)) b

/-! ### Ports (R253) -/

def cmdPortGet : Cmd := { op := 0x801, len := .exactly 4, parts := false, modes := [3, 4, 5, 6, 8], who := anyone }
def cmdPortSet : Cmd := { op := 0x802, len := .exactly 4, parts := false, modes := [3, 4], who := hosts }

/-- The port that byte 0 names. -/
def portArg (p : List Byte) : Option (Fin 13) :=
  let n := (byteAt p 0).toNat
  if h : n < 13 then some ⟨n, h⟩ else none

/-- Step 3 for a port. -/
def absentPort (b : Blk) (p : List Byte) : Option (UnitName × Nat) :=
  match portArg p with
  | some n => if b.hasPort n then none else some (.uplinks, n.val)
  | none => none

/-- A speed as PORT_GET codes it. -/
def speedCode (mbps : Nat) : Nat := if mbps = 10000 then 3 else if mbps = 1000 then 2 else if mbps = 100 then 1 else 0

/-- Whether gPTP runs on a port. -/
def Blk.gptpOn (b : Blk) (p : Fin 13) : Bool :=
  if h : p.val < 10 then b.time.syncEn && b.time.portEn ⟨p.val, h⟩ else false

/-- PORT_GET. Frames dropped are those of the counters BUF_DROP, RED_DROP and AGE_DROP (R306). -/
def portGet (r : Req) (b : Blk) : Blk :=
  serve cmdPortGet r absentPort noGrant (fun b _ p =>
    match portArg p with
    | none => b.refuseReq 0x801 r (errAt 0 stBadParam 1 0)
    | some n => answerI cmdPortGet r b (zeroErr p 1 3) fun b =>
      let x := b.port n
      (leBytes 1 n.val ++ leBytes 1 (b2n x.link) ++ leBytes 1 (speedCode x.mbps)
        ++ leBytes 1 (b2n x.enabled + 2 * b2n (b.gptpOn n) + 4 * b2n (b.msUsed n && x.msUp))
        ++ leBytes 8 (x.counters.get 0) ++ leBytes 8 (x.counters.get 2)
        ++ leBytes 4 (x.counters.get 6 + x.counters.get 7 + x.counters.get 8), b)) b

/-- PORT_SET. A disabled port drops its link; an enabled one brings it up again (LINK_UP). -/
def portSet (r : Req) (b : Blk) : Blk :=
  serve cmdPortSet r absentPort noGrant (fun b i p =>
    let a := (byteAt p 1).toNat
    match portArg p with
    | none => b.refuseReq 0x802 r (errAt 0 stBadParam 1 0)
    | some n =>
      let own : Bool := match b.sec.session with | some s => decide (i = .mgmt ∧ s.port = n.val ∧ a = 0) | none => false
      answerI cmdPortSet r b ([(decide (11 ≤ n.val), errAt 0 stBadParam 1 0), (decide (1 < a), errAt 1 stBadParam 1 0)]
          ++ zeroErr p 2 2 ++ [(own, err stRefused 9 0)]) fun b =>
        let b1 := if a = 0 then linkDown n b else b
        ([], b1.modPort n fun x => { x with cfg := setBits x.cfg 15 15 a })) b

/-! ### The bridge (R257, R188) -/

def cmdBridgeClear : Cmd :=
  { op := 0xB01, len := .exactly 4, parts := false, modes := [3, 4, 5, 6, 8], who := anyone }

/-- The initiator slot that byte 0 names. -/
def slotArg (p : List Byte) : Option (Fin 10) :=
  let n := (byteAt p 0).toNat
  if h : n < 10 then some ⟨n, h⟩ else none

/-- Step 3 of BRIDGE_CLEAR. -/
def absentSlot (b : Blk) (p : List Byte) : Option (UnitName × Nat) :=
  match slotArg p with
  | some n => if 4 ≤ n.val ∧ n.val < 8 ∧ b.variant = .nz820 then some (.tenants47, n.val) else none
  | none => none

/-- Step 5 of BRIDGE_CLEAR: a program only its own slot. -/
def bridgeClearGrant (_ : Blk) (i : Initiator) (p : List Byte) : Option Err :=
  match slotArg p with
  | some n => if isProgram i ∧ slotInit n ≠ i then some (err stDenied 1 0) else none
  | none => none

/-- BRIDGE_CLEAR: the summary before the clear. -/
def bridgeClear (r : Req) (b : Blk) : Blk :=
  serve cmdBridgeClear r absentSlot bridgeClearGrant (fun b _ p =>
    match slotArg p with
    | none => b.refuseReq 0xB01 r (errAt 0 stBadParam 1 0)
    | some n => answerI cmdBridgeClear r b (zeroErr p 1 3) fun b =>
      (leBytes 4 (b.slots.get n).summary, b.modSlot n fun s => { s with pwFail := false, lostF := false })) b

/-! ### Uncorrectable words of SRAM and LPDDR5 (R459) -/

/-- MEM_UNCORRECTABLE: the record, and the consequence that the reader bears. -/
def memUncorrectable (a : Word) (i : Initiator) (b : Blk) : Blk :=
  let b1 := b.memBad a
  match i with
  | .safety => (upTo 2).foldl (fun b t => passUncorrectable t a b) b1
  | .tenant t => b1.fault1 (.tenant t)
  | .chanter => chanterFatalFault b1
  | .hw => b1.poolBad
  | _ => b1

/-! ### Meanings -/

def execEcho (r : Req) (s : State) : Res := .next (s.onBlk (echo r))
def execGetCaps (r : Req) (s : State) : Res := .next (s.onBlk (getCaps r))
def execGetVersions (r : Req) (s : State) : Res := .next (s.onBlk (getVersions r))
def execGetHealth (r : Req) (s : State) : Res := .next (s.onBlk (getHealth r))
def execChGet (r : Req) (s : State) : Res := .next (s.onBlk (chGet r))
def execChSet (r : Req) (s : State) : Res := .next (s.onBlk (chSet r))
def execChClear (r : Req) (s : State) : Res := .next (s.onBlk (chClear r))
def execSenseRoute (r : Req) (s : State) : Res := .next (s.onBlk (senseRoute r))
def execInGet (r : Req) (s : State) : Res := .next (s.onBlk (inGet r))
def execMotionRefSet (r : Req) (s : State) : Res := .next (s.onBlk (motionRefSet r))
def execLogInfo (r : Req) (s : State) : Res := .next (s.onMem fun m b => (logInfo r m b, []))
def execLogRead (r : Req) (s : State) : Res := .next (s.onMem fun m b => (logRead r m b, []))
def execLogSeal (r : Req) (s : State) : Res := .next (s.onMem fun m b => (logSeal r m b, []))
def execSealGet (r : Req) (s : State) : Res := .next (s.onMem fun m b => (sealGet r m b, []))
def execPinRelease (r : Req) (s : State) : Res := .next (s.onBlk (pinRelease r))
def execNotifySet (r : Req) (s : State) : Res := .next (s.onBlk (notifySet r))
def execTimeGet (r : Req) (s : State) : Res := .next (s.onBlk (timeGet r))
def execTimeSet (r : Req) (s : State) : Res := .next (s.onBlk (timeSet r))
def execPortGet (r : Req) (s : State) : Res := .next (s.onBlk (portGet r))
def execPortSet (r : Req) (s : State) : Res := .next (s.onBlk (portSet r))
def execBridgeClear (r : Req) (s : State) : Res := .next (s.onBlk (bridgeClear r))
def execMemUncorrectable (a : Word) (i : Initiator) (s : State) : Res := .next (s.onBlk (memUncorrectable a i))

end Sys2Proof.Machine
end

