-- ==== Sys2Proof/Machine/Breath.lean ====
section
/-! DEFINITION. The breath (R29 to R62): the tick with its kernel and shell steps (R35), the snapshot and the inboxes
(R42 to R45, R360), the commit deadline and the overruns (R50 to R54), the breath record (R58 to R60), and the meanings
of the breath family. -/

namespace Sys2Proof.Machine
open Sys2Proof

/-- Whether the compute part of a breath runs: from the tick to the commit deadline. -/
def Breath.open_ (r : Breath) : Bool := r.running && decide (1 ≤ r.phase ∧ r.phase ≤ 3)

/-! ### Programs and inboxes (R45) -/

/-- The programs of the active image: the safety program, then the tenants in ascending ID. -/
def Blk.programs (b : Blk) : List Initiator :=
  (if b.dr.present then [.safety] else [])
    ++ ((upTo 8).filter fun t => (b.tn t).cfg.enabled).map Initiator.tenant

/-- Whether a program is gated at the breath (R46, R48). -/
def Blk.gated (b : Blk) : Initiator → Bool
  | .safety => true
  | i => b.gatedTime i

/-- Consecutive overruns of a program. -/
def Blk.consecOf (b : Blk) : Initiator → Nat
  | .tenant t => b.breath.tovrConsec.get t
  | _ => b.breath.unverified

/-- Whether this is the program's first breath (R45). -/
def Blk.originOf (b : Blk) : Initiator → Bool
  | .tenant t => (b.tn t).origin
  | _ => b.dr.originNow

/-- The bytes of an extract, from snapshot N. -/
def Blk.extract (b : Blk) : Extract → List Byte
  | .channel c => b.snapPart (kOf c) (64 + 64 * (c.val % 10)) 64
  | .di d => b.snapPart (kOfDi d) (0x320 + 16 * (d.val % 8)) 16
  | .ai a => b.snapPart ⟨a.val / 4, by omega⟩ (0x3A0 + 16 * (a.val % 4)) 16
  | .motion => b.snapPart 0 0x3E0 32
  | .canObj c j => ((b.can c).frozen.get j).bytes

/-- A program's inbox: the header, the program block, the extracts. -/
def Blk.inbox (b : Blk) (i : Initiator) : List Byte :=
  padTo 64 b.breath.header
    ++ [idByte i, BitVec.ofNat 8 (b2n (!b.gated i)), BitVec.ofNat 8 (b.consecOf i), BitVec.ofNat 8 (b2n (b.originOf i))]
    ++ List.replicate 188 0 ++ (b.gatherOf i).flatMap b.extract

/-! ### The snapshot (R43, R44) -/

/-- The snapshot header of the breath just opened (R44). -/
def Blk.snapHeader (b : Blk) : List Byte :=
  let r := b.breath
  leBytes 8 r.bn.toNat ++ leBytes 8 r.tickDt.toNat ++ leBytes 8 r.cutSeq.toNat ++ leBytes 8 r.prevCut.toNat
    ++ leBytes 4 r.configId.toNat ++ leBytes 4 r.sampleId.toNat ++ leBytes 2 (r.curLenNs / 1000) ++ leBytes 2 r.guard
    ++ [BitVec.ofNat 8 b.rcc.mode.code, BitVec.ofNat 8 (b2n (decide (b.time.state = .unsynced)) + 2 * b2n (decide (r.trimLeft ≠ 0))), 0, 0]
    ++ b.kstates ++ leBytes 4 r.prevOutcome.toNat ++ List.replicate 8 0

/-- The page that the BN's parity selects (R42). -/
def Blk.pageAddr (b : Blk) : Nat := if b.breath.bn.toNat % 2 = 0 then 0x10000000 else 0x10040000

/-- SNAPSHOT_TRANSFER_DONE (R195, R43): the header, the sections of the present kernels and the CAN sections. A kernel
that is not joined keeps its last section. -/
def snapshotTransferDone (b : Blk) : BW :=
  if b.breath.running = false ∨ b.breath.phase ≠ 1 then (b, [])
  else
    let base := b.pageAddr
    let kerns : List Store := ((upTo 4).filter b.hasKernel).map fun k =>
      .put (base + 0x1000 + k.val * 0x1000) (padTo 4096 (b.kn k).sect)
    let cans : List Store := (upTo 6).map fun c =>
      .put (base + 0x8000 + c.val * 0x5000) ((b.can c).frozen.toList.flatMap RxObj.bytes)
    (b.onBre fun r => { r with phase := 2 }, .put base (padTo 256 b.breath.header) :: (kerns ++ cans))

/-! ### The safety delivery areas (R360) -/

/-- A delivery entry: queue number, length, the message padded to a whole word. -/
def deliveryEntry (q : Fin 256) (m : Msg) : List Byte :=
  leBytes 2 q.val ++ leBytes 2 (m.words.length * 4) ++ bytesOf m.words

/-- Visible messages of a queue popped while they fit: what is delivered, how many are left, and the queue's state. -/
def Blk.deliverQueue (b : Blk) (q : Fin 256) (acc : List (List Byte)) (used : Nat) : Nat → List (List Byte) × Nat × Nat × Blk
  | 0 => (acc, used, 0, b)
  | fuel + 1 =>
    match b.visible (b.queues.get q) with
    | [] => (acc, used, 0, b)
    | m :: rest =>
      let e := deliveryEntry q m
      if 32768 < used + e.length then (acc, used, rest.length + 1, b)
      else (b.popMsg q).deliverQueue q (acc ++ [e]) (used + e.length) fuel

/-- The messages that become visible to the safety program, in ascending queue number: the delivery area, the messages
left in their queues. -/
def Blk.safetyDelivery (b : Blk) : List Byte × Nat × Blk :=
  let r := (upTo 256).foldl (fun (x : List (List Byte) × Nat × Nat × Blk) q =>
    let y := x.2.2.2.queues.get q
    if y.enabled ∧ y.consumer = 0x10 then
      let z := x.2.2.2.deliverQueue q x.1 x.2.1 (y.msgs.length + 1)
      (z.1, z.2.1, x.2.2.1 + z.2.2.1, z.2.2.2)
    else x) (([] : List (List Byte)), 32, 0, b)
  (leBytes 2 r.1.length ++ [0, 0] ++ leBytes 4 r.2.1 ++ [BitVec.ofNat 8 (b2n (decide (0 < r.2.2.1)))] ++ List.replicate 23 0
    ++ r.1.flatMap id, r.2.2.1, r.2.2.2)

/-- The stores of a region's A and B copies (R357). -/
def bothCopies (base offA offB size : Nat) (l : List Byte) : List Store :=
  .put (base + offA) l :: mirrorStores (base + offB) size 0 l

/-- INBOX_DISTRIBUTE (R45, R360): the safety inboxes and delivery areas of the enabled tasks, then the tenant inboxes. -/
def inboxDistribute (b : Blk) : BW :=
  if b.breath.running = false ∨ b.breath.phase ≠ 2 then (b, [])
  else
    let b1 := b.onBre fun r => { r with phase := 3 }
    let x : BW :=
      if b.dr.present ∧ b.safetyRuns then
        let d := b1.safetyDelivery
        let l := b.inbox .safety
        let st := b.dr.enabled.flatMap fun t =>
          bothCopies (drArea t) 0 drInboxB 0x10000 l ++ bothCopies (drArea t) drDelivA drDelivB 0x8000 d.1
        (if d.2.1 = 0 then d.2.2
          else (d.2.2.onDr fun x => { x with sticky := orBits x.sticky 0x20 }).dev 0 6 2 d.2.1, st)
      else (b1, [])
    let even := decide (b.breath.bn.toNat % 2 = 0)
    let tenants : List Store := (upTo 8).flatMap fun t =>
      let y := b.tn t
      if y.cfg.enabled ∧ y.state = .running then
        y.cfg.guestStores 64 (if even then y.cfg.inboxEven else y.cfg.inboxOdd).toNat ((b.inbox (.tenant t)).take y.cfg.inboxSize)
      else []
    (x.1, x.2 ++ tenants)

/-! ### Completion within a breath (R49, R50) -/

/-- BREATH_DONE_CALL (R49). -/
def breathDoneCall (t : Fin 8) (bn : BitVec 48) (b : Blk) : Blk :=
  let bit_ : Byte := BitVec.ofNat 8 (2 ^ t.val)
  if (b.tn t).state ≠ .running then b
  else if bn = b.breath.bn ∧ b.breath.open_ then b.onBre fun r => { r with doneT := r.doneT ||| bit_ }
  else if bn.toNat ≤ b.breath.bn.toNat then b.onBre fun r => { r with lateCalls := r.lateCalls ||| bit_ }
  else b

/-- CHANTER_STAGING_COMPLETE (R50). -/
def chanterStagingComplete (b : Blk) : Blk :=
  if b.breath.open_ then b.onBre fun r => { r with doneCh := true } else b

/-! ### The breath record (R58 to R60) -/

def Breath.recEn (r : Breath) : Bool := bit r.recCtrl 0
def Breath.recLevel1 (r : Breath) : Bool := bit r.recCtrl 1

/-- A section of the record's body. -/
def recSection (type prog : Nat) (l : List Byte) : List Byte := leBytes 2 type ++ leBytes 2 prog ++ leBytes 4 l.length ++ l

/-- Messages of a queue that were sequenced between the previous cut and this one. -/
def Blk.cutMsgs (b : Blk) (q : Fin 256) : List (Nat × Fin 256 × Msg) :=
  (b.queues.get q).msgs.filterMap fun m =>
    match m.seq with
    | some n => if b.breath.prevCut.toNat ≤ n.toNat ∧ n.toNat < b.breath.cutSeq.toNat then some (n.toNat, q, m) else none
    | none => none

/-- Messages in SEQ order. -/
def inSeqOrder (l : List (Nat × Fin 256 × Msg)) : List (Nat × Fin 256 × Msg) := l.foldl (fun acc x => insertHeld x acc) []

/-- Queues that a program consumes. -/
def Blk.inbound (b : Blk) (i : Initiator) : List (Fin 256) :=
  (upTo 256).filter fun q => (b.queues.get q).enabled && decide ((b.queues.get q).consumer = i.id)

/-- COMMANDS and DELIVERY of a cut, for a record of level 1. -/
def Blk.recordCut (b : Blk) : List Byte :=
  let reqs := inSeqOrder ((upTo 12).flatMap fun m => b.cutMsgs (mbQueue m 0))
  let cmds := reqs.flatMap fun x => leBytes 8 x.1 ++ [BitVec.ofNat 8 (x.2.1.val / 3), 0, 0, 0] ++ bytesOf x.2.2.words
  recSection 2 0xFF cmds ++ b.programs.flatMap fun i =>
    if b.gated i then
      recSection 4 i.id ((inSeqOrder ((b.inbound i).flatMap b.cutMsgs)).flatMap fun x => deliveryEntry x.2.1 x.2.2)
    else []

/-- A program's committed outputs: the shadow set of each staged channel, then the messages it will release. -/
def Blk.outputBody (b : Blk) (i : Initiator) : List Byte :=
  let chs := (upTo 40).filter fun c => decide ((b.ch c).owner = i) && (b.ch c).staged
  (chs.flatMap fun c =>
    let s := (b.ch c).shadow
    [BitVec.ofNat 8 c.val, 0, 0, 0] ++ bytesOf [s.cmd, s.pwm, s.ramp, s.slew])
    ++ (b.heldOf i.id).flatMap fun h => deliveryEntry h.2.1 { words := h.2.2, seq := none }

/-- Whether a program's breath is committed, and whether it overran. -/
def Blk.doneOf (b : Blk) : Initiator → Bool
  | .tenant t => b.breath.doneT.toNat.testBit t.val
  | .safety => b.breath.doneV
  | _ => false
def Blk.overOf (b : Blk) : Initiator → Bool
  | .tenant t => bit b.breath.outcome t.val
  | .safety => bit b.breath.outcome 16
  | _ => false

/-- The 72-byte OUTCOME entry of a program. -/
def Blk.outcomeEntry (b : Blk) (i : Initiator) : List Byte :=
  let out := if b.doneOf i then b.outputBody i else []
  [idByte i, BitVec.ofNat 8 (b2n (b.doneOf i) + 2 * b2n (b.overOf i) + 4 * b2n (b.originOf i) + 8 * b2n (b.freeMode (idByte i)))]
    ++ List.replicate 6 0 ++ digestBytes (Config.sha3 out)

/-- The joined body of the breath's record. `before` is the block at the deadline, from which the inboxes are read. -/
def Blk.recordBody (b before : Blk) : List Byte :=
  let ps := b.programs
  let full := b.breath.recLevel1
  recSection 1 0xFF (padTo 64 b.breath.header)
    ++ (if full then b.breath.recIn ++ ps.flatMap fun i => recSection 3 i.id (before.inbox i) else [])
    ++ (if full then ps.flatMap fun i => if b.doneOf i then recSection 5 i.id (b.outputBody i) else [] else [])
    ++ recSection 6 0xFF (ps.flatMap b.outcomeEntry)

/-- The datagrams of a record (R59): segments of at most 1,400 bytes. -/
def Blk.segments (b : Blk) (body : List Byte) : List (List Byte) :=
  let n := ceilDiv body.length 1400
  (List.range n).map fun j =>
    let part := slice body (1400 * j) 1400
    leBytes 2 1 ++ leBytes 2 j ++ leBytes 2 n ++ leBytes 2 part.length ++ leBytes 8 b.breath.bn.toNat ++ b.uidBytes ++ part

/-- The record of the breath queued from its commit deadline. -/
def Blk.queueRecord (b before : Blk) : Blk :=
  if b.breath.recEn then b.onBre fun r => { r with recQueue := r.recQueue ++ [(r.bn, b.segments (b.recordBody before))] } else b

/-- Records that are wholly queued by tick N+2 have left. -/
def Blk.sendRecords (b : Blk) : Blk :=
  b.onBre fun r =>
    let gone := r.recQueue.filter fun x => decide (x.1.toNat + 2 ≤ r.bn.toNat)
    { r with recQueue := r.recQueue.filter (fun x => decide (r.bn.toNat < x.1.toNat + 2)),
             recSent := r.recSent + BitVec.ofNat 32 gone.length,
             recOut := match gone.getLast? with | some x => x.2 | none => r.recOut }

/-- BREATH_RECORD_DROP (R58): the oldest record is not wholly queued in time. -/
def breathRecordDrop (b : Blk) : Blk :=
  match b.breath.recQueue with
  | [] => b
  | _ :: rest => b.onBre fun r =>
    { r with recQueue := rest, recDrop := satInc r.recDrop 0xFFFFFFFF, recDropNew := satInc r.recDropNew 0xFFFFFFFF }

/-- REC_DROP (R58): at most once per second. -/
def recDrop (b : Blk) : Blk :=
  let due : Bool := match b.breath.recLogDt with | some t => decide (1000000000 ≤ b.since t) | none => true
  if b.breath.recDropNew = 0 ∨ due = false then b
  else (b.onBre fun r => { r with recDropNew := 0, recLogDt := some b.time.dt }).ev srcBre 0x17 1 (arg32 b.breath.recDropNew)

/-! ### The commit deadline (R50 to R54) -/

/-- The safety program's part: a verified breath ends its count, any other is an overrun and is discarded (R52, R364). A
program that a mode has stopped is not expected to verify. -/
def Blk.safetyDeadline (b : Blk) : BW :=
  if b.dr.present = false ∨ (b.dr.run = false ∧ b.dr.givenUp = false) then (b, [])
  else if b.breath.doneV then
    ((b.onBre fun r => { r with unverified := 0, commitS := true }).onDr fun d => { d with fbUntilVerified := false }, [])
  else (b.safetyOverrun b.incompleteBits).discardPasses

/-- A tenant's part: done, or overrun. Only a running tenant is expected to signal (R49). -/
def Blk.tenantDeadline (b : Blk) (t : Fin 8) : Blk :=
  if (b.tn t).state ≠ .running then b
  else if b.breath.doneT.toNat.testBit t.val then
    b.onBre fun r => { r with commitT := r.commitT ||| BitVec.ofNat 8 (2 ^ t.val) }
  else b.tenantOverrun t

/-- The commit bit of a channel (R50). -/
def Blk.commitBit (b : Blk) (c : Fin 40) : Bool :=
  match (b.ch (b.lead c)).owner with
  | .tenant t => b.breath.commitT.toNat.testBit t.val
  | .safety => b.breath.commitS
  | .chanter => b.breath.doneCh
  | _ => false

/-- CMD_CARRY (R41): once per breath. -/
def Blk.logCarry (b : Blk) : Blk :=
  let n := b.breath.carried.length
  if n = 0 ∨ b.breath.carryLogged then b
  else (b.onBre fun r => { r with carryLogged := true }).ev srcBre 0x19 1 (arg32 n) 0x20

/-- COMMIT_DEADLINE (R50): the passes stop, the outcomes are judged, the commit bits form, a swap due at the next tick is
decided, the record is queued. While a C-reach reset runs nothing is expected and nothing commits (R375). -/
def commitDeadline (b : Blk) : BW :=
  if b.breath.open_ = false then (b, [])
  else
    let b1 := b.stopPasses
    let x : BW :=
      if b.rcc.episode.isSome then (b1, [])
      else
        let y := b1.safetyDeadline
        y.map fun b =>
          let b2 := (upTo 8).foldl Blk.tenantDeadline b
          if b2.breath.doneCh then b2 else b2.chanterOverrun
    x.map fun b2 =>
      let b3 := (b2.onBre fun r => { r with commit := Vector.ofFn b2.commitBit, phase := 4 }).logCarry
      (b3.swapDeadline).queueRecord b

/-- COMMIT_MESSAGE_RECEIVED (R196): the message follows every posted write ahead of it. -/
def commitMessageReceived (k : Fin 4) (b : Blk) : BW :=
  if b.inGuard = false ∨ (b.bridges.get k).state ≠ .joined ∨ (b.kn k).powered = false then (b, [])
  else (b.settleLink k).map fun x =>
    let mask := ((upTo 10).map fun n => if b.breath.commit.get (chanOf k n) then 2 ^ n.val else 0).foldl (· + ·) 0
    x.modK k fun kn => { kn with gotCommit := true, commitBits := BitVec.ofNat 10 mask, swapFlag := b.cfg.swapFlag }

/-- UNVERIFIED_SAFE_STATE (R52): from the fifth consecutive unverified breath. -/
def unverifiedSafeState (b : Blk) : Blk :=
  if b.breath.unverified < 5 then b
  else (upTo 40).foldl (fun b c =>
    if (b.ch c).owner = .safety ∧ b.kernelRuns (kOf c) ∧ (b.bridges.get (kOf c)).state = .joined then b.toSafe c else b) b

/-! ### Kernel steps of a tick (R35) -/

/-- Kernels that the tick reaches: joined ones, and those that join at it. -/
def Blk.ticked (b : Blk) (k : Fin 4) : Bool :=
  b.kernelRuns k && (decide ((b.bridges.get k).state = .joined) || b.joinsNow k || (b.kn k).joinNext)

/-- Step K1. -/
def Blk.stepK1 (b : Blk) (ms : List KernelMeas) : Blk :=
  (upTo 4).foldl (fun b k =>
    match ms[k.val]? with
    | some m => if b.ticked k then b.latchKernel k m b.breath.bn else b
    | none => b) b

/-- Whether the commit bit of a channel for the breath that ends has reached its kernel. -/
def Blk.committed (b : Blk) (c : Fin 40) : Bool :=
  let kn := b.kn (kOf c)
  kn.gotCommit && kn.commitBits.toNat.testBit ((b.lead c).val % 10)

/-- Step K2 of one channel (R35, R96, R122, R124, R141): an action is left when no trigger remains, the staged set
applies, a held clear acts; a safety channel without a commit holds. The flag says that an action was left. -/
def Blk.stepK2 (b : Blk) (c : Fin 40) : Bool × Blk :=
  let ch := b.ch c
  if b.isFollower c ∨ (b.kn (kOf c)).gotCommit = false then (false, b)
  else if b.committed c then
    let acts := ch.inAction || ch.sleepOn
    let free := !acts || !b.triggered c
    let b1 := if free then (b.modCh c Channel.leaveActions).applySet c ch.shadow else b
    let by_ := match ch.clearBy with | some i => i.id | none => 0xFF
    (acts && free, if ch.clearBits = 0 then b1 else b1.clearLatches c ch.clearBits by_)
  else if ch.owner = .safety ∧ bit b.breath.outcome 16 ∧ ch.inAction = false then
    (false, b.modCh c fun ch => { ch.saveLast with unverHold := true })
  else (false, b)

/-- Holds that no channel of a kernel is in any more are over. -/
def Blk.endHolds (b : Blk) (k : Fin 4) : Blk :=
  let any := fun (f : Channel → Bool) => (chansOf k).any fun c => f (b.ch c)
  b.modK k fun kn =>
    { kn with isoHoldStart := if any (·.isoHold) then kn.isoHoldStart else none,
              coreHoldStart := if any (·.coreHold) then kn.coreHoldStart else none }

/-- Step K2 of a kernel: its channels, FALLBACK_LEFT, the returns of R493. -/
def Blk.kernelK2 (b : Blk) (k : Fin 4) : Blk :=
  let r := (chansOf k).foldl (fun (x : List (Fin 40) × Blk) c =>
    let y := x.2.stepK2 c
    (if y.1 then c :: x.1 else x.1, y.2)) ([], b)
  let b1 := if r.1.isEmpty then r.2
    else (r.2.endHolds k).kev k (srcK k) 3 1 (arg32 (maskOf ((chansOf k).filter fun c => b.lead c ∈ r.1)))
  b1.kernelReturns k

/-- Step K4 of a kernel (R35, R141). -/
def Blk.kernelK4 (b : Blk) (k : Fin 4) : Blk :=
  (chansOf k).foldl (fun b c => b.modCh c fun ch =>
    { ch with shadow := ch.applied, staged := false, clearBits := 0, clearBy := none }) b

/-- The image that a swap due at this tick applies. -/
def Blk.swapNow (b : Blk) : Option Image :=
  match b.cfg.swapBn, b.cfg.swapImage with
  | some t, some im => if t = b.breath.bn ∧ b.cfg.swapFlag then some im else none
  | _, _ => none

/-- The kernels' part of a tick. -/
def Blk.kernelSteps (b : Blk) (ms : List KernelMeas) : Blk :=
  let on := (upTo 4).filter b.ticked
  let joins := (upTo 4).filter b.joinsNow
  let b1 := b.stepK1 ms
  let b2 := on.foldl Blk.kernelK2 b1
  let b3 := match b.swapNow with | some im => b2.swapKernels im | none => b2
  let b4 := (joins.foldl Blk.lateConfig b3).reroute
  on.foldl Blk.kernelK4 b4

/-! ### Shell steps of a tick (R35) -/

/-- BN advances (R34): a new block is stored before the tick that opens it. -/
def Blk.advanceBn (b : Blk) : Blk :=
  let bn := b.breath.bn + 1
  let blk := bn.toNat / 2 ^ 24
  let b1 := if bn.toNat % 2 ^ 24 = 0 then
      (b.counterPut ctrBn (BitVec.ofNat 64 blk)).onBre fun r => { r with bnStored := BitVec.ofNat 24 blk }
    else b
  b1.onBre fun r => { r with bn := bn, tickDt := b.time.dt }

/-- Step S4: the marker's SEQ is the cut; a gated view shows what was granted before it (R62, R79). -/
def Blk.marker (b : Blk) : Blk :=
  let (seq, b1) := b.takeSeq
  (b1.onBre fun r => { r with prevCut := r.cutSeq, cutSeq := seq }).onEvs fun e =>
    { e with views := e.views.map fun w => { w with wrVis := w.wr } }

/-- What begins anew with a breath: the outcome becomes PREV_OUTCOME, the counts of overruns that ended return to 0
(R53), the once-per-breath marks clear. -/
def Blk.freshBreath (b : Blk) : Blk :=
  b.onBre fun r =>
    { r with prevOutcome := r.outcome, outcome := 0, doneT := 0, doneA := false, doneB := false, doneV := false,
             doneCh := false, lateCalls := 0, commit := Vector.replicate 40 false, commitT := 0, commitS := false,
             tovrConsec := Vector.ofFn fun t => if r.commitT.toNat.testBit t.val then 0 else r.tovrConsec.get t,
             staged := 0, carryLogged := false, lateBy := [], denied := [], unmapped := [], atomics := [], pwFailed := [],
             refusedMb := [], vlanDenied := [], txRefused := [] }

/-- Steps S1 to S4. A tenant's replacement is asserted before the shell part of a swap. -/
def Blk.shellSteps (b : Blk) : Blk :=
  let sample := b.cfg.activeId
  let b1 : Blk := { b with cans := b.cans.map Can.freeze }
  let b2 := (upTo 8).foldl Blk.replaceDue b1
  let b3 := match b.swapNow with | some im => (b2.swapShell im).swapDropsUpdate | none => b2
  let b4 := (b3.releaseAll).marker
  Blk.cutIrqs b (b4.onBre fun r => { r with configId := b4.cfg.activeId, sampleId := sample })

/-- Kernels that have no commit message at the tick (R196, R122). -/
def Blk.commitMissing (b : Blk) (ks : List (Fin 4)) : BW :=
  ks.foldl (fun (x : BW) k => x.andThen fun b => (b.startIsoHold k).isolate k causeLink) (b, [])

/-- The boundaries that join, return or leave at this tick (R200, R278, R279). -/
def Blk.boundarySteps (b : Blk) (joins missing : List (Fin 4)) : BW :=
  let b1 := joins.foldl Blk.joinBoundary b
  let b2 := (upTo 4).foldl Blk.returnKernel b1
  let x := b2.commitMissing missing
  (upTo 4).foldl (fun (x : BW) k => x.andThen (·.removeKernel k)) x

/-- The commit messages of the breath that ended are used up. -/
def Blk.clearCommits (b : Blk) : Blk :=
  { b with kernels := b.kernels.map fun kn => { kn with gotCommit := false, commitBits := 0, swapFlag := false, confirmed := none } }

/-- What the shell's units do at a tick beside R35: programs, hardware records, references, gates. -/
def Blk.unitSteps (b : Blk) : Blk :=
  let b1 := ((b.tenantTick).safetyTick).activateDue 1
  let b2 := ((b1.newPasses).faultQueueFull).hwDrops
  ((b2.trefTicks).sendRecords).class2Watch

/-- The breath that the tick opens: its length (R30 to R32), phase 1, its header. -/
def Blk.openBreath (b : Blk) : Blk :=
  if b.breath.running = false then b
  else
    let l := b.lenFor b.rcc.mode
    let old := b.breath.lenInUse
    let ns := l * 1000
    let t := b.breath.tickDt.toNat
    let off := if b.breath.trimLeft = 0 ∨ l ≠ old ∨ ns = 0 then 0 else (ns - t % ns) % ns
    let due := if off = 0 then gridAt (t + ns) ns else t + ns + min off 1000
    let b1 := b.onBre fun r =>
      { r with lenInUse := l, trimLeft := off, dueDt := BitVec.ofNat 64 due, curLenNs := due - t, phase := 1 }
    let b2 := if l = old then b1 else b1.ev srcBre 0x15 1 (arg32 (old + l * 65536))
    b2.onBre fun r => { r with header := b2.snapHeader, recIn := if r.recEn && r.recLevel1 then b2.recordCut else [] }

/-- The commands carried into this breath are served first, in their order (R41). -/
def Blk.serveAllCarried (b : Blk) : Blk :=
  let l := b.breath.carried
  l.foldl Blk.serveCarried (b.onBre fun r => { r with carried := [] })

/-- TICK (R35). It follows a commit deadline, or the start of the breath; the breath stops at it when a hold-up commit
has begun (R386). -/
def tick (ms : List KernelMeas) (m : Mem) (b : Blk) : BW :=
  if b.breath.running = false ∨ b.breath.open_ then (b, [])
  else if b.rcc.holdup then (b.stopBreath, [])
  else
    let first := decide (b.breath.phase = 0)
    let b0 := (b.timeTo b.breath.dueDt).logCarry.advanceBn
    let joins := (upTo 4).filter b0.joinsNow
    let missing := (upTo 4).filter fun k =>
      !first && decide ((b0.bridges.get k).state = .joined) && !(b0.kn k).gotCommit
    let old := b0.cfg.activeId
    let swapped := b0.swapNow.isSome
    let b1 := (b0.kernelSteps ms).shellSteps.freshBreath
    let x := (b1.clearCommits).boundarySteps joins missing
    let y := x.andThen fun b => Blk.modeTick m b.unitSteps
    y.map fun b =>
      let b2 := if swapped then b.swapDone old else b
      (b2.openBreath.gateTick).serveAllCarried

/-! ### Meanings -/

def execTick (ms : List KernelMeas) (s : State) : Res := .next (s.onMem (tick ms))
def execCommitDeadline (s : State) : Res := .next (s.onMem fun _ b => commitDeadline b)
def execCommitMessageReceived (k : Fin 4) (s : State) : Res := .next (s.onMem fun _ b => commitMessageReceived k b)
def execSnapshotTransferDone (s : State) : Res := .next (s.onMem fun _ b => snapshotTransferDone b)
def execInboxDistribute (s : State) : Res := .next (s.onMem fun _ b => inboxDistribute b)
def execBreathDoneCall (t : Fin 8) (bn : BitVec 48) (s : State) : Res := .next (s.onBlk (breathDoneCall t bn))
def execUnverifiedSafeState (s : State) : Res := .next (s.onBlk unverifiedSafeState)
def execBreathRecordDrop (s : State) : Res := .next (s.onBlk breathRecordDrop)
def execRecDrop (s : State) : Res := .next (s.onBlk recDrop)
def execChanterStagingComplete (s : State) : Res := .next (s.onBlk chanterStagingComplete)

end Sys2Proof.Machine
end

