-- ==== Sys2Proof/Machine/Flags.lean ====
section
/-! DEFINITION. Every status, flag, count and control word as a read of its register gives it: one function per register
block of the address map (R18), from the register tables of R21, R63, R89 to R92, R127, R128, R158, R159, R176, R202 to
R205, R224 to R227, R308 to R310, R329, R351, R352, R371, R396 to R399, R429 to R431 and R471. Offsets that a table does
not list read zero (R10). -/

namespace Sys2Proof.Machine
open Sys2Proof

/-- Two 16-bit halves. -/
def half (lo hi : Nat) : Word := mkWord [lo % 65536, fld hi 16 16]
/-- A half that saturates. -/
def sat16 (n : Nat) : Nat := min n 0xFFFF
/-- The low and the high word of a 64-bit value. -/
def lo32 (x : BitVec 64) : Word := x.truncate 32
def hi32 (x : BitVec 64) : Word := BitVec.ofNat 32 (x.toNat / 2 ^ 32)
/-- A count that saturates at 2^32 - 1. -/
def sat32 (n : Nat) : Word := arg32 (min n 0xFFFFFFFF)
/-- The index of a register in an array that starts at `base` with stride `st` and `n` entries. -/
def idx (off base st n : Nat) : Option (Fin n) :=
  if h : base ≤ off ∧ (off - base) % st = 0 ∧ (off - base) / st < n then some ⟨(off - base) / st, h.2.2⟩ else none

/-! ### Reset, clock, power and general I/O (R396 to R399) -/

/-- The low level of FAULT_N (R398): any bit of `GPIO_FAULT` [7:0]; high-impedance in SLEEP. -/
def Blk.faultLow (b : Blk) : Bool := decide (bits b.rcc.gpioFault 7 0 ≠ 0) && decide (b.rcc.mode ≠ .sleep)

/-- Whether the fabric is out of reset. Until then no status register shows live values: each reads its Reset value. -/
def Blk.live (b : Blk) : Bool := decide (b.rcc.blkState.get 0 = .running)

/-- A status register's live value, once the fabric runs. -/
def Blk.liveWord (b : Blk) (w : Word) : Word := if b.live then w else 0

/-- Power domains that read as on, one bit per row of R382 from AON: those that the table calls on in the mode. -/
def Blk.domains (b : Blk) : Nat :=
  if b.rcc.powered = false then 1
  else match b.rcc.mode with
    | .recovery => 0x83 + 0x20 * b2n (decide (b.rcc.bootSel = 1))
    | .sleep => 0x01 | .limp => 0xE7 | .lockdown => 0xE3 | .standby => 0x6F | _ => 0xFF

/-- The reset and clock block (R396). -/
def Blk.rccReg (b : Blk) (off : Nat) : Word :=
  let r := b.rcc
  match off with
  | 0x000 => r.cause
  | 0x004 => r.causePrev
  | 0x008 => lo32 r.relDt
  | 0x00C => hi32 r.relDt
  | 0x010 => mkWord [match r.episode with | some e => e.num | none => 0, fld r.step 4 2, fld (b2n r.holding) 1 6]
  | 0x014 => mkWord [r.mode.code, fld (if r.modeCause = 0 then 0 else r.prevMode.code) 4 4, fld r.modeCause 8 8]
  | 0x018 => r.clkSrc
  | 0x01C => r.wdtCfg
  | _ => match idx off 0x040 4 11 with
    | some i =>
      let st := match r.blkState.get i with | .inReset => 0 | .pending => 1 | .running => 2 | .fail => 3
      mkWord [st, fld (r.blkGood.get i) 7 8, fld (r.blkDev.get i).toNat 16 16]
    | none => 0

/-- The power region block (R397). -/
def Blk.pwrReg (b : Blk) (off : Nat) : Word :=
  let r := b.rcc
  match off with
  | 0x000 => b.liveWord (mkWord [b2n r.feedA, fld (b2n r.feedB) 1 1, fld (b2n r.vholdOk) 1 2, fld (b2n r.vka) 1 3,
      fld (b2n r.vioA) 1 4, fld (b2n r.vioB) 1 5, fld (b2n (r.holdup && !r.holdupDone)) 1 6, fld b.domains 8 16])
  | 0x004 => r.vbat
  | 0x008 => r.vhold
  | 0x00C => r.pwrCore
  | 0x010 => r.holdCfg
  | 0x014 => r.sleepCtrl
  | 0x018 => r.updThresh
  | 0x01C => r.holdLast
  | 0x020 => r.pwrSticky
  | _ => 0

/-- The general I/O block (R399). -/
def Blk.gpioReg (b : Blk) (off : Nat) : Word :=
  let r := b.rcc
  match off with
  | 0x000 => r.straps
  | 0x004 => b.liveWord (mkWord [b2n r.nPoreset, fld (b2n r.nSysreset) 1 1, fld (b2n (!r.resetoutLow)) 1 2,
      fld (b2n (!b.faultLow)) 1 3, fld (b2n b.wakeOutLevel) 1 4])
  | 0x008 => r.gpioFault
  | _ => 0

/-! ### Time, sequencer, views and bellows (R63, R89 to R92) -/

/-- The time base read page (R89) as an initiator reads it; `TB_DT_LO` without its latch. -/
def Blk.tbReg (b : Blk) (i : Initiator) (off : Nat) : Word :=
  let t := b.time
  match off with
  | 0x000 => lo32 (b.dtFor i)
  | 0x004 => (findKey t.hiLatch i).getD 0
  | 0x008 => mkWord [t.state.code, fld (b2n t.slewing) 1 2, fld t.slavePort.toNat 8 8]
  | 0x00C => t.offset
  | 0x010 => t.rateNow
  | 0x014 => lo32 t.gmId
  | 0x018 => hi32 t.gmId
  | 0x01C => t.holdLeftNow
  | _ => 0

/-- The time base control page (R90). -/
def TimeBase.ctlReg (t : TimeBase) (off : Nat) : Word :=
  match off with
  | 0x000 => t.ctrl | 0x004 => t.rate | 0x008 => t.stepThresh | 0x00C => t.slewMax
  | 0x010 => t.holdover | 0x014 => t.domain | 0x018 => t.prio | 0x01C => t.syncInt | _ => 0

/-- The sequencer page (R91). -/
def Blk.evsReg (b : Blk) (off : Nat) : Word :=
  let e := b.evs
  match off with
  | 0x000 => lo32 e.nextSeq
  | 0x004 => hi32 e.nextSeq
  | 0x008 => e.highWater
  | 0x00C => arg32 b.grantsLastSecond
  | 0x010 => arg32 e.logSev
  | 0x014 => arg32 e.logRate
  | 0x018 => arg32 e.logWr
  | 0x01C => sat32 e.logLost
  | 0x020 => arg32 e.pinHeld.length
  | 0x024 => arg32 e.sealPeriod
  | _ => 0

/-- A view's registers (R92); `WR` is the index that R79 shows: at the last cut for a gated program, the true one in free
mode. -/
def Blk.viewReg (b : Blk) (v : Fin 9) (off : Nat) : Word :=
  let w := b.evs.views.get v
  let gated := match viewOwner v with | .safety => true | i => b.gatedTime i
  match off with
  | 0x000 => lo32 w.base
  | 0x004 => hi32 w.base
  | 0x008 => arg32 w.size
  | 0x00C => arg32 (if gated then w.wrVis else w.wr)
  | 0x010 => arg32 w.rd
  | 0x014 => sat32 w.lost
  | 0x018 => w.filter
  | _ => 0

/-- The bellows (R63). -/
def Blk.breReg (b : Blk) (off : Nat) : Word :=
  let r := b.breath
  match off with
  | 0x000 => mkWord [b2n r.running, fld (b2n (decide (r.trimLeft ≠ 0))) 1 1, fld (b2n (bit r.recCtrl 0)) 1 2, fld r.phase 3 4]
  | 0x004 => arg32 r.len
  | 0x008 => arg32 r.guard
  | 0x00C => arg32 r.curLenNs
  | 0x010 => r.bn.truncate 32
  | 0x014 => arg32 (r.bn.toNat / 2 ^ 32)
  | 0x018 => lo32 r.tickDt
  | 0x01C => hi32 r.tickDt
  | 0x020 => lo32 r.cutSeq
  | 0x024 => hi32 r.cutSeq
  | 0x028 => mkWord [r.doneT.toNat, fld (b2n r.doneA) 1 16, fld (b2n r.doneB) 1 17, fld (b2n r.doneV) 1 18, fld (b2n r.doneCh) 1 24]
  | 0x02C => r.sticky
  | 0x030 => arg32 r.ovrLimit
  | 0x034 => arg32 r.cmdMax
  | 0x038 => arg32 r.unverified
  | 0x060 => r.modeSel.zeroExtend 32
  | 0x064 => arg32 r.trimLeft
  | 0x070 => r.recCtrl
  | 0x074 => r.recSent
  | 0x078 => sat32 r.recDrop
  | _ => match idx off 0x040 4 8 with
    | some t => mkWord [min (r.tovrConsec.get t) 127, fld (sat16 (r.tovrTotal.get t)) 16 16]
    | none => 0

/-! ### Mailboxes, queues and the bridge (R202, R203, R224 to R227) -/

/-- A mailbox page (R226). -/
def Blk.mbxReg (b : Blk) (m : Fin 12) (off : Nat) : Word :=
  let x := b.mboxes.get m
  let count := fun (j : Fin 3) => (b.visible (b.queues.get (mbQueue m j))).length
  match off with
  | 0x00 => half (count 1) (count 2)
  | 0x04 => x.irqEn | 0x08 => x.irq | 0x0C => x.credMark | _ => 0

/-- The transport registers (R227). -/
def Transport.reg (t : Transport) (off : Nat) : Word :=
  match off with
  | 0x000 => mkWord [t.spiAccepted % 65536, fld (min t.spiCrcFails 255) 8 16, fld (min t.spiRefusals 255) 8 24]
  | 0x004 => sat32 t.spiReplays
  | 0x008 => t.uartCfg
  | 0x00C => half (sat16 t.uartDisc) (sat16 t.uartDiscMode)
  | _ => 0

/-- `PQ_RD_TAG` (R216). -/
def Blk.readTag (b : Blk) (q : Fin 256) : Word :=
  let x := b.queues.get q
  match b.visible x with
  | [] => 0x20
  | m :: _ =>
    let left := m.words.length - 4 * x.popped
    mkWord [min left 4, fld (b2n (decide (x.popped = 0))) 1 3, fld (b2n (decide (left ≤ 4))) 1 4, fld left 11 16]

/-- A queue's page (R224); a queue that is not enabled reads zero. -/
def Blk.pqReg (b : Blk) (q : Fin 256) (off : Nat) : Word :=
  let x := b.queues.get q
  if x.enabled = false then 0
  else match off with
    | 0x0C => mkWord [min (b.credit x) 0x1FFFF, fld (min x.openLen 0x7FF) 11 17, fld (b2n x.aborted) 1 28]
    | 0x10 => (b.window q).getD 0 0
    | 0x14 => (b.window q).getD 1 0
    | 0x18 => (b.window q).getD 2 0
    | 0x1C => (b.window q).getD 3 0
    | 0x20 => b.readTag q
    | 0x24 => mkWord [sat16 (b.visible x).length, fld (min x.pods 0x1FFF) 13 16]
    | 0x28 => x.sticky
    | 0x2C => sat32 x.drops
    | 0x30 => x.limits
    | 0x34 => x.owners
    | 0x38 => mkWord [x.hold, fld x.holdPods 13 16]
    | _ => 0

/-- Who reaches a register of a queue (R224): 1 the producer, 2 the consumer, 3 both and the Chanter. -/
def pqClass (off : Nat) : Nat := if off < 0x10 then 1 else if off < 0x24 then 2 else 3

/-- Whether an initiator reaches a register of a queue. -/
def Blk.reachesQueue (b : Blk) (i : Initiator) (q : Fin 256) (off : Nat) : Bool :=
  let x := b.queues.get q
  let p := decide (x.producer = i.id)
  let c := decide (x.consumer = i.id)
  match pqClass off with | 1 => p | 2 => c | _ => p || c || decide (i = .chanter)

/-- The pool's global registers (R225). -/
def Blk.pmReg (b : Blk) (off : Nat) : Word :=
  match off with
  | 0x000 => arg32 b.sharedFree | 0x004 => arg32 b.claimed | 0x008 => arg32 b.trans.lowWater
  | 0x00C => b.trans.poolSticky | _ => 0

/-- Milliseconds for which all limits have held: since the last instant they did not (R202). -/
def Blk.goodMs (b : Blk) (k : Fin 4) : Nat := min 10000 (b.since (b.bridges.get k).goodFrom / 1000000)

/-- A boundary's registers (R202). -/
def Blk.brgReg (b : Blk) (k : Fin 4) (off : Nat) : Word :=
  let x := b.bridges.get k
  match off with
  | 0x00 => mkWord [x.state.code, fld x.cause.toNat 7 8]
  | 0x04 => x.monClk
  | 0x08 => x.monGnd
  | 0x0C => x.monVdd
  | 0x10 => x.monTemp
  | 0x14 => arg32 (b.goodMs k)
  | 0x18 => half (sat16 x.isoCount) (sat16 x.rejoinCount)
  | 0x1C => x.poll
  | 0x20 => half (sat16 x.linkRetried) (sat16 x.linkFailed)
  | 0x24 => sat32 x.pwDrop
  | 0x28 => sat32 x.replays
  | 0x2C => lo32 x.isoDt
  | 0x30 => hi32 x.isoDt
  | _ => 0

/-- The bridge control block (R202, R203). -/
def Blk.bridgeReg (b : Blk) (off : Nat) : Word :=
  if off < 0x100 then b.brgReg ⟨off / 0x40 % 4, Nat.mod_lt _ (by decide)⟩ (off % 0x40)
  else if off = 0x300 then 0xFA0
  else if 0x200 ≤ off ∧ off < 0x2A0 then
    let n : Fin 10 := ⟨(off - 0x200) / 0x10 % 10, Nat.mod_lt _ (by decide)⟩
    match off % 0x10 with
    | 0x0 => arg32 (b.slots.get n).summary
    | 0x4 => sat32 (b.slots.get n).lost
    | 0x8 => mkWord ((upTo 4).map fun k => fld (min (b.outTo (slotInit n) k) 16) 5 (8 * k.val))
    | _ => 0
  else 0

/-! ### Kernel windows (R127, R128, R158, R159, R176, R204) -/

/-- The input registers of a kernel's global page (R176). -/
def Blk.inputReg (b : Blk) (k : Fin 4) (off : Nat) : Word :=
  let kn := b.kn k
  let m := b.motion
  match off with
  | 0x050 => if k = 0 then m.cfg else 0
  | 0x054 => if k = 0 then half m.x.toNat m.y.toNat else 0
  | 0x058 => if k = 0 then half m.z.toNat m.rms10.toNat else 0
  | 0x05C => if k = 0 then mkWord [m.tilt.toNat, fld m.flags 3 16] else 0
  | 0x0D0 => mkWord [kn.diMask (·.reported), fld (kn.diMask (·.chatter)) 8 8, fld (kn.diMask (·.stuck)) 8 16,
      fld (kn.diMask Di.wakeSource) 8 24]
  | 0x0D4 => kn.diSticky
  | 0x0F0 => mkWord ((upTo 4).map fun a => fld (kn.ais.get a).flags 4 (4 * a.val))
  | _ =>
    match idx off 0x080 4 8, idx off 0x0A0 4 8, idx off 0x0C0 4 4, idx off 0x0D8 4 4, idx off 0x0E8 4 2 with
    | some d, _, _, _, _ => (kn.dis.get d).cfg
    | _, some d, _, _, _ => (kn.dis.get d).cfg2
    | _, _, some a, _, _ => (kn.ais.get a).cfg
    | _, _, _, some j, _ => half (sat16 (kn.dis.get ⟨2 * j.val, by omega⟩).latEdges) (sat16 (kn.dis.get ⟨2 * j.val + 1, by omega⟩).latEdges)
    | _, _, _, _, some j => half (kn.ais.get ⟨2 * j.val, by omega⟩).val.toNat (kn.ais.get ⟨2 * j.val + 1, by omega⟩).val.toNat
    | _, _, _, _, _ => 0

/-- The semaphores that read as held by a holder. -/
def Kernel.semMask (kn : Kernel) (s : Sem) : Nat :=
  ((upTo 8).map fun n => if kn.sems.get n = s then 2 ^ n.val else 0).foldl (· + ·) 0

/-- A kernel's global page (R127, R159, R176, R204). -/
def Blk.kgReg (b : Blk) (k : Fin 4) (off : Nat) : Word :=
  let kn := b.kn k
  match off with
  | 0x000 => mkWord [k.val, fld kn.micro.toNat 8 8]
  | 0x004 => arg32 (b.kflags k)
  | 0x008 => kn.holdTime
  | 0x00C => kn.coreHold
  | 0x010 => kn.route
  | 0x014 => kn.kvbat.zeroExtend 32
  | 0x018 => kn.ktemp.zeroExtend 32
  | 0x01C => kn.iTotal
  | 0x020 => kn.iMean10
  | 0x024 => arg32 kn.fbGen
  | 0x040 => mkWord [b2n kn.ground, fld (b2n kn.under) 1 1, fld (b2n kn.surge) 1 2, fld (b2n kn.overtemp) 1 3,
      fld (b2n (((chansOf k).map b.ch).any (·.deferred))) 1 4, fld kn.surgePeak.toNat 16 16]
  | 0x044 => mkWord [kn.allowance % 4096, fld kn.protSlot 4 16]
  | 0x048 => arg32 kn.protGen
  | 0x04C => kn.supplySticky
  | 0x104 => mkWord [kn.semMask .chanter, fld (kn.semMask .kernel) 8 8]
  | 0x108 => mkWord [kn.heartbeat.toNat, fld (b2n kn.wdHold) 1 8]
  | _ => b.inputReg k off

/-- Remaining nanoseconds of an interval that began at `t0`, as a count of `unit` ns. -/
def Blk.leftOf (b : Blk) (t0 : BitVec 64) (ns unit : Nat) : Nat := (ns - b.since t0) / unit

/-- What is left of an inrush window, in µs (R158); a frozen window stands (R150). -/
def Blk.winLeft (b : Blk) (ch : Channel) : Nat :=
  let now := match ch.winFrozen with | some t => t | none => b.time.dt
  if ch.winOpen then (ch.winLen + ch.stretch - (now.toNat - ch.winStart.toNat)) / 1000 else 0

/-- The seconds to the next decrement (R140): the accumulated on time counts towards `CLEAN`. -/
def Blk.cleanLeft (b : Blk) (ch : Channel) : Nat :=
  let ran := ch.cleanAcc + match ch.cleanFrom with | some t0 => b.since t0 | none => 0
  if ch.faultCount = 0 ∧ ch.thermCount = 0 then 0 else ceilDiv (ch.cleanS * 1000000000 - ran) 1000000000

/-- The protection registers of a channel page, 0x100 to 0x1FF (R158); a pair's state is its leader's. -/
def Blk.protReg (b : Blk) (c : Fin 40) (off : Nat) : Word :=
  let ch := b.ch (b.lead c)
  match off with
  | 0x100 => (b.ch c).limit
  | 0x104 => (b.ch c).limTime
  | 0x108 => (b.ch c).inrush
  | 0x10C => (b.ch c).retry
  | 0x110 => (b.ch c).retryTime
  | 0x114 => (b.ch c).therm
  | 0x120 => mkWord [(b.causeShown c).code, fld (b2n ch.winOpen) 1 4, fld (b2n ch.quickOff) 1 5, fld (b2n ch.deferred) 1 6,
      fld (b2n ch.wearWait) 1 7, fld (b2n ch.shutdownActive) 1 8, fld (b2n ch.tjBlock) 1 9, fld (b2n ch.wireBlock) 1 10,
      fld (b2n ch.pauseRun) 1 11, fld ch.burstLeft 7 16]
  | 0x124 => mkWord [min ch.faultCount 31, fld (min ch.thermCount 15) 4 8, fld ch.latchBits 3 16]
  | 0x128 => arg32 (if ch.pauseRun then sat16 (b.leftOf ch.pauseStart (ch.pauseLen * 1000000) 1000000) else 0)
  | 0x12C => arg32 (min (b.winLeft ch) 0xFFFFF)
  | 0x130 => arg32 (min (ch.stretch / 1000) 0xFFFFF)
  | 0x134 => arg32 (min (b.cleanLeft ch) 0xFFF)
  | 0x138 => arg32 (min (ch.limNow b.time.dt / 10000) 0x3FFF)
  | 0x144 => (b.ch c).protSticky
  | _ => 0

/-- A channel page (R128) as an initiator reads it; `CH_ENERGY_LO` without its latch. -/
def Blk.chReg (b : Blk) (i : Initiator) (c : Fin 40) (off : Nat) : Word :=
  let ch := b.ch c
  let l := b.ch (b.lead c)
  let s := ch.snap
  let arc := fun (w : Word) => if b.full then w else 0
  match off with
  | 0x000 => l.shadow.cmd
  | 0x004 => l.shadow.pwm
  | 0x008 => l.shadow.ramp
  | 0x00C => l.shadow.slew
  | 0x010 => l.applied.cmd
  | 0x014 => l.applied.pwm
  | 0x018 => l.applied.ramp
  | 0x01C => l.applied.slew
  | 0x020 => b.chInfo c
  | 0x024 => ch.actions
  | 0x028 => ch.fallback
  | 0x02C => ch.fallbackPwm
  | 0x030 => ch.openLoadCfg
  | 0x200 => mkWord [l.stateCode, fld (b.chFlags c) 8 8, fld l.actionCode 3 16]
  | 0x204 => mkWord [s.sense.toNat, fld ch.live.toNat 12 16]
  | 0x208 => s.iMean
  | 0x20C => s.iPeak.zeroExtend 32
  | 0x210 => s.vOut.zeroExtend 32
  | 0x214 => s.tj.zeroExtend 32
  | 0x218 => lo32 ch.energy
  | 0x21C => (findKey ch.energyLatch i).getD 0
  | 0x220 => sat32 ch.onTime
  | 0x224 => sat32 ch.switches
  | 0x228 => ch.sticky
  | 0x300 => ch.wmCtrl
  | 0x304 => ch.wmRho
  | 0x308 => ch.wmRth
  | 0x30C => ch.wmTau
  | 0x310 => ch.wmLim
  | 0x314 => half ((ch.th1 * 64).floor.toNat) ((ch.th2 * 64).floor.toNat)
  | 0x318 => half (q16 (ch.tc * 16)).toNat (q16 (ch.tamb * 16)).toNat
  | 0x380 => arc ch.arcCtrl
  | 0x384 => arc ch.arcImin
  | 0x388 => arc (mkWord [min (b.arcCount c) 127, fld ch.arcExcluded.toNat 8 8, fld (b2n ch.arcSeen) 1 16])
  | 0x38C => arc ch.arcLevels
  | _ => if 0x100 ≤ off ∧ off < 0x200 then b.protReg c off else 0

/-- A word of the snapshot mirror (R178): the kernel section as latched at the last tick, zero beyond 0x6FF. -/
def Blk.mirrorReg (b : Blk) (k : Fin 4) (off : Nat) : Word := arg32 (leAt (slice (b.kn k).sect 0 0x700) off 4)

/-! ### Networks (R308 to R310, R329, R351, R352) -/

/-- A CAN controller's page (R329). -/
def Can.reg (x : Can) (off : Nat) : Word :=
  match off with
  | 0x000 => mkWord [x.state.code, fld (b2n x.alone) 1 3, fld (b2n x.held) 1 4, fld (b2n x.boffWait) 1 5, fld x.fifo.length 7 16]
  | 0x004 => mkWord [min x.tec 256, fld (min x.recCnt 255) 8 16, fld (min x.unack 255) 8 24]
  | 0x008 => x.ctrl
  | 0x010 => x.nbt
  | 0x014 => x.dbt
  | 0x018 => x.tdc
  | 0x01C => x.tdcv
  | 0x020 => x.timeouts
  | 0x024 => x.tref
  | 0x028 => x.trefId
  | 0x02C => half x.trefSeq.toNat (sat16 x.trefSkip)
  | 0x030 => x.rxFrames
  | 0x034 => x.txFrames
  | 0x038 => sat32 x.errFrames
  | 0x03C => half (sat16 x.rxOther) (sat16 x.rxRemote)
  | 0x040 => half (sat16 x.txAged) (sat16 x.txDrop)
  | 0x044 => sat32 x.lost
  | 0x048 => x.lastErr
  | 0x04C => x.sticky
  | 0x050 => x.conflict
  | _ =>
    if 0x600 ≤ off ∧ off < 0x800 then
      let j := x.txo.get ⟨(off - 0x600) / 8 % 64, Nat.mod_lt _ (by decide)⟩
      if off % 8 = 0 then j.cfg else if off % 8 = 4 then j.cfg2 else 0
    else if 0x800 ≤ off then
      let j := x.rxo.get ⟨(off - 0x800) / 8 % 256, Nat.mod_lt _ (by decide)⟩
      if 0x1000 ≤ off then 0 else if off % 8 = 0 then j.cfg else if off % 8 = 4 then j.cfg2 else 0
    else match idx off 0x100 4 10, idx off 0x200 4 64 with
      | some i, _ => x.qmap.get i
      | _, some j => mkWord [min (x.txo.get j).coll 3 , fld (b2n (x.txo.get j).withdrawn) 1 3]
      | _, _ => 0

/-- A mask of addresses from `base` on. -/
def addrMask (l : List Nat) (base : Nat) : Word :=
  arg32 ((List.range 32).foldl (fun n a => n + if base + a ∈ l then 2 ^ a else 0) 0)

/-- A wake filter's registers (R351). -/
def Nm.filterReg (n : Nm) (f : Fin 4) (off : Nat) : Word :=
  let x := n.filters.get f
  match off with
  | 0x00 => x.1 | 0x04 => x.2.1 | 0x08 => x.2.2.1 | 0x0C => x.2.2.2.1 | 0x10 => x.2.2.2.2
  | 0x14 => half (sat16 (n.wfCount.get f).1) (sat16 (n.wfCount.get f).2)
  | _ => 0

/-- `NM_STATUS.STATE` (R331). -/
def NmState.code : NmState → Nat
  | .off => 0 | .forming => 1 | .ring => 2 | .keepalive => 3 | .settle => 4 | .asleep => 5

/-- A bus's network-management page (R351); CAN4 and CAN5 have no wake filters. -/
def Nm.reg (n : Nm) (c : Fin 6) (off : Nat) : Word :=
  match off with
  | 0x000 => n.ctrl
  | 0x004 => n.times
  | 0x008 => n.ka
  | 0x00C => n.wakeT
  | 0x010 => mkWord [n.state.code, fld (b2n n.token) 1 3, fld (b2n n.lastSleepInd) 1 4, fld (b2n n.armed) 1 5, fld n.succ 6 8,
      fld (min n.present.length 127) 7 16, fld (min n.ownReq 255) 8 24]
  | 0x014 => addrMask n.present 0
  | 0x018 => addrMask n.present 32
  | 0x01C => addrMask (n.hold.map (·.1)) 0
  | 0x020 => addrMask (n.hold.map (·.1)) 32
  | 0x024 => match n.longest with | some (a, r) => mkWord [a % 64, 64, fld (min r 0xFFFFFF) 24 8] | none => 0
  | 0x028 => lo32 n.agreeSeq
  | 0x02C => hi32 n.agreeSeq
  | 0x030 => sat32 n.cntSleep
  | 0x034 => half (sat16 n.wakeOwn) (sat16 n.wakeBus)
  | 0x038 => half (sat16 n.falseWakes) (sat16 n.skips)
  | 0x03C => n.lastWake
  | 0x040 => n.lastWakeId
  | 0x044 => arg32 n.fecLatched
  | 0x048 => n.sticky
  | _ =>
    if 0x100 ≤ off ∧ off < 0x180 ∧ c.val < 4 then n.filterReg ⟨(off - 0x100) / 0x20 % 4, Nat.mod_lt _ (by decide)⟩ (off % 0x20)
    else 0

/-- The global network-management page (R352). -/
def Blk.nmgReg (b : Blk) (off : Nat) : Word :=
  match off with
  | 0x000 => b.nmg.maxAwake
  | 0x004 => b.nmg.wakeOut
  | 0x008 => b.nmg.timerWake
  | 0x00C => b.liveWord (mkWord ((upTo 6).map (fun c => fld (b2n (b.nmQuiet c)) 1 c.val) ++ [fld (b2n b.sleepReady) 1 8]))
  | 0x010 => b.nmg.wakeSrc
  | _ => 0

/-- The speed code of `SW_P_STATUS` (R309). -/
def linkSpeed (x : Port) : Nat :=
  if x.link = false then 0 else match x.mbps with | 10 => 1 | 100 => 2 | 1000 => 3 | 10000 => 4 | _ => 0

/-- A switch port's page (R309) as an initiator reads it; a counter's low half without its latch. -/
def Blk.portReg (b : Blk) (i : Initiator) (p : Fin 13) (off : Nat) : Word :=
  let x := b.port p
  match off with
  | 0x00 => b.liveWord (mkWord [b2n x.link, fld (linkSpeed x) 3 1, fld (b2n x.enabled) 1 4, fld (b2n (b.gptpOn p)) 1 5,
      fld (b2n (b.msUsed p && x.msUp)) 1 6, fld (b2n x.plca) 1 7])
  | 0x04 => x.cfg
  | 0x08 => x.pcpMap
  | 0x20 => x.mtr0
  | 0x24 => x.mtr1
  | 0x50 => b.liveWord (mkWord [x.gateNow.toNat, fld x.gateEntry 6 8])
  | 0x54 => x.gclCtrl
  | 0x58 => x.tsCorr
  | _ =>
    match idx off 0x10 4 4, idx off 0x30 4 8, idx off 0x60 8 10, idx off 0x64 8 10 with
    | some c, _, _, _ => x.qcfg.get ⟨c.val, by omega⟩
    | _, some c, _, _ => half (sat16 (x.cellsOf c)) (sat16 (x.inQueue c).length)
    | _, _, some j, _ => arg32 (x.counters.get j)
    | _, _, _, some j => match x.latch.find? (fun l => l.1 = i && l.2.1 = j) with | some l => l.2.2 | none => 0
    | _, _, _, _ => 0

/-- The tables of the switch from 0x4000 on (R310). -/
def Blk.swTable (b : Blk) (off : Nat) : Word :=
  let w := b.sw
  if 0xC000 ≤ off then b.vlan ((off - 0xC000) / 4)
  else if 0x8000 ≤ off then
    let x := b.port ⟨(off - 0x8000) / 0x200 % 13, Nat.mod_lt _ (by decide)⟩
    let e := x.gcl.getD ((off - 0x8000) % 0x200 / 8) (0xFF, 0)
    if 0x9A00 ≤ off then 0 else if off % 8 = 0 then e.1 else if off % 8 = 4 then e.2 else 0
  else if 0x7000 ≤ off then
    let x := b.port ⟨(off - 0x7000) / 0x40 % 13, Nat.mod_lt _ (by decide)⟩
    if 0x7080 ≤ off then 0
    else match off % 0x40 with
      | 0x0 => mkWord [b2n x.msUp, fld (b2n x.msSa) 1 1, fld x.msMode 2 4]
      | 0x4 => sat32 x.msOut
      | 0x8 => sat32 x.msOk
      | 0xC => sat32 x.msBad
      | _ => 0
  else if 0x6000 ≤ off then
    let x := w.frer.get ⟨(off - 0x6000) / 0x10 % 64, Nat.mod_lt _ (by decide)⟩
    if 0x6400 ≤ off then 0
    else match off % 0x10 with
      | 0x0 => x.cfg | 0x4 => x.daLo | 0x8 => x.daHi | _ => half (sat16 x.dups) (sat16 x.rogues)
  else if 0x4FF0 ≤ off then 0
  else match findKey w.meters ((off - 0x4000) / 0x10) with
    | none => 0
    | some m => match off % 0x10 with | 0x0 => m.cir | 0x4 => m.eir | 0x8 => m.cbs | _ => m.ebs

/-- The global registers of the switch (R308). -/
def Blk.swReg (b : Blk) (off : Nat) : Word :=
  let w := b.sw
  match off with
  | 0x000 => mkWord ((upTo 13).map (fun p => fld (b2n (b.port p).link) 1 p.val) ++ [fld (b2n w.running) 1 13, fld (b2n w.noSerdes) 1 14])
  | 0x004 => half (bufferCells - w.used) w.minFree
  | 0x008 => b.liveWord (half (sat16 b.sharedPool) (sat16 w.sharedUsed))
  | 0x00C => arg32 w.fdb.length
  | 0x010 => w.fdbAge
  | 0x014 => w.ageMax
  | 0x018 => w.sticky
  | 0x020 => w.macLo
  | 0x024 => w.macHi
  | 0x028 => mkWord [w.cmd, fld (b2n w.busy) 1 31]
  | 0x02C => w.result
  | 0x040 => w.mdioAddr
  | 0x044 => mkWord [bits w.mdioData 16 0, fld (b2n w.mdioBusy) 1 17, fld (bits w.mdioData 30 30) 1 30, fld (b2n w.mdioBusy) 1 31]
  | _ =>
    if 0x080 ≤ off ∧ off < 0x100 then
      let f := w.stamps.get ⟨(off - 0x080) / 8 % 16, Nat.mod_lt _ (by decide)⟩
      if off % 8 = 0 then f.1 else if off % 8 = 4 then f.2 else 0
    else if 0x100 ≤ off ∧ off < 0x1C0 then
      let f := w.red.get ⟨(off - 0x100) / 8 % 24, Nat.mod_lt _ (by decide)⟩
      if off % 8 = 0 then f.1 else if off % 8 = 4 then f.2 else 0
    else 0

/-- The switch block. -/
def Blk.switchReg (b : Blk) (i : Initiator) (off : Nat) : Word :=
  if off < 0x1000 then b.swReg off
  else if off < 0x1D00 then
    let p : Fin 13 := ⟨(off - 0x1000) / 0x100 % 13, Nat.mod_lt _ (by decide)⟩
    if b.hasPort p then b.portReg i p (off % 0x100) else 0
  else if off < 0x4000 then 0
  else b.swTable off

/-! ### The double-reed unit (R371) -/

/-- A task's registers. -/
def Task.reg (t : Task) (off : Nat) : Word :=
  match off with
  | 0x00 => t.budget | 0x04 => t.entry | 0x08 => t.size | 0x0C => t.last | 0x10 => t.max
  | 0x14 => lo32 t.sigA | 0x18 => hi32 t.sigA | 0x1C => lo32 t.sigB | 0x20 => hi32 t.sigB
  | 0x24 => mkWord [min t.capA.length 2048, fld (min t.capB.length 2048) 12 16]
  | 0x28 => mkWord [t.outcome % 8, fld (min t.consec 15) 4 8, fld t.mcause.toNat 8 16, fld (b2n t.trapB) 1 24]
  | 0x2C => t.trapPc | 0x30 => arg32 t.divs | _ => 0

/-- The double-reed block. -/
def Blk.drReg (b : Blk) (off : Nat) : Word :=
  let d := b.dr
  match off with
  | 0x000 => mkWord [b2n d.run, fld (b2n (decide (d.debugOn ≠ 0))) 1 1, fld (b2n d.givenUp) 1 2, fld (b2n d.resetting) 1 3,
      fld (b2n (d.failed.get 0)) 1 4, fld (b2n (d.failed.get 1)) 1 5,
      fld (min (d.resets.filter (fun t => decide (b.since t < bits d.window 10 0 * 60000000000))).length 15) 4 8]
  | 0x004 => d.ctrl
  | 0x008 => d.verifiedBn.truncate 32
  | 0x00C => arg32 (d.verifiedBn.toNat / 2 ^ 32)
  | 0x010 => d.sticky
  | 0x014 => half (sat16 d.checks) (sat16 d.blocksBad)
  | 0x018 => d.window
  | 0x01C => mkWord [d.slice % 64, fld (d.lastBad % 64) 6 8, fld (sat16 d.cycles) 16 16]
  | _ => if 0x100 ≤ off ∧ off < 0x180 then (d.tasks.get ⟨(off - 0x100) / 0x40 % 2, Nat.mod_lt _ (by decide)⟩).reg (off % 0x40) else 0

/-! ### Security (R429 to R431) and the NVM controller (R471) -/

/-- `HSK_STATE.STATE` (R429). -/
def HuskState.code : HuskState → Nat
  | .sealed => 0 | .available => 1 | .unavailable => 2 | .locked => 3

/-- The Husk block (R429). -/
def Blk.hskReg (b : Blk) (off : Nat) : Word :=
  let x := b.sec
  let ku : BitVec 64 := x.kuCnt.zeroExtend 64
  match off with
  | 0x000 => b.liveWord (mkWord [x.husk.code, fld (b2n x.cl1Hold) 1 2, fld (b2n x.ku.isSome) 1 3,
      fld (b2n x.lcPending.isSome) 1 4, fld ((upTo 64).filter fun n => (x.slots.get n).used).length 8 8])
  | 0x004 => mkWord [x.lc % 256, fld x.gen 8 8]
  | 0x008 => lo32 ku
  | 0x00C => mkWord [ku.toNat / 2 ^ 32, fld (b2n x.kuHalf) 1 31]
  | 0x010 => lo32 x.ctlCnt
  | 0x014 => hi32 x.ctlCnt
  | 0x018 => lo32 x.dbgCnt
  | 0x01C => hi32 x.dbgCnt
  | 0x020 => half x.epochAtt x.epochSeal
  | 0x024 => x.debugScope.zeroExtend 32
  | 0x028 => arg32 (if x.debugScope = 0 then 0 else ceilDiv (x.debugEnd.toNat - b.time.dt.toNat) 1000000000)
  | 0x02C => arg32 (b2n x.ownerLock)
  | _ => match idx off 0x040 4 64, idx off 0x140 4 64 with
    | some n, _ =>
      let s := x.slots.get n
      if s.used then mkWord [handleOf n s % 65536, fld s.type 3 16, fld s.role 3 19, fld (b2n s.injected) 1 22,
        fld (b2n s.derived) 1 23, fld (b2n s.cached) 1 24] else 0
    | _, some n => if (x.slots.get n).injected then arg32 ((x.slots.get n).grant % 2048) else 0
    | _, _ => 0

/-- The crypto engine (R430). Signing is deterministic while the entropy source is not healthy (R426). -/
def Blk.cryReg (b : Blk) (off : Nat) : Word :=
  let x := b.sec
  match off with
  | 0x000 => x.cryCtrl
  | 0x004 => x.cryRing
  | 0x008 => x.crySize
  | 0x00C => x.cryHead
  | 0x010 => arg32 x.cryTail
  | 0x014 => mkWord [b2n (bit x.cryCtrl 0 && decide (x.cryTail ≠ x.cryHead.toNat % 1024)), fld (b2n x.entropyOk) 1 1,
      fld (b2n (!x.entropyOk)) 1 2]
  | 0x018 => x.crySticky
  | 0x01C => half (sat16 x.entRep) (sat16 x.entProp)
  | _ => 0

/-- The tamper block (R431). -/
def Blk.tmpReg (b : Blk) (off : Nat) : Word :=
  let x := b.sec
  match off with
  | 0x000 => x.tmpStatus
  | 0x004 => x.tmpCtrl
  | 0x008 => (b.ctrValue ctrTamper).truncate 32
  | 0x00C => x.tmpLast
  | 0x010 => x.tmpLastAot.truncate 32
  | 0x014 => arg32 (x.tmpLastAot.toNat / 2 ^ 32)
  | 0x018 => arg32 (min x.tmpPending 255)
  | 0x01C => x.tmpSticky
  | _ => 0

/-- The NVM controller (R471). A journal transaction and an epoch raise are whole in one step of the model, so their
status bits read 0 between steps. -/
def Blk.nvmReg (b : Blk) (off : Nat) : Word :=
  let n := b.nvm
  match off with
  | 0x000 => mkWord [b2n n.scanning, fld (b2n n.scrub) 1 1, fld (b2n (b.rcc.holdup && !b.rcc.holdupDone)) 1 3]
  | 0x004 => sat32 n.corr
  | 0x008 => arg32 (sat16 n.uncorr)
  | 0x00C => n.errAddr
  | 0x010 => lo32 n.scrubLast
  | 0x014 => hi32 n.scrubLast
  | 0x018 => arg32 n.scrubProg
  | 0x01C => sat32 n.scrubCorr
  | 0x020 => mkWord [n.remapCode.length % 512, fld n.remapData.length 8 16]
  | 0x024 => arg32 n.head
  | 0x028 => lo32 n.txn
  | 0x02C => hi32 n.txn
  | 0x030 => mkWord [n.epoch % 128, fld ((b.ctrValue ctrStep).toNat % 1024) 10 16]
  | 0x034 => n.sticky
  | 0x040 => half (sat16 n.memCorrS) (sat16 n.memCorrD)
  | 0x044 => half (sat16 n.memUncS) (sat16 n.memUncD)
  | 0x048 => n.memErrAddr
  | _ => 0

/-- The capability and identity block (R21). -/
def Blk.sysReg (b : Blk) (i : Initiator) (off : Nat) : Word :=
  match off with
  | 0x000 => b.caps
  | 0x004 => b.rev
  | 0x008 => arg32 b.rcc.mode.code
  | 0x00C => arg32 i.id
  | _ => match idx off 0x010 4 4 with
    | some j => arg32 (b.uid.toNat / 2 ^ (32 * j.val))
    | none => 0

end Sys2Proof.Machine
end

