-- ==== Sys2Proof/Machine/Regs.lean ====
section
/-! DEFINITION. Writes and reads of registers by address: the map (R18, R19), the firewall (R16, R17), the access types
(R8, R10, R179), REGISTER_WRITE and the commands REG_READ and REG_WRITE (R257). -/

namespace Sys2Proof.Machine
open Sys2Proof

/-! ### The address map (R18, R19) -/

/-- Whether an address lies in a range of the map. -/
def mapped (a : Nat) : Bool :=
  decide (a < 0x40000) || (decide (0x08000000 ≤ a) && decide (a < 0x0C800000)) || (decide (0x10000000 ≤ a) && decide (a < 0x11000000))
    || (decide (0x20000000 ≤ a) && decide (a < 0x20100000))
    || (decide (0x40000000 ≤ a) && decide (a < 0x40100000) && !(decide (0x40086000 ≤ a) && decide (a < 0x40090000)))
    || inWindow a || (decide (0x80000000 ≤ a) && decide (a < 0x100000000))

/-- Whether an address lies in a register block. -/
def inBlocks (a : Nat) : Bool := decide (0x40000000 ≤ a) && decide (a < 0x40100000)
/-- The number of a register block: [19:16] of its address. -/
def blockNo (a : Nat) : Nat := a / 0x10000 % 16

/-- Whether an address lies in the pod pool. -/
def inPool (a : Nat) : Bool := decide (0x20000000 ≤ a) && decide (a < 0x20100000)
/-- Whether an address lies in NVM. -/
def inNvm (a : Nat) : Bool := decide (0x08000000 ≤ a) && decide (a < 0x0C800000)
/-- Whether an address lies in the safety program's memory (R356). -/
def inSafetyMem (a : Nat) : Bool := decide (0x10400000 ≤ a) && decide (a < 0x10900000)

/-- The queue whose page holds an address, and the offset in the page (R224). -/
def queueAt (a : Nat) : Option (Fin 256 × Nat) :=
  if 0x40040000 ≤ a ∧ a < 0x40044000 then some (⟨(a - 0x40040000) / 0x40 % 256, Nat.mod_lt _ (by decide)⟩, a % 0x40) else none

/-- The mailbox whose page an initiator's access meets, and the offset: the numbered pages, and the alias (R226). -/
def mailboxAt (i : Initiator) (a : Nat) : Option (Fin 12 × Nat) :=
  if 0x40030000 ≤ a ∧ a < 0x40030180 then some (⟨(a - 0x40030000) / 0x20 % 12, Nat.mod_lt _ (by decide)⟩, a % 0x20)
  else if 0x40030800 ≤ a ∧ a < 0x40030820 then
    match i with
    | .tenant t => some (⟨t.val, by omega⟩, a % 0x20)
    | .safety => some (8, a % 0x20)
    | _ => none
  else none

/-- The view whose page an initiator's access meets, and the offset (R92). -/
def viewAt (i : Initiator) (a : Nat) : Option (Fin 9 × Nat) :=
  if 0x40023000 ≤ a ∧ a < 0x40024000 then (viewOf i).map fun v => (v, a - 0x40023000)
  else if 0x40024000 ≤ a ∧ a < 0x40024120 then some (⟨(a - 0x40024000) / 0x20 % 9, Nat.mod_lt _ (by decide)⟩, a % 0x20)
  else none

/-! ### Absent units (R2, R5, R379) -/

/-- The unit that an address belongs to, where it is one that a variant or a failed clock leaves out. -/
def unitAt (i : Initiator) (a : Nat) : Option UnitName :=
  if inWindow a then
    if 2 ≤ (winKernel a).val then some .kernels23
    else if winPart (a % 0x1000000) = .global then none
    else if 0x10000 ≤ a % 0xE00000 ∧ 0x380 ≤ a % 0x1000 ∧ a % 0x1000 < 0x390 ∧ a % 0x1000000 < 0x1A000 then some .arc
    else none
  else if 0x80000000 ≤ a then some (.block 5)
  else if inBlocks a then
    match blockNo a with
    | 3 => match mailboxAt i a with | some (m, _) => if 4 ≤ m.val ∧ m.val < 8 then some .tenants47 else none | none => none
    | 4 => match queueAt a with | some (q, _) => if 12 ≤ q.val ∧ q.val < 24 then some .tenants47 else none | none => none
    | 6 | 7 => some (.block 10)
    | 8 => some (.block 9)
    | 0xA =>
      if 0x400A1000 ≤ a ∧ a < 0x400A1200 then some .uplinks
      else if 0x400A7000 ≤ a ∧ a < 0x400A7080 then some .macsec
      else some (.block 6)
    | 0xB => some (.block 3)
    | _ => none
  else none

/-- The absent unit that an access meets. -/
def Blk.absentAt (b : Blk) (i : Initiator) (a : Nat) : Option UnitName :=
  match unitAt i a with
  | some u => if b.absent u then some u else none
  | none => none

/-! ### The firewall (R16) -/

/-- Whether an initiator may access an address outside the kernel windows. -/
def Blk.allows (b : Blk) (i : Initiator) (a : Nat) (write : Bool) : Bool :=
  if 0x400F0000 ≤ a ∧ a < 0x40100000 then !write && decide (i ≠ .hw)
  else match queueAt a with
    | some (q, off) => if (b.queues.get q).enabled then b.reachesQueue i q off else !write
    | none =>
      match i with
      | .chanter => !(write && inSafetyMem a && b.safetyRuns)
      | .tenant t =>
        (decide (0x40030800 ≤ a) && decide (a < 0x40030820)) || (decide (0x40023000 ≤ a) && decide (a < 0x40024000))
          || (!write && decide (0x40020000 ≤ a) && decide (a < 0x40021000))
          || (decide (0x80000000 ≤ a) && ((b.tn t).cfg.guestAddr a).isSome)
      | .safety =>
        (decide (0x40030800 ≤ a) && decide (a < 0x40030820)) || (decide (0x40023000 ≤ a) && decide (a < 0x40024000))
          || (!write && decide (0x40020000 ≤ a) && decide (a < 0x40021000)) || inSafetyMem a
      | _ => false

/-! ### Writes of register blocks (R8, R10)

`w` and `be` are the data and the byte enables of the word at the offset. A value that a table's range excludes is
ignored where the table says so, and stored where it does not (log entry 17). -/

/-- A read/write register: the covered bytes of its defined bits. -/
def rw (old w : Word) (be mask : Nat) : Word := mergeBe old w be &&& BitVec.ofNat 32 mask

/-- A read/write field that ignores values outside its range. -/
def rwIn (old w : Word) (be mask lo hi : Nat) : Word :=
  let v := rw old w be mask
  if lo ≤ v.toNat ∧ v.toNat ≤ hi then v else old

/-- A write-1-to-clear register. -/
def clr (old w : Word) (be mask : Nat) : Word := w1c old (maskBe w be &&& BitVec.ofNat 32 mask)

/-- The power registers go to the journal with every write (R395). -/
def Blk.journalPower (b : Blk) : Blk :=
  let r := b.rcc
  b.onNvm fun n => n.transact [(jPower, leBytes 4 r.holdCfg.toNat ++ leBytes 4 r.sleepCtrl.toNat ++ leBytes 4 r.updThresh.toNat)]

def Blk.rccWrite (b : Blk) (off : Nat) (w : Word) (be : Nat) : Blk :=
  match off with
  | 0x01C => b.onRcc fun r => { r with wdtCfg := rwIn r.wdtCfg w be 0xFFFF 10 10000 }
  | 0x020 => rccWdtKickWrite .chanter (maskBe w be) b
  | _ => b

def Blk.pwrWrite (b : Blk) (off : Nat) (w : Word) (be : Nat) : Blk :=
  match off with
  | 0x010 => (b.onRcc fun r => { r with holdCfg := rwIn r.holdCfg w be 0xFF 60 85 }).journalPower
  | 0x014 => (b.onRcc fun r => { r with sleepCtrl := rw r.sleepCtrl w be 0xFF01 }).journalPower
  | 0x018 => (b.onRcc fun r => { r with updThresh := rw r.updThresh w be 0xFF }).journalPower
  | 0x020 => b.onRcc fun r => { r with pwrSticky := clr r.pwrSticky w be 0x3F }
  | _ => b

/-- The time base control page (R90); a written rate is in use at once, below a running slew. -/
def TimeBase.ctlWrite (t : TimeBase) (off : Nat) (w : Word) (be : Nat) : TimeBase :=
  match off with
  | 0x000 => { t with ctrl := rw t.ctrl w be 0x3FF7 }
  | 0x004 =>
    if t.syncEn then t
    else
      let r := clampRate (sint (mergeBe t.rate w be))
      { t with rate := r, rateNow := BitVec.ofInt 32 (sint r - if t.slewing then (t.slewDelta : Int) else 0) }
  | 0x008 => { t with stepThresh := rw t.stepThresh w be 0xFFFFFFFF }
  | 0x00C => { t with slewMax := rw t.slewMax w be 0x3FF }
  | 0x010 => { t with holdover := rw t.holdover w be 0xFFFFFFFF }
  | 0x014 => { t with domain := rw t.domain w be 0x7F }
  | 0x018 => { t with prio := rw t.prio w be 0xFFFFFF }
  | 0x01C => { t with syncInt := rw t.syncInt w be 0xFF }
  | _ => t

/-- The sequencer page (R91). -/
def Evs.regWrite (e : Evs) (off : Nat) (w : Word) (be : Nat) : Evs :=
  match off with
  | 0x010 => { e with logSev := (rw (arg32 e.logSev) w be 7).toNat }
  | 0x014 => { e with logRate := (rwIn (arg32 e.logRate) w be 0xFFFFFFFF 100 8000).toNat }
  | 0x024 => { e with sealPeriod := (rw (arg32 e.sealPeriod) w be 0x7FF).toNat }
  | _ => e

/-- The bellows (R63). `PORT` selects an uplink, which only the NZ840 has. -/
def Blk.breWrite (b : Blk) (off : Nat) (w : Word) (be : Nat) : Blk :=
  b.onBre fun r => match off with
    | 0x02C => { r with sticky := clr r.sticky w be 0x010100FF }
    | 0x030 => { r with ovrLimit := (rwIn (arg32 r.ovrLimit) w be 0x7F 1 64).toNat }
    | 0x034 => { r with cmdMax := (rwIn (arg32 r.cmdMax) w be 0x7F 8 64).toNat }
    | 0x070 => { r with recCtrl := rw r.recCtrl w be (if b.full then 7 else 3) }
    | _ => r

/-- The time base and event sequencer block. -/
def Blk.timeWrite (b : Blk) (i : Initiator) (a : Nat) (w : Word) (be : Nat) : Blk :=
  let off := a % 0x10000
  match viewAt i a with
  | some (v, o) =>
    if o ≠ 0x10 then b
    else evsViewRdWrite i (some v) ((mergeBe (arg32 (b.evs.views.get v).rd) w be).truncate 16) b
  | none =>
    if 0x1000 ≤ off ∧ off < 0x2000 then b.onTb fun t => t.ctlWrite (off - 0x1000) w be
    else if 0x2000 ≤ off ∧ off < 0x3000 then b.onEvs fun e => e.regWrite (off - 0x2000) w be
    else if 0x8000 ≤ off ∧ off < 0x9000 then b.breWrite (off - 0x8000) w be
    else b

/-- The mailbox block (R226, R227). -/
def Blk.mbxWrite (b : Blk) (i : Initiator) (a : Nat) (w : Word) (be : Nat) : Blk :=
  match mailboxAt i a with
  | some (m, off) => b.modMb m fun x => match off with
    | 0x04 => { x with irqEn := rw x.irqEn w be 7 }
    | 0x08 => { x with irq := clr x.irq w be 7 }
    | 0x0C => { x with credMark := rw x.credMark w be 0x1FFFF }
    | _ => x
  | none =>
    if a = 0x40030408 then b.onTrans fun t => { t with uartCfg := rwIn t.uartCfg w be 0x3FFFFF 9600 3000000 } else b

/-- The pod manager (R210, R224, R225). -/
def Blk.podWrite (b : Blk) (i : Initiator) (a : Nat) (w : Word) (be : Nat) : Blk :=
  match queueAt a with
  | some (q, off) => match off with
    | 0x00 => pqWr i q (maskBe w be) none b
    | 0x04 => pqWrEnd i q (maskBe w be) b
    | 0x08 => pqAbort i q b
    | 0x28 => b.modQ q fun x => { x with sticky := clr x.sticky w be 0x3F }
    | _ => b
  | none => if a = 0x4004400C then b.onTrans fun t => { t with poolSticky := clr t.poolSticky w be 3 } else b

/-- The bridge control block (R188, R203): a 1 clears `PW_FAIL` or `LOST` of a slot. -/
def Blk.brgWrite (b : Blk) (off : Nat) (w : Word) (be : Nat) : Blk :=
  if 0x200 ≤ off ∧ off < 0x2A0 ∧ off % 0x10 = 0 then
    let v := maskBe w be
    b.modSlot ⟨(off - 0x200) / 0x10 % 10, Nat.mod_lt _ (by decide)⟩ fun s =>
      { s with pwFail := s.pwFail && !bit v 0, lostF := s.lostF && !bit v 1 }
  else b

/-- The crypto engine (R430); the ring address is 64-byte aligned. -/
def Blk.cryWrite (b : Blk) (off : Nat) (w : Word) (be : Nat) : Blk :=
  match off with
  | 0x000 => b.onSec fun x => { x with cryCtrl := rw x.cryCtrl w be 1 }
  | 0x004 => b.onSec fun x => { x with cryRing := rw x.cryRing w be 0xFFFFFFC0 }
  | 0x008 => b.onSec fun x => { x with crySize := rw x.crySize w be 0xF }
  | 0x00C => cryHeadWrite .chanter (mergeBe b.sec.cryHead w be) b
  | 0x018 => b.onSec fun x => { x with crySticky := clr x.crySticky w be 7 }
  | _ => b

/-- The tamper block (R431). -/
def Blk.tmpWrite (b : Blk) (off : Nat) (w : Word) (be : Nat) : Blk :=
  match off with
  | 0x004 => b.onSec fun x => { x with tmpCtrl := rw x.tmpCtrl w be 0xFF03 }
  | 0x01C => b.onSec fun x => { x with tmpSticky := clr x.tmpSticky w be 0xF7 }
  | _ => b

/-- A CAN controller (R329). -/
def Blk.canWrite (b : Blk) (c : Fin 6) (off : Nat) (w : Word) (be : Nat) : Blk :=
  match off with
  | 0x00C =>
    let v := maskBe w be
    let b1 := if bit v 0 then canCmdRestart c b else b
    if bit v 1 then canCmdRearm c b1 else b1
  | 0x04C => b.modCan c fun x => { x with sticky := clr x.sticky w be 0x3F }
  | _ => b

/-- Network management (R351). -/
def Blk.nmWrite (b : Blk) (off : Nat) (w : Word) (be : Nat) : Blk :=
  if off < 0x1800 ∧ off % 0x400 = 0x048 then
    b.modNm ⟨off / 0x400 % 6, Nat.mod_lt _ (by decide)⟩ fun n => { n with sticky := clr n.sticky w be 0x3F }
  else b

/-- The switch (R308). A write of `SW_FDB_CMD` starts its operation. -/
def Blk.swWrite (b : Blk) (off : Nat) (w : Word) (be : Nat) : Blk :=
  match off with
  | 0x018 => b.onSw fun x => { x with sticky := clr x.sticky w be 0xF }
  | 0x020 => b.onSw fun x => { x with macLo := rw x.macLo w be 0xFFFFFFFF }
  | 0x024 => b.onSw fun x => { x with macHi := rw x.macHi w be 0x0FFFFFFF }
  | 0x028 => match bits (maskBe w be) 1 0 with
    | 1 => swFdbLookup b | 2 => swFdbFlushVid b | 3 => swFdbFlushAll b | _ => b
  | 0x040 => b.onSw fun x => { x with mdioAddr := rw x.mdioAddr w be 0xFFFF01FF }
  | 0x044 => swMdioAccess .chanter (mergeBe (b.swReg 0x044) w be) b
  | _ => b

/-- A register block written (R18). -/
def Blk.blockWrite (b : Blk) (i : Initiator) (a : Nat) (w : Word) (be : Nat) : Blk :=
  let off := a % 0x10000
  if be = 0 then b
  else match blockNo a with
    | 0 => b.rccWrite off w be
    | 1 => b.pwrWrite off w be
    | 2 => b.timeWrite i a w be
    | 3 => b.mbxWrite i a w be
    | 4 => b.podWrite i a w be
    | 5 => b.brgWrite off w be
    | 7 => b.cryWrite off w be
    | 8 => b.canWrite ⟨off / 0x1000 % 6, Nat.mod_lt _ (by decide)⟩ (off % 0x1000) w be
    | 9 => b.nmWrite off w be
    | 0xA => b.swWrite off w be
    | 0xB => if off = 0x010 then b.onDr fun d => { d with sticky := clr d.sticky w be 0x1FF } else b
    | 0xC => if off = 0x008 then b.onRcc fun r => { r with gpioFault := (r.gpioFault &&& 0xFFFFFFFE) ||| (mergeBe r.gpioFault w be &&& 1) } else b
    | 0xD => b.tmpWrite off w be
    | 0xE => if off = 0x034 then b.onNvm fun n => { n with sticky := clr n.sticky w be 0x7F } else b
    | _ => b

/-! ### REGISTER_WRITE -/

/-- A write into a kernel window (R20, R178, R179): posted, acknowledged through the alias, or refused. -/
def Blk.windowWrite (b : Blk) (i : Initiator) (addr : Word) (width : Fin 4) (data : BitVec 64) : BW :=
  let a := addr.toNat
  let off := a % 0x1000000
  match winPart off with
  | .alias_ => acknowledgedWrite i addr width data none b
  | .hole => (b.unmapped i addr, [])
  | .mirror | .sideEffect => (b.denied i addr, [])
  | .global | .page _ =>
    if aligned a width = false ∨ b.mayWrite i (winKernel a) off = false then (b.denied i addr, [])
    else b.postWrite i a width data

/-- The stores of a write to memory: a tenant's in its granules, the Chanter's where it names them. The safety program's
own stores reach its memory with its passes (R361). -/
def Blk.memoryStores (b : Blk) (i : Initiator) (a : Nat) (l : List Byte) : List Store :=
  match i with
  | .tenant t => (b.tn t).cfg.guestStores 8 a l
  | .chanter => [.put a l]
  | _ => []

/-- REGISTER_WRITE: the absent unit, the map, the firewall, then the register. -/
def registerWrite (i : Initiator) (addr : Word) (width : Fin 4) (data : BitVec 64) (b : Blk) : BW :=
  let a := addr.toNat
  let ld := laneData a width data
  match b.absentAt i a with
  | some u => (b.notPresent u addr i, [])
  | none =>
    if inWindow a then b.windowWrite i addr width data
    else if mapped a = false then (b.unmapped i addr, [])
    else if aligned a width = false ∨ b.allows i a true = false then (b.denied i addr, [])
    else if inBlocks a then
      let a0 := a / 8 * 8
      let b1 := b.blockWrite i a0 (ld.1.truncate 32) (ld.2.toNat % 16)
      (b1.blockWrite i (a0 + 4) (hi32 ld.1) (ld.2.toNat / 16), [])
    else (b, b.memoryStores i a (leBytes (2 ^ width.val) data.toNat))

/-! ### Reads by the Chanter (R257) -/

/-- What a read of a register block gives an initiator. -/
def Blk.blockRead (b : Blk) (i : Initiator) (a : Nat) : Word :=
  let off := a % 0x10000
  match blockNo a with
  | 0 => b.rccReg off
  | 1 => b.pwrReg off
  | 2 => match viewAt i a with
    | some (v, o) => b.viewReg v o
    | none =>
      if off < 0x1000 then b.tbReg i off
      else if off < 0x2000 then b.time.ctlReg (off - 0x1000)
      else if off < 0x3000 then b.evsReg (off - 0x2000)
      else if 0x8000 ≤ off ∧ off < 0x9000 then b.breReg (off - 0x8000)
      else 0
  | 3 => match mailboxAt i a with
    | some (m, o) => b.mbxReg m o
    | none => if 0x400 ≤ off ∧ off < 0x500 then b.trans.reg (off - 0x400) else 0
  | 4 => match queueAt a with
    | some (q, o) => b.pqReg q o
    | none => if off < 0x5000 then b.pmReg (off - 0x4000) else 0
  | 5 => b.bridgeReg off
  | 6 => b.hskReg off
  | 7 => b.cryReg off
  | 8 => (b.can ⟨off / 0x1000 % 6, Nat.mod_lt _ (by decide)⟩).reg (off % 0x1000)
  | 9 =>
    if 0xF000 ≤ off then b.nmgReg (off - 0xF000)
    else if off < 0x1800 then
      let c : Fin 6 := ⟨off / 0x400 % 6, Nat.mod_lt _ (by decide)⟩
      (b.nm c).reg c (off % 0x400)
    else 0
  | 0xA => b.switchReg i off
  | 0xB => b.drReg off
  | 0xC => b.gpioReg off
  | 0xD => b.tmpReg off
  | 0xE => b.nvmReg off
  | _ => b.sysReg i off

/-- What a read does beside giving the value: the latches of `TB_DT_LO` and of the counters, the pop of a queue's window. -/
def Blk.readEffect (b : Blk) (i : Initiator) (a : Nat) : Blk :=
  if a = 0x40020000 then { tbDtLoRead i b with reply := b.reply }
  else if 0x400A1000 ≤ a ∧ a < 0x400A1D00 ∧ 0x60 ≤ a % 0x100 ∧ a % 0x100 < 0xB0 ∧ a % 8 = 0 then
    { swCounterLoRead i ⟨(a - 0x400A1000) / 0x100 % 13, Nat.mod_lt _ (by decide)⟩ ⟨(a % 0x100 - 0x60) / 8 % 10, Nat.mod_lt _ (by decide)⟩ b
      with reply := b.reply }
  else match queueAt a with
    | some (q, 0x1C) => { pqPop i q false b with reply := b.reply }
    | _ => b

/-- A read of a window word by the Chanter: the posted writes ahead arrive first (R181); the alias gives the summary once
every earlier write is done (R184). -/
def Blk.windowRead (b : Blk) (a : Nat) : Word × BW :=
  let k := winKernel a
  let off := a % 0x1000000
  let x := b.settleLink k
  match winPart off with
  | .global => (x.1.kgReg k off, x)
  | .page n =>
    let c := chanOf k n
    let o := off % 0x1000
    let y := if o = 0x218 then x.map fun b => { chEnergyLoRead .chanter c b with reply := b.reply } else x
    (x.1.chReg .chanter c o, y)
  | .mirror => (b.mirrorReg k (off - 0x800000), (b, []))
  | .alias_ =>
    let y := (upTo 4).foldl (fun (x : BW) k => x.andThen fun b => b.settleLink k) (b, [])
    (arg32 (y.1.slots.get 9).summary, y)
  | _ => (0, (b, []))

/-- One word read with the Chanter's initiator ID. A refused read gives zero and its record (R17). -/
def Blk.readWord (m : Mem) (a : Nat) (b : Blk) : Word × BW :=
  if inWindow a then b.windowRead a
  else if b.allows .chanter a false = false then (0, ({ b.denied .chanter (arg32 a) with reply := b.reply }, []))
  else if inBlocks a then (b.blockRead .chanter a, (b.readEffect .chanter a, []))
  else (arg32 (ofLe (Mem.readBytes m a 4)), (b, []))

/-- `n` words from an address on. -/
def Blk.readWords (m : Mem) : Nat → Nat → Blk → List Byte × BW
  | 0, _, b => ([], (b, []))
  | n + 1, a, b =>
    let x := b.readWord m a
    let y := Blk.readWords m n (a + 4) x.2.1
    (leBytes 4 x.1.toNat ++ y.1, (y.2.1, x.2.2 ++ y.2.2))

/-! ### REG_READ and REG_WRITE -/

def cmdRegRead : Cmd := { op := 0xB02, len := .exactly 8, parts := false, modes := [4], who := service }
def cmdRegWrite : Cmd := { op := 0xB03, len := .exactly 8, parts := false, modes := [4], who := service }

/-- An address that neither command reaches. -/
def protectedAddr (a : Nat) : Bool :=
  (inBlocks a && decide (blockNo a = 6 ∨ blockNo a = 7 ∨ blockNo a = 0xD)) || inPool a
    || (inWindow a && decide (winPart (a % 0x1000000) = .sideEffect))

/-- A channel page of a channel that the Chanter does not own, directly or through the alias. -/
def Blk.foreignPage (b : Blk) (a : Nat) : Bool :=
  let off := a % 0x1000000
  if inWindow a then
    match winPart (if 0xE00000 ≤ off then off - 0xE00000 else off) with
    | .page n => decide ((b.ch (chanOf (winKernel a) n)).owner ≠ .chanter)
    | _ => false
  else false

/-- An address that REG_WRITE does not reach. -/
def Blk.writeProtected (b : Blk) (a : Nat) : Bool :=
  protectedAddr a || inNvm a || (inBlocks a && decide (blockNo a = 0xE ∨ blockNo a = 0xF)) || b.foreignPage a

/-- Whether an access by command meets no range of the map, or a hole of a window (R19, R20). -/
def unmappedAddr (a : Nat) : Bool :=
  !mapped a || (inWindow a && (decide (winPart (a % 0x1000000) = .hole)
    || (decide (winPart (a % 0x1000000) = .alias_) && decide (winPart (a % 0x1000000 - 0xE00000) = .hole))))

/-- The address that a request names. -/
def reqAddr (p : List Byte) : Nat := leAt p 0 4
/-- The addresses of the words that REG_READ names; at most 64. -/
def readAddrs (p : List Byte) : List Nat := (List.range (min (leAt p 4 2) 64)).map fun j => reqAddr p + 4 * j

/-- Step 3: the unit of the address. -/
def absentReg (b : Blk) (p : List Byte) : Option (UnitName × Nat) := (b.absentAt .chanter (reqAddr p)).map fun u => (u, 0)

/-- Step 5 of both commands. -/
def readGrant (_ : Blk) (_ : Initiator) (p : List Byte) : Option Err :=
  ((reqAddr p :: readAddrs p).find? protectedAddr).map fun a => errAt 0 stDenied 3 a
def writeGrant (b : Blk) (_ : Initiator) (p : List Byte) : Option Err :=
  if b.writeProtected (reqAddr p) then some (errAt 0 stDenied 3 (reqAddr p)) else none

/-- Step 8: the boundary of a kernel window. -/
def Blk.isoAt (b : Blk) (a : Nat) : List (Bool × Err) := if inWindow a then b.isoErrs (winKernel a) else []

/-- The record of an access by command. -/
def Blk.regAccess (b : Blk) (r : Req) (a : Nat) : Blk :=
  b.ev (srcMb r.mb) 0x25 2 (arg32 a) (idByte (reqWho r)) (pin := true)

/-- REG_READ. -/
def regRead (r : Req) (m : Mem) (b : Blk) : BW :=
  serveW cmdRegRead r absentReg readGrant (fun b _ p =>
    let a := reqAddr p
    let n := leAt p 4 2
    match firstErr ([(decide (a % 4 ≠ 0), errAt 0 stBadParam 1 0), (decide (n = 0 ∨ 64 < n), errAt 4 stBadParam 1 0)] ++ zeroErr p 6 2
        ++ [((readAddrs p).any unmappedAddr, errAt 0 stBadParam 1 0)] ++ (readAddrs p).flatMap b.isoAt) with
    | some e => (b.refuseReq 0xB02 r e, [])
    | none =>
      let x := Blk.readWords m n a (b.regAccess r a)
      x.2.map fun b => b.ok 0xB02 r x.1) b

/-- REG_WRITE: the write is made as the Chanter's. -/
def regWrite (r : Req) (b : Blk) : BW :=
  serveW cmdRegWrite r absentReg writeGrant (fun b _ p =>
    let a := reqAddr p
    match firstErr ([(decide (a % 4 ≠ 0), errAt 0 stBadParam 1 0), (unmappedAddr a, errAt 0 stBadParam 1 0)] ++ b.isoAt a) with
    | some e => (b.refuseReq 0xB03 r e, [])
    | none =>
      (registerWrite .chanter (arg32 a) 2 (BitVec.ofNat 64 (leAt p 4 4)) (b.regAccess r a)).map fun c =>
        { c with reply := b.reply }.ok 0xB03 r []) b

/-! ### Meanings -/

def execRegisterWrite (i : Initiator) (addr : Word) (width : Fin 4) (data : BitVec 64) (s : State) : Res :=
  .next (s.onMem fun _ b => registerWrite i addr width data b)
def execRegRead (r : Req) (s : State) : Res := .next (s.onMem (regRead r))
def execRegWrite (r : Req) (s : State) : Res := .next (s.onMem fun _ b => regWrite r b)

end Sys2Proof.Machine
end

