-- ==== Sys2Proof/Machine/Dispatch.lean ====
section
/-! DEFINITION. The dispatch: one arm per command, each one call of the command's meaning. -/

namespace Sys2Proof.Machine

/-- What a command does to everything but the queue of waiting commands. -/
def exec (i : Instr) (s : State) : Host.Outcome State Fault Refusal :=
  match i with
  | .tick m => Sys2Proof.Machine.execTick m s
  | .commitDeadline => Sys2Proof.Machine.execCommitDeadline s
  | .commitMessageReceived k => Sys2Proof.Machine.execCommitMessageReceived k s
  | .snapshotTransferDone => Sys2Proof.Machine.execSnapshotTransferDone s
  | .inboxDistribute => Sys2Proof.Machine.execInboxDistribute s
  | .breathDoneCall t bn => Sys2Proof.Machine.execBreathDoneCall t bn s
  | .tenantOverrunReset t => Sys2Proof.Machine.execTenantOverrunReset t s
  | .unverifiedSafeState => Sys2Proof.Machine.execUnverifiedSafeState s
  | .breathRecordDrop => Sys2Proof.Machine.execBreathRecordDrop s
  | .recDrop => Sys2Proof.Machine.execRecDrop s
  | .syncReceived p gm offset => Sys2Proof.Machine.execSyncReceived p gm offset s
  | .syncReceiptTimeout => Sys2Proof.Machine.execSyncReceiptTimeout s
  | .holdoverExpiry => Sys2Proof.Machine.execHoldoverExpiry s
  | .announceReceived p sysId => Sys2Proof.Machine.execAnnounceReceived p sysId s
  | .syncIntervalExpiry p => Sys2Proof.Machine.execSyncIntervalExpiry p s
  | .pdelayIntervalExpiry p => Sys2Proof.Machine.execPdelayIntervalExpiry p s
  | .slewComplete => Sys2Proof.Machine.execSlewComplete s
  | .tbDtLoRead inp => Sys2Proof.Machine.execTbDtLoRead inp s
  | .eventGrant => Sys2Proof.Machine.execEventGrant s
  | .eventsLost at_ => Sys2Proof.Machine.execEventsLost at_ s
  | .evsViewRdWrite inp view idx => Sys2Proof.Machine.execEvsViewRdWrite inp view idx s
  | .logWrite => Sys2Proof.Machine.execLogWrite s
  | .sealPeriodExpiry => Sys2Proof.Machine.execSealPeriodExpiry s
  | .notPresentAccess inp u a => Sys2Proof.Machine.execNotPresentAccess inp u a s
  | .accessDenied inp addr => Sys2Proof.Machine.execAccessDenied inp addr s
  | .unmappedAccess inp addr => Sys2Proof.Machine.execUnmappedAccess inp addr s
  | .atomicRefused inp addr => Sys2Proof.Machine.execAtomicRefused inp addr s
  | .registerWrite inp addr width data => Sys2Proof.Machine.execRegisterWrite inp addr width data s
  | .hardShort c critB peak => Sys2Proof.Machine.execHardShort c critB peak s
  | .quickRetryOn c => Sys2Proof.Machine.execQuickRetryOn c s
  | .limitingEntry c => Sys2Proof.Machine.execLimitingEntry c s
  | .limitingExit c => Sys2Proof.Machine.execLimitingExit c s
  | .overcurrentTrip c mean => Sys2Proof.Machine.execOvercurrentTrip c mean s
  | .inrushWindowEnd c => Sys2Proof.Machine.execInrushWindowEnd c s
  | .pauseEnd c => Sys2Proof.Machine.execPauseEnd c s
  | .thermalTrip c tj => Sys2Proof.Machine.execThermalTrip c tj s
  | .thermalClear c tj => Sys2Proof.Machine.execThermalClear c tj s
  | .cleanTimerExpiry c => Sys2Proof.Machine.execCleanTimerExpiry c s
  | .kernelOvertemp k ktemp => Sys2Proof.Machine.execKernelOvertemp k ktemp s
  | .kernelOvertempClear k ktemp => Sys2Proof.Machine.execKernelOvertempClear k ktemp s
  | .groundLost k => Sys2Proof.Machine.execGroundLost k s
  | .groundGood k => Sys2Proof.Machine.execGroundGood k s
  | .undervoltage k lowest => Sys2Proof.Machine.execUndervoltage k lowest s
  | .undervoltageClear k => Sys2Proof.Machine.execUndervoltageClear k s
  | .kernelControllerReset k => Sys2Proof.Machine.execKernelControllerReset k s
  | .surge k kvbat => Sys2Proof.Machine.execSurge k kvbat s
  | .surgeClear k peak => Sys2Proof.Machine.execSurgeClear k peak s
  | .reversePolarity feedB aotTicks => Sys2Proof.Machine.execReversePolarity feedB aotTicks s
  | .kernelPowerUp k => Sys2Proof.Machine.execKernelPowerUp k s
  | .protStoreWrite k => Sys2Proof.Machine.execProtStoreWrite k s
  | .allowanceGain k => Sys2Proof.Machine.execAllowanceGain k s
  | .kernelWindowEnd k m => Sys2Proof.Machine.execKernelWindowEnd k m s
  | .shutdownComplete c => Sys2Proof.Machine.execShutdownComplete c s
  | .carrierPeriodStart c => Sys2Proof.Machine.execCarrierPeriodStart c s
  | .wireModelStep k i2 => Sys2Proof.Machine.execWireModelStep k i2 s
  | .energyAccumulate k mJ => Sys2Proof.Machine.execEnergyAccumulate k mJ s
  | .arcFrame c iDc bands => Sys2Proof.Machine.execArcFrame c iDc bands s
  | .openLoad c offState mean => Sys2Proof.Machine.execOpenLoad c offState mean s
  | .openLoadClear c => Sys2Proof.Machine.execOpenLoadClear c s
  | .currentMeanUpdate k mean => Sys2Proof.Machine.execCurrentMeanUpdate k mean s
  | .pairMismatch c leader follower => Sys2Proof.Machine.execPairMismatch c leader follower s
  | .holdExpiry k coreReset => Sys2Proof.Machine.execHoldExpiry k coreReset s
  | .senseDriveStart n => Sys2Proof.Machine.execSenseDriveStart n s
  | .protClearRetry inp c => Sys2Proof.Machine.execProtClearRetry inp c s
  | .protClearThermal inp c => Sys2Proof.Machine.execProtClearThermal inp c s
  | .protClearArc inp c => Sys2Proof.Machine.execProtClearArc inp c s
  | .chEnergyLoRead inp c => Sys2Proof.Machine.execChEnergyLoRead inp c s
  | .diWakeRequest d => Sys2Proof.Machine.execDiWakeRequest d s
  | .diStuck d => Sys2Proof.Machine.execDiStuck d s
  | .diRearmed d => Sys2Proof.Machine.execDiRearmed d s
  | .seismic rms => Sys2Proof.Machine.execSeismic rms s
  | .shock peak => Sys2Proof.Machine.execShock peak s
  | .motionFault => Sys2Proof.Machine.execMotionFault s
  | .motionReady => Sys2Proof.Machine.execMotionReady s
  | .sidebandPoll k ok => Sys2Proof.Machine.execSidebandPoll k ok s
  | .pollWatchdogExpiry k => Sys2Proof.Machine.execPollWatchdogExpiry k s
  | .boundaryExcursion k cause => Sys2Proof.Machine.execBoundaryExcursion k cause s
  | .boundaryRejoining k => Sys2Proof.Machine.execBoundaryRejoining k s
  | .postedWriteDelivered k fault => Sys2Proof.Machine.execPostedWriteDelivered k fault s
  | .fenceRead inp addr => Sys2Proof.Machine.execFenceRead inp addr s
  | .fenceComplete inp => Sys2Proof.Machine.execFenceComplete inp s
  | .acknowledgedWrite inp addr width data fault => Sys2Proof.Machine.execAcknowledgedWrite inp addr width data fault s
  | .kseSemRead k sl => Sys2Proof.Machine.execKseSemRead k sl s
  | .ksePeakRead k n => Sys2Proof.Machine.execKsePeakRead k n s
  | .kseVbatMinRead k => Sys2Proof.Machine.execKseVbatMinRead k s
  | .kseVbatMaxRead k => Sys2Proof.Machine.execKseVbatMaxRead k s
  | .readReturnConfirm k r delivered => Sys2Proof.Machine.execReadReturnConfirm k r delivered s
  | .kgSemRelWrite k mask => Sys2Proof.Machine.execKgSemRelWrite k mask s
  | .linkRetry k => Sys2Proof.Machine.execLinkRetry k s
  | .pqWr inp q w w2 => Sys2Proof.Machine.execPqWr inp q w w2 s
  | .pqWrEnd inp q w => Sys2Proof.Machine.execPqWrEnd inp q w s
  | .pqAbort inp q => Sys2Proof.Machine.execPqAbort inp q s
  | .pqPop inp q wide => Sys2Proof.Machine.execPqPop inp q wide s
  | .engineMessage e q msg => Sys2Proof.Machine.execEngineMessage e q msg s
  | .spiWrite mosi => Sys2Proof.Machine.execSpiWrite mosi s
  | .spiRead mosi clocked => Sys2Proof.Machine.execSpiRead mosi clocked s
  | .spiStatus => Sys2Proof.Machine.execSpiStatus s
  | .spiUnknownCommand cmd => Sys2Proof.Machine.execSpiUnknownCommand cmd s
  | .uartFrameReceived raw => Sys2Proof.Machine.execUartFrameReceived raw s
  | .uartFrameSend notification => Sys2Proof.Machine.execUartFrameSend notification s
  | .reqMalformed mb bytes => Sys2Proof.Machine.execReqMalformed mb bytes s
  | .badOpcodeRequest r opcode => Sys2Proof.Machine.execBadOpcodeRequest r opcode s
  | .responsePlace mb => Sys2Proof.Machine.execResponsePlace mb s
  | .respDropped mb => Sys2Proof.Machine.execRespDropped mb s
  | .echo r => Sys2Proof.Machine.execEcho r s
  | .getCaps r => Sys2Proof.Machine.execGetCaps r s
  | .getVersions r => Sys2Proof.Machine.execGetVersions r s
  | .getIdentity r => Sys2Proof.Machine.execGetIdentity r s
  | .attest r => Sys2Proof.Machine.execAttest r s
  | .getHealth r => Sys2Proof.Machine.execGetHealth r s
  | .modeGet r => Sys2Proof.Machine.execModeGet r s
  | .modeSet r => Sys2Proof.Machine.execModeSet r s
  | .tenantCtrlStop r => Sys2Proof.Machine.execTenantCtrlStop r s
  | .tenantCtrlStart r => Sys2Proof.Machine.execTenantCtrlStart r s
  | .tenantCtrlReset r => Sys2Proof.Machine.execTenantCtrlReset r s
  | .resetDevice r => Sys2Proof.Machine.execResetDevice r s
  | .resetCause r => Sys2Proof.Machine.execResetCause r s
  | .cfgInfo r => Sys2Proof.Machine.execCfgInfo r s
  | .cfgLoadBegin r => Sys2Proof.Machine.execCfgLoadBegin r s
  | .cfgLoadData r => Sys2Proof.Machine.execCfgLoadData r s
  | .cfgVerify r => Sys2Proof.Machine.execCfgVerify r s
  | .cfgVerifyDone => Sys2Proof.Machine.execCfgVerifyDone s
  | .cfgSwap r => Sys2Proof.Machine.execCfgSwap r s
  | .cfgCancel r => Sys2Proof.Machine.execCfgCancel r s
  | .swapKernelStaging confirmed => Sys2Proof.Machine.execSwapKernelStaging confirmed s
  | .kernelServiceOut r => Sys2Proof.Machine.execKernelServiceOut r s
  | .kernelServiceReturn r => Sys2Proof.Machine.execKernelServiceReturn r s
  | .kernelServiceRecalibrate r => Sys2Proof.Machine.execKernelServiceRecalibrate r s
  | .kernelServiceReload r => Sys2Proof.Machine.execKernelServiceReload r s
  | .kernelOutOfService k => Sys2Proof.Machine.execKernelOutOfService k s
  | .kernelServiceDone k => Sys2Proof.Machine.execKernelServiceDone k s
  | .tenantReplace r => Sys2Proof.Machine.execTenantReplace r s
  | .chGet r => Sys2Proof.Machine.execChGet r s
  | .chSet r => Sys2Proof.Machine.execChSet r s
  | .chClear r => Sys2Proof.Machine.execChClear r s
  | .senseRoute r => Sys2Proof.Machine.execSenseRoute r s
  | .inGet r => Sys2Proof.Machine.execInGet r s
  | .motionRefSet r => Sys2Proof.Machine.execMotionRefSet r s
  | .logInfo r => Sys2Proof.Machine.execLogInfo r s
  | .logRead r => Sys2Proof.Machine.execLogRead r s
  | .logSeal r => Sys2Proof.Machine.execLogSeal r s
  | .sealGet r => Sys2Proof.Machine.execSealGet r s
  | .pinRelease r => Sys2Proof.Machine.execPinRelease r s
  | .notifySet r => Sys2Proof.Machine.execNotifySet r s
  | .timeGet r => Sys2Proof.Machine.execTimeGet r s
  | .timeSet r => Sys2Proof.Machine.execTimeSet r s
  | .portGet r => Sys2Proof.Machine.execPortGet r s
  | .portSet r => Sys2Proof.Machine.execPortSet r s
  | .canGet r => Sys2Proof.Machine.execCanGet r s
  | .nmRequest r => Sys2Proof.Machine.execNmRequest r s
  | .keyUpdate r => Sys2Proof.Machine.execKeyUpdate r s
  | .keyUpdateCommitted => Sys2Proof.Machine.execKeyUpdateCommitted s
  | .keyInfo r => Sys2Proof.Machine.execKeyInfo r s
  | .debugAuth r => Sys2Proof.Machine.execDebugAuth r s
  | .debugAccessExpiry => Sys2Proof.Machine.execDebugAccessExpiry s
  | .lifecycleSet r => Sys2Proof.Machine.execLifecycleSet r s
  | .tamperGet r => Sys2Proof.Machine.execTamperGet r s
  | .lockdownExit r => Sys2Proof.Machine.execLockdownExit r s
  | .ownerLock r => Sys2Proof.Machine.execOwnerLock r s
  | .updBegin r => Sys2Proof.Machine.execUpdBegin r s
  | .updData r => Sys2Proof.Machine.execUpdData r s
  | .updFinish r => Sys2Proof.Machine.execUpdFinish r s
  | .updateVerified => Sys2Proof.Machine.execUpdateVerified s
  | .updActivate r => Sys2Proof.Machine.execUpdActivate r s
  | .updateActivated comp => Sys2Proof.Machine.execUpdateActivated comp s
  | .updAbort r => Sys2Proof.Machine.execUpdAbort r s
  | .updStatus r => Sys2Proof.Machine.execUpdStatus r s
  | .updateConfirmed comp => Sys2Proof.Machine.execUpdateConfirmed comp s
  | .updateTrialFailed comp why => Sys2Proof.Machine.execUpdateTrialFailed comp why s
  | .bridgeClear r => Sys2Proof.Machine.execBridgeClear r s
  | .regRead r => Sys2Proof.Machine.execRegRead r s
  | .regWrite r => Sys2Proof.Machine.execRegWrite r s
  | .tenantShutdownComplete t => Sys2Proof.Machine.execTenantShutdownComplete t s
  | .tenantStartComplete t => Sys2Proof.Machine.execTenantStartComplete t s
  | .tenantWindowStart t w => Sys2Proof.Machine.execTenantWindowStart t w s
  | .tenantWindowEnd t w => Sys2Proof.Machine.execTenantWindowEnd t w s
  | .guestException t => Sys2Proof.Machine.execGuestException t s
  | .tenantFaultLimit t => Sys2Proof.Machine.execTenantFaultLimit t s
  | .faultCounterClear => Sys2Proof.Machine.execFaultCounterClear s
  | .tenantAbort t => Sys2Proof.Machine.execTenantAbort t s
  | .passAStart t => Sys2Proof.Machine.execPassAStart t s
  | .passEnd t res => Sys2Proof.Machine.execPassEnd t res s
  | .safetyReleaseFenceDone => Sys2Proof.Machine.execSafetyReleaseFenceDone s
  | .passBudgetExpiry t => Sys2Proof.Machine.execPassBudgetExpiry t s
  | .passTrap t mcause pc => Sys2Proof.Machine.execPassTrap t mcause pc s
  | .passUncorrectable t addr => Sys2Proof.Machine.execPassUncorrectable t addr s
  | .passBufferFull t stateBuf => Sys2Proof.Machine.execPassBufferFull t stateBuf s
  | .safetyDivergenceLimit => Sys2Proof.Machine.execSafetyDivergenceLimit s
  | .safetyReset cause => Sys2Proof.Machine.execSafetyReset cause s
  | .safetyResetComplete => Sys2Proof.Machine.execSafetyResetComplete s
  | .selftestSlice core ok => Sys2Proof.Machine.execSelftestSlice core ok s
  | .codeCheckBlock ok => Sys2Proof.Machine.execCodeCheckBlock ok s
  | .debugAttached core => Sys2Proof.Machine.execDebugAttached core s
  | .debugDetached core => Sys2Proof.Machine.execDebugDetached core s
  | .shellPowerOn => Sys2Proof.Machine.execShellPowerOn s
  | .poresetNAssert => Sys2Proof.Machine.execPoresetNAssert s
  | .poresetNRelease => Sys2Proof.Machine.execPoresetNRelease s
  | .sysresetNAssert => Sys2Proof.Machine.execSysresetNAssert s
  | .sysresetNRelease => Sys2Proof.Machine.execSysresetNRelease s
  | .supplyDifference => Sys2Proof.Machine.execSupplyDifference s
  | .shellOvertemp tj => Sys2Proof.Machine.execShellOvertemp tj s
  | .watchdog => Sys2Proof.Machine.execWatchdog s
  | .rccWdtKickWrite inp w => Sys2Proof.Machine.execRccWdtKickWrite inp w s
  | .chanterFatalFault => Sys2Proof.Machine.execChanterFatalFault s
  | .debugResetRequest => Sys2Proof.Machine.execDebugResetRequest s
  | .resetSourceRelease b => Sys2Proof.Machine.execResetSourceRelease b s
  | .exitStepDone straps => Sys2Proof.Machine.execExitStepDone straps s
  | .bootComplete firmwareOk => Sys2Proof.Machine.execBootComplete firmwareOk s
  | .clockGood b dev => Sys2Proof.Machine.execClockGood b dev s
  | .clockFail b dev => Sys2Proof.Machine.execClockFail b dev s
  | .clockLost b dev => Sys2Proof.Machine.execClockLost b dev s
  | .avsStep up measured => Sys2Proof.Machine.execAvsStep up measured s
  | .feedLost feedB vbat => Sys2Proof.Machine.execFeedLost feedB vbat s
  | .feedGood feedB vbat => Sys2Proof.Machine.execFeedGood feedB vbat s
  | .holdupTrip => Sys2Proof.Machine.execHoldupTrip s
  | .holdupCommitted us => Sys2Proof.Machine.execHoldupCommitted us s
  | .vholdDepleted => Sys2Proof.Machine.execVholdDepleted s
  | .partitionMonitorFailure => Sys2Proof.Machine.execPartitionMonitorFailure s
  | .autoSleepRequest => Sys2Proof.Machine.execAutoSleepRequest s
  | .sleepPowerDown => Sys2Proof.Machine.execSleepPowerDown s
  | .sleepAbortedEntry step => Sys2Proof.Machine.execSleepAbortedEntry step s
  | .moduleWake src di trip => Sys2Proof.Machine.execModuleWake src di trip s
  | .timerWake => Sys2Proof.Machine.execTimerWake s
  | .nmFrameReceived b f => Sys2Proof.Machine.execNmFrameReceived b f s
  | .nmFrameSent b => Sys2Proof.Machine.execNmFrameSent b s
  | .ringTimerExpiry b => Sys2Proof.Machine.execRingTimerExpiry b s
  | .tokenTimerExpiry b => Sys2Proof.Machine.execTokenTimerExpiry b s
  | .settleExpiry b => Sys2Proof.Machine.execSettleExpiry b s
  | .kaIntervalExpiry b => Sys2Proof.Machine.execKaIntervalExpiry b s
  | .kaSilenceExpiry b => Sys2Proof.Machine.execKaSilenceExpiry b s
  | .detectorWake b e => Sys2Proof.Machine.execDetectorWake b e s
  | .busWake b cause ident => Sys2Proof.Machine.execBusWake b cause ident s
  | .falseWakeExpiry b => Sys2Proof.Machine.execFalseWakeExpiry b s
  | .requestLapsed b inp => Sys2Proof.Machine.execRequestLapsed b inp s
  | .localHoldExpiry b => Sys2Proof.Machine.execLocalHoldExpiry b s
  | .nodeHoldsAwake b addr => Sys2Proof.Machine.execNodeHoldsAwake b addr s
  | .wakeOutPulseEnd => Sys2Proof.Machine.execWakeOutPulseEnd s
  | .canFrameReceived b f sof => Sys2Proof.Machine.execCanFrameReceived b f sof s
  | .canTxEnqueue b => Sys2Proof.Machine.execCanTxEnqueue b s
  | .canHeadArbitration b => Sys2Proof.Machine.execCanHeadArbitration b s
  | .canTxSuccess b slot => Sys2Proof.Machine.execCanTxSuccess b slot s
  | .canTxError b slot e kind where_ dataPhase => Sys2Proof.Machine.execCanTxError b slot e kind where_ dataPhase s
  | .canRxError b e kind dataPhase => Sys2Proof.Machine.execCanRxError b e kind dataPhase s
  | .boffDelayExpiry b => Sys2Proof.Machine.execBoffDelayExpiry b s
  | .busOffRecovered b => Sys2Proof.Machine.execBusOffRecovered b s
  | .canCmdRestart b => Sys2Proof.Machine.execCanCmdRestart b s
  | .canCmdRearm b => Sys2Proof.Machine.execCanCmdRearm b s
  | .frameReceived p f stamp => Sys2Proof.Machine.execFrameReceived p f stamp s
  | .frameFromProgram q => Sys2Proof.Machine.execFrameFromProgram q s
  | .frameTxStart p tc => Sys2Proof.Machine.execFrameTxStart p tc s
  | .frameTxDone p => Sys2Proof.Machine.execFrameTxDone p s
  | .linkUp p mbps => Sys2Proof.Machine.execLinkUp p mbps s
  | .linkDown p => Sys2Proof.Machine.execLinkDown p s
  | .fdbAgeExpiry mac vid => Sys2Proof.Machine.execFdbAgeExpiry mac vid s
  | .swFdbLookup => Sys2Proof.Machine.execSwFdbLookup s
  | .swFdbFlushVid => Sys2Proof.Machine.execSwFdbFlushVid s
  | .swFdbFlushAll => Sys2Proof.Machine.execSwFdbFlushAll s
  | .swMdioAccess inp w => Sys2Proof.Machine.execSwMdioAccess inp w s
  | .gclEntryExpiry p => Sys2Proof.Machine.execGclEntryExpiry p s
  | .frerTimeout sl p => Sys2Proof.Machine.execFrerTimeout sl p s
  | .swCounterLoRead inp p j => Sys2Proof.Machine.execSwCounterLoRead inp p j s
  | .bufferDrop p => Sys2Proof.Machine.execBufferDrop p s
  | .tamperAlarm code => Sys2Proof.Machine.execTamperAlarm code s
  | .cl1HoldExpiry => Sys2Proof.Machine.execCl1HoldExpiry s
  | .entropyFail repetition proportion => Sys2Proof.Machine.execEntropyFail repetition proportion s
  | .entropyRetest ok => Sys2Proof.Machine.execEntropyRetest ok s
  | .cryHeadWrite inp w => Sys2Proof.Machine.execCryHeadWrite inp w s
  | .cryptoDescriptorDone => Sys2Proof.Machine.execCryptoDescriptorDone s
  | .mgmtHello hello => Sys2Proof.Machine.execMgmtHello hello s
  | .mgmtFinish finish => Sys2Proof.Machine.execMgmtFinish finish s
  | .sessionDatagram d => Sys2Proof.Machine.execSessionDatagram d s
  | .sessionIdleClose => Sys2Proof.Machine.execSessionIdleClose s
  | .sessionKeyLifeClose => Sys2Proof.Machine.execSessionKeyLifeClose s
  | .recoveryFrame src payload => Sys2Proof.Machine.execRecoveryFrame src payload s
  | .recoverySegmentTimeout => Sys2Proof.Machine.execRecoverySegmentTimeout s
  | .qspiPackageInstall manifest image => Sys2Proof.Machine.execQspiPackageInstall manifest image s
  | .journalTransaction items => Sys2Proof.Machine.execJournalTransaction items s
  | .scrubPassStart => Sys2Proof.Machine.execScrubPassStart s
  | .scrubPassEnd rewritten corrected => Sys2Proof.Machine.execScrubPassEnd rewritten corrected s
  | .memScrub sramCorr ddrCorr => Sys2Proof.Machine.execMemScrub sramCorr ddrCorr s
  | .memUncorrectable addr reader => Sys2Proof.Machine.execMemUncorrectable addr reader s
  | .nvmUncorrectable addr => Sys2Proof.Machine.execNvmUncorrectable addr s
  | .counterWrite offset value => Sys2Proof.Machine.execCounterWrite offset value s
  | .conductsWithoutFault c => Sys2Proof.Machine.execConductsWithoutFault c s
  | .chanterStagingComplete => Sys2Proof.Machine.execChanterStagingComplete s
  | .resetDeviceAsserted reachS => Sys2Proof.Machine.execResetDeviceAsserted reachS s
  | .alwaysOnPowerOn => Sys2Proof.Machine.execAlwaysOnPowerOn s
  | .vioLost bankB lost => Sys2Proof.Machine.execVioLost bankB lost s
  | .plcaChange active nodes => Sys2Proof.Machine.execPlcaChange active nodes s
  | .mkaLost p reason => Sys2Proof.Machine.execMkaLost p reason s
  | .mdioAccessDone data err => Sys2Proof.Machine.execMdioAccessDone data err s
  | .fdbOperationDone => Sys2Proof.Machine.execFdbOperationDone s
  | .diEdge d high offset => Sys2Proof.Machine.execDiEdge d high offset s
  | .cleaningCurrentEnd d => Sys2Proof.Machine.execCleaningCurrentEnd d s

end Sys2Proof.Machine
end

