-- ==== Sys2Proof/Machine/Step.lean ====
section
/-! DEFINITION. One step of the block: the command at the front of the queue, or time passing when the queue is
empty. -/

namespace Sys2Proof.Machine
open Sys2Proof

/-- The state with a command taken off the front: the rest of the queue. -/
def State.withPending (s : State) (l : List Instr) : State := { s with pending := l }

/-- No command waits: one nanosecond of the shell reference clock passes. DESIGN CHOICE, log entry 7. -/
def State.idle (s : State) : State := s.onBlk fun b => b.onTb TimeBase.tickNs

/-- One step. -/
def step (s : State) : Host.Outcome State Fault Refusal :=
  match s.pending with
  | [] => .next s.idle
  | c :: rest => exec c (s.withPending rest)

/-- The state with the command that a word spells put in front; unchanged where the word spells none. -/
def State.withFetchWord (s : State) (nbits w : Nat) : State :=
  match decodeTableWord nbits w with
  | some c => s.withPending (c :: s.pending)
  | none => s

end Sys2Proof.Machine
end

