-- ==== Sys2Proof/Safety.lean ====
section
/-! DEFINITION. What counts as a safe state and a safe step, in the terms that claims use: the byte memories are canonical,
the read-only bytes never change, and every step answers a next state. -/

namespace Sys2Proof
open Sys2Proof.Machine

/-- The memories are in canonical form: addresses rise and no listed byte holds what an unlisted address reads as. -/
def Safety.canonical (s : State) : Prop := Mem.wf s.mem = true

/-- Every byte that the device does not write (R18: all but NVM, SRAM and LPDDR5) reads alike in two states. -/
def Safety.readOnlyKept (s t : State) : Prop := ∀ a : Nat, writable a = false → Mem.read t.mem a = Mem.read s.mem a

/-- A step that goes on. -/
def Safety.goesOn (s : State) : Prop := ∃ t : State, step s = .next t

/-- A safe step: it goes on, keeps the canonical form, and writes no read-only byte. -/
def Safety.safeStep (s : State) : Prop :=
  ∃ t : State, step s = .next t ∧ (Safety.canonical s → Safety.canonical t) ∧ Safety.readOnlyKept s t

/-- The commands that may store into ROM, NVM, SRAM or LPDDR5 on some of their paths. -/
def Safety.stores : Instr → Bool
  | .acknowledgedWrite _ _ _ _ _ | .bootComplete _ | .boundaryExcursion _ _ | .cfgLoadBegin _ | .cfgLoadData _
  | .cfgSwap _ | .cfgVerifyDone | .commitDeadline | .commitMessageReceived _ | .cryptoDescriptorDone | .eventGrant
  | .eventsLost _ | .exitStepDone _ | .holdupCommitted _ | .inboxDistribute | .kaSilenceExpiry _ | .ksePeakRead _ _
  | .kseSemRead _ _ | .kseVbatMaxRead _ | .kseVbatMinRead _ | .logWrite | .nmFrameReceived _ _ | .nmFrameSent _
  | .passEnd _ _ | .postedWriteDelivered _ _ | .qspiPackageInstall _ _ | .regRead _ | .regWrite _
  | .registerWrite _ _ _ _ | .safetyReleaseFenceDone | .safetyResetComplete | .sealPeriodExpiry | .sidebandPoll _ _
  | .snapshotTransferDone | .tamperAlarm _ | .tenantShutdownComplete _ | .tenantStartComplete _ | .tick _
  | .updBegin _ | .updData _ | .updateVerified => true
  | _ => false

/-- A command runs: it answers a next state, of which `P` holds. -/
def Safety.runs (c : Instr) (s : State) (P : State → Prop) : Prop := ∃ t : State, exec c s = .next t ∧ P t

/-- The record captured last and not yet granted: SRC, CODE, severity, ARG and TENANT (R76). -/
def Safety.lastRecord (b : Blk) : Option (BitVec 16 × BitVec 16 × BitVec 3 × Word × Byte) :=
  b.evs.queue.getLast?.map fun p => (p.src, p.code, p.sev, p.arg, p.tenant)

/-- The record that a kernel captured last and has not handed over (R74). -/
def Safety.lastKernelRecord (b : Blk) (k : Fin 4) : Option (BitVec 16 × BitVec 16 × BitVec 3 × Word × Byte) :=
  (b.kn k).buf.getLast?.map fun p => (p.src, p.code, p.sev, p.arg, p.tenant)

/-- A shell source has room for a record, and for the record of those it lost (R74). -/
def Safety.room (b : Blk) (src : BitVec 16) : Prop := b.waiting src + 1 < shellBuffer

/-- A kernel has room for `n` records, and for the record of those it lost (R74). -/
def Safety.kernelRoom (b : Blk) (k : Fin 4) (n : Nat) : Prop := (b.kn k).buf.length + n < kernelBuffer

/-- A request in one message that passes the checks of R236 which every command shares: length, mode, requester, flags. -/
def Safety.accepted (c : Cmd) (r : Req) (b : Blk) : Prop :=
  (b.mboxes.get r.mb).assembly = none ∧ r.len.toNat ≤ 4080 ∧ r.words = ceilDiv (16 + r.len.toNat) 4 ∧ isPart r = false
    ∧ c.len.ok r.len.toNat = true ∧ b.rcc.mode.code ∈ c.modes ∧ c.who (reqWho r) = true ∧ flagErr r = none

/-- The payload of a request in one message. -/
def Safety.payload (r : Req) : List Byte := r.payload.take r.len.toNat

/-- A sync that R68 counts: synchronisation and the port are enabled, the module is not MASTER, and the port is the slave port or
none is. -/
def Safety.syncCounts (b : Blk) (p : Fin 10) : Prop :=
  b.time.syncEn = true ∧ b.time.portEn p = true ∧ b.time.state ≠ .master ∧
    (b.time.slavePort = BitVec.ofNat 8 p.val ∨ b.time.slavePort = noPort)

/-- The record of a grant at state `b` of what source captured `p`: the next SEQ, the low 32 bits of BN, and UNSYNCED where the
time base is (R71, R72). -/
def Safety.granted (b : Blk) (p : PRec) : Rec :=
  { seq := b.evs.nextSeq, bn := b.breath.bn.truncate 32,
    p := { p with flags := if b.time.state = .unsynced then p.flags ||| 4 else p.flags } }

/-- No record of lost events is due: no view and no log place has lost one (R80, R81). -/
def Safety.nothingLost (b : Blk) : Prop := b.evs.logLostNow = 0 ∧ ∀ v : Fin 9, (b.evs.views.get v).lost = 0

/-- What a fault of the channel led by `l` does (R137, R138): its counters rise, the output is off, the increment waits to be stored,
and either a latch is set or a pause runs that is timed from now. Of the other channels only the stretch of an open window may
change (R147). -/
def Safety.faulted (s t : Blk) (l : Fin 40) (cause : Cause) (thermal : Bool) : Prop :=
  let n := satInc (s.ch l).faultCount 31
  let m := if thermal then satInc (s.ch l).thermCount 15 else (s.ch l).thermCount
  let r := decide ((s.ch l).latchAfter ≤ n)
  let h := thermal && decide ((s.ch l).thermAfter ≤ m)
  (t.ch l).faultCount = n ∧ (t.ch l).thermCount = m ∧ (t.ch l).conducting = false ∧ (t.ch l).winOpen = false
  ∧ (t.ch l).unstored = true ∧ (t.kn (kOf l)).protDirty = true
  ∧ ((r || h) = true → (t.ch l).prot = .latched ∧ (t.ch l).retryLatch = ((s.ch l).retryLatch || r)
      ∧ (t.ch l).thermLatch = ((s.ch l).thermLatch || h) ∧ (t.ch l).pauseRun = false)
  ∧ ((r || h) = false → (t.ch l).prot = (if thermal then .thermal else .pause) ∧ (t.ch l).cause = cause
      ∧ (t.ch l).pauseRun = true ∧ (t.ch l).pauseStart = s.time.dt ∧ (t.ch l).pauseLen = (s.ch l).pauseMs n
      ∧ (t.ch l).retryLatch = (s.ch l).retryLatch ∧ (t.ch l).thermLatch = (s.ch l).thermLatch)
  ∧ (t.ch l).arcLatch = (s.ch l).arcLatch ∧ (t.ch l).applied = (s.ch l).applied
  ∧ (∀ d : Fin 40, d ≠ l → t.ch d = { s.ch d with stretch := (t.ch d).stretch, protSticky := (t.ch d).protSticky })
  ∧ t = { s with chans := t.chans, kernels := t.kernels, mboxes := t.mboxes }

/-- Nothing but its commanded state keeps the channel led by `l` from a restart once its pause is over (R139). -/
def Safety.mayRestart (b : Blk) (l : Fin 40) : Prop :=
  (b.ch l).anyLatch = false ∧ (b.ch l).tjBlock = false ∧ (b.ch l).wireBlock = false ∧ (b.kn (kOf l)).ground = false
  ∧ (b.kn (kOf l)).under = false ∧ (b.kn (kOf l)).overtemp = false ∧ (b.kn (kOf l)).surge = false
  ∧ b.rcc.mode ≠ .sleep ∧ (b.ch l).unstored = false

/-- What a supply fault does to the channels of kernel `k` (R144, R148, R149): one that conducts or is commanded on, and is not latched,
waits in `p`; one in OFF that is commanded off stays there; a latched one stays latched; nothing is counted. Under a loss of ground or an
undervoltage a channel in THERMAL stays there. -/
def Safety.supplyWaits (s t : Blk) (k : Fin 4) (p : Prot) : Prop :=
  ∀ c ∈ chansOf k,
    (t.ch c).faultCount = (s.ch c).faultCount ∧ (t.ch c).thermCount = (s.ch c).thermCount ∧ (t.ch c).applied = (s.ch c).applied
    ∧ (s.isFollower c = false → (s.ch c).prot = .latched → t.ch c = s.ch c)
    ∧ (s.isFollower c = false → (s.ch c).prot ≠ .latched → ((s.ch c).conducting || (s.ch c).wantsOn) = true →
        (p = .pause → (s.ch c).prot ≠ .thermal) → (t.ch c).prot = p ∧ (t.ch c).supWait = true ∧ (t.ch c).conducting = false)
    ∧ (s.isFollower c = false → (s.ch c).prot = .off → (s.ch c).wantsOn = false → (t.ch c).prot = .off)

/-- R141, R142: a latch clear by the owner or the Chanter before the commit deadline is held in the kernel with its writer; one written
to a follower is ignored; one that reaches the kernel in the guard is discarded and its writer has overrun; another initiator's is refused
(R17). -/
def Safety.clearIsHeld (cmd : Initiator → Fin 40 → Instr) (mask : BitVec 3) : Prop :=
  ∀ (i : Initiator) (c : Fin 40) (s : State), s.blk.hasChan c = true →
    (s.blk.reaches i c = true → s.blk.windowOpen (kOf c) = true → s.blk.isFollower c = false → s.blk.inGuard = false →
      Safety.runs (cmd i c) s fun t =>
        t.blk.ch c = { s.blk.ch c with clearBits := (s.blk.ch c).clearBits ||| mask, clearBy := some i }
        ∧ (∀ d : Fin 40, d ≠ c → t.blk.ch d = s.blk.ch d) ∧ t.blk = { s.blk with chans := t.blk.chans } ∧ t.mem = s.mem) ∧
    (s.blk.reaches i c = true → s.blk.windowOpen (kOf c) = true → s.blk.isFollower c = true → Safety.runs (cmd i c) s fun t => t = s) ∧
    (s.blk.reaches i c = true → s.blk.windowOpen (kOf c) = true → s.blk.isFollower c = false → s.blk.inGuard = true →
      Safety.runs (cmd i c) s fun t => t.blk.chans = s.blk.chans ∧ i ∈ t.blk.breath.lateBy
        ∧ (∀ n : Fin 8, i = .tenant n → t.blk.breath.outcome.toNat.testBit n.val = true)
        ∧ (i = .safety → t.blk.breath.outcome.toNat.testBit 16 = true)
        ∧ (i = .chanter → t.blk.breath.outcome.toNat.testBit 24 = true) ∧ t.mem = s.mem) ∧
    (s.blk.reaches i c = false → Safety.runs (cmd i c) s fun t => t.blk.chans = s.blk.chans ∧ t.mem = s.mem
      ∧ t.blk.reply = { data := 0, fault := true, isolated := false } ∧ i ∈ t.blk.breath.denied)

/-- Every input but `d` is as it was. -/
def Safety.otherInputs (s t : Blk) (d : Fin 32) : Prop := ∀ e : Fin 32, e ≠ d → t.di e = s.di e

/-- A boundary that becomes ISOLATED (R199, R188, R191, R192): its cause and its DT are kept, the isolation is counted, the Chanter's semaphores
are free, and no write is on its way to its kernel. -/
def Safety.isolated (s t : Blk) (k : Fin 4) (cause : Nat) : Prop :=
  (t.bridges.get k).state = .isolated ∧ (t.bridges.get k).cause = BitVec.ofNat 8 (cause % 128)
  ∧ (t.bridges.get k).isoCount = satInc (s.bridges.get k).isoCount 0xFFFF ∧ (t.bridges.get k).isoDt = s.time.dt
  ∧ (t.bridges.get k).posted = [] ∧ (∀ n : Fin 8, (t.kn k).sems.get n ≠ .chanter)
  ∧ (∀ j : Fin 4, j ≠ k → t.bridges.get j = s.bridges.get j ∧ t.kn j = s.kn j)
  ∧ t.chans = s.chans ∧ t.cfg = s.cfg ∧ t.dr = s.dr ∧ t.tenants = s.tenants

/-- Every queue but `q` is as it was. -/
def Safety.otherQueues (s t : Blk) (q : Fin 256) : Prop := ∀ p : Fin 256, p ≠ q → t.queues.get p = s.queues.get p

/-- The producer of an enabled queue of the variant writes it (R224). -/
def Safety.produces (b : Blk) (i : Initiator) (q : Fin 256) : Prop :=
  b.queueAbsent q = false ∧ (b.queues.get q).enabled = true ∧ (b.queues.get q).producer = i.id

/-- The response that a request draws (R229, R231): its opcode, sequence number and requester; `RSP`, and `ROM` in RECOVERY. -/
def Safety.response (b : Blk) (r : Req) (op st : Nat) (n : Word) (p : List Byte) : Resp :=
  { opcode := BitVec.ofNat 16 op, client := r.client, who := idByte (mbOwner r.mb), flags := if b.rcc.mode = .recovery then 0x11 else 0x01,
    status := BitVec.ofNat 16 st, ebn := n, payload := p }

/-- A request is answered: its response is the last one that waits on its mailbox. -/
def Safety.answers (s t : State) (r : Req) (op st : Nat) (n : Word) (p : List Byte) : Prop :=
  (t.blk.mboxes.get r.mb).resps = (s.blk.mboxes.get r.mb).resps ++ [Safety.response s.blk r op st n p]

/-- A request of kind I is answered `OK` with effective BN N (R238). -/
def Safety.okays (s t : State) (r : Req) (op : Nat) (p : List Byte) : Prop := Safety.answers s t r op 0 (s.blk.breath.bn.truncate 32) p

/-- Nothing but the mailboxes changes. -/
def Safety.onlyAnswers (s t : State) : Prop := t.blk = { s.blk with mboxes := t.blk.mboxes } ∧ t.mem = s.mem

/-- A request is answered with an error: the 8 bytes of R237, effective BN N; `REQ_REFUSED` is logged, for `DENIED` and `OWNER_LOCKED`
once per mailbox per breath (R258); nothing but the mailboxes and what a record changes is touched. -/
def Safety.refuses (s t : State) (r : Req) (op st off sub value : Nat) : Prop :=
  Safety.answers s t r op st (s.blk.breath.bn.truncate 32)
      (leBytes 2 off ++ [BitVec.ofNat 8 sub, BitVec.ofNat 8 s.blk.rcc.mode.code] ++ leBytes 4 value)
    ∧ (Safety.room s.blk (srcOf 8 (0x100 + r.mb.val)) → ((st ≠ 0x20 ∧ st ≠ 0x22) ∨ r.mb ∉ s.blk.breath.refusedMb) →
        Safety.lastRecord t.blk = some (srcOf 8 (0x100 + r.mb.val), 0x21, 1, arg32 (op + st * 65536), idByte (mbOwner r.mb)))
    ∧ t.blk = { s.blk with mboxes := t.blk.mboxes, evs := t.blk.evs, breath := t.blk.breath } ∧ t.mem = s.mem

/-- A request of one message, with no assembly before it, of the right length. -/
def Safety.wellSent (c : Cmd) (r : Req) (b : Blk) : Prop :=
  (b.mboxes.get r.mb).assembly = none ∧ r.len.toNat ≤ 4080 ∧ r.words = ceilDiv (16 + r.len.toNat) 4 ∧ isPart r = false
    ∧ c.len.ok r.len.toNat = true

/-- A source that begins an episode (R374, R375, R377, R378): the episode, its first step and the asserted source; a reset of reach S or P stops
the breath and the sequencer, pulls RESETOUT_N low, forgets a scheduled swap and leads to BOOT; one of reach C keeps the mode, the time base
and RESETOUT_N. -/
def Safety.asserts (c : Instr) (n : Nat) (s : State) : Prop :=
  Safety.runs c s fun t =>
    t.blk.rcc.episode = some (srcReach n) ∧ t.blk.rcc.asserted.toNat.testBit n = true ∧ t.blk.rcc.seen = BitVec.ofNat 16 (2 ^ n)
    ∧ t.blk.rcc.step = (if n = 8 ∨ n = 9 then 1 else (srcReach n).firstStep) ∧ t.mem = s.mem
    ∧ (srcReach n ≠ .c → t.blk.rcc.resetoutLow = true ∧ t.blk.rcc.mode = .boot ∧ t.blk.breath.running = false ∧ t.blk.evs.resumed = false
        ∧ t.blk.cfg.swapBn = none ∧ t.blk.breath.bn = s.blk.breath.bn ∧ t.blk.time.aot = s.blk.time.aot)
    ∧ (srcReach n = .c → t.blk.rcc.resetoutLow = s.blk.rcc.resetoutLow ∧ t.blk.rcc.mode = s.blk.rcc.mode ∧ t.blk.breath.running = s.blk.breath.running
        ∧ t.blk.time = { s.blk.time with hiLatch := t.blk.time.hiLatch } ∧ t.blk.evs.resumed = s.blk.evs.resumed)

/-- A request whose last part ends the assembly that its mailbox holds, and which passes the checks of R236 that every command shares;
`p` is the whole payload (R234). -/
def Safety.wholeInParts (c : Cmd) (r : Req) (b : Blk) (p : List Byte) : Prop :=
  b.continues c.op r = true ∧ p = (b.assembled r).1 ++ r.payload.take r.len.toNat ∧ r.len.toNat ≤ 4080 ∧ r.words = ceilDiv (16 + r.len.toNat) 4
    ∧ (b.assembled r).1.length + r.len.toNat ≤ 65280 ∧ isPart r = false ∧ c.len.ok ((b.assembled r).1.length + r.len.toNat) = true
    ∧ b.rcc.mode.code ∈ c.modes ∧ c.who (reqWho r) = true ∧ flagErr r = none

/-- None of a list of checks fails. -/
def Safety.pass (l : List (Bool × Err)) : Prop := ∀ x ∈ l, x.1 = false

/-- The bytes whose SHA3-512 a key update is compared by fit what the Husk committed last: the same message again (R255, R413). -/
def Safety.sameUpdate (b : Blk) (p : List Byte) : Prop := leAt p 24 8 = b.sec.kuCnt.toNat ∧ Config.sha3 p = b.sec.kuDigest

/-- The slots of a component that an update does not touch, and the other components, are as they were. -/
def Safety.otherComps (s t : Blk) (i : Fin 13) : Prop := ∀ j : Fin 13, j ≠ i → t.comp j = s.comp j

end Sys2Proof
end

