-- ==== Sys2Proof/Certificates/Slice0/Obligations.lean ====
section
/-! DEFINITION. The statements for the provers, one definition each, in the order of OBLIGATIONS.json: the block as a whole, then
family by family what the commands do, what they leave alone, and where they complete. -/

open Sys2Proof Sys2Proof.Machine

/-! ### The block as a whole -/

/-- A command at the front of the queue is the one that a step runs, on the rest of the queue. Where a clause rests on the model's own choices and not on the spec, they are those of log entry 19. -/
def Obligations.StepRunsTheFrontCommand : Prop :=
  ∀ (c : Instr) (rest : List Instr) (s : State), s.pending = c :: rest → step s = exec c (s.withPending rest)

/-- With no command waiting a step lets one nanosecond of the shell reference clock pass and changes nothing but the time base (the model's choice, log entry 7): at rate correction 0 device time advances by one nanosecond (R65). -/
def Obligations.IdleStepLetsTimePass : Prop :=
  ∀ s : State, s.pending = [] →
    ∃ t : State, step s = .next t ∧ t.pending = [] ∧ t.mem = s.mem ∧ t.blk = { s.blk with time := t.blk.time }
      ∧ (s.blk.time.rateNow = 0 → t.blk.time.dt = s.blk.time.dt + 1 ∧ t.blk.time.dtFrac = s.blk.time.dtFrac)
      ∧ t.blk.time.state = s.blk.time.state

/-- INVARIANT: every step keeps the byte memories in canonical form. Where a clause rests on the model's own choices and not on the spec, they are those of log entry 2. -/
def Obligations.EveryStepKeepsMemoryCanonical : Prop :=
  ∀ s t : State, Safety.canonical s → step s = .next t → Safety.canonical t

/-- The invariant holds right after reset, when no byte is listed and no command waits. Where a clause rests on the model's own choices and not on the spec, they are those of log entry 2. -/
def Obligations.ResetMemoryIsCanonical : Prop :=
  Safety.canonical State.reset ∧ State.reset.pending = [] ∧ ∀ a : Nat, Mem.read State.reset.mem a = 0

/-- INVARIANT: no step changes a byte of the ROM, or of any address outside NVM, SRAM and LPDDR5 (R18). Where a clause rests on the model's own choices and not on the spec, they are those of log entry 23. -/
def Obligations.EveryStepKeepsReadOnlyBytes : Prop :=
  ∀ s t : State, step s = .next t → Safety.readOnlyKept s t

/-- Every command runs in every state: none faults, none is refused; each leaves the queue as it found it. Where a clause rests on the model's own choices and not on the spec, they are those of log entry 8. -/
def Obligations.EveryCommandRuns : Prop :=
  ∀ (c : Instr) (s : State), Safety.runs c s fun t => t.pending = s.pending

/-- A command that stores nothing leaves every byte of memory alone; `Safety.stores` names the others. A register write changes no byte of memory but those that the stores its meaning computes for it cover (R18). Where a clause rests on the model's own choices and not on the spec, they are those of log entry 23. -/
def Obligations.CommandsStoreOnlyTheirBytes : Prop :=
  (∀ (c : Instr) (s : State), Safety.stores c = false → Safety.runs c s fun t => t.mem = s.mem) ∧
  (∀ (i : Initiator) (addr : Word) (width : Fin 4) (data : BitVec 64) (s : State),
    Safety.runs (.registerWrite i addr width data) s fun t =>
      ∀ a : Nat, (registerWrite i addr width data s.blk).2.any (Store.hits a) = false → Mem.read t.mem a = Mem.read s.mem a)

/-- R81 to R84: the log writer takes records from the front of the log queue, no more in one second of DT than `EVS_LOG_RATE`; each one written advances the ring, is the newest record of the log, and steps the chain. Stores of the log writer: only slots of the event log, of the pinned log and of the checkpoints change (R81 to R84). R85: when the seal period passes and the Husk gives keys, the seal is stored in the copy whose turn it is and recorded with its flags; while keys are unavailable or locked it is deferred and nothing is stored. Where a clause rests on the model's own choices and not on the spec, they are those of log entry 27. -/
def Obligations.LogWriterAndSeals : Prop :=
  (∀ s : State, Safety.runs .logWrite s fun t =>
    let n := min s.blk.logBudget s.blk.evs.logQ.length
    t.blk.evs.logQ = s.blk.evs.logQ.drop n ∧ t.blk.evs.logTotal = s.blk.evs.logTotal + n
    ∧ t.blk.evs.logWr % logSlots = (s.blk.evs.logWr + n) % logSlots
    ∧ t.blk.evs.chain = (s.blk.evs.logQ.take n).foldl (fun c r => chainStep c r.bytes) s.blk.evs.chain
    ∧ (∀ r : Rec, (s.blk.evs.logQ.take n).getLast? = some r → t.blk.evs.newestSeq = r.seq ∧ t.blk.evs.newestDt = r.p.dt)
    ∧ t.blk.evs.logThisSec = (if s.blk.second = s.blk.evs.logSecond then s.blk.evs.logThisSec else 0) + n
    ∧ t.blk.evs.logSecond = s.blk.second) ∧
  (∀ (s : State) (a : Nat), ¬ (0x0C000000 ≤ a ∧ a < 0x0C47C000) →
    Safety.runs .logWrite s fun t => Mem.read t.mem a = Mem.read s.mem a) ∧
  (∀ s : State,
    (s.blk.sec.husk = .available → Safety.runs .sealPeriodExpiry s fun t =>
      let flags := if s.blk.evs.sealDeferred then 9 else 1
      t.mem = Mem.stores s.mem [.put (sealBase + s.blk.evs.sealCount % 2 * sealCopy) (sealBytes s.mem s.blk flags)]
      ∧ t.blk.evs.sealDeferred = false ∧ t.blk.evs.sealCount = s.blk.evs.sealCount + 1 ∧ t.blk.evs.lastSealDt = s.blk.time.dt
      ∧ t.blk.evs.prevSeal = Config.sha3 (sealBytes s.mem s.blk flags)
      ∧ (Safety.room s.blk srcSeq → Safety.lastRecord t.blk = some (srcSeq, 0x32, 0, arg32 flags, hw))) ∧
    (s.blk.sec.husk ≠ .available → Safety.runs .sealPeriodExpiry s fun t =>
      t.mem = s.mem ∧ t.blk = { s.blk with evs := { s.blk.evs with sealDeferred := true } }))

/-! ### Accesses (R2, R17, R19, R180) -/

/-- R180 (and R17, R19): a refused access, an unmapped access and an atomic access each answer zero with an access fault and store nothing; the first of an initiator in a breath is recorded with its address, later ones of the breath are not; a tenant's counts as one fault; nothing but the answer, the tenant's count, the bellows' note of the initiator and the sequencer changes. -/
def Obligations.RefusedAccesses : Prop :=
  (∀ (i : Initiator) (a : Word) (s : State), Safety.runs (.accessDenied i a) s fun t =>
    t.mem = s.mem ∧ t.blk.reply = { data := 0, fault := true, isolated := false }
    ∧ (i ∉ s.blk.breath.denied → Safety.room s.blk srcSys → Safety.lastRecord t.blk = some (srcSys, 2, 2, a, idByte i))
    ∧ (i ∈ s.blk.breath.denied → t.blk.evs = s.blk.evs) ∧ i ∈ t.blk.breath.denied
    ∧ (∀ n : Fin 8, (t.blk.tenants.get n).faults = (s.blk.tenants.get n).faults + if i = .tenant n then 1 else 0)
    ∧ t.blk = { s.blk with reply := t.blk.reply, tenants := t.blk.tenants, breath := t.blk.breath, evs := t.blk.evs }) ∧
  (∀ (i : Initiator) (a : Word) (s : State), Safety.runs (.unmappedAccess i a) s fun t =>
    t.mem = s.mem ∧ t.blk.reply = { data := 0, fault := true, isolated := false }
    ∧ (i ∉ s.blk.breath.unmapped → Safety.room s.blk srcSys → Safety.lastRecord t.blk = some (srcSys, 3, 2, a, idByte i))
    ∧ (i ∈ s.blk.breath.unmapped → t.blk.evs = s.blk.evs) ∧ i ∈ t.blk.breath.unmapped
    ∧ (∀ n : Fin 8, (t.blk.tenants.get n).faults = (s.blk.tenants.get n).faults + if i = .tenant n then 1 else 0)
    ∧ t.blk = { s.blk with reply := t.blk.reply, tenants := t.blk.tenants, breath := t.blk.breath, evs := t.blk.evs }) ∧
  (∀ a : Nat, 0x40086000 ≤ a → a < 0x40090000 → mapped a = false) ∧
  (∀ (i : Initiator) (a : Word) (s : State), Safety.runs (.atomicRefused i a) s fun t =>
    t.mem = s.mem ∧ t.blk.reply = { data := 0, fault := true, isolated := false }
    ∧ (∀ k : Fin 4, k.val = a.toNat / 0x1000000 % 4 → i ∉ s.blk.breath.atomics → Safety.room s.blk (srcBr k) →
        Safety.lastRecord t.blk = some (srcBr k, 6, 2, a, idByte i))
    ∧ (i ∈ s.blk.breath.atomics → t.blk.evs = s.blk.evs) ∧ i ∈ t.blk.breath.atomics
    ∧ (∀ n : Fin 8, (t.blk.tenants.get n).faults = (s.blk.tenants.get n).faults + if i = .tenant n then 1 else 0)
    ∧ t.blk = { s.blk with reply := t.blk.reply, tenants := t.blk.tenants, breath := t.blk.breath, evs := t.blk.evs })

/-- R2, R3: an access to an absent unit reads zero or is ignored, and the first of a boot is recorded: with the address of a register access, with opcode and number of a command. -/
def Obligations.AbsentUnits : Prop :=
  ∀ (i : Initiator) (u : UnitName) (s : State), s.blk.absent u = true →
    (∀ a : Word, Safety.runs (.notPresentAccess i u (.read a)) s fun t =>
      t.blk.reply = { data := 0, fault := false, isolated := false } ∧ u ∈ t.blk.absentLogged
      ∧ (u ∉ s.blk.absentLogged → Safety.room s.blk srcSys → Safety.lastRecord t.blk = some (srcSys, 1, 1, a, idByte i))
      ∧ (u ∈ s.blk.absentLogged → t.blk.evs = s.blk.evs)
      ∧ t.blk = { s.blk with reply := t.blk.reply, absentLogged := t.blk.absentLogged, evs := t.blk.evs }) ∧
    (∀ a : Word, Safety.runs (.notPresentAccess i u (.write a)) s fun t =>
      (u ∉ s.blk.absentLogged → Safety.room s.blk srcSys → Safety.lastRecord t.blk = some (srcSys, 1, 1, a, idByte i))
      ∧ (u ∈ s.blk.absentLogged → t.blk.evs = s.blk.evs) ∧ u ∈ t.blk.absentLogged
      ∧ t.blk = { s.blk with absentLogged := t.blk.absentLogged, evs := t.blk.evs }) ∧
    (∀ (op : BitVec 16) (n : Byte), Safety.runs (.notPresentAccess i u (.command op n)) s fun t =>
      (u ∉ s.blk.absentLogged → Safety.room s.blk srcSys →
        Safety.lastRecord t.blk = some (srcSys, 1, 1, arg32 (op.toNat + n.toNat * 65536), idByte i))
      ∧ (u ∈ s.blk.absentLogged → t.blk.evs = s.blk.evs) ∧ u ∈ t.blk.absentLogged
      ∧ t.blk = { s.blk with absentLogged := t.blk.absentLogged, evs := t.blk.evs })

/-! ### Device time (R66 to R70, R89) -/

/-- R69, R70: a sync from the grandmaster sets `TB_OFFSET`, the grandmaster and the slave port, and moves the time base between its states as the table of R69 says; an offset above `TB_STEP_THRESH` moves DT forward by it at once, and no offset moves DT back. R69, R70, R68: holdover and its end, the better clock, the end of a slew, and the messages of an enabled port. R89, R47: `TB_DT_LO` gives DT [31:0] and latches DT [63:32] for its initiator alone; a breath-inbox tenant reads the DT of the tick. Where a clause rests on the model's own choices and not on the spec, they are those of log entries 5, 6, 26. -/
def Obligations.TimeBaseMovesAndReads : Prop :=
  (∀ (p : Fin 10) (gm : BitVec 64) (d : Int) (s : State), Safety.syncCounts s.blk p →
    Safety.runs (.syncReceived p gm d) s fun t =>
      t.blk.time.offset = argInt d ∧ t.blk.time.gmId = gm ∧ t.blk.time.slavePort = BitVec.ofNat 8 p.val
      ∧ (s.blk.time.state = .synced → t.blk.time.state = if d.natAbs > 10000 then .unsynced else .synced)
      ∧ (s.blk.time.state = .holdover → t.blk.time.state = if d.natAbs ≤ 1000 then .synced else .unsynced)
      ∧ (s.blk.time.state = .unsynced → s.blk.time.gmId = gm → d.natAbs ≤ 1000 →
          t.blk.time.state = (if 7 ≤ s.blk.time.goodSyncs then .synced else .unsynced)
          ∧ (s.blk.time.goodSyncs < 7 → t.blk.time.goodSyncs = s.blk.time.goodSyncs + 1))
      ∧ (s.blk.time.state = .unsynced → 1000 < d.natAbs → t.blk.time.state = .unsynced ∧ t.blk.time.goodSyncs = 0)
      ∧ ((s.blk.time.stepThresh.toNat : Int) < d → t.blk.time.dt = s.blk.time.dt + BitVec.ofNat 64 d.toNat)
      ∧ (d ≤ (s.blk.time.stepThresh.toNat : Int) → t.blk.time.dt = s.blk.time.dt)) ∧
  (∀ s : State, s.blk.time.state = .synced → s.blk.time.syncEn = true → s.blk.time.slavePort ≠ noPort → s.blk.time.gmCapable = false →
    Safety.runs .syncReceiptTimeout s fun t => t.blk.time.state = .holdover ∧ t.blk.time.slavePort = noPort
      ∧ t.blk.time.holdLeft = s.blk.time.holdover ∧ t.blk.time.rateNow = s.blk.time.rateNow
      ∧ (Safety.room s.blk srcTb → Safety.lastRecord t.blk = some (srcTb, 0x21, 2, arg32 s.blk.time.slavePort.toNat, hw))) ∧
  (∀ s : State, s.blk.time.state = .holdover → Safety.runs .holdoverExpiry s fun t => t.blk.time.state = .unsynced
      ∧ (Safety.room s.blk srcTb → Safety.lastRecord t.blk = some (srcTb, 0x22, 2, s.blk.time.offset, hw))) ∧
  (∀ (p : Fin 10) (sys : BitVec 112) (s : State), s.blk.time.state = .master → s.blk.time.syncEn = true → s.blk.time.portEn p = true →
    s.blk.time.extCfg = false → s.blk.time.slavePort = noPort →
    Safety.runs (.announceReceived p sys) s fun t => sys.toNat < s.blk.time.ownSys.toNat → t.blk.time.state = .unsynced ∧ t.blk.time.slavePort = BitVec.ofNat 8 p.val
      ∧ t.blk.time.gmId = sys.truncate 64
      ∧ (Safety.room s.blk srcTb → Safety.lastRecord t.blk = some (srcTb, 0x25, 1, (sys.truncate 64 : BitVec 64).truncate 32, hw))) ∧
  (∀ s : State, s.blk.time.slewing = true → Safety.runs .slewComplete s fun t => t.blk.time.slewing = false
      ∧ t.blk.time.rateNow = BitVec.ofInt 32 (sint s.blk.time.rateNow + s.blk.time.slewDelta) ∧ t.blk.time.dt = s.blk.time.dt
      ∧ t.blk = { s.blk with time := t.blk.time }) ∧
  (∀ (p : Fin 10) (s : State), s.blk.time.syncEn = true → s.blk.time.portEn p = true → s.blk.time.slavePort ≠ BitVec.ofNat 8 p.val →
    Safety.runs (.syncIntervalExpiry p) s fun t =>
      t.blk.time.sent = (p, .followUp, s.blk.time.syncSeq.get p) :: (p, .sync, s.blk.time.syncSeq.get p) :: s.blk.time.sent
      ∧ t.blk.time.syncSeq.get p = s.blk.time.syncSeq.get p + 1 ∧ t.blk = { s.blk with time := t.blk.time }) ∧
  (∀ (p : Fin 10) (s : State), s.blk.time.syncEn = true → s.blk.time.portEn p = true →
    Safety.runs (.pdelayIntervalExpiry p) s fun t =>
      t.blk.time.sent = (p, .pdelayReq, s.blk.time.pdelaySeq.get p) :: s.blk.time.sent
      ∧ t.blk.time.pdelaySeq.get p = s.blk.time.pdelaySeq.get p + 1 ∧ t.blk = { s.blk with time := t.blk.time }) ∧
  (∀ (i : Initiator) (s : State), Safety.runs (.tbDtLoRead i) s fun t =>
    t.blk.reply = { data := BitVec.ofNat 64 ((s.blk.dtFor i).toNat % 2 ^ 32), fault := false, isolated := false }
    ∧ t.blk.tbReg i 4 = BitVec.ofNat 32 ((s.blk.dtFor i).toNat / 2 ^ 32)
    ∧ (∀ j : Initiator, j ≠ i → t.blk.tbReg j 4 = s.blk.tbReg j 4)
    ∧ (∀ n : Fin 8, i = .tenant n → s.blk.breath.modeSel.toNat.testBit n.val = false → s.blk.dtFor i = s.blk.breath.tickDt)
    ∧ ((∀ n : Fin 8, i ≠ .tenant n) → s.blk.dtFor i = s.blk.time.dt)
    ∧ t.blk.time.dt = s.blk.time.dt ∧ t.blk = { s.blk with time := t.blk.time, reply := t.blk.reply } ∧ t.mem = s.mem)

/-! ### Events (R72 to R92) -/

/-- R72, R78, R80, R81: the record at the head of the sequencer gets the next SEQ, goes to the log queue where its severity reaches `EVS_LOG_SEV` or it is pinned, and to every view with a ring whose filter it passes: the view's write position moves on, or its lost count where the ring is full. R80, R81, R74: lost records are counted in a record of code `EVENTS_LOST` of their own, and the count starts again: for a view once two slots are free, for the log queue once it has two places, for a shell source once its buffer has room. R92: a tenant, or the safety program, moves the read index of its own view, whichever view the write names; the Chanter moves that of the view it names; nothing else changes. Where a clause rests on the model's own choices and not on the spec, they are those of log entry 27. -/
def Obligations.GrantsDeliverOrLoseRecords : Prop :=
  (∀ (p : PRec) (rest : List PRec) (s : State), s.blk.evs.resumed = true → s.blk.evs.queue = p :: rest → Safety.nothingLost s.blk →
    Safety.runs .eventGrant s fun t =>
      t.blk.evs.queue = rest ∧ t.blk.evs.nextSeq = s.blk.evs.nextSeq + 1
      ∧ ((s.blk.evs.logSev ≤ p.sev.toNat ∨ p.pinned = true) → s.blk.evs.logRoom p.pinned 1 = true →
          t.blk.evs.logQ = s.blk.evs.logQ ++ [Safety.granted s.blk p])
      ∧ (¬ (s.blk.evs.logSev ≤ p.sev.toNat ∨ p.pinned = true) → t.blk.evs.logQ = s.blk.evs.logQ)
      ∧ (∀ v : Fin 9, (s.blk.evs.views.get v).size ≠ 0 → s.blk.passes v p = true → s.blk.viewInReset v = false →
          (0 < (s.blk.evs.views.get v).free →
            (t.blk.evs.views.get v).wr = ((s.blk.evs.views.get v).wr + 1) % 2 ^ (s.blk.evs.views.get v).size
            ∧ (t.blk.evs.views.get v).lost = 0)
          ∧ ((s.blk.evs.views.get v).free = 0 →
            (t.blk.evs.views.get v).wr = (s.blk.evs.views.get v).wr ∧ (t.blk.evs.views.get v).lost = 1))
      ∧ (∀ v : Fin 9, s.blk.passes v p = false → t.blk.evs.views.get v = s.blk.evs.views.get v)
      ∧ (∀ v : Fin 9, (t.blk.evs.views.get v).rd = (s.blk.evs.views.get v).rd)) ∧
  (∀ (v : Fin 9) (s : State), s.blk.evs.resumed = true → (s.blk.evs.views.get v).size ≠ 0 → 0 < (s.blk.evs.views.get v).lost →
    2 ≤ (s.blk.evs.views.get v).free → s.blk.viewInReset v = false →
    Safety.runs (.eventsLost (.view v)) s fun t =>
      (t.blk.evs.views.get v).lost = 0
      ∧ (t.blk.evs.views.get v).wr = ((s.blk.evs.views.get v).wr + 1) % 2 ^ (s.blk.evs.views.get v).size
      ∧ t.mem = Mem.stores s.mem [.put ((s.blk.evs.views.get v).base.toNat + (s.blk.evs.views.get v).wr * 32)
          (Safety.granted s.blk (s.blk.lostRec srcSeq (idByte (viewOwner v)) (s.blk.evs.views.get v).lost)).bytes]
      ∧ ∀ w : Fin 9, w ≠ v → t.blk.evs.views.get w = s.blk.evs.views.get w) ∧
  (∀ s : State, s.blk.evs.resumed = true → 0 < s.blk.evs.logLostNow → s.blk.evs.logRoom false 2 = true → s.blk.evs.logSev ≤ 2 →
    Safety.runs (.eventsLost .log) s fun t =>
      t.mem = s.mem ∧ t.blk.evs.logLostNow = 0 ∧ t.blk.evs.views = s.blk.evs.views
      ∧ t.blk.evs.logQ = s.blk.evs.logQ ++ [Safety.granted s.blk (s.blk.lostRec srcSeq hw s.blk.evs.logLostNow)]) ∧
  (∀ (src : BitVec 16) (n : Nat) (s : State), s.blk.evs.resumed = true → findKey s.blk.evs.srcLost src = some n → s.blk.waiting src < shellBuffer →
    Safety.runs (.eventsLost (.source src)) s fun t =>
      t.mem = s.mem ∧ t.blk.evs.queue = s.blk.evs.queue ++ [s.blk.lostRec src hw n]
      ∧ findKey t.blk.evs.srcLost src = none ∧ t.blk = { s.blk with evs := t.blk.evs }) ∧
  (∀ (i : Initiator) (v : Fin 9) (named : Option (Fin 9)) (idx : BitVec 16) (s : State),
    (i = viewOwner v ∨ (i = .chanter ∧ named = some v)) → (s.blk.evs.views.get v).size ≠ 0 →
    Safety.runs (.evsViewRdWrite i named idx) s fun t =>
      (t.blk.evs.views.get v).rd = idx.toNat % 2 ^ (s.blk.evs.views.get v).size
      ∧ (t.blk.evs.views.get v).wr = (s.blk.evs.views.get v).wr ∧ (t.blk.evs.views.get v).lost = (s.blk.evs.views.get v).lost
      ∧ (∀ w : Fin 9, w ≠ v → t.blk.evs.views.get w = s.blk.evs.views.get w)
      ∧ t.blk = { s.blk with evs := { s.blk.evs with views := t.blk.evs.views } } ∧ t.mem = s.mem) ∧
  (∀ (i : Initiator) (named : Option (Fin 9)) (idx : BitVec 16) (s : State), (∀ v : Fin 9, i ≠ viewOwner v) → i ≠ .chanter →
    Safety.runs (.evsViewRdWrite i named idx) s fun t => t = s)

/-! ### State kept over forty years (R457 to R466) -/

/-- R461, R463: the items of a transaction take effect together: each one's committed body is the one the transaction gives it (the items are distinct), every other item keeps its body, and the transaction number advances. R464, R465: a write of a counter that does not lower it gives it the value; one that would lower it, and one of an offset where no counter lies, change nothing; a write of a guarded counter advances the step counter by one. Other counters keep their values. Where a clause rests on the model's own choices and not on the spec, they are those of log entry 50. -/
def Obligations.JournalAndCounters : Prop :=
  (∀ (items : List (BitVec 16 × List Byte)) (s : State), (items.map (·.1)).Nodup →
    Safety.runs (.journalTransaction items) s fun t =>
      (∀ i ∈ items, t.blk.jItem i.1 = i.2)
      ∧ (∀ id : BitVec 16, id ∉ items.map (·.1) → t.blk.jItem id = s.blk.jItem id)
      ∧ t.blk.nvm.counters = s.blk.nvm.counters ∧ t.blk.evs = s.blk.evs ∧ t.mem = s.mem) ∧
  (∀ (off : BitVec 16) (v : BitVec 64) (s : State), 0 < ctrSlots off.toNat → off.toNat ≠ ctrStep →
    ctrOrder off.toNat (s.blk.ctrValue off.toNat) ≤ ctrOrder off.toNat v →
    Safety.runs (.counterWrite off v) s fun t =>
      t.blk.ctrValue off.toNat = v
      ∧ (off.toNat ∈ guardedCtrs → t.blk.ctrValue ctrStep = s.blk.ctrValue ctrStep + 1)
      ∧ (off.toNat ∉ guardedCtrs → t.blk.ctrValue ctrStep = s.blk.ctrValue ctrStep)) ∧
  (∀ (off : BitVec 16) (v : BitVec 64) (s : State),
    (ctrSlots off.toNat = 0 ∨ off.toNat = ctrStep ∨ ctrOrder off.toNat v < ctrOrder off.toNat (s.blk.ctrValue off.toNat)) →
    Safety.runs (.counterWrite off v) s fun t => t = s)

/-- R457: a scrub pass starts outside SLEEP and BOOT and its progress starts at 0; its end records how many words it rewrote, counts the corrected ones, and keeps the DT of the pass in the journal. R457, R459, R466: corrections of SRAM and LPDDR5 are counted; an uncorrectable word of memory, and one of NVM, sets its sticky bit and its address, and is remembered until it is written; that of NVM is recorded and its block remapped. Where a clause rests on the model's own choices and not on the spec, they are those of log entries 36, 50. -/
def Obligations.ScrubsAndMemoryErrors : Prop :=
  (∀ s : State, s.blk.nvm.scrub = false → s.blk.rcc.mode ≠ .sleep → s.blk.rcc.mode ≠ .boot →
    Safety.runs .scrubPassStart s fun t => t.blk.nvm.scrub = true ∧ t.blk.nvm.scrubProg = 0 ∧ t.mem = s.mem
      ∧ t.blk = { s.blk with nvm := { s.blk.nvm with scrub := true, scrubProg := 0 } }) ∧
  (∀ s : State, (s.blk.rcc.mode = .sleep ∨ s.blk.rcc.mode = .boot) → Safety.runs .scrubPassStart s fun t => t = s) ∧
  (∀ (n : Word) (corrected : List Word) (s : State), s.blk.nvm.scrub = true → (∀ a ∈ corrected, a ∉ s.blk.nvm.prevCorr) →
    Safety.runs (.scrubPassEnd n corrected) s fun t =>
      t.blk.nvm.scrub = false ∧ t.blk.nvm.scrubLast = s.blk.time.dt ∧ t.blk.nvm.scrubCorr = n.toNat
      ∧ t.blk.nvm.prevCorr = corrected ∧ t.blk.nvm.remapCode = s.blk.nvm.remapCode ∧ t.blk.nvm.remapData = s.blk.nvm.remapData
      ∧ t.blk.jItem jScrub = leBytes 8 s.blk.time.dt.toNat
      ∧ (Safety.room s.blk srcNvm → Safety.lastRecord t.blk = some (srcNvm, 4, 0, n, hw))) ∧
  (∀ (sc dc : BitVec 16) (s : State), (∀ a ∈ s.blk.nvm.badWords, a.toNat < 0x10000000) →
    Safety.runs (.memScrub sc dc) s fun t =>
      t.blk.nvm.memCorrS = satAdd s.blk.nvm.memCorrS sc.toNat 0xFFFF ∧ t.blk.nvm.memCorrD = satAdd s.blk.nvm.memCorrD dc.toNat 0xFFFF
      ∧ t.blk = { s.blk with nvm := t.blk.nvm } ∧ t.mem = s.mem) ∧
  (∀ (a : Word) (s : State), 0x08000000 ≤ a.toNat → a.toNat < 0x0C000000 → Safety.runs (.nvmUncorrectable a) s fun t =>
    t.blk.nvm.uncorr = satInc s.blk.nvm.uncorr 0xFFFF ∧ t.blk.nvm.errAddr = a ∧ a ∈ t.blk.nvm.badWords
    ∧ t.blk.nvm.sticky.toNat.testBit 0 = true ∧ t.blk.nvm.journal = s.blk.nvm.journal ∧ t.blk.nvm.counters = s.blk.nvm.counters
    ∧ (s.blk.nvm.remapCode.length < 256 → blockOf a ∈ t.blk.nvm.remapCode) ∧ t.mem = s.mem) ∧
  (∀ (a : Word) (s : State), ¬ (0x08000000 ≤ a.toNat ∧ a.toNat < 0x0C800000) → Safety.runs (.nvmUncorrectable a) s fun t => t = s)

/-! ### Channel protection (R131 to R161) -/

/-- R133, R134, R137, R138, R143: a hard short outside a retry, an overcurrent trip and a junction trip are each one fault. R132, R136: limiting is entered from a conducting state and left for INRUSH or ON; inside an open window a hard short with burst left is a quick retry that counts nothing, and 50 µs later the output turns on again; the window's end closes it. Where a clause rests on the model's own choices and not on the spec, they are those of log entry 28. -/
def Obligations.FaultsRetriesAndLimits : Prop :=
  (∀ (c : Fin 40) (critB : Bool) (peak : BitVec 16) (s : State), s.blk.kernelRuns (kOf c) = true →
    (s.blk.ch (s.blk.lead c)).conducting = true → (critB = true → (s.blk.ch (s.blk.lead c)).prot = .limiting) →
    ¬ ((s.blk.ch (s.blk.lead c)).winOpen = true ∧ 0 < (s.blk.ch (s.blk.lead c)).burstLeft
        ∧ ((s.blk.ch (s.blk.lead c)).prot = .inrush ∨ (s.blk.ch (s.blk.lead c)).prot = .limiting)) →
    Safety.runs (.hardShort c critB peak) s fun t => t.mem = s.mem ∧
      Safety.faulted s.blk t.blk (s.blk.lead c) (if critB then .shortB else .shortA) false) ∧
  (∀ (c : Fin 40) (mean : BitVec 16) (s : State), (s.blk.ch (s.blk.lead c)).prot = .limiting → (s.blk.ch (s.blk.lead c)).winOpen = false →
    Safety.runs (.overcurrentTrip c mean) s fun t => t.mem = s.mem ∧ Safety.faulted s.blk t.blk (s.blk.lead c) .limitTime false) ∧
  (∀ (c : Fin 40) (tj : BitVec 16) (s : State), (s.blk.ch (s.blk.lead c)).conducting = true →
    Safety.runs (.thermalTrip c tj) s fun t => t.mem = s.mem ∧ Safety.faulted s.blk t.blk (s.blk.lead c) .junction true
      ∧ (t.blk.ch (s.blk.lead c)).tjBlock = true) ∧
  (∀ (c : Fin 40) (s : State), ((s.blk.ch (s.blk.lead c)).prot = .on ∨ (s.blk.ch (s.blk.lead c)).prot = .inrush) →
    (s.blk.ch (s.blk.lead c)).quickOff = false → Safety.runs (.limitingEntry c) s fun t =>
      (t.blk.ch (s.blk.lead c)).prot = .limiting ∧ (t.blk.ch (s.blk.lead c)).conducting = true
      ∧ (t.blk.ch (s.blk.lead c)).limRun = (if (s.blk.ch (s.blk.lead c)).winOpen then none else some s.blk.time.dt)
      ∧ (∀ d : Fin 40, d ≠ s.blk.lead c → t.blk.ch d = s.blk.ch d) ∧ t.blk = { s.blk with chans := t.blk.chans } ∧ t.mem = s.mem) ∧
  (∀ (c : Fin 40) (s : State), (s.blk.ch (s.blk.lead c)).prot = .limiting → Safety.runs (.limitingExit c) s fun t =>
      (t.blk.ch (s.blk.lead c)).prot = (if (s.blk.ch (s.blk.lead c)).winOpen then .inrush else .on)
      ∧ (t.blk.ch (s.blk.lead c)).limRun = none
      ∧ (cmdMode (s.blk.ch (s.blk.lead c)).applied.cmd ≠ 2 → (s.blk.ch (s.blk.lead c)).ramping = false →
          (t.blk.ch (s.blk.lead c)).limAcc = 0)
      ∧ (∀ d : Fin 40, d ≠ s.blk.lead c → t.blk.ch d = s.blk.ch d) ∧ t.blk = { s.blk with chans := t.blk.chans } ∧ t.mem = s.mem) ∧
  (∀ (c : Fin 40) (critB : Bool) (peak : BitVec 16) (s : State), s.blk.kernelRuns (kOf c) = true →
    (s.blk.ch (s.blk.lead c)).conducting = true → (critB = true → (s.blk.ch (s.blk.lead c)).prot = .limiting) →
    (s.blk.ch (s.blk.lead c)).winOpen = true → 0 < (s.blk.ch (s.blk.lead c)).burstLeft →
    ((s.blk.ch (s.blk.lead c)).prot = .inrush ∨ (s.blk.ch (s.blk.lead c)).prot = .limiting) →
    Safety.runs (.hardShort c critB peak) s fun t =>
      (t.blk.ch (s.blk.lead c)).prot = .inrush ∧ (t.blk.ch (s.blk.lead c)).quickOff = true ∧ (t.blk.ch (s.blk.lead c)).conducting = false
      ∧ (t.blk.ch (s.blk.lead c)).burstLeft + 1 = (s.blk.ch (s.blk.lead c)).burstLeft ∧ (t.blk.ch (s.blk.lead c)).winOpen = true
      ∧ (t.blk.ch (s.blk.lead c)).faultCount = (s.blk.ch (s.blk.lead c)).faultCount
      ∧ t.blk = { s.blk with chans := t.blk.chans } ∧ t.mem = s.mem) ∧
  (∀ (c : Fin 40) (s : State), (s.blk.ch (s.blk.lead c)).quickOff = true → (s.blk.ch (s.blk.lead c)).prot = .inrush →
    (s.blk.kn (kOf (s.blk.lead c))).surge = false → Safety.runs (.quickRetryOn c) s fun t =>
      t.blk.ch (s.blk.lead c) = { s.blk.ch (s.blk.lead c) with quickOff := false }
      ∧ (∀ d : Fin 40, d ≠ s.blk.lead c → t.blk.ch d = s.blk.ch d) ∧ t.blk = { s.blk with chans := t.blk.chans } ∧ t.mem = s.mem) ∧
  (∀ (c : Fin 40) (s : State), (s.blk.ch (s.blk.lead c)).winOpen = true → (s.blk.ch (s.blk.lead c)).winFrozen = none →
    Safety.runs (.inrushWindowEnd c) s fun t => (t.blk.ch (s.blk.lead c)).winOpen = false
      ∧ ((s.blk.ch (s.blk.lead c)).prot = .inrush → (t.blk.ch (s.blk.lead c)).prot = .on)
      ∧ ((s.blk.ch (s.blk.lead c)).prot = .limiting → (t.blk.ch (s.blk.lead c)).prot = .limiting ∧ (t.blk.ch (s.blk.lead c)).limAcc = 0
          ∧ (t.blk.ch (s.blk.lead c)).limRun = some s.blk.time.dt)
      ∧ (∀ d : Fin 40, d ≠ s.blk.lead c → t.blk.ch d = s.blk.ch d)
      ∧ t.blk = { s.blk with chans := t.blk.chans, kernels := t.blk.kernels } ∧ t.mem = s.mem)

/-- R139, R140, R143: at the end of its pause a channel whose conditions all hold restarts when it is commanded on and is OFF when it is not; a temperature, a supply fault, SLEEP or an increment not yet stored keeps it waiting. A junction that has cooled is recorded; the clean timer lowers both counters; a millisecond of conduction ends the fault code. Where a clause rests on the model's own choices and not on the spec, they are those of log entry 28. -/
def Obligations.PausesEndInARestart : Prop :=
  (∀ (c : Fin 40) (s : State), (s.blk.ch (s.blk.lead c)).prot = .pause → (s.blk.ch (s.blk.lead c)).pauseRun = true →
    Safety.runs (.pauseEnd c) s fun t =>
      (t.blk.ch (s.blk.lead c)).pauseRun = false ∧ t.mem = s.mem
      ∧ (Safety.mayRestart s.blk (s.blk.lead c) → (s.blk.ch (s.blk.lead c)).wantsOn = true →
          (t.blk.ch (s.blk.lead c)).prot = (if (s.blk.ch (s.blk.lead c)).winForce || (s.blk.ch (s.blk.lead c)).winOnRestart then .inrush else .on)
          ∧ (t.blk.ch (s.blk.lead c)).conducting = true)
      ∧ (Safety.mayRestart s.blk (s.blk.lead c) → (s.blk.ch (s.blk.lead c)).wantsOn = false → (t.blk.ch (s.blk.lead c)).prot = .off)
      ∧ ((s.blk.ch (s.blk.lead c)).anyLatch = false → (s.blk.ch (s.blk.lead c)).wantsOn = true → ¬ Safety.mayRestart s.blk (s.blk.lead c) →
          (t.blk.ch (s.blk.lead c)).conducting = false)) ∧
  (∀ (c : Fin 40) (tj : BitVec 16) (s : State), (s.blk.ch (s.blk.lead c)).tjBlock = true → Safety.runs (.thermalClear c tj) s fun t =>
      (t.blk.ch (s.blk.lead c)).tjBlock = false ∧ (t.blk.ch (s.blk.lead c)).faultCount = (s.blk.ch (s.blk.lead c)).faultCount
      ∧ (t.blk.ch (s.blk.lead c)).thermCount = (s.blk.ch (s.blk.lead c)).thermCount
      ∧ t.blk = { s.blk with chans := t.blk.chans, kernels := t.blk.kernels } ∧ t.mem = s.mem) ∧
  (∀ (c : Fin 40) (s : State), (s.blk.ch (s.blk.lead c)).prot = .on → Safety.runs (.cleanTimerExpiry c) s fun t =>
      t.blk.ch (s.blk.lead c) = { s.blk.ch (s.blk.lead c) with
        faultCount := (s.blk.ch (s.blk.lead c)).faultCount - 1, thermCount := (s.blk.ch (s.blk.lead c)).thermCount - 1,
        cleanAcc := 0, cleanFrom := some s.blk.time.dt }
      ∧ (∀ d : Fin 40, d ≠ s.blk.lead c → t.blk.ch d = s.blk.ch d)
      ∧ t.blk = { s.blk with chans := t.blk.chans, kernels := t.blk.kernels } ∧ t.mem = s.mem) ∧
  (∀ (c : Fin 40) (s : State), (s.blk.ch (s.blk.lead c)).prot ≠ .on → Safety.runs (.cleanTimerExpiry c) s fun t => t = s) ∧
  (∀ (c : Fin 40) (s : State), (s.blk.ch (s.blk.lead c)).conducting = true → Safety.runs (.conductsWithoutFault c) s fun t =>
      t.blk.ch (s.blk.lead c) = { s.blk.ch (s.blk.lead c) with cause := .none }
      ∧ (∀ d : Fin 40, d ≠ s.blk.lead c → t.blk.ch d = s.blk.ch d) ∧ t.blk = { s.blk with chans := t.blk.chans } ∧ t.mem = s.mem)

/-- R144, R148, R149, R150, R151: supply faults of a kernel and their ends, and reverse polarity of a feed. Where a clause rests on the model's own choices and not on the spec, they are those of log entry 8. -/
def Obligations.SupplyFaultsHoldChannelsOff : Prop :=
  (∀ (k : Fin 4) (ktemp : BitVec 16) (s : State), s.blk.kernelRuns k = true → (s.blk.kn k).overtemp = false →
    Safety.runs (.kernelOvertemp k ktemp) s fun t => Safety.supplyWaits s.blk t.blk k .thermal ∧ (t.blk.kn k).overtemp = true
      ∧ (t.blk.kn k).kflagsChg = true ∧ bit (t.blk.kn k).supplySticky 3 = true
      ∧ (Safety.kernelRoom s.blk k 24 → Safety.lastKernelRecord t.blk k = some (srcK k, 0x46, 4, arg32 ktemp.toNat, hw))
      ∧ t.blk = { s.blk with chans := t.blk.chans, kernels := t.blk.kernels } ∧ t.mem = s.mem) ∧
  (∀ (k : Fin 4) (ktemp : BitVec 16) (s : State), (s.blk.kn k).overtemp = true → Safety.runs (.kernelOvertempClear k ktemp) s fun t =>
      t.blk.kn k = { s.blk.kn k with overtempGood := true, ktemp := ktemp } ∧ (∀ j : Fin 4, j ≠ k → t.blk.kn j = s.blk.kn j)
      ∧ t.blk = { s.blk with kernels := t.blk.kernels } ∧ t.mem = s.mem) ∧
  (∀ (k : Fin 4) (s : State), s.blk.kernelRuns k = true → (s.blk.kn k).ground = false →
    Safety.runs (.groundLost k) s fun t => Safety.supplyWaits s.blk t.blk k .pause ∧ (t.blk.kn k).ground = true
      ∧ bit (t.blk.kn k).supplySticky 0 = true
      ∧ (Safety.kernelRoom s.blk k 24 →
          Safety.lastKernelRecord t.blk k = some (srcK k, 0x40, 4, arg32 (s.blk.conductMask k), hw))
      ∧ t.blk = { s.blk with chans := t.blk.chans, kernels := t.blk.kernels } ∧ t.mem = s.mem) ∧
  (∀ (k : Fin 4) (s : State), (s.blk.kn k).ground = true → Safety.runs (.groundGood k) s fun t =>
      t.blk.kn k = { s.blk.kn k with groundGood := true } ∧ (∀ j : Fin 4, j ≠ k → t.blk.kn j = s.blk.kn j)
      ∧ t.blk = { s.blk with kernels := t.blk.kernels } ∧ t.mem = s.mem) ∧
  (∀ (k : Fin 4) (lowest : BitVec 16) (s : State), s.blk.kernelRuns k = true → (s.blk.kn k).under = false →
    Safety.runs (.undervoltage k lowest) s fun t => Safety.supplyWaits s.blk t.blk k .pause ∧ (t.blk.kn k).under = true
      ∧ bit (t.blk.kn k).supplySticky 1 = true
      ∧ (Safety.kernelRoom s.blk k 24 → Safety.lastKernelRecord t.blk k = some (srcK k, 0x42, 3, arg32 lowest.toNat, hw))
      ∧ t.blk = { s.blk with chans := t.blk.chans, kernels := t.blk.kernels } ∧ t.mem = s.mem) ∧
  (∀ (k : Fin 4) (s : State), (s.blk.kn k).under = true → Safety.runs (.undervoltageClear k) s fun t =>
      t.blk.kn k = { s.blk.kn k with underGood := true } ∧ (∀ j : Fin 4, j ≠ k → t.blk.kn j = s.blk.kn j)
      ∧ t.blk = { s.blk with kernels := t.blk.kernels } ∧ t.mem = s.mem) ∧
  (∀ (k : Fin 4) (s : State), s.blk.kernelRuns k = true → Safety.runs (.kernelControllerReset k) s fun t =>
      (t.blk.kn k).powered = false ∧ (∀ c ∈ chansOf k, (t.blk.ch c).prot = .off ∧ (t.blk.ch c).winOpen = false)
      ∧ (∀ c : Fin 40, c ∉ chansOf k → t.blk.ch c = s.blk.ch c)
      ∧ t.blk = { s.blk with chans := t.blk.chans, kernels := t.blk.kernels } ∧ t.mem = s.mem) ∧
  (∀ (k : Fin 4) (v : BitVec 16) (s : State), s.blk.kernelRuns k = true → (s.blk.kn k).surge = false →
    Safety.runs (.surge k v) s fun t => (t.blk.kn k).surge = true ∧ (t.blk.kn k).surgeStart = s.blk.time.dt
      ∧ (∀ c : Fin 40, t.blk.ch c = { s.blk.ch c with deferredLogged := (t.blk.ch c).deferredLogged })
      ∧ (∀ c ∈ chansOf k, (t.blk.ch c).deferredLogged = false)
      ∧ (Safety.kernelRoom s.blk k 1 → Safety.lastKernelRecord t.blk k = some (srcK k, 0x44, 3, arg32 v.toNat, hw))
      ∧ t.blk = { s.blk with chans := t.blk.chans, kernels := t.blk.kernels } ∧ t.mem = s.mem) ∧
  (∀ (k : Fin 4) (peak : BitVec 16) (s : State), (s.blk.kn k).surge = true → Safety.runs (.surgeClear k peak) s fun t =>
      (t.blk.kn k).surge = false ∧ (t.blk.kn k).surgeOver = true ∧ (t.blk.kn k).surgePeak = peak
      ∧ (Safety.kernelRoom s.blk k 1 → Safety.lastKernelRecord t.blk k = some (srcK k, 0x45, 2,
          arg32 (peak.toNat + min (s.blk.since (s.blk.kn k).surgeStart / 1000000) 0xFFFF * 65536), hw))
      ∧ t.blk = { s.blk with kernels := t.blk.kernels } ∧ t.mem = s.mem) ∧
  (∀ (feedB : Bool) (ticks : BitVec 48) (s : State), Safety.runs (.reversePolarity feedB ticks) s fun t =>
      (∀ k ∈ feedKernels feedB, s.blk.hasKernel k = true → (t.blk.kn k).powered = false
        ∧ ((k.val % 2 = 0) → s.blk.rcc.vka = true → (t.blk.kn k).reversed = some ticks)
        ∧ ∀ c ∈ chansOf k, (t.blk.ch c).prot = .off)
      ∧ (∀ k : Fin 4, k ∉ feedKernels feedB → t.blk.kn k = s.blk.kn k ∧ ∀ c ∈ chansOf k, t.blk.ch c = s.blk.ch c)
      ∧ t.blk = { s.blk with chans := t.blk.chans, kernels := t.blk.kernels } ∧ t.mem = s.mem)

/-- R155, R156, R122: a write of the protection store takes the next slot and one of the allowance and frees the restarts that waited for it; the allowance gains one a powered second up to 3,600; at power-up a kernel restores its counters, its latches and the allowance from the newest record, or starts all of them at 0 where there is none, and takes its fallback states. Where a clause rests on the model's own choices and not on the spec, they are those of log entry 1. -/
def Obligations.ProtectionStoreSurvivesPower : Prop :=
  (∀ (k : Fin 4) (s : State), (s.blk.kn k).protDirty = true → 0 < (s.blk.kn k).allowance → (s.blk.kn k).powered = true →
    Safety.runs (.protStoreWrite k) s fun t =>
      (t.blk.kn k).protGen = (s.blk.kn k).protGen + 1 ∧ (t.blk.kn k).allowance + 1 = (s.blk.kn k).allowance
      ∧ (t.blk.kn k).protDirty = false
      ∧ (∀ i : Fin 16, i.val = ((s.blk.kn k).protGen + 1) % 16 →
          (t.blk.kn k).protRing.get i = some (s.blk.protRec k ((s.blk.kn k).protGen + 1) (s.blk.kn k).allowance))
      ∧ (∀ i : Fin 16, i.val ≠ ((s.blk.kn k).protGen + 1) % 16 → (t.blk.kn k).protRing.get i = (s.blk.kn k).protRing.get i)
      ∧ (∀ c ∈ chansOf k, (t.blk.ch c).unstored = false ∧ (t.blk.ch c).faultCount = (s.blk.ch c).faultCount)
      ∧ t.mem = s.mem) ∧
  (∀ (k : Fin 4) (s : State), s.blk.kernelRuns k = true → Safety.runs (.allowanceGain k) s fun t =>
      t.blk.kn k = { s.blk.kn k with allowance := satInc (s.blk.kn k).allowance 3600 }
      ∧ (∀ j : Fin 4, j ≠ k → t.blk.kn j = s.blk.kn j) ∧ t.blk = { s.blk with kernels := t.blk.kernels } ∧ t.mem = s.mem) ∧
  (∀ (k : Fin 4) (s : State), s.blk.hasKernel k = true → (s.blk.kn k).powered = false → Safety.runs (.kernelPowerUp k) s fun t =>
      (t.blk.kn k).powered = true ∧ t.mem = s.mem
      ∧ (∀ c ∈ chansOf k, s.blk.isFollower c = false → (t.blk.ch c).fallbackOn = true)
      ∧ ((s.blk.kn k).newestProt = none → (t.blk.kn k).allowance = 0 ∧
          ∀ c ∈ chansOf k, (t.blk.ch c).faultCount = 0 ∧ (t.blk.ch c).thermCount = 0 ∧ (t.blk.ch c).anyLatch = false)
      ∧ (∀ r : ProtRec, (s.blk.kn k).newestProt = some r → (t.blk.kn k).allowance = r.allowance ∧ (t.blk.kn k).protGen = r.gen ∧
          ∀ (n : Fin 10) (x : Nat × Nat × Bool × Bool × Bool), r.chans[n.val]? = some x →
            (t.blk.ch (chanOf k n)).faultCount = x.1 ∧ (t.blk.ch (chanOf k n)).thermCount = x.2.1
            ∧ (t.blk.ch (chanOf k n)).retryLatch = x.2.2.1 ∧ (t.blk.ch (chanOf k n)).thermLatch = x.2.2.2.1
            ∧ (t.blk.ch (chanOf k n)).arcLatch = x.2.2.2.2)
      ∧ (∀ c : Fin 40, c ∉ chansOf k → t.blk.ch c = s.blk.ch c)
      ∧ t.blk = { s.blk with chans := t.blk.chans, kernels := t.blk.kernels })

/-! ### Load channels (R93 to R128) -/

/-- R98, R99, R102: a shut-down whose conditions hold ends in OFF, or waits with its pending request for the tick; at a carrier period a changed duty takes effect, and `DUTY_CLAMP` says whether R99 forms another one. R99: the effective output that the kernel forms from a commanded duty `d` of a set whose carrier runs, with its period and its minimum pulse in ns. Where a clause rests on the model's own choices and not on the spec, they are those of log entry 28. -/
def Obligations.ShutDownsCarriersAndPulses : Prop :=
  (∀ (c : Fin 40) (s : State), (s.blk.ch (s.blk.lead c)).shutdownActive = true → (s.blk.ch (s.blk.lead c)).ramping = false →
    Safety.runs (.shutdownComplete c) s fun t =>
      (t.blk.ch (s.blk.lead c)).shutdownActive = false ∧ (t.blk.ch (s.blk.lead c)).conducting =
        (match (s.blk.ch (s.blk.lead c)).prot with
          | .on | .inrush | .limiting => !(s.blk.ch (s.blk.lead c)).quickOff | _ => false)
      ∧ ((s.blk.ch (s.blk.lead c)).prot = .shuttingDown → (t.blk.ch (s.blk.lead c)).prot = .off)
      ∧ ((s.blk.ch (s.blk.lead c)).prot = .pendingOn → (t.blk.ch (s.blk.lead c)).prot = .pendingOn)
      ∧ (∀ d : Fin 40, d ≠ s.blk.lead c → t.blk.ch d = s.blk.ch d) ∧ t.blk = { s.blk with chans := t.blk.chans } ∧ t.mem = s.mem) ∧
  (∀ (c : Fin 40) (s : State), s.blk.isFollower c = false → (s.blk.ch c).conducting = true → cmdMode (s.blk.ch c).applied.cmd = 2 →
    (s.blk.ch c).ramping = false → Safety.runs (.carrierPeriodStart c) s fun t =>
      (t.blk.ch c).effDuty = ((s.blk.ch c).applied.target : Rat)
      ∧ (t.blk.ch c).dutyClamp = decide ((s.blk.ch c).applied.clampDuty (s.blk.ch c).applied.target ≠ (s.blk.ch c).applied.target)
      ∧ (t.blk.ch c).prot = (s.blk.ch c).prot ∧ (t.blk.ch c).applied = (s.blk.ch c).applied
      ∧ (∀ d : Fin 40, d ≠ c → t.blk.ch d = s.blk.ch d)
      ∧ t.blk = { s.blk with chans := t.blk.chans, kernels := t.blk.kernels } ∧ t.mem = s.mem) ∧
  (∀ (sh : ShadowSet) (d : Rat), 0 < sh.freq → 0 ≤ d → d ≤ 1000 → (sh.minPulse : Rat) ≤ sh.periodNs / 2 →
    let on := d / 1000 * sh.periodNs
    let off := sh.periodNs - on
    (on < sh.minPulse / 2 → sh.clampDuty d = 0)
    ∧ (sh.minPulse / 2 ≤ on → on < sh.minPulse → sh.clampDuty d / 1000 * sh.periodNs = sh.minPulse)
    ∧ (off < sh.minPulse / 2 → sh.clampDuty d = 1000)
    ∧ (sh.minPulse / 2 ≤ off → off < sh.minPulse → (1000 - sh.clampDuty d) / 1000 * sh.periodNs = sh.minPulse)
    ∧ (sh.minPulse ≤ on → sh.minPulse ≤ off → sh.clampDuty d = d))

/-- R111, R114: every millisecond the two nodes of a channel's wire model move as the rule says, from the mean square current `i2` (in mA²) and the ambient temperature; at TMAX a conducting channel trips thermally and its wire blocks a restart. R105: a positive product is added to the energy counter of its channel, which is 64 bits wide; no other product changes it. R128: a read of `CH_ENERGY_LO` by the owner or the Chanter answers the low half and latches the high half for that initiator and that channel alone. Where a clause rests on the model's own choices and not on the spec, they are those of log entries 9, 10. -/
def Obligations.WireModelAndEnergy : Prop :=
  (∀ (k : Fin 4) (i2 : List Nat) (c : Fin 40) (s : State), s.blk.kernelRuns k = true → kOf c = k → s.blk.isFollower c = false →
    (s.blk.ch c).wmEn = true → s.blk.rcc.mode ≠ .sleep → (∀ d ∈ chansOf k, (s.blk.ch d).prot ≠ .limiting) →
    Safety.runs (.wireModelStep k i2) s fun t =>
      let ch := s.blk.ch c
      let tamb := s.blk.ambient c
      let p : Rat := (i2.getD (c.val % 10) 0 : Rat) / 1000000 * ((bits ch.wmRho 16 0 : Rat) / 1000000)
        * (1 + 393 / 100000 * (tamb + ch.th1 + ch.th2 - 20))
      let th1 := max 0 (ch.th1 + (p * ((bits ch.wmRth 15 0 : Rat) / 1000) - ch.th1) * (1 / 1000) / ((bits ch.wmTau 15 0 : Rat) / 10))
      let th2 := max 0 (ch.th2 + (p * ((bits ch.wmRth 31 16 : Rat) / 1000) - ch.th2) * (1 / 1000) / (bits ch.wmTau 31 16 : Rat))
      (t.blk.ch c).th1 = th1 ∧ (t.blk.ch c).th2 = th2 ∧ (t.blk.ch c).tc = tamb + th1 + th2
      ∧ ((bits ch.wmLim 7 0 : Rat) ≤ tamb + th1 + th2 → ch.conducting = true →
          (t.blk.ch c).conducting = false ∧ (t.blk.ch c).wireBlock = true
          ∧ (t.blk.ch c).faultCount = satInc ch.faultCount 31 ∧ (t.blk.ch c).thermCount = satInc ch.thermCount 15)
      ∧ (tamb + th1 + th2 < (bits ch.wmLim 7 0 : Rat) → ch.wireBlock = false →
          (t.blk.ch c).prot = ch.prot ∧ (t.blk.ch c).faultCount = ch.faultCount)
      ∧ t.mem = s.mem) ∧
  (∀ (k : Fin 4) (mJ : List Int) (s : State), s.blk.kernelRuns k = true → Safety.runs (.energyAccumulate k mJ) s fun t =>
    (∀ c ∈ chansOf k, (t.blk.ch c).energy = (s.blk.ch c).energy + BitVec.ofNat 64 (mJ.getD (c.val % 10) 0).toNat
      ∧ (t.blk.ch c).prot = (s.blk.ch c).prot)
    ∧ (∀ c : Fin 40, c ∉ chansOf k → t.blk.ch c = s.blk.ch c)
    ∧ t.blk = { s.blk with chans := t.blk.chans } ∧ t.mem = s.mem) ∧
  (∀ (i : Initiator) (c : Fin 40) (s : State), s.blk.hasChan c = true → s.blk.reaches i c = true → s.blk.windowOpen (kOf c) = true →
    Safety.runs (.chEnergyLoRead i c) s fun t =>
      t.blk.reply = { data := ((s.blk.ch c).energy.truncate 32 : BitVec 32).zeroExtend 64, fault := false, isolated := false }
      ∧ findKey (t.blk.ch c).energyLatch i = some (BitVec.ofNat 32 ((s.blk.ch c).energy.toNat / 2 ^ 32))
      ∧ (∀ j : Initiator, j ≠ i → findKey (t.blk.ch c).energyLatch j = findKey (s.blk.ch c).energyLatch j)
      ∧ (∀ d : Fin 40, d ≠ c → t.blk.ch d = s.blk.ch d)
      ∧ t.blk.ch c = { s.blk.ch c with energyLatch := (t.blk.ch c).energyLatch }
      ∧ t.blk = { s.blk with chans := t.blk.chans, reply := t.blk.reply } ∧ t.mem = s.mem)

/-- R116, R117: a frame enters the window of the last 100 frames; an arc is decided where enough of them are arc-like and their mean current reaches `ARC_IMIN`. A frame in INRUSH or LIMITING, while a ramp runs, or in STANDBY or SLEEP counts as not arc-like. With `ACTION` = 1 a conducting channel is latched with the arc latch and nothing is counted; otherwise its state stays. R94, R106, R121: an open load, a kernel's mean current above 60 A and a pair whose members differ by more than 30 % of their mean are recorded; none of them changes what the channel does. Where a clause rests on the model's own choices and not on the spec, they are those of log entry 28. -/
def Obligations.ArcsAndMeasurements : Prop :=
  (∀ (c : Fin 40) (iDc : BitVec 16) (bands : List Nat) (s : State), s.blk.full = true → s.blk.isFollower c = false →
    bit (s.blk.ch c).arcCtrl 0 = true → Safety.runs (.arcFrame c iDc bands) s fun t =>
      let ch := s.blk.ch c
      let judged := decide (ch.prot ≠ .inrush ∧ ch.prot ≠ .limiting ∧ ch.ramping = false ∧ s.blk.rcc.mode ≠ .standby ∧ s.blk.rcc.mode ≠ .sleep)
      let win := ((judged && ch.arcLike iDc.toNat bands, iDc.toNat) :: ch.arcWin).take 100
      let arc := decide (bits ch.arcCtrl 14 8 ≤ (win.filter (·.1)).length
        ∧ bits ch.arcImin 15 0 * win.length ≤ (win.map (·.2)).foldl (· + ·) 0)
      (t.blk.ch c).arcWin = win ∧ (arc = true → (t.blk.ch c).arcSeen = true)
      ∧ (arc = true → bit ch.arcCtrl 1 = true → ch.conducting = true →
          (t.blk.ch c).prot = .latched ∧ (t.blk.ch c).arcLatch = true ∧ (t.blk.ch c).faultCount = ch.faultCount
          ∧ (t.blk.ch c).thermCount = ch.thermCount)
      ∧ ((arc = false ∨ bit ch.arcCtrl 1 = false) → (t.blk.ch c).prot = ch.prot ∧ (t.blk.ch c).arcLatch = ch.arcLatch)
      ∧ (∀ d : Fin 40, d ≠ c → t.blk.ch d = s.blk.ch d)
      ∧ t.blk = { s.blk with chans := t.blk.chans, kernels := t.blk.kernels, mboxes := t.blk.mboxes } ∧ t.mem = s.mem) ∧
  (∀ (c : Fin 40) (mean : BitVec 16) (s : State), s.blk.inUse c = true → (s.blk.ch c).openLoad = false →
    bits (s.blk.ch c).openLoadCfg 15 0 ≠ 0 → (s.blk.ch (s.blk.lead c)).conducting = true → mean.toNat < bits (s.blk.ch c).openLoadCfg 15 0 →
    Safety.runs (.openLoad c false mean) s fun t =>
      t.blk.ch c = { s.blk.ch c with openLoad := true, sticky := orBits (s.blk.ch c).sticky 4 }
      ∧ (Safety.kernelRoom s.blk (kOf c) 1 → Safety.lastKernelRecord t.blk (kOf c) = some (srcCh c, 5, 2, arg32 mean.toNat, hw))
      ∧ (∀ d : Fin 40, d ≠ c → t.blk.ch d = s.blk.ch d)
      ∧ t.blk = { s.blk with chans := t.blk.chans, kernels := t.blk.kernels } ∧ t.mem = s.mem) ∧
  (∀ (c : Fin 40) (s : State), Safety.runs (.openLoadClear c) s fun t =>
      t.blk.ch c = { s.blk.ch c with openLoad := false } ∧ (∀ d : Fin 40, d ≠ c → t.blk.ch d = s.blk.ch d)
      ∧ t.blk = { s.blk with chans := t.blk.chans } ∧ t.mem = s.mem) ∧
  (∀ (k : Fin 4) (mean : BitVec 32) (s : State), s.blk.kernelRuns k = true → Safety.runs (.currentMeanUpdate k mean) s fun t =>
      (t.blk.kn k).iMean10 = mean
      ∧ (60000 < mean.toNat → (s.blk.kn k).curHigh = false → Safety.kernelRoom s.blk k 1 →
          Safety.lastKernelRecord t.blk k = some (srcK k, 4, 2, mean, hw))
      ∧ (mean.toNat ≤ 60000 ∨ (s.blk.kn k).curHigh = true → (t.blk.kn k).buf = (s.blk.kn k).buf)
      ∧ (t.blk.kn k).curHigh = (decide (60000 < mean.toNat) || ((s.blk.kn k).curHigh && decide (57000 ≤ mean.toNat)))
      ∧ t.blk = { s.blk with kernels := t.blk.kernels } ∧ t.mem = s.mem) ∧
  (∀ (c : Fin 40) (x y : BitVec 16) (s : State), (s.blk.ch (s.blk.lead c)).paired = true → (s.blk.ch (s.blk.lead c)).conducting = true →
    3 * (x.toNat + y.toNat) < 20 * (max x.toNat y.toNat - min x.toNat y.toNat) → Safety.runs (.pairMismatch c x y) s fun t =>
      t.blk.ch (s.blk.lead c) = { s.blk.ch (s.blk.lead c) with sticky := orBits (s.blk.ch (s.blk.lead c)).sticky 0x40 }
      ∧ (Safety.kernelRoom s.blk (kOf (s.blk.lead c)) 1 → Safety.lastKernelRecord t.blk (kOf (s.blk.lead c)) =
          some (srcCh (s.blk.lead c), 8, 3, arg32 (x.toNat + y.toNat * 65536), hw))
      ∧ (∀ d : Fin 40, d ≠ s.blk.lead c → t.blk.ch d = s.blk.ch d)
      ∧ t.blk = { s.blk with chans := t.blk.chans, kernels := t.blk.kernels } ∧ t.mem = s.mem)

/-- R122, R124: when a hold of a kernel expires, every channel of the kernel that leads or is single takes its stored fallback state, which outranks the holds; `SENSE_DRIVE_START` lets the kernel that takes a SENSE output drive it and records the channel (R110). R141, R142: a latch clear by the owner or the Chanter is held in the kernel with its writer until the tick; one written to a follower is ignored, one that reaches the kernel in the guard makes its writer late, and another initiator's is refused. Where a clause rests on the model's own choices and not on the spec, they are those of log entry 29. -/
def Obligations.HoldsAndLatchClears : Prop :=
  (∀ (k : Fin 4) (s : State), (s.blk.kn k).isoHoldStart ≠ none → (∃ c ∈ chansOf k, (s.blk.ch (s.blk.lead c)).isoHold = true) →
    Safety.runs (.holdExpiry k false) s fun t =>
      (∀ c ∈ chansOf k, s.blk.isFollower c = false → (t.blk.ch c).fallbackOn = true)
      ∧ (∀ c ∈ chansOf k, s.blk.isFollower c = false → (s.blk.ch c).fallbackOn = false →
          (t.blk.ch c).isoHold = false ∧ (t.blk.ch c).coreHold = false
          ∧ ((s.blk.ch c).sleepOn = false → (t.blk.ch c).applied = (s.blk.ch c).saveLast.fallbackSet))
      ∧ (∀ c : Fin 40, c ∉ chansOf k → t.blk.ch c = s.blk.ch c)
      ∧ t.blk = { s.blk with chans := t.blk.chans, kernels := t.blk.kernels } ∧ t.mem = s.mem) ∧
  (∀ (k : Fin 4) (s : State), (s.blk.kn k).coreHoldStart ≠ none → Safety.runs (.holdExpiry k true) s fun t =>
      (∀ c ∈ chansOf k, s.blk.isFollower c = false → (s.blk.ch c).coreHold = true → (t.blk.ch c).fallbackOn = true)
      ∧ (∀ c : Fin 40, c ∉ chansOf k → t.blk.ch c = s.blk.ch c)
      ∧ t.blk = { s.blk with chans := t.blk.chans, kernels := t.blk.kernels } ∧ t.mem = s.mem) ∧
  (∀ (n : Fin 4) (c : Fin 40) (s : State), s.blk.senseNext.get n = some c → Safety.runs (.senseDriveStart n) s fun t =>
      t.blk.senseDrive.get n = some c ∧ t.blk.senseNext.get n = none
      ∧ (∀ m : Fin 4, m ≠ n → t.blk.senseDrive.get m = s.blk.senseDrive.get m ∧ t.blk.senseNext.get m = s.blk.senseNext.get m)
      ∧ (Safety.kernelRoom s.blk (kOf c) 1 →
          Safety.lastKernelRecord t.blk (kOf c) = some (srcK (kOf c), 9, 1, arg32 (n.val + c.val * 256), hw))
      ∧ t.blk = { s.blk with senseDrive := t.blk.senseDrive, senseNext := t.blk.senseNext, kernels := t.blk.kernels } ∧ t.mem = s.mem) ∧
  (Safety.clearIsHeld .protClearRetry 1 ∧ Safety.clearIsHeld .protClearThermal 2 ∧ Safety.clearIsHeld .protClearArc 4)

/-! ### Inputs (R162 to R177) -/

/-- R163, R165: a sample whose active state differs from the one before it is one edge of its window: it is counted, its offset is the last edge's and, for the first of the window, the first edge's too; a sample of the same state counts nothing; cleaning current ends. R164, R165, R166: at the end of a kernel's own window, while no tick reaches it, each input's reported value is the active state of the last sample, its edges are latched and counted anew; three chattering windows in a row set the chatter mask and three quiet ones clear it. R167, R168: a wake input whose stuck timer has run out is stuck and masked as a wake source; inactive for one second, it is rearmed. Where a clause rests on the model's own choices and not on the spec, they are those of log entry 10. -/
def Obligations.InputsAreCountedJudgedAndMasked : Prop :=
  (∀ (d : Fin 32) (high : Bool) (off : BitVec 16) (s : State), s.blk.kernelRuns (kOfDi d) = true → s.blk.rcc.mode ≠ .sleep →
    (high != (s.blk.di d).activeLow) ≠ (s.blk.di d).active → Safety.runs (.diEdge d high off) s fun t =>
      (t.blk.di d).active = (high != (s.blk.di d).activeLow) ∧ (t.blk.di d).pin = high
      ∧ (t.blk.di d).edges = satInc (s.blk.di d).edges 0xFFFF ∧ (t.blk.di d).lastEdge = off
      ∧ (t.blk.di d).firstEdge = (if (s.blk.di d).edges = 0 then off else (s.blk.di d).firstEdge)
      ∧ (t.blk.di d).lastEdgeDt = s.blk.time.dt ∧ (t.blk.di d).reported = (s.blk.di d).reported
      ∧ (t.blk.di d).activations = (s.blk.di d).activations + (if high != (s.blk.di d).activeLow then 1 else 0)
      ∧ Safety.otherInputs s.blk t.blk d ∧ t.blk = { s.blk with kernels := t.blk.kernels } ∧ t.mem = s.mem) ∧
  (∀ (d : Fin 32) (high : Bool) (off : BitVec 16) (s : State), (high != (s.blk.di d).activeLow) = (s.blk.di d).active →
    s.blk.kernelRuns (kOfDi d) = true → s.blk.rcc.mode ≠ .sleep → Safety.runs (.diEdge d high off) s fun t =>
      t.blk.di d = { s.blk.di d with pin := high } ∧ Safety.otherInputs s.blk t.blk d
      ∧ t.blk = { s.blk with kernels := t.blk.kernels } ∧ t.mem = s.mem) ∧
  (∀ (d : Fin 32) (s : State), Safety.runs (.cleaningCurrentEnd d) s fun t =>
      t.blk.di d = { s.blk.di d with cleaning := false } ∧ Safety.otherInputs s.blk t.blk d
      ∧ t.blk = { s.blk with kernels := t.blk.kernels } ∧ t.mem = s.mem) ∧
  (∀ (k : Fin 4) (m : KernelMeas) (d : Fin 32) (s : State), s.blk.kernelRuns k = true → kOfDi d = k → s.blk.rcc.mode ≠ .sleep →
    (s.blk.breath.running = false ∨ (s.blk.bridges.get k).state ≠ .joined) → Safety.runs (.kernelWindowEnd k m) s fun t =>
      let x := s.blk.di d
      let y := t.blk.di d
      let chat := decide (x.edges > x.chatterEdges)
      y.reported = x.active ∧ y.latEdges = x.edges ∧ y.edges = 0 ∧ y.chatter = chat
      ∧ y.latFirst = (if x.edges = 0 then 0xFFFF else x.firstEdge) ∧ y.latLast = (if x.edges = 0 then 0xFFFF else x.lastEdge)
      ∧ (chat = true → y.chatMask = (x.chatMask || decide (2 ≤ x.chatRun)))
      ∧ (chat = false → y.chatMask = (x.chatMask && !decide (2 ≤ x.quietRun)))
      ∧ (chat = true → y.chatRun = min (x.chatRun + 1) 3 ∧ y.quietRun = 0)
      ∧ (chat = false → y.quietRun = min (x.quietRun + 1) 3 ∧ y.chatRun = 0)
      ∧ y.stuckMask = x.stuckMask ∧ y.activations = x.activations
      ∧ (t.blk.kn k).ktemp = m.ktemp ∧ (t.blk.kn k).kvbat = m.kvbat ∧ t.mem = s.mem) ∧
  (∀ (d : Fin 32) (s : State), s.blk.kernelRuns (kOfDi d) = true → (s.blk.di d).wake = true → (s.blk.di d).reported = true →
    (s.blk.di d).stuck = false → Safety.runs (.diStuck d) s fun t =>
      t.blk.di d = { s.blk.di d with stuck := true, stuckMask := true } ∧ (t.blk.di d).wakeSource = false
      ∧ bit (t.blk.kn (kOfDi d)).diSticky (8 + (nOfDi d).val) = true
      ∧ (Safety.kernelRoom s.blk (kOfDi d) 1 →
          Safety.lastKernelRecord t.blk (kOfDi d) = some (srcDi d, 4, 2, arg32 (s.blk.di d).stuckTime, hw))
      ∧ Safety.otherInputs s.blk t.blk d ∧ t.blk = { s.blk with kernels := t.blk.kernels } ∧ t.mem = s.mem) ∧
  (∀ (d : Fin 32) (s : State), (s.blk.di d).stuck = true → (s.blk.di d).reported = false → Safety.runs (.diRearmed d) s fun t =>
      t.blk.di d = { s.blk.di d with stuck := false, stuckMask := false } ∧ Safety.otherInputs s.blk t.blk d
      ∧ t.blk = { s.blk with kernels := t.blk.kernels } ∧ t.mem = s.mem)

/-- R172, R173: K0 records seismic motion above `SEIS_THRESH`, a shock above `SHOCK_THRESH` at most once a second, and a sensor fault once; ten seconds of samples end `NOT_READY`. Where a clause rests on the model's own choices and not on the spec, they are those of log entry 8. -/
def Obligations.MotionIsRecorded : Prop :=
  (∀ (rms : BitVec 16) (s : State), s.blk.kernelRuns 0 = true → s.blk.rcc.mode ≠ .sleep → s.blk.motion.seismicOn = false →
    s.blk.motion.seis * 10 < rms.toNat → Safety.runs (.seismic rms) s fun t =>
      t.blk.motion = { s.blk.motion with seismicOn := true, seismicLow := s.blk.time.dt }
      ∧ (Safety.kernelRoom s.blk 0 1 → Safety.lastKernelRecord t.blk 0 = some (srcMotion, 0x10, 2, rms.zeroExtend 32, hw))
      ∧ t.blk = { s.blk with kernels := t.blk.kernels, motion := t.blk.motion } ∧ t.mem = s.mem) ∧
  (∀ (rms : BitVec 16) (s : State), (s.blk.motion.seismicOn = true ∨ rms.toNat ≤ s.blk.motion.seis * 10) →
    Safety.runs (.seismic rms) s fun t => t = s) ∧
  (∀ (peak : BitVec 16) (s : State), s.blk.kernelRuns 0 = true → s.blk.rcc.mode ≠ .sleep → s.blk.motion.shockTh * 4096 < peak.toNat * 10 →
    (∀ t0 : BitVec 64, s.blk.motion.shockDt = some t0 → 1000000000 ≤ s.blk.since t0) → Safety.runs (.shock peak) s fun t =>
      t.blk.motion = { s.blk.motion with shockDt := some s.blk.time.dt } ∧ bit (t.blk.kn 0).diSticky 24 = true
      ∧ (Safety.kernelRoom s.blk 0 1 → Safety.lastKernelRecord t.blk 0 = some (srcMotion, 0x11, 3, peak.zeroExtend 32, hw))
      ∧ t.blk = { s.blk with kernels := t.blk.kernels, motion := t.blk.motion } ∧ t.mem = s.mem) ∧
  (∀ (peak : BitVec 16) (t0 : BitVec 64) (s : State), s.blk.motion.shockDt = some t0 → s.blk.since t0 < 1000000000 →
    Safety.runs (.shock peak) s fun t => t = s) ∧
  (∀ s : State, s.blk.kernelRuns 0 = true → s.blk.motion.fault = false → Safety.runs .motionFault s fun t =>
      t.blk.motion = { s.blk.motion with fault := true }
      ∧ (Safety.kernelRoom s.blk 0 1 → Safety.lastKernelRecord t.blk 0 = some (srcMotion, 0x12, 3, 0, hw))
      ∧ t.blk = { s.blk with kernels := t.blk.kernels, motion := t.blk.motion } ∧ t.mem = s.mem) ∧
  (∀ s : State, s.blk.motion.fault = true → Safety.runs .motionFault s fun t => t = s) ∧
  (∀ s : State, (s.blk.bridges.get 0).state ≠ .service → Safety.runs .motionReady s fun t =>
      t.blk = { s.blk with motion := { s.blk.motion with notReady := false } } ∧ t.mem = s.mem)

/-! ### The kernel bridge (R178 to R206) -/

/-- R199, R200: an excursion isolates a joined boundary, and a REJOINING one again; an isolated boundary that has held its limits becomes REJOINING with the time it was isolated. R193, R194: an answered poll of a joined boundary raises the kernel's heartbeat and takes its side-band word and up to eight of its oldest records, in order; the second failed poll in a row is an excursion with cause link; a kernel that has answered no valid poll for 10 µs takes the isolation hold. R206: a retried block is counted, and recorded at most once per second with the blocks retried since the last record. Where a clause rests on the model's own choices and not on the spec, they are those of log entries 13, 30. -/
def Obligations.BoundariesPollsAndRetries : Prop :=
  (∀ (k : Fin 4) (cause : BitVec 7) (s : State), ((s.blk.bridges.get k).state = .joined ∨ (s.blk.bridges.get k).state = .rejoining) →
    Safety.runs (.boundaryExcursion k cause) s fun t => Safety.isolated s.blk t.blk k cause.toNat) ∧
  (∀ (k : Fin 4) (s : State), (s.blk.bridges.get k).state = .isolated → (s.blk.kn k).powered = true →
    Safety.runs (.boundaryRejoining k) s fun t =>
      (t.blk.bridges.get k).state = .rejoining ∧ t.mem = s.mem
      ∧ ((s.blk.bridges.get k).everJoined = true → Safety.room s.blk (srcBr k) → Safety.lastRecord t.blk =
          some (srcBr k, 2, 2, arg32 (min (s.blk.since (s.blk.bridges.get k).isoSince / 1000000) 0xFFFFFFFF), hw))
      ∧ (∀ j : Fin 4, j ≠ k → t.blk.bridges.get j = s.blk.bridges.get j)
      ∧ t.blk = { s.blk with bridges := t.blk.bridges, evs := t.blk.evs, freeCtr := t.blk.freeCtr }) ∧
  (∀ (k : Fin 4) (s : State), s.blk.hasKernel k = true → (s.blk.kn k).powered = true → (s.blk.bridges.get k).state = .joined →
    (s.blk.bridges.get k).deliver = none → Safety.runs (.sidebandPoll k true) s fun t =>
      (t.blk.kn k).heartbeat = (s.blk.kn k).heartbeat + 1 ∧ (t.blk.bridges.get k).failedPolls = 0
      ∧ (t.blk.kn k).buf = (s.blk.kn k).buf.drop 8 ∧ t.blk.evs.queue = s.blk.evs.queue ++ (s.blk.kn k).buf.take 8
      ∧ bits (t.blk.bridges.get k).poll 7 0 = min (s.blk.kn k).buf.length 255
      ∧ bits (t.blk.bridges.get k).poll 23 16 = ((s.blk.kn k).heartbeat + 1).toNat
      ∧ (t.blk.kn k).kflagsChg = false ∧ (t.blk.kn k).protChg = false ∧ (t.blk.bridges.get k).state = .joined
      ∧ (∀ j : Fin 4, j ≠ k → t.blk.bridges.get j = s.blk.bridges.get j ∧ t.blk.kn j = s.blk.kn j)
      ∧ t.blk = { s.blk with bridges := t.blk.bridges, kernels := t.blk.kernels, evs := t.blk.evs } ∧ t.mem = s.mem) ∧
  (∀ (k : Fin 4) (s : State), s.blk.hasKernel k = true → (s.blk.bridges.get k).state = .joined → (s.blk.bridges.get k).failedPolls = 0 →
    Safety.runs (.sidebandPoll k false) s fun t => (t.blk.bridges.get k).state = .joined ∧ (t.blk.bridges.get k).failedPolls = 1
      ∧ (t.blk.kn k).buf.length = (s.blk.kn k).buf.length ∧ t.blk.evs = s.blk.evs ∧ t.mem = s.mem) ∧
  (∀ (k : Fin 4) (s : State), s.blk.hasKernel k = true → (s.blk.bridges.get k).state = .joined → (s.blk.bridges.get k).failedPolls = 1 →
    Safety.runs (.sidebandPoll k false) s fun t => (t.blk.bridges.get k).state = .isolated ∧ (t.blk.bridges.get k).cause = 64) ∧
  (∀ (k : Fin 4) (s : State), s.blk.kernelRuns k = true → (s.blk.kn k).wdSuspended = false → (s.blk.kn k).wdHold = false →
    (s.blk.kn k).isoHoldStart = none → Safety.runs (.pollWatchdogExpiry k) s fun t =>
      (t.blk.kn k).wdHold = true ∧ (t.blk.kn k).isoHoldStart = some s.blk.time.dt
      ∧ (∀ c ∈ chansOf k, s.blk.isFollower c = false → (s.blk.ch c).fallbackOn = false → (t.blk.ch c).isoHold = true)
      ∧ (∀ c : Fin 40, (t.blk.ch c).applied = (s.blk.ch c).applied ∧ (t.blk.ch c).prot = (s.blk.ch c).prot)
      ∧ (Safety.kernelRoom s.blk k 1 → Safety.lastKernelRecord t.blk k = some (srcK k, 1, 2, 1, hw))
      ∧ t.blk = { s.blk with chans := t.blk.chans, kernels := t.blk.kernels } ∧ t.mem = s.mem) ∧
  (∀ (k : Fin 4) (s : State), s.blk.hasKernel k = true → Safety.runs (.linkRetry k) s fun t =>
    (t.blk.bridges.get k).linkRetried = satInc (s.blk.bridges.get k).linkRetried 0xFFFF
    ∧ (∀ t0 : BitVec 64, (s.blk.bridges.get k).linkDt = some t0 → s.blk.since t0 < 1000000000 →
        t.blk.evs = s.blk.evs ∧ (t.blk.bridges.get k).linkNew = (s.blk.bridges.get k).linkNew + 1)
    ∧ ((s.blk.bridges.get k).linkDt = none → Safety.room s.blk (srcBr k) →
        Safety.lastRecord t.blk = some (srcBr k, 8, 1, arg32 ((s.blk.bridges.get k).linkNew + 1), hw))
    ∧ (∀ j : Fin 4, j ≠ k → t.blk.bridges.get j = s.blk.bridges.get j)
    ∧ t.blk = { s.blk with bridges := t.blk.bridges, evs := t.blk.evs } ∧ t.mem = s.mem)

/-- R96, R183, R189: a posted write that reaches its joined kernel, its writer owning the page, stages the command in the shadow set of the channel before the commit deadline; one whose page has changed hands fails with reason 4, one that met a link fault twice with reason 3: its writer's summary shows it, and the write is counted. R178, R184, R189, R199: an acknowledged write to a joined kernel by the initiator that may write there is answered when it has arrived; at an isolated boundary it ends with an access fault and status ISOLATED. A fence read answers the initiator's summary once none of its posted writes is on its way, and waits for that otherwise. Where a clause rests on the model's own choices and not on the spec, they are those of log entry 30. -/
def Obligations.WritesAndFencesCrossTheBridge : Prop :=
  (∀ (k : Fin 4) (c : Fin 40) (p : Posted) (s : State), kOf c = k → (s.blk.bridges.get k).posted = [p] →
    (s.blk.bridges.get k).state = .joined → (s.blk.kn k).powered = true → s.blk.reaches p.init c = true → p.addr = arg32 (pageBase c) →
    p.be = 0x0F → s.blk.isFollower c = false → s.blk.inGuard = false → Safety.runs (.postedWriteDelivered k none) s fun t =>
      (t.blk.ch c).shadow = { (s.blk.ch c).shadow with cmd := (p.data.truncate 32) &&& 0x03FF0003 } ∧ (t.blk.ch c).staged = true
      ∧ (t.blk.ch c).applied = (s.blk.ch c).applied ∧ (t.blk.bridges.get k).posted = []
      ∧ (∀ d : Fin 40, d ≠ c → t.blk.ch d = s.blk.ch d)
      ∧ t.blk = { s.blk with bridges := t.blk.bridges, chans := t.blk.chans } ∧ t.mem = s.mem) ∧
  (∀ (k : Fin 4) (p : Posted) (n : Fin 10) (fault : Option LinkFault) (s : State), (s.blk.bridges.get k).posted = [p] → slotOf p.init = some n →
    (s.blk.bridges.get k).state = .joined → (s.blk.kn k).powered = true → (s.blk.slots.get n).epoch = p.epoch →
    (fault = some .link ∨ (fault = none ∧ s.blk.mayWrite p.init k (p.addr.toNat % 0x1000000) = false)) →
    Safety.runs (.postedWriteDelivered k fault) s fun t =>
      (t.blk.slots.get n).pwFail = true ∧ (t.blk.slots.get n).reason = (if fault = none then 4 else 3)
      ∧ (t.blk.slots.get n).count = satInc (s.blk.slots.get n).count 0xFFFF
      ∧ (t.blk.bridges.get k).pwDrop = satInc (s.blk.bridges.get k).pwDrop 0xFFFFFFFF
      ∧ p.init ∈ t.blk.breath.pwFailed ∧ t.blk.chans = s.blk.chans ∧ (t.blk.bridges.get k).posted = []) ∧
  (∀ (i : Initiator) (c : Fin 40) (data : BitVec 64) (s : State), s.blk.hasChan c = true → s.blk.reaches i c = true →
    (s.blk.bridges.get (kOf c)).posted = [] → s.blk.windowOpen (kOf c) = true → s.blk.isFollower c = false → s.blk.inGuard = false →
    Safety.runs (.acknowledgedWrite i (arg32 (pageBase c + 0xE00000)) 2 data none) s fun t =>
      (t.blk.ch c).shadow = { (s.blk.ch c).shadow with cmd := (data.truncate 32) &&& 0x03FF0003 }
      ∧ t.blk.reply = { data := 0, fault := false, isolated := false } ∧ (∀ d : Fin 40, d ≠ c → t.blk.ch d = s.blk.ch d)
      ∧ t.blk = { s.blk with chans := t.blk.chans, reply := t.blk.reply } ∧ t.mem = s.mem) ∧
  (∀ (i : Initiator) (c : Fin 40) (data : BitVec 64) (s : State), s.blk.hasChan c = true → s.blk.reaches i c = true →
    (s.blk.bridges.get (kOf c)).posted = [] → (s.blk.bridges.get (kOf c)).state = .isolated →
    Safety.runs (.acknowledgedWrite i (arg32 (pageBase c + 0xE00000)) 2 data none) s fun t =>
      t.blk = { s.blk with reply := { data := 0, fault := true, isolated := true } } ∧ t.mem = s.mem) ∧
  (∀ (i : Initiator) (n : Fin 10) (c : Fin 40) (s : State), s.blk.hasChan c = true → slotOf i = some n → s.blk.reaches i c = true →
    (s.blk.outstanding i = 0 → Safety.runs (.fenceRead i (arg32 (pageBase c + 0xE00000))) s fun t =>
      t.blk = { s.blk with reply := { data := BitVec.ofNat 64 (s.blk.slots.get n).summary, fault := false, isolated := false } }
      ∧ t.mem = s.mem) ∧
    (s.blk.outstanding i ≠ 0 → Safety.runs (.fenceRead i (arg32 (pageBase c + 0xE00000))) s fun t =>
      (t.blk.slots.get n).fence = true ∧ t.blk = { s.blk with slots := t.blk.slots } ∧ t.mem = s.mem)) ∧
  (∀ (i : Initiator) (n : Fin 10) (s : State), slotOf i = some n → (s.blk.slots.get n).fence = true → s.blk.outstanding i = 0 →
    Safety.runs (.fenceComplete i) s fun t =>
      t.blk.reply = { data := BitVec.ofNat 64 (s.blk.slots.get n).summary, fault := false, isolated := false }
      ∧ t.blk.slots.get n = { s.blk.slots.get n with fence := false }
      ∧ t.blk = { s.blk with slots := t.blk.slots, reply := t.blk.reply } ∧ t.mem = s.mem)

/-- R191, R192, R205: a first destructive read of a semaphore takes it when it is free and shows its holder otherwise; one of a voltage extreme restarts it from the present voltage; one of a peak shows it; a value whose delivery was not confirmed is kept and returned again with `REPLAY`; the Chanter's release frees what it holds and nothing else. Where a clause rests on the model's own choices and not on the spec, they are those of log entries 3, 30. -/
def Obligations.DestructiveReadsAreGuarded : Prop :=
  (∀ (k : Fin 4) (n : Fin 8) (s : State), s.blk.hasKernel k = true → (s.blk.bridges.get k).posted = [] → s.blk.windowOpen k = true →
    findKey (s.blk.kn k).unconfirmed (.sem n) = none → findKey (s.blk.kn k).kept (.sem n) = none → Safety.runs (.kseSemRead k n) s fun t =>
      let v : Word := match (s.blk.kn k).sems.get n with | .free => 1 | .kernel => 2 | .chanter => 4
      t.blk.reply = { data := v.zeroExtend 64, fault := false, isolated := false }
      ∧ (t.blk.kn k).sems.get n = (match (s.blk.kn k).sems.get n with | .free => .chanter | x => x)
      ∧ (∀ m : Fin 8, m ≠ n → (t.blk.kn k).sems.get m = (s.blk.kn k).sems.get m)
      ∧ findKey (t.blk.kn k).unconfirmed (.sem n) = some v
      ∧ t.blk = { s.blk with kernels := t.blk.kernels, reply := t.blk.reply } ∧ t.mem = s.mem) ∧
  (∀ (k : Fin 4) (n : Fin 8) (v : Word) (s : State), s.blk.hasKernel k = true → (s.blk.bridges.get k).posted = [] → s.blk.windowOpen k = true →
    findKey (s.blk.kn k).unconfirmed (.sem n) = none → findKey (s.blk.kn k).kept (.sem n) = some v → Safety.runs (.kseSemRead k n) s fun t =>
      t.blk.reply = { data := (v ||| 0x80000000).zeroExtend 64, fault := false, isolated := false }
      ∧ (t.blk.kn k).sems = (s.blk.kn k).sems ∧ findKey (t.blk.kn k).kept (.sem n) = none ∧ t.mem = s.mem) ∧
  (∀ (k : Fin 4) (n : Fin 10) (s : State), s.blk.hasKernel k = true → (s.blk.bridges.get k).posted = [] → s.blk.windowOpen k = true →
    findKey (s.blk.kn k).unconfirmed (.peak n) = none → findKey (s.blk.kn k).kept (.peak n) = none → Safety.runs (.ksePeakRead k n) s fun t =>
      t.blk.reply = { data := ((s.blk.kn k).peaks.get n).zeroExtend 64, fault := false, isolated := false }
      ∧ (∀ m : Fin 10, m ≠ n → (t.blk.kn k).peaks.get m = (s.blk.kn k).peaks.get m) ∧ t.mem = s.mem) ∧
  (∀ (k : Fin 4) (s : State), s.blk.hasKernel k = true → (s.blk.bridges.get k).posted = [] → s.blk.windowOpen k = true →
    findKey (s.blk.kn k).unconfirmed .vbatMin = none → findKey (s.blk.kn k).kept .vbatMin = none → Safety.runs (.kseVbatMinRead k) s fun t =>
      t.blk.reply = { data := (s.blk.kn k).vbatMin.zeroExtend 64, fault := false, isolated := false }
      ∧ (t.blk.kn k).vbatMin = (s.blk.kn k).kvbat ∧ (t.blk.kn k).vbatMax = (s.blk.kn k).vbatMax ∧ t.mem = s.mem) ∧
  (∀ (k : Fin 4) (s : State), s.blk.hasKernel k = true → (s.blk.bridges.get k).posted = [] → s.blk.windowOpen k = true →
    findKey (s.blk.kn k).unconfirmed .vbatMax = none → findKey (s.blk.kn k).kept .vbatMax = none → Safety.runs (.kseVbatMaxRead k) s fun t =>
      t.blk.reply = { data := (s.blk.kn k).vbatMax.zeroExtend 64, fault := false, isolated := false }
      ∧ (t.blk.kn k).vbatMax = (s.blk.kn k).kvbat ∧ (t.blk.kn k).vbatMin = (s.blk.kn k).vbatMin ∧ t.mem = s.mem) ∧
  (∀ (k : Fin 4) (r : KseReg) (v : Word) (delivered : Bool) (s : State), findKey (s.blk.kn k).unconfirmed r = some v →
    Safety.runs (.readReturnConfirm k r delivered) s fun t => findKey (t.blk.kn k).unconfirmed r = none
      ∧ (delivered = true → (t.blk.kn k).kept = (s.blk.kn k).kept) ∧ (delivered = false → findKey (t.blk.kn k).kept r = some v)
      ∧ t.blk = { s.blk with kernels := t.blk.kernels } ∧ t.mem = s.mem) ∧
  (∀ (k : Fin 4) (mask : Byte) (s : State), s.blk.windowOpen k = true → Safety.runs (.kgSemRelWrite k mask) s fun t =>
      (∀ n : Fin 8, (t.blk.kn k).sems.get n =
        if mask.toNat.testBit n.val = true ∧ (s.blk.kn k).sems.get n = .chanter then .free else (s.blk.kn k).sems.get n)
      ∧ t.blk = { s.blk with kernels := t.blk.kernels } ∧ t.mem = s.mem)

/-! ### Pod queues and transports (R207 to R223) -/

/-- R210, R211, R212: a word within credit, the pool and the length of a message is appended to the open message; the word that has no credit aborts the message and counts as a tenant's fault; `PQ_ABORT` discards it. Another initiator than the producer is refused (R17). R210, R212, R214: a close of a message within credit makes one whole message of the words written: for a producer that is not gated it is closed with the next SEQ, for a gated one it is held; on a request queue its byte 8 is the producer's ID. An aborted one is discarded. Where a clause rests on the model's own choices and not on the spec, they are those of log entry 31. -/
def Obligations.ProducersMakeWholeMessages : Prop :=
  (∀ (i : Initiator) (q : Fin 256) (w : Word) (s : State), Safety.produces s.blk i q → (s.blk.queues.get q).aborted = false →
    (s.blk.queues.get q).openLen < 1024 → 0 < s.blk.credit (s.blk.queues.get q) →
    ((s.blk.queues.get q).gatedProd = true ∨ (s.blk.queues.get q).openLen % 16 ≠ 0 ∨ 0 < (s.blk.queues.get q).freeReserve ∨ 0 < s.blk.sharedFree) →
    Safety.runs (.pqWr i q w none) s fun t =>
      (t.blk.queues.get q).openMsg = some (((s.blk.queues.get q).openMsg.getD []) ++ [w])
      ∧ (t.blk.queues.get q).msgs = (s.blk.queues.get q).msgs ∧ (t.blk.queues.get q).drops = (s.blk.queues.get q).drops
      ∧ Safety.otherQueues s.blk t.blk q ∧ t.blk = { s.blk with queues := t.blk.queues, trans := t.blk.trans } ∧ t.mem = s.mem) ∧
  (∀ (i : Initiator) (q : Fin 256) (w : Word) (s : State), Safety.produces s.blk i q → (s.blk.queues.get q).aborted = false →
    (s.blk.queues.get q).openLen < 1024 → (s.blk.queues.get q).gatedProd = true → s.blk.credit (s.blk.queues.get q) = 0 →
    Safety.runs (.pqWr i q w none) s fun t =>
      (t.blk.queues.get q).aborted = true ∧ (t.blk.queues.get q).openLen = 0 ∧ (t.blk.queues.get q).msgs = (s.blk.queues.get q).msgs
      ∧ bit (t.blk.queues.get q).sticky 1 = true
      ∧ (∀ n : Fin 8, i = .tenant n → (t.blk.tenants.get n).faults = (s.blk.tenants.get n).faults + 1)
      ∧ Safety.otherQueues s.blk t.blk q ∧ t.mem = s.mem) ∧
  (∀ (i : Initiator) (q : Fin 256) (w : Word) (s : State), Safety.produces s.blk i q → (s.blk.queues.get q).aborted = false →
    1024 ≤ (s.blk.queues.get q).openLen → Safety.runs (.pqWr i q w none) s fun t =>
      (t.blk.queues.get q).aborted = true ∧ (t.blk.queues.get q).openLen = 0 ∧ (t.blk.queues.get q).msgs = (s.blk.queues.get q).msgs
      ∧ bit (t.blk.queues.get q).sticky 3 = true
      ∧ (∀ n : Fin 8, i = .tenant n → (t.blk.tenants.get n).faults = (s.blk.tenants.get n).faults + 1)
      ∧ Safety.otherQueues s.blk t.blk q ∧ t.mem = s.mem) ∧
  (∀ (i : Initiator) (q : Fin 256) (l : List Word) (s : State), Safety.produces s.blk i q → (s.blk.queues.get q).openMsg = some l →
    Safety.runs (.pqAbort i q) s fun t => (t.blk.queues.get q).openMsg = none ∧ (t.blk.queues.get q).aborted = false
      ∧ (t.blk.queues.get q).drops = satAdd (s.blk.queues.get q).drops 1 0xFFFFFFFF ∧ (t.blk.queues.get q).msgs = (s.blk.queues.get q).msgs
      ∧ Safety.otherQueues s.blk t.blk q ∧ t.blk = { s.blk with queues := t.blk.queues, mboxes := t.blk.mboxes } ∧ t.mem = s.mem) ∧
  (∀ (i : Initiator) (q : Fin 256) (w : Word) (w2 : Option Word) (s : State), s.blk.queueAbsent q = false →
    (s.blk.queues.get q).producer ≠ i.id → Safety.runs (.pqWr i q w w2) s fun t => t.blk.queues = s.blk.queues
      ∧ t.blk.reply = { data := 0, fault := true, isolated := false } ∧ i ∈ t.blk.breath.denied ∧ t.mem = s.mem) ∧
  (∀ (i : Initiator) (q : Fin 256) (w : Word) (s : State), Safety.produces s.blk i q → (s.blk.queues.get q).aborted = false →
    (s.blk.queues.get q).openLen < 1024 → 0 < s.blk.credit (s.blk.queues.get q) → s.blk.queueShut (s.blk.queues.get q) = false →
    ((s.blk.queues.get q).gatedProd = true ∨ (s.blk.queues.get q).openLen % 16 ≠ 0 ∨ 0 < (s.blk.queues.get q).freeReserve ∨ 0 < s.blk.sharedFree) →
    Safety.runs (.pqWrEnd i q w) s fun t =>
      let ws := ((s.blk.queues.get q).openMsg.getD []) ++ [w]
      let msg := if (s.blk.queues.get q).isRequest then stampId i.id ws else ws
      (t.blk.queues.get q).openMsg = none
      ∧ ((s.blk.queues.get q).gatedProd = false → (t.blk.queues.get q).msgs = (s.blk.queues.get q).msgs ++ [{ words := msg, seq := some s.blk.evs.nextSeq }]
          ∧ t.blk.evs.nextSeq = s.blk.evs.nextSeq + 1)
      ∧ ((s.blk.queues.get q).gatedProd = true → (t.blk.queues.get q).msgs = (s.blk.queues.get q).msgs
          ∧ (t.blk.queues.get q).held = (s.blk.queues.get q).held ++ [(s.blk.nextStamp i.id, msg)] ∧ t.blk.evs.nextSeq = s.blk.evs.nextSeq)
      ∧ Safety.otherQueues s.blk t.blk q ∧ t.mem = s.mem) ∧
  (∀ (i : Initiator) (q : Fin 256) (w : Word) (s : State), Safety.produces s.blk i q → (s.blk.queues.get q).aborted = true →
    Safety.runs (.pqWrEnd i q w) s fun t => (t.blk.queues.get q).openMsg = none ∧ (t.blk.queues.get q).aborted = false
      ∧ (t.blk.queues.get q).msgs = (s.blk.queues.get q).msgs ∧ (t.blk.queues.get q).held = (s.blk.queues.get q).held
      ∧ (t.blk.queues.get q).drops = satAdd (s.blk.queues.get q).drops 1 0xFFFFFFFF ∧ t.blk.evs = s.blk.evs ∧ t.mem = s.mem)

/-- A hardware engine writes whole messages only (R213): one that fits within `MAX` and the pool is closed at once; when it does not fit the engine drops it, sets `LOST` and counts it in `PQ_DROPS`, for the record of the next tick. R215, R216, R217: a pop by the consumer answers the last words of the window of the head visible message and moves to the next 128 bits, or to the next message after the last; a pop while nothing is visible changes no message, returns the last value popped and sets `UNDERRUN`. Where a clause rests on the model's own choices and not on the spec, they are those of log entry 31. -/
def Obligations.EnginesAndPops : Prop :=
  (∀ (e : Engine) (q : Fin 256) (msg : List Word) (s : State), (s.blk.queues.get q).prodEngine = e.code → (s.blk.queues.get q).enabled = true →
    s.blk.queueShut (s.blk.queues.get q) = false → (s.blk.queues.get q).isRequest = false → msg ≠ [] → msg.length ≤ 1024 →
    ((s.blk.queues.get q).pods + podsOf msg.length ≤ (s.blk.queues.get q).maxPods →
      podsOf msg.length ≤ (s.blk.queues.get q).freeReserve + s.blk.sharedFree → Safety.runs (.engineMessage e q msg) s fun t =>
        (t.blk.queues.get q).msgs = (s.blk.queues.get q).msgs ++ [{ words := msg, seq := some s.blk.evs.nextSeq }]
        ∧ (t.blk.queues.get q).drops = (s.blk.queues.get q).drops ∧ Safety.otherQueues s.blk t.blk q ∧ t.mem = s.mem) ∧
    (((s.blk.queues.get q).maxPods < (s.blk.queues.get q).pods + podsOf msg.length
        ∨ (s.blk.queues.get q).freeReserve + s.blk.sharedFree < podsOf msg.length) → Safety.runs (.engineMessage e q msg) s fun t =>
        (t.blk.queues.get q).msgs = (s.blk.queues.get q).msgs ∧ bit (t.blk.queues.get q).sticky 4 = true
        ∧ (t.blk.queues.get q).drops = satAdd (s.blk.queues.get q).drops 1 0xFFFFFFFF
        ∧ (t.blk.queues.get q).dropsBreath = (s.blk.queues.get q).dropsBreath + 1
        ∧ Safety.otherQueues s.blk t.blk q ∧ t.blk = { s.blk with queues := t.blk.queues } ∧ t.mem = s.mem)) ∧
  (∀ (i : Initiator) (q : Fin 256) (m : Msg) (rest : List Msg) (s : State), s.blk.queueAbsent q = false → (s.blk.queues.get q).enabled = true →
    (s.blk.queues.get q).consumer = i.id → s.blk.visible (s.blk.queues.get q) = m :: rest → Safety.runs (.pqPop i q false) s fun t =>
      let x := s.blk.queues.get q
      t.blk.reply = { data := ((windowOf m.words x.popped).getD 3 0).zeroExtend 64, fault := false, isolated := false }
      ∧ (t.blk.queues.get q).lastWin = windowOf m.words x.popped
      ∧ (m.words.length ≤ 4 * (x.popped + 1) → (t.blk.queues.get q).msgs = x.msgs.drop 1 ∧ (t.blk.queues.get q).popped = 0)
      ∧ (4 * (x.popped + 1) < m.words.length → (t.blk.queues.get q).msgs = x.msgs ∧ (t.blk.queues.get q).popped = x.popped + 1)
      ∧ Safety.otherQueues s.blk t.blk q
      ∧ t.blk = { s.blk with queues := t.blk.queues, mboxes := t.blk.mboxes, reply := t.blk.reply } ∧ t.mem = s.mem) ∧
  (∀ (i : Initiator) (q : Fin 256) (wide : Bool) (s : State), s.blk.queueAbsent q = false → (s.blk.queues.get q).enabled = true →
    (s.blk.queues.get q).consumer = i.id → s.blk.visible (s.blk.queues.get q) = [] → Safety.runs (.pqPop i q wide) s fun t =>
      let w := (s.blk.queues.get q).lastWin
      t.blk.reply.data = (if wide then (w.getD 2 0).zeroExtend 64 ||| ((w.getD 3 0).zeroExtend 64 <<< 32) else (w.getD 3 0).zeroExtend 64)
      ∧ bit (t.blk.queues.get q).sticky 0 = true ∧ (t.blk.queues.get q).msgs = (s.blk.queues.get q).msgs
      ∧ (t.blk.queues.get q).lastWin = w ∧ Safety.otherQueues s.blk t.blk q ∧ t.mem = s.mem)

/-- R221, R222: every SPI transaction sends the status word and clears the error bits it reported. A write whose length, credit and CRC are good closes one request of MB9; one of a bad length is refused; a read whose last CRC byte was clocked out pops its message, a shorter one leaves it and sets `REPLAY`. R223: outside SERVICE (and RECOVERY, where the ROM serves it) the UART engine discards every frame and sends nothing, with one record a boot; in SERVICE a frame of a good request becomes one message of MB11, and a visible response is popped and sent as a frame. R223: escaping a byte list and removing the escapes gives it back. Where a clause rests on the model's own choices and not on the spec, they are those of log entry 12. -/
def Obligations.TransportsCarryFrames : Prop :=
  (∀ s : State, Safety.runs .spiStatus s fun t => t.blk.trans.miso = s.blk.spiStatusWord ∧ t.blk.trans.spiCrcBad = false
      ∧ t.blk.trans.spiRefused = false ∧ t.blk = { s.blk with trans := t.blk.trans } ∧ t.mem = s.mem) ∧
  (∀ (cmd : Byte) (s : State), Safety.runs (.spiUnknownCommand cmd) s fun t => t.blk.trans.miso = s.blk.spiStatusWord
      ∧ t.blk.trans.spiCrcBad = false ∧ t.blk.trans.spiRefused = false ∧ t.blk = { s.blk with trans := t.blk.trans } ∧ t.mem = s.mem) ∧
  (∀ (mosi : List Byte) (s : State), byteAt mosi 0 = 1 → 4 ≤ mosi.length →
    (leAt mosi 2 2 % 4 ≠ 0 ∨ leAt mosi 2 2 < 16 ∨ 4096 < leAt mosi 2 2) → Safety.runs (.spiWrite mosi) s fun t =>
      t.blk.queues = s.blk.queues ∧ t.blk.trans.spiRefused = true ∧ t.blk.trans.spiRefusals = satInc s.blk.trans.spiRefusals 255
      ∧ (Safety.room s.blk srcSpi → Safety.lastRecord t.blk = some (srcSpi, 0x10, 1, 2, 0x30))
      ∧ t.blk = { s.blk with trans := t.blk.trans, evs := t.blk.evs } ∧ t.mem = s.mem) ∧
  (∀ (mosi : List Byte) (s : State), byteAt mosi 0 = 1 → leAt mosi 2 2 % 4 = 0 → 16 ≤ leAt mosi 2 2 → leAt mosi 2 2 ≤ 4096 →
    16 * ceilDiv (leAt mosi 2 2) 64 ≤ s.blk.credit (s.blk.queues.get 27) → 6 + leAt mosi 2 2 ≤ mosi.length →
    crc16 (slice mosi 2 (2 + leAt mosi 2 2)) ≠ leAt mosi (4 + leAt mosi 2 2) 2 → Safety.runs (.spiWrite mosi) s fun t =>
      t.blk.queues = s.blk.queues ∧ t.blk.trans.spiCrcBad = true ∧ t.blk.trans.spiCrcFails = satInc s.blk.trans.spiCrcFails 255
      ∧ t.blk.trans.spiAccepted = s.blk.trans.spiAccepted ∧ t.mem = s.mem) ∧
  (∀ (mosi : List Byte) (s : State), byteAt mosi 0 = 1 → leAt mosi 2 2 % 4 = 0 → 16 ≤ leAt mosi 2 2 → leAt mosi 2 2 ≤ 4096 →
    16 * ceilDiv (leAt mosi 2 2) 64 ≤ s.blk.credit (s.blk.queues.get 27) → 6 + leAt mosi 2 2 ≤ mosi.length →
    crc16 (slice mosi 2 (2 + leAt mosi 2 2)) = leAt mosi (4 + leAt mosi 2 2) 2 → Safety.runs (.spiWrite mosi) s fun t =>
      t.blk.queues = (s.blk.spiBegin.engineWrite 27 (wordsOf (leAt mosi 2 2 / 4) (slice mosi 4 (leAt mosi 2 2)))).queues
      ∧ t.blk.trans.spiAccepted = (s.blk.trans.spiAccepted + 1) % 65536 ∧ t.mem = s.mem) ∧
  (∀ (mosi : List Byte) (n : Nat) (m : Msg) (rest : List Msg) (s : State), byteAt mosi 0 = 2 → byteAt mosi 1 = 0 → m.words ≠ [] →
    s.blk.visible (s.blk.queues.get 28) = m :: rest → Safety.runs (.spiRead mosi n) s fun t =>
      let msg := bytesOf m.words
      t.blk.trans.miso = (s.blk.spiStatusWord ++ (leBytes 2 msg.length ++ msg) ++ leBytes 2 (crc16 (leBytes 2 msg.length ++ msg))).take n
      ∧ (8 + msg.length ≤ n → (t.blk.queues.get 28).msgs = (s.blk.queues.get 28).msgs.drop 1 ∧ t.blk.trans.spiReplay.get 0 = false)
      ∧ (n < 8 + msg.length → t.blk.queues = s.blk.queues ∧ t.blk.trans.spiReplay.get 0 = true) ∧ t.mem = s.mem) ∧
  (∀ (raw : List Byte) (s : State), s.blk.rcc.mode ≠ .service → s.blk.rcc.mode ≠ .recovery → Safety.runs (.uartFrameReceived raw) s fun t =>
      t.blk.trans.uartDiscMode = satInc s.blk.trans.uartDiscMode 0xFFFF ∧ t.blk.queues = s.blk.queues
      ∧ (s.blk.trans.uartRefLogged = true → t.blk.evs = s.blk.evs)
      ∧ (s.blk.trans.uartRefLogged = false → Safety.room s.blk srcUart →
          Safety.lastRecord t.blk = some (srcUart, 0x12, 1, arg32 s.blk.rcc.mode.code, 0x32))
      ∧ t.blk.trans.uartRefLogged = true ∧ t.blk = { s.blk with trans := t.blk.trans, evs := t.blk.evs } ∧ t.mem = s.mem) ∧
  (∀ (raw l : List Byte) (s : State), s.blk.rcc.mode = .service → unescape raw = some l → 19 ≤ l.length → l.length ≤ 4099 → l.length % 4 = 3 →
    byteAt l 0 = 1 → crc16 (l.take (l.length - 2)) = leAt l (l.length - 2) 2 →
    16 * ceilDiv (l.length - 3) 64 ≤ s.blk.credit (s.blk.queues.get 33) → Safety.runs (.uartFrameReceived raw) s fun t =>
      t.blk = s.blk.engineWrite 33 (wordsOf ((l.length - 3) / 4) (slice l 1 (l.length - 3))) ∧ t.mem = s.mem) ∧
  (∀ (raw : List Byte) (s : State), s.blk.rcc.mode = .service → unescape raw = none → Safety.runs (.uartFrameReceived raw) s fun t =>
      t.blk.trans.uartDisc = satInc s.blk.trans.uartDisc 0xFFFF ∧ t.blk.queues = s.blk.queues
      ∧ (Safety.room s.blk srcUart → Safety.lastRecord t.blk = some (srcUart, 0x11, 1, 2, 0x32)) ∧ t.mem = s.mem) ∧
  (∀ (note : Bool) (m : Msg) (rest : List Msg) (s : State), s.blk.rcc.mode = .service →
    s.blk.visible (s.blk.queues.get (uartQueue note)) = m :: rest → Safety.runs (.uartFrameSend note) s fun t =>
      let body : List Byte := (if note then 3 else 2) :: bytesOf m.words
      t.blk.trans.uartTx = [0x7E] ++ escape (body ++ leBytes 2 (crc16 body)) ++ [0x7E]
      ∧ (t.blk.queues.get (uartQueue note)).msgs = (s.blk.queues.get (uartQueue note)).msgs.drop 1
      ∧ Safety.otherQueues s.blk t.blk (uartQueue note)
      ∧ t.blk = { s.blk with queues := t.blk.queues, mboxes := t.blk.mboxes, trans := t.blk.trans } ∧ t.mem = s.mem) ∧
  (∀ l : List Byte, unescape (escape l) = some l)

/-! ### The Ramdar command set (R229 to R258) -/

/-- R233, R234, R236, R237, R241: the checks that every request meets, in their order: a message shorter than a header draws no response; then opcode, length, presence, mode, requester, owner, flags and boundary, each with its status and its 8 bytes; a part of an assembly is kept without a response, and a message that falls between parts abandons it. Where a clause rests on the model's own choices and not on the spec, they are those of log entry 36. -/
def Obligations.RequestsAreScreened : Prop :=
  (∀ (m : Fin 12) (n : BitVec 16) (s : State), n.toNat < 16 → (s.blk.mboxes.get m).assembly = none → Safety.room s.blk (srcOf 8 (0x100 + m.val)) →
    Safety.runs (.reqMalformed m n) s fun t => Safety.lastRecord t.blk = some (srcOf 8 (0x100 + m.val), 0x20, 2, arg32 n.toNat, idByte (mbOwner m))
      ∧ t.blk = { s.blk with evs := t.blk.evs } ∧ t.mem = s.mem) ∧
  (∀ (r : Req) (op : BitVec 16) (s : State), op.toNat ∉ knownOpcodes → (s.blk.mboxes.get r.mb).assembly = none →
    Safety.runs (.badOpcodeRequest r op) s fun t => Safety.refuses s t r op.toNat 0x10 0xFFFF 1 op.toNat) ∧
  (∀ (r : Req) (s : State), (s.blk.mboxes.get r.mb).assembly = none → r.len.toNat ≤ 4080 → r.words = ceilDiv (16 + r.len.toNat) 4 →
    (isPart r = false → r.len.toNat ≠ 0 → Safety.runs (.getCaps r) s fun t => Safety.refuses s t r 0x102 0x11 0xFFFF 3 0)
    ∧ (isPart r = true → Safety.runs (.getCaps r) s fun t => Safety.refuses s t r 0x102 0x11 0xFFFF 4 0)
    ∧ (isPart r = true → Safety.runs (.echo r) s fun t =>
        (t.blk.mboxes.get r.mb).assembly = some (0x101, r.client, r.payload.take r.len.toNat, 1)
        ∧ (t.blk.mboxes.get r.mb).resps = (s.blk.mboxes.get r.mb).resps ∧ Safety.onlyAnswers s t)) ∧
  (∀ (r : Req) (o : BitVec 16) (c : Word) (l : List Byte) (n : Nat) (s : State), (s.blk.mboxes.get r.mb).assembly = some (o, c, l, n) →
    (o ≠ 0x102 ∨ c ≠ r.client) → s.blk.rcc.mode = .run → r.len = 0 → r.words = 4 → isPart r = false → flagErr r = none →
    Safety.room s.blk (srcOf 8 (0x100 + r.mb.val)) → Safety.runs (.getCaps r) s fun t =>
      (t.blk.mboxes.get r.mb).assembly = none
      ∧ Safety.lastRecord t.blk = some (srcOf 8 (0x100 + r.mb.val), 0x22, 2, arg32 (o.toNat + n * 65536), idByte (mbOwner r.mb))
      ∧ (t.blk.mboxes.get r.mb).resps.length = (s.blk.mboxes.get r.mb).resps.length + 1) ∧
  (∀ (r : Req) (s : State), Safety.wellSent cmdChGet r s.blk → s.blk.variant = .nz820 → 20 ≤ (byteAt (Safety.payload r) 0).toNat →
    (byteAt (Safety.payload r) 0).toNat < 40 → Safety.runs (.chGet r) s fun t =>
      (t.blk.mboxes.get r.mb).resps = (s.blk.mboxes.get r.mb).resps ++ [Safety.response s.blk r 0x401 0x40 (s.blk.breath.bn.truncate 32)
        (leBytes 2 0xFFFF ++ [1, BitVec.ofNat 8 s.blk.rcc.mode.code] ++ leBytes 4 (0x401 + (byteAt (Safety.payload r) 0).toNat * 65536))]) ∧
  (∀ (r : Req) (s : State), Safety.wellSent cmdModeSet r s.blk → s.blk.rcc.mode = .recovery →
    Safety.runs (.modeSet r) s fun t => Safety.refuses s t r 0x202 0x21 0xFFFF 1 0) ∧
  (∀ (r : Req) (k : Fin 8) (s : State), Safety.wellSent cmdLogSeal r s.blk → s.blk.rcc.mode = .run → mbOwner r.mb = .tenant k →
    Safety.runs (.logSeal r) s fun t => Safety.refuses s t r 0x603 0x20 0xFFFF 1 0) ∧
  (∀ (r : Req) (c : Fin 40) (s : State), Safety.wellSent cmdChSet r s.blk → s.blk.rcc.mode = .run → chanAt (Safety.payload r) 0 = some c →
    s.blk.hasChan c = true → (s.blk.ch c).owner ≠ .chanter →
    Safety.runs (.chSet r) s fun t => Safety.refuses s t r 0x402 0x22 0 1 (s.blk.ch c).owner.id) ∧
  (∀ (r : Req) (s : State), Safety.wellSent cmdTimeGet r s.blk → s.blk.rcc.mode = .run → (r.flags.toNat % 2 = 1 ∨ 0xE0 ≤ r.flags.toNat) →
    Safety.runs (.timeGet r) s fun t => Safety.refuses s t r 0x701 0x12 0xFFFF 3 0) ∧
  (∀ (r : Req) (c : Fin 40) (s : State), Safety.accepted cmdChGet r s.blk → chanAt (Safety.payload r) 0 = some c → s.blk.hasChan c = true →
    nonZeroAt (Safety.payload r) 1 3 = none →
    (((s.blk.bridges.get (kOf c)).state = .isolated ∨ (s.blk.bridges.get (kOf c)).state = .rejoining) →
      Safety.runs (.chGet r) s fun t => Safety.refuses s t r 0x401 0x61 0xFFFF 1 (kOf c).val)
    ∧ ((s.blk.bridges.get (kOf c)).state = .service → Safety.runs (.chGet r) s fun t => Safety.refuses s t r 0x401 0x61 0xFFFF 2 (kOf c).val))

/-- R234, R241: the next message of a response is placed on the response queue of its mailbox where there is room, as a whole; where there is none it waits; after 100 ms without one placed the rest is discarded and `RESP_DROPPED` is logged. Where a clause rests on the model's own choices and not on the spec, they are those of log entry 36. -/
def Obligations.ResponsesArePlaced : Prop :=
  (∀ (m : Fin 12) (a : Resp) (rest : List Resp) (s : State), (s.blk.mboxes.get m).resps = a :: rest → (s.blk.mboxes.get m).notes = [] →
    (s.blk.queues.get (mbQueue m 1)).enabled = true → s.blk.queueShut (s.blk.queues.get (mbQueue m 1)) = false →
    (a.payload.length ≤ 4080 → s.blk.hasRoom (mbQueue m 1) (ceilDiv (16 + a.payload.length) 4) = true → Safety.runs (.responsePlace m) s fun t =>
      (t.blk.mboxes.get m).resps = rest
      ∧ (t.blk.queues.get (mbQueue m 1)).msgs = (s.blk.queues.get (mbQueue m 1)).msgs
          ++ [{ words := wordsOf 1024 (a.bytes false a.payload), seq := some s.blk.evs.nextSeq }] ∧ t.mem = s.mem)
    ∧ (4080 < a.payload.length → s.blk.hasRoom (mbQueue m 1) 1024 = true → Safety.runs (.responsePlace m) s fun t =>
      (t.blk.mboxes.get m).resps = { a with payload := a.payload.drop 4080 } :: rest
      ∧ (t.blk.queues.get (mbQueue m 1)).msgs = (s.blk.queues.get (mbQueue m 1)).msgs
          ++ [{ words := wordsOf 1024 (a.bytes true (a.payload.take 4080)), seq := some s.blk.evs.nextSeq }] ∧ t.mem = s.mem)
    ∧ (a.payload.length ≤ 4080 → s.blk.hasRoom (mbQueue m 1) (ceilDiv (16 + a.payload.length) 4) = false →
      Safety.runs (.responsePlace m) s fun t => (t.blk.mboxes.get m).resps = (s.blk.mboxes.get m).resps
        ∧ t.blk.queues = s.blk.queues ∧ t.mem = s.mem)) ∧
  (∀ (m : Fin 12) (a : Resp) (rest : List Resp) (s : State), (s.blk.mboxes.get m).resps = a :: rest → Safety.room s.blk (srcOf 8 (0x100 + m.val)) →
    Safety.runs (.respDropped m) s fun t => (t.blk.mboxes.get m).resps = rest ∧ (t.blk.mboxes.get m).notes = (s.blk.mboxes.get m).notes
      ∧ Safety.lastRecord t.blk = some (srcOf 8 (0x100 + m.val), 0x23, 2, arg32 (a.opcode.toNat + a.status.toNat * 65536), a.who)
      ∧ t.blk = { s.blk with mboxes := t.blk.mboxes, evs := t.blk.evs } ∧ t.mem = s.mem)

/-- R242 to R246, R251 to R254, R256: the commands that read answer at once `OK` with effective BN N and the bytes their tables lay out, and change nothing else. Where a clause rests on the model's own choices and not on the spec, they are those of log entry 36. -/
def Obligations.ReadingCommandsAnswer : Prop :=
  (∀ (r : Req) (s : State), Safety.accepted cmdEcho r s.blk → Safety.runs (.echo r) s fun t =>
    Safety.okays s t r 0x101 (Safety.payload r) ∧ Safety.onlyAnswers s t) ∧
  (∀ (r : Req) (s : State), Safety.accepted cmdGetCaps r s.blk → Safety.runs (.getCaps r) s fun t =>
    Safety.okays s t r 0x102 (leBytes 4 s.blk.caps.toNat ++ leBytes 4 s.blk.rev.toNat ++ leBytes 16 s.blk.uid.toNat
      ++ [BitVec.ofNat 8 s.blk.rcc.mode.code, BitVec.ofNat 8 s.blk.sec.lc] ++ leBytes 2 4080 ++ leBytes 4 65280) ∧ Safety.onlyAnswers s t) ∧
  (∀ (r : Req) (s : State), Safety.accepted cmdGetVersions r s.blk → Safety.runs (.getVersions r) s fun t =>
    Safety.okays s t r 0x103 (leBytes 1 ((upTo 13).filter fun i => (s.blk.comp i).hasImage).length ++ [0, 0, 0]
      ++ ((upTo 13).filter fun i => (s.blk.comp i).hasImage).flatMap s.blk.versionEntry) ∧ Safety.onlyAnswers s t) ∧
  (∀ (r : Req) (cert : List Byte) (s : State), Safety.accepted cmdGetIdentity r s.blk → nonZeroAt (Safety.payload r) 1 3 = none →
    ((byteAt (Safety.payload r) 0 = 0 ∧ cert = s.blk.sec.certId) ∨ (byteAt (Safety.payload r) 0 = 1 ∧ cert = s.blk.sec.certAtt)) →
    Safety.runs (.getIdentity r) s fun t => Safety.okays s t r 0x104 (leBytes 2 cert.length ++ [0, 0] ++ cert) ∧ Safety.onlyAnswers s t) ∧
  (∀ (r : Req) (s : State), Safety.accepted cmdGetHealth r s.blk → Safety.runs (.getHealth r) s fun t => ∃ shell : BitVec 16,
    Safety.okays s t r 0x106 ([BitVec.ofNat 8 s.blk.rcc.mode.code, BitVec.ofNat 8 s.blk.time.state.code, BitVec.ofNat 8 s.blk.breath.unverified, 0]
      ++ s.blk.kstates ++ leBytes 8 s.blk.breath.bn.toNat ++ leBytes 8 s.blk.breath.tickDt.toNat ++ leBytes 2 shell.toNat
      ++ leBytes 2 (BitVec.ofInt 16 s.blk.hottest).toNat ++ leBytes 4 s.blk.breath.prevOutcome.toNat)
    ∧ t.blk = { s.blk with mboxes := t.blk.mboxes, freeCtr := t.blk.freeCtr } ∧ t.mem = s.mem) ∧
  (∀ (r : Req) (s : State), Safety.accepted cmdModeGet r s.blk → Safety.runs (.modeGet r) s fun t =>
    Safety.okays s t r 0x201 ([BitVec.ofNat 8 s.blk.rcc.mode.code, BitVec.ofNat 8 s.blk.rcc.prevMode.code] ++ leBytes 2 s.blk.rcc.modeCause
      ++ leBytes 8 s.blk.rcc.entryBn.toNat ++ leBytes 8 s.blk.rcc.entryDt.toNat) ∧ Safety.onlyAnswers s t) ∧
  (∀ (r : Req) (s : State), Safety.accepted cmdResetCause r s.blk → Safety.runs (.resetCause r) s fun t =>
    Safety.okays s t r 0x205 (leBytes 4 s.blk.rcc.cause.toNat ++ leBytes 8 s.blk.rcc.relDt.toNat) ∧ Safety.onlyAnswers s t) ∧
  (∀ (r : Req) (s : State), Safety.accepted cmdCfgInfo r s.blk → Safety.runs (.cfgInfo r) s fun t =>
    Safety.okays s t r 0x301 (leBytes 4 s.blk.cfg.activeId.toNat ++ leBytes 4 s.blk.cfg.shadowId.toNat ++ [BitVec.ofNat 8 s.blk.cfg.shadow.code, 0, 0, 0]
      ++ leBytes 8 ((s.blk.cfg.swapBn.getD 0).toNat) ++ leBytes 4 s.blk.cfg.loaded) ∧ Safety.onlyAnswers s t) ∧
  (∀ (r : Req) (s : State), Safety.accepted cmdLogInfo r s.blk → Safety.runs (.logInfo r) s fun t =>
    Safety.okays s t r 0x601 (leBytes 8 (oldestSeq s.mem s.blk.evs) ++ leBytes 8 s.blk.evs.newestSeq.toNat ++ leBytes 4 s.blk.evs.logWr
      ++ leBytes 4 s.blk.evs.pinHeld.length ++ leBytes 8 s.blk.evs.lastSealDt.toNat ++ leBytes 4 s.blk.evs.logLost) ∧ Safety.onlyAnswers s t) ∧
  (∀ (r : Req) (s : State), Safety.accepted cmdLogRead r s.blk → s.blk.evs.scanning = false → byteAt (Safety.payload r) 0 = 0 →
    byteAt (Safety.payload r) 1 = 1 → leAt (Safety.payload r) 2 2 = 1 → nonZeroAt (Safety.payload r) 4 4 = none →
    leAt (Safety.payload r) 8 8 < logSlots → s.blk.nvm.badWords = [] → s.blk.evs.oldest = 0 → leAt (Safety.payload r) 8 8 < s.blk.evs.ringCount →
    Safety.runs (.logRead r) s fun t => let bytes := Mem.readBytes s.mem (logBase + leAt (Safety.payload r) 8 8 * 32) 32
      Safety.okays s t r 0x602 (bytes.take 8 ++ [1, 0] ++ [if leAt (Safety.payload r) 8 8 + 1 < s.blk.evs.ringCount then 1 else 0] ++ List.replicate 5 0 ++ bytes)
      ∧ Safety.onlyAnswers s t) ∧
  (∀ (r : Req) (s : State), Safety.accepted cmdTimeGet r s.blk → Safety.runs (.timeGet r) s fun t =>
    Safety.okays s t r 0x701 (leBytes 8 (s.blk.dtFor (mbOwner r.mb)).toNat ++ [BitVec.ofNat 8 s.blk.time.state.code, s.blk.time.slavePort, 0, 0]
      ++ leBytes 4 s.blk.time.offset.toNat ++ leBytes 8 s.blk.time.gmId.toNat ++ leBytes 4 s.blk.time.holdLeftNow.toNat
      ++ leBytes 4 s.blk.time.rateNow.toNat) ∧ Safety.onlyAnswers s t) ∧
  (∀ (r : Req) (p : Fin 13) (s : State), Safety.accepted cmdPortGet r s.blk → byteAt (Safety.payload r) 0 = BitVec.ofNat 8 p.val →
    s.blk.hasPort p = true → nonZeroAt (Safety.payload r) 1 3 = none → Safety.runs (.portGet r) s fun t => let x := s.blk.port p
      Safety.okays s t r 0x801 (leBytes 1 p.val ++ leBytes 1 (b2n x.link) ++ leBytes 1 (speedCode x.mbps)
        ++ leBytes 1 (b2n x.enabled + 2 * b2n (s.blk.gptpOn p) + 4 * b2n (s.blk.msUsed p && x.msUp)) ++ leBytes 8 (x.counters.get 0)
        ++ leBytes 8 (x.counters.get 2) ++ leBytes 4 (x.counters.get 6 + x.counters.get 7 + x.counters.get 8)) ∧ Safety.onlyAnswers s t) ∧
  (∀ (r : Req) (c : Fin 6) (s : State), Safety.accepted cmdCanGet r s.blk → byteAt (Safety.payload r) 0 = BitVec.ofNat 8 c.val →
    nonZeroAt (Safety.payload r) 1 3 = none → Safety.runs (.canGet r) s fun t => let x := s.blk.can c; let n := s.blk.nm c
      Safety.okays s t r 0x803 (leBytes 1 c.val ++ leBytes 1 x.state.code ++ leBytes 1 (min x.tec 255) ++ leBytes 1 x.recCnt
        ++ leBytes 1 (b2n x.alone + 2 * b2n x.held + 4 * b2n (decide (n.state = .keepalive)) + 8 * b2n n.armed) ++ leBytes 1 n.present.length
        ++ leBytes 2 x.fifo.length ++ leBytes 4 x.rxFrames.toNat ++ leBytes 4 x.conflicts) ∧ Safety.onlyAnswers s t) ∧
  (∀ (r : Req) (s : State), Safety.accepted cmdKeyInfo r s.blk → Safety.runs (.keyInfo r) s fun t => ∃ used entries : List Byte,
    used.length = 4 ∧ entries.length = 512 ∧ Safety.okays s t r 0x902 (used ++ entries ++ (if 8 ≤ r.mb.val then leBytes 8 s.blk.sec.kuCnt.toNat
      ++ leBytes 8 s.blk.sec.ctlCnt.toNat ++ leBytes 8 s.blk.sec.dbgCnt.toNat else List.replicate 24 0)) ∧ Safety.onlyAnswers s t) ∧
  (∀ (r : Req) (s : State), Safety.accepted cmdTamperGet r s.blk → Safety.runs (.tamperGet r) s fun t =>
    Safety.okays s t r 0x905 (leBytes 4 (s.blk.ctrValue ctrTamper).toNat ++ [BitVec.ofNat 8 (bits s.blk.sec.tmpLast 9 8),
      BitVec.ofNat 8 (bits s.blk.sec.tmpLast 7 0), 0, 0] ++ leBytes 8 s.blk.tamperDt) ∧ Safety.onlyAnswers s t) ∧
  (∀ (r : Req) (s : State), Safety.accepted cmdUpdStatus r s.blk → Safety.runs (.updStatus r) s fun t =>
    Safety.okays s t r 0xA06 ([BitVec.ofNat 8 s.blk.upd.state.code, BitVec.ofNat 8 s.blk.upd.comp, 0, 0] ++ leBytes 4 s.blk.upd.received
      ++ leBytes 4 s.blk.upd.imgLen ++ [BitVec.ofNat 8 s.blk.upd.refusal, 0, 0, 0]) ∧ Safety.onlyAnswers s t)

/-- R248 to R251, R253, R257, R459: channel and input commands answer from snapshot N or stage what they name; the commands of the log, time, ports and bridge answer and do what their entries say. Where a clause rests on the model's own choices and not on the spec, they are those of log entries 26, 36. -/
def Obligations.ActingCommandsAct : Prop :=
  (∀ (r : Req) (c : Fin 40) (s : State), Safety.accepted cmdChGet r s.blk → chanAt (Safety.payload r) 0 = some c → s.blk.hasChan c = true →
    nonZeroAt (Safety.payload r) 1 3 = none → (s.blk.bridges.get (kOf c)).state = .joined → Safety.runs (.chGet r) s fun t =>
      Safety.okays s t r 0x401 (padTo 64 (((s.blk.kn (kOf c)).sect.drop (64 + 64 * (c.val % 10))).take 64) ++ leBytes 4 (s.blk.chInfo c).toNat)
      ∧ Safety.onlyAnswers s t) ∧
  (∀ (r : Req) (k : Fin 4) (off n : Nat) (s : State), Safety.accepted cmdInGet r s.blk → nonZeroAt (Safety.payload r) 2 2 = none →
    inputPlace (byteAt (Safety.payload r) 0).toNat (byteAt (Safety.payload r) 1).toNat = some (k, off, n) → s.blk.hasKernel k = true →
    (s.blk.bridges.get k).state = .joined → Safety.runs (.inGet r) s fun t =>
      Safety.okays s t r 0x501 (padTo n (((s.blk.kn k).sect.drop off).take n)) ∧ Safety.onlyAnswers s t) ∧
  (∀ (r : Req) (c : Fin 40) (s : State), Safety.accepted cmdChSet r s.blk → chanAt (Safety.payload r) 0 = some c → s.blk.hasChan c = true →
    (s.blk.ch c).owner = .chanter → (s.blk.ch c).grants (mbOwner r.mb) = true → firstErr (s.blk.chSetErrs c (Safety.payload r)) = none →
    (s.blk.bridges.get (kOf c)).state = .joined → s.blk.mustCarry = false → (byteAt (Safety.payload r) 1).toNat = 15 →
    Safety.runs (.chSet r) s fun t => let p := Safety.payload r
      (t.blk.ch c).shadow.cmd = mkWord [(byteAt p 2).toNat, fld (leAt p 4 2) 10 16]
      ∧ (t.blk.ch c).shadow.pwm = mkWord [leAt p 6 2, fld (byteAt p 8).toNat 8 16]
      ∧ (t.blk.ch c).shadow.ramp = mkWord [leAt p 10 2, fld (leAt p 12 2) 12 16]
      ∧ (t.blk.ch c).shadow.slew = mkWord [(byteAt p 3).toNat]
      ∧ (t.blk.ch c).staged = true ∧ (∀ d : Fin 40, d ≠ c → t.blk.ch d = s.blk.ch d) ∧ t.blk.breath.staged = s.blk.breath.staged + 1
      ∧ Safety.answers s t r 0x402 (if ((s.blk.ch c).snap.state = 7 ∨ (s.blk.ch c).snap.state = 8) ∧ byteAt p 2 ≠ 0 then 0x31 else 0)
          ((s.blk.breath.bn + 1).truncate 32) [] ∧ t.mem = s.mem) ∧
  (∀ (r : Req) (s : State), Safety.accepted cmdChSet r s.blk → (∃ c : Fin 40, chanAt (Safety.payload r) 0 = some c ∧ s.blk.hasChan c = true
      ∧ (s.blk.ch c).owner = .chanter ∧ (s.blk.ch c).grants (mbOwner r.mb) = true ∧ firstErr (s.blk.chSetErrs c (Safety.payload r)) = none
      ∧ (s.blk.bridges.get (kOf c)).state = .joined) → s.blk.mustCarry = true → Safety.runs (.chSet r) s fun t =>
      t.blk.breath.carried = s.blk.breath.carried ++ [(0x402, r)] ∧ t.blk.mboxes = s.blk.mboxes ∧ t.blk.chans = s.blk.chans
      ∧ t.blk = { s.blk with breath := t.blk.breath } ∧ t.mem = s.mem) ∧
  (∀ (r : Req) (c : Fin 40) (s : State), Safety.accepted cmdChClear r s.blk → chanAt (Safety.payload r) 0 = some c → s.blk.hasChan c = true →
    ((s.blk.ch c).owner = mbOwner r.mb ∨ (hosts (mbOwner r.mb) = true ∧ ((s.blk.ch c).owner ≠ .safety ∨ s.blk.rcc.mode = .service))) →
    s.blk.isFollower c = false → (byteAt (Safety.payload r) 1).toNat < 8 → nonZeroAt (Safety.payload r) 2 2 = none →
    (s.blk.bridges.get (kOf c)).state = .joined → s.blk.mustCarry = false → Safety.runs (.chClear r) s fun t =>
      (t.blk.ch c).clearBits = (s.blk.ch c).clearBits ||| BitVec.ofNat 3 (byteAt (Safety.payload r) 1).toNat
      ∧ (t.blk.ch c).clearBy = some (mbOwner r.mb) ∧ (∀ d : Fin 40, d ≠ c → t.blk.ch d = s.blk.ch d)
      ∧ Safety.answers s t r 0x403 0 ((s.blk.breath.bn + 1).truncate 32) [] ∧ t.mem = s.mem) ∧
  (∀ (r : Req) (n : Fin 4) (c : Fin 40) (s : State), Safety.accepted cmdSenseRoute r s.blk → byteAt (Safety.payload r) 0 = BitVec.ofNat 8 n.val →
    chanAt (Safety.payload r) 1 = some c → s.blk.hasChan c = true → nonZeroAt (Safety.payload r) 2 2 = none →
    (∀ k : Fin 4, (s.blk.bridges.get k).state = .joined) → s.blk.mustCarry = false → Safety.runs (.senseRoute r) s fun t =>
      bits (t.blk.kn (kOf c)).route (8 * n.val + 7) (8 * n.val) = 0x80 + c.val % 10
      ∧ (∀ k : Fin 4, k ≠ kOf c → bits (t.blk.kn k).route (8 * n.val + 7) (8 * n.val) = 0)
      ∧ Safety.answers s t r 0x404 0 ((s.blk.breath.bn + 1).truncate 32) [] ∧ t.mem = s.mem) ∧
  (∀ (r : Req) (s : State), Safety.accepted cmdMotionRefSet r s.blk → (s.blk.bridges.get 0).state = .joined → s.blk.motion.notReady = false →
    s.blk.motion.fault = false → Safety.runs (.motionRefSet r) s fun t =>
      t.blk.motion = { s.blk.motion with ref := some (s.blk.motion.x, s.blk.motion.y, s.blk.motion.z) }
      ∧ Safety.okays s t r 0x502 (leBytes 2 s.blk.motion.x.toNat ++ leBytes 2 s.blk.motion.y.toNat ++ leBytes 2 s.blk.motion.z.toNat) ∧ t.mem = s.mem) ∧
  (∀ (r : Req) (s : State), Safety.accepted cmdLogSeal r s.blk → s.blk.keysReady = true → s.blk.evs.lastCmdSeal = none →
    Safety.runs (.logSeal r) s fun t => t.blk.evs.lastCmdSeal = some s.blk.time.dt ∧ t.mem = s.mem ∧ (∃ p : List Byte, Safety.okays s t r 0x603 p)) ∧
  (∀ (r : Req) (d : BitVec 64) (s : State), Safety.accepted cmdLogSeal r s.blk → s.blk.evs.lastCmdSeal = some d → s.blk.since d < 9999000001 →
    Safety.runs (.logSeal r) s fun t => Safety.refuses s t r 0x603 0x30 0xFFFF 2 (10000 - s.blk.since d / 1000000)) ∧
  (∀ (r : Req) (s : State), Safety.accepted cmdSealGet r s.blk → nonZeroAt (Safety.payload r) 1 3 = none → (byteAt (Safety.payload r) 0).toNat ≤ 1 →
    Safety.runs (.sealGet r) s fun t => (∃ p : List Byte, p.length = 4955 ∧ Safety.okays s t r 0x604 p) ∧ Safety.onlyAnswers s t) ∧
  (∀ (r : Req) (s : State), Safety.accepted cmdPinRelease r s.blk → leAt (Safety.payload r) 0 8 ≤ s.blk.evs.sealEndSeq.toNat →
    Safety.runs (.pinRelease r) s fun t => t.blk.evs.pinHeld = s.blk.evs.pinHeld.filter (fun q => decide (leAt (Safety.payload r) 0 8 < q.toNat))
      ∧ Safety.okays s t r 0x605 (leBytes 4 (s.blk.evs.pinHeld.length - t.blk.evs.pinHeld.length) ++ leBytes 4 t.blk.evs.pinHeld.length)
      ∧ t.blk = { s.blk with evs := t.blk.evs, mboxes := t.blk.mboxes } ∧ t.mem = s.mem) ∧
  (∀ (r : Req) (s : State), Safety.accepted cmdNotifySet r s.blk → leAt (Safety.payload r) 0 2 % 2 = 0 → leAt (Safety.payload r) 0 2 < 0x1000 →
    nonZeroAt (Safety.payload r) 2 2 = none → Safety.runs (.notifySet r) s fun t =>
      (t.blk.mboxes.get r.mb).mask = BitVec.ofNat 16 (leAt (Safety.payload r) 0 2) ∧ Safety.okays s t r 0x606 (leBytes 2 (leAt (Safety.payload r) 0 2))
      ∧ Safety.onlyAnswers s t) ∧
  (∀ (r : Req) (s : State), Safety.accepted cmdTimeSet r s.blk → (byteAt (Safety.payload r) 8).toNat = 1 → nonZeroAt (Safety.payload r) 9 3 = none →
    s.blk.time.state ≠ .unsynced → s.blk.time.syncEn = false → s.blk.time.stepThresh.toNat < leAt (Safety.payload r) 0 8 →
    leAt (Safety.payload r) 0 8 < 2 ^ 63 → Safety.runs (.timeSet r) s fun t =>
      t.blk.time.dt = s.blk.time.dt + BitVec.ofNat 64 (leAt (Safety.payload r) 0 8) ∧ t.blk.time.state = s.blk.time.state
      ∧ Safety.okays s t r 0x702 (leBytes 8 s.blk.time.dt.toNat ++ leBytes 8 (leAt (Safety.payload r) 0 8) ++ [1, 0, 0, 0]) ∧ t.mem = s.mem) ∧
  (∀ (r : Req) (p : Fin 13) (s : State), Safety.accepted cmdPortSet r s.blk → byteAt (Safety.payload r) 0 = BitVec.ofNat 8 p.val → p.val < 11 →
    s.blk.hasPort p = true → nonZeroAt (Safety.payload r) 2 2 = none → s.blk.sec.session = none →
    (byteAt (Safety.payload r) 1 = 1 → Safety.runs (.portSet r) s fun t => bits (t.blk.port p).cfg 15 15 = 1 ∧ (t.blk.port p).link = (s.blk.port p).link
      ∧ Safety.okays s t r 0x802 [] ∧ (∀ q : Fin 13, q ≠ p → t.blk.port q = s.blk.port q) ∧ t.mem = s.mem)
    ∧ (byteAt (Safety.payload r) 1 = 0 → Safety.runs (.portSet r) s fun t => bits (t.blk.port p).cfg 15 15 = 0 ∧ (t.blk.port p).link = false
      ∧ Safety.okays s t r 0x802 [] ∧ t.mem = s.mem)) ∧
  (∀ (r : Req) (n : Fin 10) (s : State), Safety.accepted cmdBridgeClear r s.blk → byteAt (Safety.payload r) 0 = BitVec.ofNat 8 n.val →
    s.blk.variant = .nz840 → (hosts (mbOwner r.mb) = true ∨ mbOwner r.mb = slotInit n) → nonZeroAt (Safety.payload r) 1 3 = none →
    Safety.runs (.bridgeClear r) s fun t => t.blk.slots.get n = { s.blk.slots.get n with pwFail := false, lostF := false }
      ∧ (∀ k : Fin 10, k ≠ n → t.blk.slots.get k = s.blk.slots.get k) ∧ Safety.okays s t r 0xB01 (leBytes 4 (s.blk.slots.get n).summary)
      ∧ t.blk = { s.blk with slots := t.blk.slots, mboxes := t.blk.mboxes } ∧ t.mem = s.mem) ∧
  (∀ (r : Req) (c : Fin 6) (s : State), Safety.accepted cmdNmRequest r s.blk → byteAt (Safety.payload r) 0 = BitVec.ofNat 8 c.val → (s.blk.nm c).en = true →
    nonZeroAt (Safety.payload r) 2 2 = none →
    (byteAt (Safety.payload r) 1 = 0 → Safety.runs (.nmRequest r) s fun t =>
      (t.blk.nm c).requests = (s.blk.nm c).requests.filter (fun q => q.1 ≠ mbOwner r.mb) ∧ t.blk.cans = s.blk.cans
      ∧ Safety.okays s t r 0x804 [BitVec.ofNat 8 (min (t.blk.nm c).ownReq 255)] ∧ t.mem = s.mem)
    ∧ (byteAt (Safety.payload r) 1 = 1 → Safety.runs (.nmRequest r) s fun t =>
      (mbOwner r.mb, s.blk.time.dt) ∈ (t.blk.nm c).requests ∧ Safety.okays s t r 0x804 [BitVec.ofNat 8 (min (t.blk.nm c).ownReq 255)] ∧ t.mem = s.mem)) ∧
  (∀ (a : Word) (k : Fin 8) (s : State), Safety.runs (.memUncorrectable a (.tenant k)) s fun t =>
    (t.blk.tenants.get k).faults = (s.blk.tenants.get k).faults + 1 ∧ (∀ j : Fin 8, j ≠ k → t.blk.tenants.get j = s.blk.tenants.get j)
    ∧ t.mem = s.mem)

/-! ### Modes, configuration sets, kernels and tenants by command (R245 to R247, R259 to R282, R389 to R391) -/

/-- R246, R247, R262, R263, R268, R281: a load erases the slot that is not active and fills it in order; a verification answers `ACCEPTED` and its end leaves the shadow verified or failed, with its record and its completion; a swap of the verified shadow is scheduled for its breath and can be cancelled up to N+1; the joined kernels that confirm hold the image's identifier. Where a clause rests on the model's own choices and not on the spec, they are those of log entries 16, 42. -/
def Obligations.ConfigurationsLoadVerifyAndSwap : Prop :=
  (∀ (r : Req) (s : State), Safety.accepted cmdCfgLoadBegin r s.blk → 1 ≤ leAt (Safety.payload r) 0 4 → leAt (Safety.payload r) 0 4 ≤ 2097152 →
    nonZeroAt (Safety.payload r) 4 4 = none → s.blk.cfg.shadow ≠ .scheduled → s.blk.cfg.shadow ≠ .verifying →
    Safety.runs (.cfgLoadBegin r) s fun t => t.blk.cfg.shadow = .loading ∧ t.blk.cfg.loaded = 0 ∧ t.blk.cfg.shadowLen = leAt (Safety.payload r) 0 4
      ∧ t.blk.cfg.shadowDigest = BitVec.ofNat 512 (leAt (Safety.payload r) 8 64) ∧ t.blk.cfg.active = s.blk.cfg.active
      ∧ t.blk.cfg.activeSlot = s.blk.cfg.activeSlot ∧ t.blk.cfg.swapBn = s.blk.cfg.swapBn ∧ Safety.okays s t r 0x302 []
      ∧ (∀ a : Nat, s.blk.shadowBase ≤ a → a < s.blk.shadowBase + 2097152 → Mem.read t.mem a = 0)
      ∧ (∀ a : Nat, (a < s.blk.shadowBase ∨ s.blk.shadowBase + 2097152 ≤ a) → Mem.read t.mem a = Mem.read s.mem a)) ∧
  (∀ (r : Req) (s : State), Safety.canonical s → Safety.accepted cmdCfgLoadData r s.blk → leAt (Safety.payload r) 0 4 = s.blk.cfg.loaded →
    nonZeroAt (Safety.payload r) 4 4 = none → s.blk.cfg.shadow = .loading → s.blk.cfg.loaded + ((Safety.payload r).length - 8) ≤ s.blk.cfg.shadowLen →
    s.blk.cfg.shadowLen ≤ 2097152 → Safety.runs (.cfgLoadData r) s fun t => let n := (Safety.payload r).length - 8
      t.blk.cfg.loaded = s.blk.cfg.loaded + n ∧ Safety.okays s t r 0x303 (leBytes 4 (s.blk.cfg.loaded + n))
      ∧ t.blk.cfg.shadow = (if s.blk.cfg.loaded + n = s.blk.cfg.shadowLen then .loaded else .loading)
      ∧ (∀ i : Nat, i < n → Mem.read t.mem (s.blk.shadowBase + s.blk.cfg.loaded + i) = byteAt (Safety.payload r) (8 + i))
      ∧ (∀ a : Nat, (a < s.blk.shadowBase + s.blk.cfg.loaded ∨ s.blk.shadowBase + s.blk.cfg.loaded + n ≤ a) → Mem.read t.mem a = Mem.read s.mem a)) ∧
  (∀ (r : Req) (s : State), Safety.accepted cmdCfgLoadData r s.blk → leAt (Safety.payload r) 0 4 ≠ s.blk.cfg.loaded →
    Safety.runs (.cfgLoadData r) s fun t => Safety.refuses s t r 0x303 0x12 0 2 s.blk.cfg.loaded) ∧
  (∀ (r : Req) (s : State), Safety.accepted cmdCfgVerify r s.blk → s.blk.cfg.shadow ≠ .scheduled → s.blk.cfg.shadow ≠ .verifying →
    Safety.runs (.cfgVerify r) s fun t => t.blk.cfg.shadow = .verifying ∧ Safety.answers s t r 0x304 1 0xFFFFFFFF []
      ∧ t.blk.cfg.verifyDue = some { mb := r.mb, client := r.client, who := idByte (mbOwner r.mb), opcode := 0x304 }
      ∧ t.blk = { s.blk with cfg := t.blk.cfg, mboxes := t.blk.mboxes } ∧ t.mem = s.mem) ∧
  (∀ (d : Due) (s : State), s.blk.cfg.shadow = .verifying → s.blk.cfg.verifyDue = some d → Safety.room s.blk srcSys →
    Safety.runs .cfgVerifyDone s fun t => let v := s.blk.verifyImage (Mem.readBytes s.mem s.blk.shadowBase s.blk.cfg.loaded) s.blk.cfg.shadowLen s.blk.cfg.shadowDigest true
      t.mem = s.mem ∧ t.blk.cfg.active = s.blk.cfg.active
      ∧ (∀ im : Image, v = .ok im → t.blk.cfg.shadow = .verified ∧ t.blk.cfg.shadowId = im.id
        ∧ Safety.lastRecord t.blk = some (srcSys, 0x40, 1, im.id, hw)
        ∧ (t.blk.mboxes.get d.mb).notes.map (fun n => (n.opcode, n.client, n.status, n.payload)) =
            (s.blk.mboxes.get d.mb).notes.map (fun n => (n.opcode, n.client, n.status, n.payload)) ++ [(d.opcode + 0x40, d.client, 0, leBytes 4 im.id.toNat)])
      ∧ (∀ e : Err, v = .error e → t.blk.cfg.shadow = .failed
        ∧ (t.blk.mboxes.get d.mb).notes.length = (s.blk.mboxes.get d.mb).notes.length + 1)) ∧
  (∀ (r : Req) (s : State), Safety.accepted cmdCfgSwap r s.blk → s.blk.cfg.shadow = .verified → s.blk.cfg.swapBn = none →
    wordAt (Safety.payload r) 0 = s.blk.cfg.shadowId → nonZeroAt (Safety.payload r) 4 4 = none → leAt (Safety.payload r) 8 8 = 0 →
    s.blk.breath.bn.toNat + 2 < 2 ^ 48 → Safety.runs (.cfgSwap r) s fun t => ∀ im : Image, s.blk.otherImage s.mem = some im →
      t.blk.cfg.shadow = .scheduled ∧ t.blk.cfg.swapBn = some (s.blk.breath.bn + 2) ∧ t.blk.cfg.swapImage = some im
      ∧ Safety.answers s t r 0x305 1 ((s.blk.breath.bn + 2).truncate 32) [] ∧ t.blk = { s.blk with cfg := t.blk.cfg, mboxes := t.blk.mboxes } ∧ t.mem = s.mem) ∧
  (∀ (r : Req) (n : BitVec 48) (s : State), Safety.accepted cmdCfgCancel r s.blk → s.blk.cfg.swapBn = some n →
    (n.toNat < s.blk.breath.bn.toNat + 2 → Safety.runs (.cfgCancel r) s fun t => Safety.refuses s t r 0x306 0x21 0xFFFF 10 0)
    ∧ (s.blk.breath.bn.toNat + 2 ≤ n.toNat → Safety.room s.blk srcSys → Safety.runs (.cfgCancel r) s fun t =>
        t.blk.cfg.swapBn = none ∧ t.blk.cfg.swapImage = none ∧ Safety.lastRecord t.blk = some (srcSys, 0x44, 1, n.truncate 32, hw)
        ∧ Safety.okays s t r 0x306 (leBytes 8 n.toNat) ∧ t.mem = s.mem)) ∧
  (∀ (c : BitVec 4) (im : Image) (s : State), s.blk.cfg.swapBn = some (s.blk.breath.bn + 1) → s.blk.cfg.swapImage = some im →
    Safety.runs (.swapKernelStaging c) s fun t => (∀ k : Fin 4,
        (c.toNat.testBit k.val = true → (s.blk.bridges.get k).state = .joined → (t.blk.kn k).confirmed = some im.id)
        ∧ (c.toNat.testBit k.val = false → t.blk.kn k = s.blk.kn k))
      ∧ t.blk = { s.blk with kernels := t.blk.kernels } ∧ t.mem = s.mem)

/-- R247, R277 to R279: the four actions of `KERNEL_SERVICE` answer and start, one at a time; a return asked for while a removal completes is held; the end of a removal and of each action is recorded, and a return joins at the next tick. Where a clause rests on the model's own choices and not on the spec, they are those of log entry 42. -/
def Obligations.KernelServiceRuns : Prop :=
  (∀ (r : Req) (k : Fin 4) (s : State), Safety.accepted cmdKernelService r s.blk → (s.blk.rcc.mode = .run → s.blk.full = true) →
    kernelArg (Safety.payload r) = some k → s.blk.hasKernel k = true → nonZeroAt (Safety.payload r) 2 2 = none →
    s.blk.cfg.swapBn = none →
    (byteAt (Safety.payload r) 1 = 0 → s.blk.anyService = false → (s.blk.bridges.get k).state = .joined →
      (∀ j : Fin 4, (s.blk.bridges.get j).state ≠ .service) → (∀ c : Fin 40, (s.blk.ch c).owner ≠ .safety) →
      Safety.runs (.kernelServiceOut r) s fun t => (t.blk.kn k).service = some 0 ∧ (∀ j : Fin 4, j ≠ k → t.blk.kn j = s.blk.kn j)
        ∧ Safety.answers s t r 0x307 1 ((s.blk.breath.bn + 1).truncate 32) []
        ∧ t.blk = { s.blk with kernels := t.blk.kernels, mboxes := t.blk.mboxes } ∧ t.mem = s.mem)
    ∧ (byteAt (Safety.payload r) 1 = 1 → s.blk.anyService = false → (s.blk.bridges.get k).state = .service →
      Safety.runs (.kernelServiceReturn r) s fun t => (t.blk.kn k).service = some 1 ∧ (∀ j : Fin 4, j ≠ k → t.blk.kn j = s.blk.kn j)
        ∧ Safety.answers s t r 0x307 1 0xFFFFFFFF [] ∧ t.blk = { s.blk with kernels := t.blk.kernels, mboxes := t.blk.mboxes } ∧ t.mem = s.mem)
    ∧ (byteAt (Safety.payload r) 1 = 1 → (s.blk.kn k).removing = true → (s.blk.bridges.get k).state = .service → (s.blk.kn k).returnPending = none →
      Safety.runs (.kernelServiceReturn r) s fun t => (t.blk.kn k).returnPending = some (r.mb, r.client) ∧ (t.blk.kn k).removing = true
        ∧ Safety.answers s t r 0x307 0x31 0xFFFFFFFF [] ∧ t.mem = s.mem)
    ∧ (byteAt (Safety.payload r) 1 = 2 → s.blk.anyService = false → (s.blk.bridges.get k).state = .service →
      ((s.blk.kn k).trimWrites < 100 → Safety.runs (.kernelServiceRecalibrate r) s fun t => (t.blk.kn k).service = some 2
        ∧ (t.blk.kn k).trimWrites = (s.blk.kn k).trimWrites ∧ Safety.answers s t r 0x307 1 0xFFFFFFFF [] ∧ t.mem = s.mem)
      ∧ (100 ≤ (s.blk.kn k).trimWrites → Safety.runs (.kernelServiceRecalibrate r) s fun t => Safety.refuses s t r 0x307 0x21 0xFFFF 7 0))
    ∧ (byteAt (Safety.payload r) 1 = 3 → s.blk.anyService = false → (s.blk.bridges.get k).state = .service →
      Safety.runs (.kernelServiceReload r) s fun t => (t.blk.kn k).service = some 3 ∧ Safety.answers s t r 0x307 1 0xFFFFFFFF [] ∧ t.mem = s.mem)) ∧
  (∀ (k : Fin 4) (s : State), (s.blk.kn k).removing = true → (∀ c : Fin 40, (s.blk.ch c).conducting = false) → (s.blk.kn k).returnPending = none →
    Safety.runs (.kernelOutOfService k) s fun t => (t.blk.kn k).removing = false ∧ (t.blk.kn k).service = none
      ∧ (t.blk.bridges.get k).state = (s.blk.bridges.get k).state
      ∧ ((s.blk.kn k).bufLost = 0 → Safety.kernelRoom s.blk k 1 → Safety.lastKernelRecord t.blk k =
          some (srcK k, 0x80, 2, arg32 (min (s.blk.since (s.blk.kn k).serviceStart / 1000000) 0xFFFFFFFF), hw))
      ∧ (∀ j : Fin 4, j ≠ k → t.blk.kn j = s.blk.kn j) ∧ t.mem = s.mem) ∧
  (∀ (k : Fin 4) (s : State), (s.blk.kn k).joinNext = false →
    ((s.blk.kn k).service = some 2 → Safety.runs (.kernelServiceDone k) s fun t => (t.blk.kn k).service = none
      ∧ (t.blk.kn k).trimWrites = (s.blk.kn k).trimWrites + 1 ∧ (t.blk.bridges.get k).state = (s.blk.bridges.get k).state ∧ t.mem = s.mem)
    ∧ ((s.blk.kn k).service = some 3 → Safety.runs (.kernelServiceDone k) s fun t => (t.blk.kn k).service = none
      ∧ (t.blk.kn k).micro = BitVec.ofNat 8 ((s.blk.comp 3).slot (s.blk.comp 3).runB).major ∧ t.mem = s.mem)
    ∧ ((s.blk.kn k).service = some 1 → Safety.runs (.kernelServiceDone k) s fun t => (t.blk.kn k).joinNext = true ∧ t.mem = s.mem)
    ∧ ((s.blk.kn k).service = none → Safety.runs (.kernelServiceDone k) s fun t => t = s))

/-- R245, R273, R276, R389 to R391: `MODE_SET` schedules a transition whose guard holds for tick N+2; `TENANT_CTRL` asserts a stop, a start or a reset at the next tick, answers at once where nothing is left to do, and holds a start while a shut-down completes; `TENANT_REPLACE` schedules the replacement. Where a clause rests on the model's own choices and not on the spec, they are those of log entries 32, 43. -/
def Obligations.TransitionsAreScheduled : Prop :=
  (∀ (r : Req) (m : Mode) (s : State), Safety.accepted cmdModeSet r s.blk → Mode.ofCode (byteAt (Safety.payload r) 0).toNat = some m →
    nonZeroAt (Safety.payload r) 1 3 = none → s.blk.rcc.sched = none → s.blk.setGuard m = some true → mbOwner r.mb ≠ .safety →
    Safety.runs (.modeSet r) s fun t => t.blk.rcc.sched = some { target := m, cause := 2, at_ := s.blk.breath.bn + 2, rank := if m = .lockdown then 3 else 5, due := some { mb := r.mb, client := r.client, who := idByte (mbOwner r.mb), opcode := 0x202 } }
      ∧ t.blk.rcc.mode = s.blk.rcc.mode ∧ Safety.answers s t r 0x202 1 ((s.blk.breath.bn + 2).truncate 32) []
      ∧ (Safety.room s.blk srcRcc → Safety.lastRecord t.blk = some (srcRcc, 0xC, 1, wordAt (Safety.payload r) 4, idByte (mbOwner r.mb)))
      ∧ t.mem = s.mem) ∧
  (∀ (r : Req) (m : Mode) (s : State), Safety.accepted cmdModeSet r s.blk → Mode.ofCode (byteAt (Safety.payload r) 0).toNat = some m →
    nonZeroAt (Safety.payload r) 1 3 = none → s.blk.rcc.sched = none → s.blk.setGuard m ≠ some true → mbOwner r.mb ≠ .safety →
    Safety.runs (.modeSet r) s fun t => Safety.refuses s t r 0x202 0x21 0xFFFF 7 0) ∧
  (∀ (r : Req) (k : Fin 8) (s : State), Safety.accepted cmdTenantCtrl r s.blk → hosts (mbOwner r.mb) = true → s.blk.rcc.mode = .run →
    tenantArg (Safety.payload r) = some k → s.blk.hasTenant k = true → (s.blk.tn k).cfg.enabled = true → nonZeroAt (Safety.payload r) 2 2 = none →
    (s.blk.tn k).next = .none →
    (byteAt (Safety.payload r) 1 = 0 → (s.blk.tn k).state = .running → Safety.runs (.tenantCtrlStop r) s fun t => (t.blk.tn k).next = .stop 1
      ∧ (t.blk.tn k).state = .running ∧ (∀ j : Fin 8, j ≠ k → t.blk.tn j = s.blk.tn j)
      ∧ Safety.answers s t r 0x203 1 ((s.blk.breath.bn + 1).truncate 32) [] ∧ t.blk = { s.blk with tenants := t.blk.tenants, mboxes := t.blk.mboxes } ∧ t.mem = s.mem)
    ∧ (byteAt (Safety.payload r) 1 = 0 → (s.blk.tn k).state = .stopped → Safety.runs (.tenantCtrlStop r) s fun t => t.blk.tenants = s.blk.tenants
      ∧ Safety.okays s t r 0x203 [] ∧ Safety.onlyAnswers s t)
    ∧ (byteAt (Safety.payload r) 1 = 1 → (s.blk.tn k).state = .stopped → Safety.runs (.tenantCtrlStart r) s fun t => (t.blk.tn k).next = .start
      ∧ (t.blk.tn k).state = .stopped ∧ Safety.answers s t r 0x203 1 ((s.blk.breath.bn + 1).truncate 32) [] ∧ t.mem = s.mem)
    ∧ (byteAt (Safety.payload r) 1 = 1 → (s.blk.tn k).state = .running → Safety.runs (.tenantCtrlStart r) s fun t => t.blk.tenants = s.blk.tenants
      ∧ Safety.okays s t r 0x203 [] ∧ Safety.onlyAnswers s t)
    ∧ (byteAt (Safety.payload r) 1 = 2 → (s.blk.tn k).state = .running → Safety.runs (.tenantCtrlReset r) s fun t => (t.blk.tn k).next = .reset 1
      ∧ (t.blk.tn k).state = .running ∧ Safety.answers s t r 0x203 1 ((s.blk.breath.bn + 1).truncate 32) [] ∧ t.mem = s.mem)
    ∧ (byteAt (Safety.payload r) 1 = 1 → ((s.blk.tn k).state = .stopping ∨ (s.blk.tn k).state = .resetting) → (s.blk.tn k).pending = none →
      (s.blk.tn k).pendingDue = [] → Safety.runs (.tenantCtrlStart r) s fun t => (t.blk.tn k).pending = some false
        ∧ (t.blk.tn k).state = (s.blk.tn k).state ∧ Safety.answers s t r 0x203 0x31 0xFFFFFFFF []
        ∧ (Safety.room s.blk (srcT k) → Safety.lastRecord t.blk = some (srcT k, 4, 1, 1, BitVec.ofNat 8 k.val)) ∧ t.mem = s.mem)) ∧
  (∀ (r : Req) (k : Fin 8) (s : State), Safety.accepted cmdTenantReplace r s.blk → (s.blk.rcc.mode = .run → s.blk.full = true) →
    tenantArg (Safety.payload r) = some k → s.blk.hasTenant k = true → (s.blk.tn k).cfg.enabled = true → nonZeroAt (Safety.payload r) 2 6 = none →
    (byteAt (Safety.payload r) 1).toNat ≤ 1 → leAt (Safety.payload r) 8 8 = 0 →
    ((s.blk.comp (tenantComp k)).slot (decide ((byteAt (Safety.payload r) 1).toNat = 1))).usable = true → (s.blk.tn k).state = .running →
    (s.blk.tn k).replace = none → (s.blk.tn k).replacing = none → Safety.runs (.tenantReplace r) s fun t =>
      (t.blk.tn k).replace = some (s.blk.breath.bn + 2, decide ((byteAt (Safety.payload r) 1).toNat = 1),
        { mb := r.mb, client := r.client, who := idByte (mbOwner r.mb), opcode := 0x308 })
      ∧ (t.blk.tn k).state = .running ∧ (∀ j : Fin 8, j ≠ k → t.blk.tn j = s.blk.tn j)
      ∧ Safety.answers s t r 0x308 1 ((s.blk.breath.bn + 2).truncate 32) [] ∧ t.mem = s.mem)

/-- R53, R265, R266, R272 to R275, R282: a shut-down ends with the granules zeroed, in `STOPPED` or in the start of a reset; a start ends by the measurement of the image; windows give and take the vCPU; faults are counted, and a limit, an abort or overruns assert a reset at the next tick, or give the tenant up at `RESET_LIMIT`. Where a clause rests on the model's own choices and not on the spec, they are those of log entry 32. -/
def Obligations.TenantsRunAndStop : Prop :=
  (∀ (k : Fin 8) (s : State), ((s.blk.tn k).state = .stopping ∨ (s.blk.tn k).state = .resetting) →
    (∀ g ∈ (s.blk.tn k).cfg.granules ++ (s.blk.tn k).extraZero, g < 1024) → Safety.runs (.tenantShutdownComplete k) s fun t =>
    ((s.blk.tn k).state = .stopping → (t.blk.tn k).state = .stopped ∧ (t.blk.tn k).next = (if (s.blk.tn k).pending.isSome then .start else .none))
    ∧ ((s.blk.tn k).state = .resetting → (t.blk.tn k).state = .starting)
    ∧ (t.blk.tn k).pending = none
    ∧ (∀ g ∈ (s.blk.tn k).cfg.granules, ∀ a : Nat, 0x80000000 + g * 0x200000 ≤ a → a < 0x80000000 + (g + 1) * 0x200000 → Mem.read t.mem a = 0)
    ∧ (∀ a : Nat, (∀ g ∈ (s.blk.tn k).cfg.granules ++ (s.blk.tn k).extraZero, a < 0x80000000 + g * 0x200000 ∨ 0x80000000 + (g + 1) * 0x200000 ≤ a) →
        Mem.read t.mem a = Mem.read s.mem a)
    ∧ (∀ j : Fin 8, j ≠ k → t.blk.tn j = s.blk.tn j)) ∧
  (∀ (k : Fin 8) (s : State), (s.blk.tn k).state = .starting → (s.blk.tn k).runNext = false → (s.blk.tn k).replacing = none →
    let c := s.blk.comp (tenantComp k)
    (s.blk.tn k).trySlot = c.runB → Safety.runs (.tenantStartComplete k) s fun t =>
      (measured s.mem (cTenant k.val) (s.blk.tn k).trySlot (c.slot (s.blk.tn k).trySlot) = true →
        (t.blk.tn k).runNext = true ∧ (t.blk.tn k).state = .starting)
      ∧ (measured s.mem (cTenant k.val) (s.blk.tn k).trySlot (c.slot (s.blk.tn k).trySlot) = false → (t.blk.tn k).state = .stopped ∧ t.mem = s.mem
        ∧ (Safety.room s.blk (srcT k) → Safety.lastRecord t.blk = some (srcT k, 7, 4, arg32 (b2n (s.blk.tn k).trySlot), BitVec.ofNat 8 k.val)))) ∧
  (∀ (k : Fin 8) (w : Fin 16) (win : Window) (s : State), (s.blk.tn k).cfg.windows[w.val]? = some win → (s.blk.tn k).state = .running →
    (Safety.runs (.tenantWindowStart k w) s fun t => win.vcpu ∈ (t.blk.tn k).vcpuIn ∧ t.blk = { s.blk with tenants := t.blk.tenants } ∧ t.mem = s.mem)
    ∧ (Safety.runs (.tenantWindowEnd k w) s fun t => win.vcpu ∉ (t.blk.tn k).vcpuIn ∧ t.blk = { s.blk with tenants := t.blk.tenants } ∧ t.mem = s.mem)) ∧
  (∀ (k : Fin 8) (s : State), Safety.runs (.guestException k) s fun t => (t.blk.tn k).faults = (s.blk.tn k).faults + 1
    ∧ (∀ j : Fin 8, j ≠ k → t.blk.tn j = s.blk.tn j) ∧ t.blk = { s.blk with tenants := t.blk.tenants } ∧ t.mem = s.mem) ∧
  (∀ s : State, Safety.runs .faultCounterClear s fun t => (∀ k : Fin 8, t.blk.tn k = { s.blk.tn k with faults := 0 })
    ∧ t.blk = { s.blk with tenants := t.blk.tenants } ∧ t.mem = s.mem) ∧
  (∀ (k : Fin 8) (s : State), (s.blk.tn k).state = .running → (s.blk.tn k).next = .none → (s.blk.tn k).autoResets = [] →
    (1 < (s.blk.tn k).cfg.resetLimit →
      (Safety.runs (.tenantAbort k) s fun t => (t.blk.tn k).next = .reset 4 ∧ (t.blk.tn k).autoResets = [s.blk.time.dt]
        ∧ t.blk = { s.blk with tenants := t.blk.tenants } ∧ t.mem = s.mem)
      ∧ ((s.blk.tn k).cfg.faultLimit ≤ (s.blk.tn k).faults → Safety.runs (.tenantFaultLimit k) s fun t => (t.blk.tn k).next = .reset 3
        ∧ (Safety.room s.blk (srcT k) → Safety.lastRecord t.blk = some (srcT k, 5, 3, arg32 (s.blk.tn k).faults, BitVec.ofNat 8 k.val)) ∧ t.mem = s.mem)
      ∧ (s.blk.breath.ovrLimit ≤ s.blk.breath.tovrConsec.get k → Safety.runs (.tenantOverrunReset k) s fun t => (t.blk.tn k).next = .reset 2
        ∧ (Safety.room s.blk srcBre → Safety.lastRecord t.blk = some (srcBre, 0x13, 3, arg32 (s.blk.breath.tovrConsec.get k), BitVec.ofNat 8 k.val))
        ∧ t.mem = s.mem))
    ∧ ((s.blk.tn k).cfg.resetLimit = 1 → Safety.runs (.tenantAbort k) s fun t => (t.blk.tn k).next = .stop 4 ∧ (t.blk.tn k).givenUp = true
        ∧ (Safety.room s.blk (srcT k) → Safety.lastRecord t.blk = some (srcT k, 6, 3, 0, BitVec.ofNat 8 k.val)) ∧ t.mem = s.mem))

/-! ### The breath (R29 to R62) -/

/-- R34, R35, R37, R42 to R45, R50, R63, R196, R386: a tick advances BN, makes the cut of before the previous one and clears `BRE_DONE`; it is no event within a breath, and stops the breath of a hold-up commit; the snapshot goes to the page of the BN's parity, the inboxes to the running tenants; the commit deadline forms the commit bits by owner, and a joined kernel takes them with its commit message. R49, R52, R58: a breath-done call that names the present BN before the deadline sets the tenant's bit, one that names an earlier BN is late; from the fifth unverified breath the safety program's channels take their safe state; a record not sent in time is dropped and counted, and the drops are logged at most once per second. Where a clause rests on the model's own choices and not on the spec, they are those of log entries 37, 38. -/
def Obligations.BreathsPassTheirPhases : Prop :=
  (∀ (ms : List KernelMeas) (s : State), s.blk.breath.running = true → (s.blk.breath.phase = 0 ∨ s.blk.breath.phase = 4) → s.blk.rcc.holdup = false →
    Safety.runs (.tick ms) s fun t => t.blk.breath.bn = s.blk.breath.bn + 1 ∧ t.blk.breath.prevCut = s.blk.breath.cutSeq ∧ t.blk.breath.doneT = 0
      ∧ (s.blk.time.dt.toNat ≤ s.blk.breath.dueDt.toNat → t.blk.breath.tickDt = s.blk.breath.dueDt)) ∧
  (∀ (ms : List KernelMeas) (s : State), s.blk.breath.running = true → (s.blk.breath.phase = 0 ∨ s.blk.breath.phase = 4) → s.blk.rcc.holdup = true →
    Safety.runs (.tick ms) s fun t => t.blk.breath.running = false ∧ t.blk.breath.bn = s.blk.breath.bn ∧ t.mem = s.mem) ∧
  (∀ s : State, s.blk.breath.running = true → s.blk.breath.phase = 1 → (s.blk.breath.header.length = 256) → Safety.canonical s →
    Safety.runs .snapshotTransferDone s fun t => t.blk.breath = { s.blk.breath with phase := 2 }
      ∧ (let page := if s.blk.breath.bn.toNat % 2 = 0 then 0x10000000 else 0x10040000
        (∀ i : Nat, i < 256 → Mem.read t.mem (page + i) = byteAt s.blk.breath.header i)
        ∧ (∀ a : Nat, (a < page ∨ page + 0x40000 ≤ a) → Mem.read t.mem a = Mem.read s.mem a))) ∧
  (∀ s : State, s.blk.breath.running = true → s.blk.breath.phase = 2 → s.blk.dr.present = false → Safety.runs .inboxDistribute s fun t =>
    t.blk.breath = { s.blk.breath with phase := 3 }
    ∧ t.mem = Mem.stores s.mem ((upTo 8).flatMap fun k => if (s.blk.tn k).cfg.enabled ∧ (s.blk.tn k).state = .running then
        (s.blk.tn k).cfg.guestStores 64 (if s.blk.breath.bn.toNat % 2 = 0 then (s.blk.tn k).cfg.inboxEven else (s.blk.tn k).cfg.inboxOdd).toNat
          ((s.blk.inbox (.tenant k)).take (s.blk.tn k).cfg.inboxSize) else [])) ∧
  (∀ s : State, s.blk.breath.running = true → 1 ≤ s.blk.breath.phase → s.blk.breath.phase ≤ 3 →
    Safety.runs .chanterStagingComplete s fun t => t.blk.breath = { s.blk.breath with doneCh := true } ∧ t.blk = { s.blk with breath := t.blk.breath } ∧ t.mem = s.mem) ∧
  (∀ s : State, s.blk.breath.running = true → 1 ≤ s.blk.breath.phase → s.blk.breath.phase ≤ 3 → s.blk.rcc.episode = none → s.blk.breath.commitT = 0 →
    Safety.runs .commitDeadline s fun t => t.blk.breath.phase = 4
      ∧ (∀ c : Fin 40, (s.blk.ch (s.blk.lead c)).owner = .chanter → t.blk.breath.commit.get c = s.blk.breath.doneCh)
      ∧ (∀ (c : Fin 40) (k : Fin 8), (s.blk.ch (s.blk.lead c)).owner = .tenant k → (s.blk.tn k).state = .running →
          t.blk.breath.commit.get c = s.blk.breath.doneT.toNat.testBit k.val)) ∧
  (∀ (k : Fin 4) (s : State), s.blk.breath.running = true → s.blk.breath.phase = 4 → (s.blk.bridges.get k).state = .joined → (s.blk.kn k).powered = true →
    (s.blk.bridges.get k).posted = [] → Safety.runs (.commitMessageReceived k) s fun t => (t.blk.kn k).gotCommit = true
      ∧ (∀ n : Fin 10, (t.blk.kn k).commitBits.toNat.testBit n.val = s.blk.breath.commit.get (chanOf k n))
      ∧ (t.blk.kn k).swapFlag = s.blk.cfg.swapFlag ∧ (∀ j : Fin 4, j ≠ k → t.blk.kn j = s.blk.kn j) ∧ t.mem = s.mem) ∧
  (∀ (k : Fin 8) (n : BitVec 48) (s : State), (s.blk.tn k).state = .running → s.blk.breath.running = true → 1 ≤ s.blk.breath.phase →
    (n = s.blk.breath.bn → s.blk.breath.phase ≤ 3 → Safety.runs (.breathDoneCall k n) s fun t =>
      t.blk.breath = { s.blk.breath with doneT := s.blk.breath.doneT ||| BitVec.ofNat 8 (2 ^ k.val) } ∧ t.mem = s.mem)
    ∧ (n.toNat < s.blk.breath.bn.toNat → Safety.runs (.breathDoneCall k n) s fun t =>
      t.blk.breath.doneT = s.blk.breath.doneT ∧ t.blk.breath.lateCalls.toNat.testBit k.val = true ∧ t.mem = s.mem)) ∧
  (∀ (k : Fin 8) (n : BitVec 48) (s : State), (s.blk.tn k).state ≠ .running → Safety.runs (.breathDoneCall k n) s fun t => t = s) ∧
  (∀ s : State, (s.blk.breath.unverified < 5 → Safety.runs .unverifiedSafeState s fun t => t = s)
    ∧ (5 ≤ s.blk.breath.unverified → Safety.runs .unverifiedSafeState s fun t => t.mem = s.mem ∧ ∀ c : Fin 40, (s.blk.ch c).owner = .safety →
        s.blk.isFollower c = false → s.blk.kernelRuns (kOf c) = true → (s.blk.bridges.get (kOf c)).state = .joined → (s.blk.ch c).fallbackOn = false →
        (t.blk.ch c).safeOn = true)) ∧
  (∀ (r : BitVec 48 × List (List Byte)) (rest : List (BitVec 48 × List (List Byte))) (s : State), s.blk.breath.recQueue = r :: rest →
    Safety.runs .breathRecordDrop s fun t => t.blk.breath = { s.blk.breath with recQueue := rest, recDrop := satInc s.blk.breath.recDrop 0xFFFFFFFF, recDropNew := satInc s.blk.breath.recDropNew 0xFFFFFFFF }
      ∧ t.blk = { s.blk with breath := t.blk.breath } ∧ t.mem = s.mem) ∧
  (∀ s : State, 0 < s.blk.breath.recDropNew → (∀ d : BitVec 64, s.blk.breath.recLogDt = some d → 1000000000 ≤ s.blk.since d) → Safety.room s.blk srcBre →
    Safety.runs .recDrop s fun t => Safety.lastRecord t.blk = some (srcBre, 0x17, 1, arg32 s.blk.breath.recDropNew, hw) ∧ t.blk.breath.recDropNew = 0
      ∧ t.blk.breath.recLogDt = some s.blk.time.dt ∧ t.mem = s.mem) ∧
  (∀ (d : BitVec 64) (s : State), s.blk.breath.recLogDt = some d → s.blk.since d < 1000000000 → Safety.runs .recDrop s fun t => t = s)

/-! ### The double-reed unit (R354 to R372) -/

/-- R359, R361 to R363, R365, R366: pass A, then pass B with the writes it is signed over; equal passes verify the task, different ones diverge and count; verified tasks release the outputs and start the fence, which verifies the breath before the deadline and counts as pass B incomplete after it; a trap, an uncorrectable read, a full buffer and a spent budget end a pass incomplete. Where a clause rests on the model's own choices and not on the spec, they are those of log entry 33. -/
def Obligations.PassesAreVerified : Prop :=
  (∀ (k : Fin 2) (s : State), s.blk.safetyRuns = true → s.blk.dr.taskOn k = true → s.blk.dr.failed.get k = false → (s.blk.task k).pass = .idle →
    s.blk.breath.running = true → s.blk.breath.phase = 3 → Safety.runs (.passAStart k) s fun t => (t.blk.task k).pass = .inA
      ∧ (∀ j : Fin 2, j ≠ k → t.blk.task j = s.blk.task j) ∧ t.blk = { s.blk with dr := t.blk.dr } ∧ t.mem = s.mem) ∧
  (∀ (k : Fin 2) (res : PassResult) (s : State), res.writes.all (s.blk.captures k) = true → stateWords res.writes ≤ 4096 → (outputsOf res.writes).length ≤ 2048 →
    ((s.blk.task k).pass = .inA → Safety.runs (.passEnd k res) s fun t => (t.blk.task k).pass = .inB ∧ (t.blk.task k).doneA = true
      ∧ (t.blk.task k).capA = res.writes ∧ (t.blk.task k).sigA = signature res.writes ∧ (t.blk.task k).verified = (s.blk.task k).verified ∧ t.mem = s.mem)
    ∧ ((s.blk.task k).pass = .inB → (s.blk.task k).sigA ≠ signature res.writes → s.blk.dr.debugOn = 0 → (s.blk.task k).counted = false →
      Safety.runs (.passEnd k res) s fun t => (t.blk.task k).pass = .ended ∧ (t.blk.task k).verified = false ∧ (t.blk.task k).outcome = 1
        ∧ (t.blk.task k).consec = satInc (s.blk.task k).consec 15 ∧ (t.blk.task k).divs = satInc (s.blk.task k).divs 0xFFFFFFFF
        ∧ (Safety.room s.blk (srcDr k) → Safety.lastRecord t.blk = some (srcDr k, 1, 3,
            arg32 ((outputsOf (s.blk.task k).capA).length + (outputsOf res.writes).length * 65536), 0x10)) ∧ t.mem = s.mem)
    ∧ ((s.blk.task k).pass = .inB → (s.blk.task k).sigA = signature res.writes → s.blk.dr.debugOn = 0 →
      (outputsOf (s.blk.task k).capA).length = (outputsOf res.writes).length → (storesOf (s.blk.task k).capA).length = (storesOf res.writes).length →
      ((∃ j : Fin 2, j ≠ k ∧ s.blk.dr.taskOn j = true ∧ (s.blk.task j).verified = false) → Safety.runs (.passEnd k res) s fun t =>
        (t.blk.task k).verified = true ∧ (t.blk.task k).outcome = 0 ∧ t.blk.dr.fenceRunning = s.blk.dr.fenceRunning ∧ t.mem = s.mem)
      ∧ ((∀ j : Fin 2, j ≠ k → s.blk.dr.taskOn j = true → (s.blk.task j).verified = true) → Safety.runs (.passEnd k res) s fun t =>
        t.blk.dr.fenceRunning = true))) ∧
  (∀ s : State, s.blk.dr.fenceRunning = true → s.blk.outstanding .safety = 0 → s.blk.breath.running = true →
    (s.blk.breath.phase = 3 → Safety.runs .safetyReleaseFenceDone s fun t => t.blk.breath = { s.blk.breath with doneV := true }
      ∧ t.blk.dr.verifiedBn = s.blk.breath.bn ∧ t.blk.dr.fenceRunning = false ∧ (∀ k : Fin 2, (t.blk.task k).consec = 0)
      ∧ t.mem = Mem.stores s.mem (s.blk.dr.enabled.flatMap s.blk.drainState))
    ∧ (s.blk.breath.phase = 4 → s.blk.dr.debugOn = 0 → Safety.runs .safetyReleaseFenceDone s fun t => t.blk.breath = s.blk.breath
      ∧ t.blk.dr.fenceRunning = false ∧ t.blk.dr.verifiedBn = s.blk.dr.verifiedBn
      ∧ (∀ k : Fin 2, s.blk.dr.taskOn k = true → (t.blk.task k).outcome = 3 ∧ (t.blk.task k).verified = false) ∧ t.mem = s.mem)) ∧
  (∀ (k : Fin 2) (s : State), ((s.blk.task k).pass = .inA ∨ (s.blk.task k).pass = .inB) → s.blk.dr.debugOn = 0 → (s.blk.task k).counted = false →
    (Safety.runs (.passBudgetExpiry k) s fun t => (t.blk.task k).outcome = (if (s.blk.task k).pass = .inA then 2 else 3) ∧ (t.blk.task k).pass = .ended
      ∧ (t.blk.task k).consec = satInc (s.blk.task k).consec 15 ∧ t.blk = { s.blk with dr := t.blk.dr } ∧ t.mem = s.mem)
    ∧ (∀ (mc : Byte) (pc : Word), Safety.runs (.passTrap k mc pc) s fun t => (t.blk.task k).outcome = 4 ∧ (t.blk.task k).pass = .ended
      ∧ (t.blk.task k).mcause = mc ∧ (t.blk.task k).trapPc = pc ∧ (t.blk.task k).trapB = decide ((s.blk.task k).pass = .inB)
      ∧ bit t.blk.dr.sticky 1 = true ∧ (Safety.room s.blk (srcDr k) → Safety.lastRecord t.blk = some (srcDr k, 2, 3,
          arg32 (mc.toNat + 256 * b2n (decide ((s.blk.task k).pass = .inB))), 0x10)) ∧ t.mem = s.mem)
    ∧ (∀ a : Word, Safety.runs (.passUncorrectable k a) s fun t => (t.blk.task k).outcome = 5 ∧ bit t.blk.dr.sticky 2 = true
      ∧ (Safety.room s.blk (srcDr k) → Safety.lastRecord t.blk = some (srcDr k, 3, 3, a, 0x10)) ∧ t.mem = s.mem)
    ∧ (∀ st : Bool, Safety.runs (.passBufferFull k st) s fun t => (t.blk.task k).outcome = 7 ∧ bit t.blk.dr.sticky (if st then 3 else 4) = true
      ∧ (Safety.room s.blk (srcDr k) → Safety.lastRecord t.blk = some (srcDr k, if st then 4 else 5, 3, arg32 (b2n (decide ((s.blk.task k).pass = .inB))), 0x10))
      ∧ t.mem = s.mem))

/-- R364, R366 to R370, R372: `DIV_LIMIT` counted breaths assert a safety reset, or give the program up at `RESET_LIMIT`; a reset ends the passes and the counts, and its load starts the program again with `ORIGIN` 1; a failed self-test gives an enabled core's program up; a bad code block and the end of debugging assert a reset; debug attaches in SERVICE only. Where a clause rests on the model's own choices and not on the spec, they are those of log entries 3, 33. -/
def Obligations.SafetyProgramIsReset : Prop :=
  (∀ (k : Fin 2) (s : State), s.blk.safetyRuns = true → s.blk.dr.taskOn k = true → s.blk.dr.divLimit ≤ (s.blk.task k).consec → s.blk.dr.resets = [] →
    (1 < s.blk.dr.resetLimit → Safety.runs .safetyDivergenceLimit s fun t => t.blk.dr.assertReset = some 1 ∧ t.blk.dr.resets = [s.blk.time.dt]
      ∧ t.blk = { s.blk with dr := t.blk.dr } ∧ t.mem = s.mem)
    ∧ (s.blk.dr.resetLimit = 1 → Safety.runs .safetyDivergenceLimit s fun t => t.blk.dr.givenUp = true ∧ t.blk.dr.run = false ∧ bit t.blk.rcc.gpioFault 1 = true
      ∧ (Safety.room s.blk (srcDr 0) → Safety.lastRecord t.blk = some (srcDr 0, 8, 4, 0, 0x10)) ∧ t.mem = s.mem)) ∧
  (∀ (c : Fin 7) (s : State), 2 ≤ c.val → s.blk.dr.present = true → s.blk.dr.givenUp = false → Safety.runs (.safetyReset c) s fun t =>
    t.blk.dr.resetting = true ∧ t.blk.dr.fenceRunning = false ∧ (∀ k : Fin 2, (t.blk.task k).pass = .ended ∧ (t.blk.task k).consec = 0 ∧ (t.blk.task k).capA = [])
    ∧ t.mem = s.mem) ∧
  (∀ s : State, s.blk.dr.resetting = true → let c := s.blk.comp 1
    Safety.runs .safetyResetComplete s fun t =>
      (measured s.mem cSafety c.runB (c.slot c.runB) = true → t.blk.dr.resetting = false ∧ t.blk.dr.run = true ∧ t.blk.dr.origin = true)
      ∧ (measured s.mem cSafety c.runB (c.slot c.runB) = false → t.blk.dr.resetting = true ∧ t.mem = s.mem)) ∧
  (∀ (c : Fin 2) (s : State),
    (Safety.runs (.selftestSlice c true) s fun t => t.blk.dr.slice = (if c = 1 then (s.blk.dr.slice + 1) % 64 else s.blk.dr.slice)
      ∧ t.blk.dr.failed = s.blk.dr.failed ∧ t.blk = { s.blk with dr := t.blk.dr } ∧ t.mem = s.mem)
    ∧ (Safety.runs (.selftestSlice c false) s fun t => t.blk.dr.failed.get c = true ∧ t.blk.dr.lastBad = s.blk.dr.slice ∧ bit t.blk.dr.sticky 6 = true
      ∧ (s.blk.dr.taskOn c = true → s.blk.dr.run = true → t.blk.dr.givenUp = true ∧ t.blk.dr.run = false)
      ∧ (s.blk.dr.run = false → Safety.room s.blk (srcDr c) → Safety.lastRecord t.blk = some (srcDr c, 9, 4, arg32 s.blk.dr.slice, 0x10)) ∧ t.mem = s.mem)) ∧
  (∀ s : State, s.blk.safetyRuns = true →
    (Safety.runs (.codeCheckBlock true) s fun t => t.blk.dr.nextBlock = (s.blk.dr.nextBlock + 1) % 256 ∧ t.blk.dr.assertReset = s.blk.dr.assertReset
      ∧ t.blk = { s.blk with dr := t.blk.dr } ∧ t.mem = s.mem)
    ∧ (Safety.runs (.codeCheckBlock false) s fun t => t.blk.dr.assertReset = some 3 ∧ bit t.blk.dr.sticky 7 = true
      ∧ t.blk.dr.blocksBad = satInc s.blk.dr.blocksBad 0xFFFF
      ∧ (Safety.room s.blk (srcDr 0) → Safety.lastRecord t.blk = some (srcDr 0, 0xA, 4, arg32 s.blk.dr.nextBlock, 0x10)) ∧ t.mem = s.mem)) ∧
  (∀ (c : Fin 2) (s : State),
    (s.blk.rcc.mode = .service → s.blk.dr.debugOn.toNat.testBit c.val = false → Safety.runs (.debugAttached c) s fun t =>
      t.blk.dr.debugOn.toNat.testBit c.val = true ∧ (Safety.room s.blk (srcDr c) → Safety.lastRecord t.blk = some (srcDr c, 0xB, 3, 0, 0x10)) ∧ t.mem = s.mem)
    ∧ (s.blk.rcc.mode ≠ .service → Safety.runs (.debugAttached c) s fun t => t = s)
    ∧ (s.blk.dr.debugOn.toNat.testBit c.val = true → Safety.runs (.debugDetached c) s fun t => t.blk.dr.debugOn.toNat.testBit c.val = false
      ∧ t.blk.dr.assertReset = some 2 ∧ (Safety.room s.blk (srcDr c) → Safety.lastRecord t.blk =
          some (srcDr c, 0xC, 2, arg32 (min (s.blk.since s.blk.dr.debugSince / 1000000000) 0xFFFFFFFF), 0x10)) ∧ t.mem = s.mem))

/-! ### Network management (R331 to R353) and CAN (R312 to R330) -/

/-- R334 to R341: a valid frame puts its sender into P; a RING frame moves its receiver into RING with the frame's round and gives the token to the address it names; a confirmation is the agreement of its receivers, and of its holder when it was sent; a frame from another node ends keep-alive mode; an invalid frame is only noted; a sleeping or disabled node hears nothing. Where a clause rests on the model's own choices and not on the spec, they are those of log entry 34. -/
def Obligations.NmFramesFormTheRing : Prop :=
  (∀ (c : Fin 6) (f : CanFrame) (s : State), ((s.blk.nm c).en = false ∨ (s.blk.nm c).state = .off ∨ (s.blk.nm c).state = .asleep ∨ inNmRange (s.blk.nm c).base f = false) →
    Safety.runs (.nmFrameReceived c f) s fun t => t.blk.nms = s.blk.nms ∧ t.blk.cans = s.blk.cans ∧ t.mem = s.mem) ∧
  (∀ (c : Fin 6) (f : CanFrame) (s : State), (s.blk.nm c).en = true → (s.blk.nm c).state ≠ .off → (s.blk.nm c).state ≠ .asleep →
    inNmRange (s.blk.nm c).base f = true →
    (decodeNm (s.blk.nm c).base f = none → Safety.runs (.nmFrameReceived c f) s fun t =>
      t.blk.nm c = { s.blk.nm c with sticky := orBits (s.blk.nm c).sticky 1 } ∧ (∀ d : Fin 6, d ≠ c → t.blk.nm d = s.blk.nm d)
        ∧ t.blk.cans = s.blk.cans ∧ t.mem = s.mem)
    ∧ (∀ g : NmFrame, decodeNm (s.blk.nm c).base f = some g → g.src ≠ (s.blk.nm c).addr →
      ((s.blk.nm c).state = .forming → g.kind = kRing → Safety.runs (.nmFrameReceived c f) s fun t =>
        (t.blk.nm c).state = .ring ∧ g.src ∈ (t.blk.nm c).present ∧ (t.blk.nm c).round = g.round
        ∧ ((t.blk.nm c).token = true ↔ g.dst = (s.blk.nm c).addr) ∧ (∀ d : Fin 6, d ≠ c → t.blk.nm d = s.blk.nm d)
        ∧ t.blk.cans = s.blk.cans ∧ t.mem = s.mem)
      ∧ ((s.blk.nm c).state = .forming → g.kind ≠ kRing → Safety.runs (.nmFrameReceived c f) s fun t =>
        (t.blk.nm c).state = .forming ∧ g.src ∈ (t.blk.nm c).present ∧ t.blk.cans = s.blk.cans ∧ t.mem = s.mem)
      ∧ ((s.blk.nm c).state = .ring → g.kind = kRing → g.flags.testBit 1 = false → Safety.runs (.nmFrameReceived c f) s fun t =>
        (t.blk.nm c).state = .ring ∧ g.src ∈ (t.blk.nm c).present ∧ (t.blk.nm c).round = g.round
        ∧ ((t.blk.nm c).token = true ↔ g.dst = (s.blk.nm c).addr) ∧ t.blk.cans = s.blk.cans ∧ t.mem = s.mem)
      ∧ ((s.blk.nm c).state = .ring → g.kind = kRing → g.flags.testBit 1 = true → Safety.runs (.nmFrameReceived c f) s fun t =>
        (t.blk.nm c).state = .settle ∧ (t.blk.nm c).armed = decide (c.val < 4) ∧ (t.blk.can c).fifoHeld = true
        ∧ (t.blk.nm c).cntSleep = satInc (s.blk.nm c).cntSleep 0xFFFFFFFF ∧ (t.blk.can c).fifo = (s.blk.can c).fifo)
      ∧ ((s.blk.nm c).state = .keepalive → (s.blk.nm c).ring = true → (s.blk.can c).alone = false → Safety.runs (.nmFrameReceived c f) s fun t =>
        (t.blk.nm c).state = .forming ∧ (t.blk.nm c).present = [(s.blk.nm c).addr] ∧ t.mem = s.mem)
      ∧ ((s.blk.nm c).state = .settle → (g.kind = kWake ∨ g.kind = kAlive) → (s.blk.nm c).ring = true → Safety.runs (.nmFrameReceived c f) s fun t =>
        (t.blk.nm c).state = .forming ∧ (t.blk.nm c).wakeBus = satInc (s.blk.nm c).wakeBus 0xFFFF ∧ (t.blk.can c).fifoHeld = false ∧ t.mem = s.mem))) ∧
  (∀ (c : Fin 6) (f : NmFrame) (s : State), (s.blk.nm c).inFlight = some f →
    (f.kind = kRing → f.flags.testBit 1 = true → (s.blk.nm c).state = .ring → Safety.runs (.nmFrameSent c) s fun t =>
      (t.blk.nm c).state = .settle ∧ (t.blk.nm c).inFlight = none ∧ (t.blk.nm c).armed = decide (c.val < 4) ∧ (t.blk.can c).fifoHeld = true)
    ∧ (f.kind = kRing → f.flags.testBit 1 = false → Safety.runs (.nmFrameSent c) s fun t =>
      t.blk.nm c = { s.blk.nm c with inFlight := none, coll := 0, token := false, tokenSent := true } ∧ t.blk.cans = s.blk.cans ∧ t.mem = s.mem)
    ∧ (f.kind = kKeepAlive → Safety.runs (.nmFrameSent c) s fun t =>
      t.blk.nm c = { s.blk.nm c with inFlight := none, coll := 0 } ∧ t.blk.cans = s.blk.cans ∧ t.mem = s.mem))

/-- R332, R333, R337 to R341, R345, R346: the timers of network management: the ring timer of FORMING starts the ring or keep-alive mode, in RING it drops the silent successor; the token timer passes the token; settle ends in sleep with the FIFO discarded and counted; keep-alive frames and silence; a false wake returns to sleep; lapsed requests and local holds end; a node that holds the bus awake is only logged. Where a clause rests on the model's own choices and not on the spec, they are those of log entry 34. -/
def Obligations.NmTimersMoveTheBus : Prop :=
  (∀ (c : Fin 6) (s : State), (s.blk.nm c).state = .forming → (s.blk.nm c).ringSeen = false → (s.blk.nm c).isLowest = true →
    (2 ≤ (s.blk.nm c).present.length → Safety.runs (.ringTimerExpiry c) s fun t => (t.blk.nm c).state = .ring
      ∧ (t.blk.nm c).round = (s.blk.nm c).round + 1 ∧ (∃ f : NmFrame, (t.blk.nm c).slot = some f ∧ f.kind = kRing ∧ f.dst = (s.blk.nm c).succ)
      ∧ (Safety.room s.blk (srcNm c) → Safety.lastRecord t.blk = some (srcNm c, 1, 1, arg32 (s.blk.nm c).present.length, hw))
      ∧ t.blk = { s.blk with nms := t.blk.nms, evs := t.blk.evs } ∧ t.mem = s.mem)
    ∧ ((s.blk.nm c).present.length ≤ 1 → (s.blk.nm c).expiries = 0 → Safety.runs (.ringTimerExpiry c) s fun t =>
      t.blk.nm c = { s.blk.nm c with expiries := 1 } ∧ t.blk = { s.blk with nms := t.blk.nms } ∧ t.mem = s.mem)
    ∧ ((s.blk.nm c).present.length ≤ 1 → (s.blk.nm c).expiries ≠ 0 → Safety.runs (.ringTimerExpiry c) s fun t => (t.blk.nm c).state = .keepalive
      ∧ (Safety.room s.blk (srcNm c) → Safety.lastRecord t.blk = some (srcNm c, 3, 2, 2, hw)) ∧ t.mem = s.mem)) ∧
  (∀ (c : Fin 6) (s : State), (s.blk.nm c).state = .ring → (s.blk.nm c).tokenSent = true → 3 ≤ (s.blk.nm c).present.length →
    (s.blk.nm c).present.Nodup → Safety.runs (.ringTimerExpiry c) s fun t => (t.blk.nm c).state = .ring ∧ (s.blk.nm c).succ ∉ (t.blk.nm c).present
      ∧ (t.blk.nm c).skips = satInc (s.blk.nm c).skips 0xFFFF ∧ bit (t.blk.nm c).sticky 1 = true
      ∧ (Safety.room s.blk (srcNm c) → Safety.lastRecord t.blk = some (srcNm c, 2, 2, arg32 (s.blk.nm c).succ, hw)) ∧ t.mem = s.mem) ∧
  (∀ (c : Fin 6) (s : State), (s.blk.nm c).state = .ring → (s.blk.nm c).token = true → Safety.runs (.tokenTimerExpiry c) s fun t =>
    (t.blk.nm c).token = false ∧ (t.blk.nm c).confirming = (s.blk.nm c).agreed
    ∧ (t.blk.nm c).round = (if (s.blk.nm c).isLowest then (s.blk.nm c).round + 1 else (s.blk.nm c).round)
    ∧ (∃ f : NmFrame, (t.blk.nm c).slot = some f ∧ f.kind = kRing ∧ f.dst = (s.blk.nm c).succ ∧ f.flags.testBit 1 = (s.blk.nm c).agreed
        ∧ (f.flags.testBit 0 = decide ((s.blk.nm c).ownReq = 0)) ∧ (f.flags.testBit 2 = decide ((s.blk.nm c).ownReq ≠ 0)))
    ∧ (∀ d : Fin 6, d ≠ c → t.blk.nm d = s.blk.nm d) ∧ t.blk = { s.blk with nms := t.blk.nms } ∧ t.mem = s.mem) ∧
  (∀ (c : Fin 6) (s : State), (s.blk.nm c).state = .settle → Safety.runs (.settleExpiry c) s fun t => (t.blk.nm c).state = .asleep
    ∧ (t.blk.can c).state = .asleep ∧ (t.blk.can c).fifo = [] ∧ (t.blk.can c).txDrop = satAdd (s.blk.can c).txDrop (s.blk.can c).fifo.length 0xFFFF
    ∧ (Safety.room s.blk (srcNm c) → Safety.lastRecord t.blk = some (srcNm c, 6, 1, arg32 (min (s.blk.since (s.blk.nm c).awakeSince / 1000000000) 0xFFFFFFFF), hw))
    ∧ t.blk = { s.blk with nms := t.blk.nms, cans := t.blk.cans, evs := t.blk.evs, nmg := t.blk.nmg } ∧ t.mem = s.mem) ∧
  (∀ (c : Fin 6) (s : State), (s.blk.nm c).state = .keepalive →
    ((s.blk.nm c).ownReq ≠ 0 → Safety.runs (.kaIntervalExpiry c) s fun t => (t.blk.nm c).state = .keepalive
      ∧ (∃ f : NmFrame, (t.blk.nm c).slot = some f ∧ f.kind = kKeepAlive ∧ f.flags.testBit 2 = true) ∧ t.blk = { s.blk with nms := t.blk.nms } ∧ t.mem = s.mem)
    ∧ ((s.blk.nm c).ownReq = 0 → Safety.runs (.kaIntervalExpiry c) s fun t => t = s)
    ∧ ((s.blk.nm c).ownReq = 0 → Safety.runs (.kaSilenceExpiry c) s fun t => (t.blk.nm c).state = .settle ∧ (t.blk.can c).fifoHeld = true
      ∧ (t.blk.nm c).armed = decide (c.val < 4) ∧ (t.blk.nm c).cntSleep = satInc (s.blk.nm c).cntSleep 0xFFFFFFFF)) ∧
  (∀ (c : Fin 6) (s : State), (s.blk.nm c).frameWake = true → (s.blk.nm c).state ≠ .asleep → (s.blk.nm c).state ≠ .off →
    ((s.blk.nm c).heardOther = true ∨ (s.blk.nm c).ownReq ≠ 0 → Safety.runs (.falseWakeExpiry c) s fun t =>
      t.blk.nm c = { s.blk.nm c with frameWake := false } ∧ t.blk = { s.blk with nms := t.blk.nms } ∧ t.mem = s.mem)
    ∧ ((s.blk.nm c).heardOther = false → (s.blk.nm c).ownReq = 0 → Safety.runs (.falseWakeExpiry c) s fun t => (t.blk.nm c).state = .asleep
      ∧ (t.blk.nm c).falseWakes = satInc (s.blk.nm c).falseWakes 0xFFFF ∧ (t.blk.nm c).armed = decide (c.val < 4) ∧ (t.blk.can c).state = .asleep
      ∧ (∀ f : Fin 4, (s.blk.nm c).wakeFilter = some f → ((t.blk.nm c).wfCount.get f).2 = satInc ((s.blk.nm c).wfCount.get f).2 0xFFFF)
      ∧ (Safety.room s.blk (srcNm c) → Safety.lastRecord t.blk = some (srcNm c, 8, 2, (s.blk.nm c).lastWakeId, hw)) ∧ t.mem = s.mem)) ∧
  (∀ (c : Fin 6) (i : Initiator) (s : State), bits s.blk.nmg.maxAwake 13 0 ≠ 0 → (findKey (s.blk.nm c).requests i).isSome = true →
    Safety.runs (.requestLapsed c i) s fun t => t.blk.nm c = { s.blk.nm c with requests := (s.blk.nm c).requests.filter (fun r => r.1 ≠ i) }
      ∧ (Safety.room s.blk (srcNm c) → Safety.lastRecord t.blk = some (srcNm c, 0xA, 2, arg32 (bits s.blk.nmg.maxAwake 13 0), idByte i))
      ∧ t.blk = { s.blk with nms := t.blk.nms, evs := t.blk.evs } ∧ t.mem = s.mem) ∧
  (∀ (c : Fin 6) (s : State), Safety.runs (.localHoldExpiry c) s fun t => t.blk.nm c = { s.blk.nm c with localHold := none }
    ∧ t.blk = { s.blk with nms := t.blk.nms } ∧ t.mem = s.mem) ∧
  (∀ (c : Fin 6) (a : Fin 64) (t0 : BitVec 64) (s : State), findKey (s.blk.nm c).hold a.val = some t0 → Safety.runs (.nodeHoldsAwake c a) s fun t =>
    (Safety.room s.blk (srcNm c) → Safety.lastRecord t.blk = some (srcNm c, 9, 2, arg32 (a.val + min (s.blk.since t0 / 3600000000000) 0xFFFF * 65536), hw))
    ∧ t.blk = { s.blk with evs := t.blk.evs } ∧ t.mem = s.mem)

/-- R343, R344, R348, R349, R168: a wake event in SETTLE or ASLEEP restarts the controller, is counted as the module's own or the bus's, and enters FORMING; an armed detector honours the first matching filter, a pattern, and frame errors beyond 31; in SLEEP it records a local cause; a local wake of a running module is logged with `NM_WAKE_SRC` and gives the buses their hold; the timer wakes only from SLEEP. Where a clause rests on the model's own choices and not on the spec, they are those of log entry 34. -/
def Obligations.WakesAreHonoured : Prop :=
  (∀ (c : Fin 6) (w : WakeCause) (id : BitVec 30) (s : State), ((s.blk.nm c).state = .settle ∨ (s.blk.nm c).state = .asleep) → (s.blk.nm c).ring = true →
    Safety.runs (.busWake c w id) s fun t => (t.blk.nm c).state = .forming ∧ (t.blk.nm c).present = [(s.blk.nm c).addr] ∧ (t.blk.nm c).armed = false
      ∧ (t.blk.nm c).frameWake = !ownWake w ∧ (t.blk.can c).fifoHeld = false ∧ ((s.blk.can c).state = .asleep → (t.blk.can c).state ≠ .asleep)
      ∧ (t.blk.nm c).wakeOwn = (if ownWake w then satInc (s.blk.nm c).wakeOwn 0xFFFF else (s.blk.nm c).wakeOwn)
      ∧ (t.blk.nm c).wakeBus = (if ownWake w then (s.blk.nm c).wakeBus else satInc (s.blk.nm c).wakeBus 0xFFFF)
      ∧ (∃ f : NmFrame, (t.blk.nm c).slot = some f ∧ f.kind = (if ownWake w then kWake else kAlive))
      ∧ (∀ d : Fin 6, d ≠ c → t.blk.nm d = s.blk.nm d ∧ t.blk.can d = s.blk.can d)
      ∧ t.blk = { s.blk with nms := t.blk.nms, cans := t.blk.cans, evs := t.blk.evs, nmg := t.blk.nmg } ∧ t.mem = s.mem) ∧
  (∀ (c : Fin 6) (w : WakeCause) (id : BitVec 30) (s : State), (s.blk.nm c).state ≠ .settle → (s.blk.nm c).state ≠ .asleep →
    Safety.runs (.busWake c w id) s fun t => t = s) ∧
  (∀ (c : Fin 6) (f : CanFrame) (j : Fin 4) (s : State), c.val < 4 → (s.blk.nm c).armed = true → f.fdf = false → (s.blk.nm c).matchFilter f = some j →
    ((s.blk.nm c).state = .asleep → s.blk.rcc.mode ≠ .sleep → (s.blk.nm c).ring = true → Safety.runs (.detectorWake c (.frame f)) s fun t =>
      (t.blk.nm c).state = .forming ∧ (t.blk.nm c).wakeFilter = some j ∧ (t.blk.nm c).lastWake = arg32 (4 + j.val * 16)
      ∧ ((t.blk.nm c).wfCount.get j).1 = satInc ((s.blk.nm c).wfCount.get j).1 0xFFFF ∧ t.mem = s.mem)
    ∧ (s.blk.rcc.mode = .sleep → (s.blk.nm c).swEn = true → Safety.runs (.detectorWake c (.frame f)) s fun t => t.blk.nmg.localWake = true
      ∧ t.blk.nmg.wakeSrc = arg32 (2 ^ (8 + c.val)) ∧ (t.blk.nm c).state = (s.blk.nm c).state ∧ t.blk.cans = s.blk.cans ∧ t.mem = s.mem)) ∧
  (∀ (c : Fin 6) (e : DetectorEvent) (s : State), (4 ≤ c.val ∨ (s.blk.nm c).armed = false) → Safety.runs (.detectorWake c e) s fun t => t = s) ∧
  (∀ (d : Fin 32) (s : State), s.blk.hasKernel (kOfDi d) = true → (s.blk.di d).wakeSource = true → Safety.runs (.diWakeRequest d) s fun t =>
    t.blk.nmg.localWake = true ∧ t.blk.nmg.wakeSrc = arg32 (1 + (srcDi d).toNat * 65536) ∧ t.blk = { s.blk with nmg := t.blk.nmg } ∧ t.mem = s.mem) ∧
  (∀ (src : BitVec 16) (s : State), s.blk.rcc.mode = .run → s.blk.rcc.episode = none → (∀ c : Fin 6, (s.blk.nm c).localBus = false) →
    Safety.runs (.moduleWake src true false) s fun t => t.blk.nmg.localWake = false
      ∧ (Safety.room s.blk srcNmModule → Safety.lastRecord t.blk = some (srcNmModule, 0xC, 1, arg32 (1 + src.toNat * 65536), hw))
      ∧ t.blk.nms = s.blk.nms ∧ t.blk = { s.blk with nmg := t.blk.nmg, evs := t.blk.evs } ∧ t.mem = s.mem) ∧
  (∀ s : State, s.blk.rcc.mode = .sleep → s.blk.rcc.sleepStep ≠ 5 → s.blk.nmg.timerWake ≠ 0 → Safety.runs .timerWake s fun t =>
    t.blk.nmg.localWake = true ∧ t.blk.nmg.wakeSrc = arg32 4 ∧ t.blk = { s.blk with nmg := t.blk.nmg } ∧ t.mem = s.mem) ∧
  (∀ s : State, (s.blk.nmg.timerWake = 0 ∨ s.blk.rcc.mode ≠ .sleep) → Safety.runs .timerWake s fun t => t = s) ∧
  (∀ s : State, Safety.runs .wakeOutPulseEnd s fun t => t.blk.nmg.pulse = false ∧ (bits s.blk.nmg.wakeOut 1 0 = 2 → t.blk.nmg.pin = false)
    ∧ t.blk = { s.blk with nmg := t.blk.nmg } ∧ t.mem = s.mem)

/-- R316, R317, R321, R322, R326: a frame received is counted and stored in the first object that takes it, the newest winning; the engine takes the visible request with the lowest close SEQ; the head enters arbitration after the time reference and network management; a success counts and takes the entry from the FIFO. R322 to R325: errors move the counters, and the state follows them; a transmitter above 255 is bus-off, with its record; the wait for the recovery begins with the delay under `BOFF_AUTO` or with RESTART without it, and ends in an active controller with both counters zero; REARM rearms every withdrawn object. Where a clause rests on the model's own choices and not on the spec, they are those of log entry 35. -/
def Obligations.CanFramesAndErrors : Prop :=
  (∀ (c : Fin 6) (f : CanFrame) (sof : BitVec 64) (s : State), (s.blk.can c).state = .active → (s.blk.can c).tec ≤ 127 → (s.blk.can c).recCnt ≤ 127 →
    Safety.runs (.canFrameReceived c f sof) s fun t => (t.blk.can c).rxFrames = (s.blk.can c).rxFrames + 1
      ∧ (t.blk.can c).recCnt = (s.blk.can c).recCnt - 1 ∧ (t.blk.can c).state = .active ∧ (t.blk.can c).txo = (s.blk.can c).txo
      ∧ (f.remote = true → (t.blk.can c).rxRemote = satInc (s.blk.can c).rxRemote 0xFFFF ∧ (t.blk.can c).rxo = (s.blk.can c).rxo)
      ∧ (∀ j : Fin 256, f.remote = false → (upTo 256).find? (fun i => ((s.blk.can c).rxo.get i).takes f) = some j →
          (t.blk.can c).rxo.get j = ((s.blk.can c).rxo.get j).store f sof ∧ (∀ i : Fin 256, i ≠ j → (t.blk.can c).rxo.get i = (s.blk.can c).rxo.get i)
          ∧ (((s.blk.can c).rxo.get j).isNew = true → (t.blk.can c).lost = satInc (s.blk.can c).lost 0xFFFFFFFF))
      ∧ (f.remote = false → (∀ i : Fin 256, ((s.blk.can c).rxo.get i).takes f = false) →
          (t.blk.can c).rxOther = satInc (s.blk.can c).rxOther 0xFFFF ∧ (t.blk.can c).rxo = (s.blk.can c).rxo)
      ∧ (∀ d : Fin 6, d ≠ c → t.blk.can d = s.blk.can d) ∧ t.mem = s.mem) ∧
  (∀ (c : Fin 6) (f : CanFrame) (sof : BitVec 64) (s : State), (s.blk.can c).onBus = false → Safety.runs (.canFrameReceived c f sof) s fun t => t = s) ∧
  (∀ (c : Fin 6) (n : Fin 10) (q : Fin 256) (m : Msg) (s : State), (s.blk.can c).onBus = true → (s.blk.can c).alone = false → s.blk.nextRequest c = some (n, q, m) →
    (64 ≤ (s.blk.can c).fifo.length → Safety.runs (.canTxEnqueue c) s fun t => t.blk.can c = { s.blk.can c with sticky := orBits (s.blk.can c).sticky 0x10 }
      ∧ t.blk.queues = s.blk.queues ∧ t.mem = s.mem)
    ∧ ((s.blk.can c).fifo.length < 64 → ∀ e : TxEntry, (s.blk.can c).judge (slotInit n) (bytesOf m.words) s.blk.time.dt = .ok e →
      Safety.runs (.canTxEnqueue c) s fun t => (t.blk.can c).fifo = (s.blk.can c).fifo ++ [e] ∧ (∀ p : Fin 256, p ≠ q → t.blk.queues.get p = s.blk.queues.get p) ∧ t.mem = s.mem)
    ∧ ((s.blk.can c).fifo.length < 64 → ∀ r : Nat, (s.blk.can c).judge (slotInit n) (bytesOf m.words) s.blk.time.dt = .error r →
      Safety.runs (.canTxEnqueue c) s fun t => (t.blk.can c).fifo = (s.blk.can c).fifo ∧ (t.blk.can c).txDrop = satInc (s.blk.can c).txDrop 0xFFFF ∧ t.mem = s.mem)) ∧
  (∀ (c : Fin 6) (s : State), (s.blk.can c).onBus = true → (s.blk.can c).listen = false → (s.blk.can c).sending = none → (s.blk.nm c).state ≠ .settle →
    ((s.blk.can c).trefSlot.isSome = true → Safety.runs (.canHeadArbitration c) s fun t =>
      t.blk.can c = { s.blk.can c with sending := some .tref, trefStart := s.blk.time.dt } ∧ t.blk = { s.blk with cans := t.blk.cans } ∧ t.mem = s.mem)
    ∧ ((s.blk.can c).trefSlot = none → (s.blk.nm c).slot.isSome = true → Safety.runs (.canHeadArbitration c) s fun t => (t.blk.can c).sending = some .nm
      ∧ (t.blk.nm c).inFlight = (s.blk.nm c).slot ∧ (t.blk.nm c).slot = none ∧ t.blk = { s.blk with cans := t.blk.cans, nms := t.blk.nms } ∧ t.mem = s.mem)
    ∧ (∀ (e : TxEntry) (l : List TxEntry), (s.blk.can c).trefSlot = none → (s.blk.nm c).slot = none → (s.blk.can c).fifoHeld = false → (s.blk.can c).fifo = e :: l →
        s.blk.aged (s.blk.can c) e = false → Safety.runs (.canHeadArbitration c) s fun t =>
          t.blk.can c = { s.blk.can c with sending := some .fifo, trefStart := s.blk.time.dt } ∧ t.blk = { s.blk with cans := t.blk.cans } ∧ t.mem = s.mem)) ∧
  (∀ (c : Fin 6) (e : TxEntry) (l : List TxEntry) (s : State), (s.blk.can c).sending = some .fifo → (s.blk.can c).state = .active → (s.blk.can c).alone = false →
    (s.blk.can c).tec ≤ 127 → (s.blk.can c).recCnt ≤ 127 → (s.blk.can c).fifo = e :: l → Safety.runs (.canTxSuccess c .fifo) s fun t =>
      (t.blk.can c).sending = none ∧ (t.blk.can c).fifo = l ∧ (t.blk.can c).txFrames = (s.blk.can c).txFrames + 1 ∧ (t.blk.can c).tec = (s.blk.can c).tec - 1
      ∧ (t.blk.can c).unack = 0 ∧ (t.blk.can c).rxo = (s.blk.can c).rxo ∧ (∀ d : Fin 6, d ≠ c → t.blk.can d = s.blk.can d) ∧ t.mem = s.mem) ∧
  (∀ (c : Fin 6) (x : CanSlot) (s : State), (s.blk.can c).sending ≠ some x → Safety.runs (.canTxSuccess c x) s fun t => t = s) ∧
  (∀ (c : Fin 6) (e : CanErr) (k : CanErrKind) (d : Bool) (s : State), (s.blk.can c).onBus = true → Safety.runs (.canRxError c e k d) s fun t =>
    (t.blk.can c).recCnt = satAdd (s.blk.can c).recCnt (recAdd k) 255 ∧ (t.blk.can c).tec = (s.blk.can c).tec
    ∧ (t.blk.can c).errFrames = satInc (s.blk.can c).errFrames 0xFFFFFFFF ∧ (t.blk.can c).lastErr = lastErrWord e d false
    ∧ ((s.blk.can c).tec ≤ 127 → (t.blk.can c).state = (if 127 < (t.blk.can c).recCnt then .passive else .active))
    ∧ (∀ f : Fin 6, f ≠ c → t.blk.can f = s.blk.can f) ∧ t.mem = s.mem) ∧
  (∀ (c : Fin 6) (e : CanErr) (w : CanField) (d : Bool) (s : State), (s.blk.can c).state = .active → (s.blk.can c).sending = some .fifo → e ≠ .ack →
    (w = .arbitration ∨ w = .other) → (s.blk.can c).tec ≤ 127 → (s.blk.can c).recCnt ≤ 127 → Safety.runs (.canTxError c .fifo e .plain w d) s fun t =>
      (t.blk.can c).tec = (s.blk.can c).tec + 8 ∧ (t.blk.can c).sending = none ∧ (t.blk.can c).fifo = (s.blk.can c).fifo
      ∧ (t.blk.can c).state = (if 127 < (s.blk.can c).tec + 8 then .passive else .active)
      ∧ (t.blk.can c).lastErr = lastErrWord e d true ∧ t.blk = { s.blk with cans := t.blk.cans, evs := t.blk.evs } ∧ t.mem = s.mem) ∧
  (∀ (c : Fin 6) (e : CanErr) (w : CanField) (d : Bool) (s : State), (s.blk.can c).state = .passive → (s.blk.can c).sending = some .fifo → e ≠ .ack →
    (w = .arbitration ∨ w = .other) → 248 ≤ (s.blk.can c).tec → Safety.runs (.canTxError c .fifo e .plain w d) s fun t =>
      (t.blk.can c).state = .busOff ∧ (t.blk.can c).boffDt = s.blk.time.dt ∧ (t.blk.can c).boffWait = false ∧ (t.blk.can c).sending = none
      ∧ ((s.blk.can c).boffFlush = true → (t.blk.can c).fifo = []) ∧ ((s.blk.can c).boffFlush = false → (t.blk.can c).fifo = (s.blk.can c).fifo)
      ∧ ((s.blk.can c).trefSlot = none → Safety.room s.blk (srcCan c) → Safety.lastRecord t.blk = some (srcCan c, 3, 3, arg32 (errCode e), hw)) ∧ t.mem = s.mem) ∧
  (∀ (c : Fin 6) (s : State), (s.blk.can c).state = .busOff →
    ((s.blk.can c).boffAuto = true → Safety.runs (.boffDelayExpiry c) s fun t => t.blk.can c = { s.blk.can c with boffWait := true } ∧ t.blk = { s.blk with cans := t.blk.cans } ∧ t.mem = s.mem)
    ∧ ((s.blk.can c).boffAuto = false → Safety.runs (.boffDelayExpiry c) s fun t => t = s)
    ∧ ((s.blk.can c).boffAuto = false → Safety.runs (.canCmdRestart c) s fun t => t.blk.can c = { s.blk.can c with boffWait := true } ∧ t.blk = { s.blk with cans := t.blk.cans } ∧ t.mem = s.mem)
    ∧ ((s.blk.can c).boffAuto = true → Safety.runs (.canCmdRestart c) s fun t => t = s)
    ∧ ((s.blk.can c).boffWait = true → Safety.runs (.busOffRecovered c) s fun t => (t.blk.can c).state = .active ∧ (t.blk.can c).tec = 0 ∧ (t.blk.can c).recCnt = 0
      ∧ (Safety.room s.blk (srcCan c) → Safety.lastRecord t.blk = some (srcCan c, 4, 1, arg32 (min (s.blk.since (s.blk.can c).boffDt / 1000000) 0xFFFFFFFF), hw))
      ∧ (∀ d : Fin 6, d ≠ c → t.blk.can d = s.blk.can d) ∧ t.blk = { s.blk with cans := t.blk.cans, evs := t.blk.evs } ∧ t.mem = s.mem)) ∧
  (∀ (c : Fin 6) (s : State), Safety.runs (.canCmdRearm c) s fun t =>
    (∀ j : Fin 64, ((t.blk.can c).txo.get j).withdrawn = false ∧ ((t.blk.can c).txo.get j).cfg = ((s.blk.can c).txo.get j).cfg
      ∧ (((s.blk.can c).txo.get j).withdrawn = false → (t.blk.can c).txo.get j = (s.blk.can c).txo.get j))
    ∧ (∀ d : Fin 6, d ≠ c → t.blk.can d = s.blk.can d) ∧ t.blk = { s.blk with cans := t.blk.cans, evs := t.blk.evs } ∧ t.mem = s.mem)

/-! ### The Ethernet switch (R284 to R311) -/

/-- R285, R288 to R291, R293, R295: a bad frame is counted as an error and nothing else happens; a frame outside its VLANs is counted as a VLAN drop; a frame that no meter and no drop profile judges is queued, once, at every egress port with room, and its source is learned; a program may send on its own VLANs alone. Where a clause rests on the model's own choices and not on the spec, they are those of log entries 39, 40, 41. -/
def Obligations.SwitchForwardsFrames : Prop :=
  (∀ (p : Fin 13) (f : EthFrame) (d : BitVec 64) (s : State), p.val < 11 → s.blk.hasPort p = true → s.blk.sw.running = true → (s.blk.port p).link = true →
    (s.blk.port p).enabled = true →
    ((f.fcsOk = false ∨ f.size < 64 ∨ 2000 < f.size) → Safety.runs (.frameReceived p f d) s fun t =>
      t.blk.port p = { s.blk.port p with counters := vmod (s.blk.port p).counters 4 (· + 1) } ∧ (∀ q : Fin 13, q ≠ p → t.blk.port q = s.blk.port q)
        ∧ t.blk = { s.blk with sw := { s.blk.sw with ports := t.blk.sw.ports } } ∧ t.mem = s.mem)
    ∧ (f.fcsOk = true → 64 ≤ f.size → f.size ≤ 2000 → 2 ≤ p.val → (s.blk.port p).untaggedOk = false → f.tag = none → Safety.runs (.frameReceived p f d) s fun t =>
      (t.blk.port p).counters.get 0 = (s.blk.port p).counters.get 0 + 1 ∧ (t.blk.port p).counters.get 1 = (s.blk.port p).counters.get 1 + f.size
        ∧ (t.blk.port p).counters.get 5 = (s.blk.port p).counters.get 5 + 1 ∧ (∀ q : Fin 13, q ≠ p → t.blk.port q = s.blk.port q)
        ∧ t.blk.sw.fdb = s.blk.sw.fdb ∧ t.mem = s.mem)
    ∧ (∀ (pcp : BitVec 3) (dei : Bool) (v : BitVec 12), f.fcsOk = true → 64 ≤ f.size → f.size ≤ 2000 → 2 ≤ p.val → f.tag = some (pcp, dei, v) → v ≠ 0 →
        isReserved f.dst = false → bit (s.blk.vlan v.toNat) 31 = true → isMember (s.blk.vlan v.toNat) p = true →
        findKey s.blk.sw.meters ((s.blk.port p).meterOf ((s.blk.port p).tcOf pcp.toNat)) = none → f.src ≠ f.dst →
        (∀ k : Fin 24, bit (s.blk.sw.red.get k).2 12 = false) → Safety.runs (.frameReceived p f d) s fun t => let c := (s.blk.port p).tcOf pcp.toNat
          (∀ q : Fin 13, q ∈ s.blk.egress p f.dst v.toNat → s.blk.roomFor q c (ceilDiv f.size 128) = true →
            ∃ g : QFrame, (t.blk.port q).queues.get c = (s.blk.port q).queues.get c ++ [g] ∧ g.f.dst = f.dst ∧ g.vid = v.toNat ∧ g.inPort = p.val)
          ∧ (∀ q : Fin 13, q ∈ s.blk.egress p f.dst v.toNat → s.blk.roomFor q c (ceilDiv f.size 128) = false →
            (t.blk.port q).queues = (s.blk.port q).queues ∧ (t.blk.port q).counters.get 6 = (s.blk.port q).counters.get 6 + 1)
          ∧ (∀ q : Fin 13, q ∉ s.blk.egress p f.dst v.toNat → (t.blk.port q).queues = (s.blk.port q).queues)
          ∧ (isGroup f.src = false → s.blk.sw.lookup f.src v.toNat = none → s.blk.sw.fdb.length < fdbSize →
            t.blk.sw.lookup f.src v.toNat = some { mac := f.src, vid := v.toNat, stat := false, mask := 2 ^ p.val, seen := s.blk.time.dt })
          ∧ (t.blk.port p).counters.get 0 = (s.blk.port p).counters.get 0 + 1 ∧ t.blk.queues = s.blk.queues ∧ t.mem = s.mem)) ∧
  (∀ (p : Fin 13) (f : EthFrame) (d : BitVec 64) (s : State), (11 ≤ p.val ∨ s.blk.sw.running = false ∨ (s.blk.port p).link = false) →
    Safety.runs (.frameReceived p f d) s fun t => t = s) ∧
  (∀ (q : Fin 256) (i : Initiator) (m : Msg) (l : List Msg) (s : State), s.blk.sw.running = true → (s.blk.queues.get q).enabled = true →
    (s.blk.queues.get q).consEngine = 1 → s.blk.visible (s.blk.queues.get q) = m :: l → Initiator.ofId (s.blk.queues.get q).producer = some i →
    let v := leAt (bytesOf m.words) 12 2 % 4096
    ((bit (s.blk.vlan v) 31 = false ∨ vlanOwner (s.blk.vlan v) ≠ some i) → i ∉ s.blk.breath.vlanDenied → Safety.runs (.frameFromProgram q) s fun t =>
      (t.blk.port (ownerPort i)).counters.get 9 = (s.blk.port (ownerPort i)).counters.get 9 + 1 ∧ i ∈ t.blk.breath.vlanDenied
        ∧ (∀ o : Fin 13, (t.blk.port o).queues = (s.blk.port o).queues) ∧ t.blk.sw.fdb = s.blk.sw.fdb ∧ t.mem = s.mem)
    ∧ (bit (s.blk.vlan v) 31 = true → vlanOwner (s.blk.vlan v) = some i → (leAt (bytesOf m.words) 8 2 < 60 ∨ 1996 < leAt (bytesOf m.words) 8 2) →
      Safety.runs (.frameFromProgram q) s fun t => (t.blk.port (ownerPort i)).counters.get 4 = (s.blk.port (ownerPort i)).counters.get 4 + 1
        ∧ (∀ o : Fin 13, (t.blk.port o).queues = (s.blk.port o).queues) ∧ t.blk.sw.fdb = s.blk.sw.fdb ∧ t.mem = s.mem)) ∧
  (∀ (p : Fin 13) (c : Fin 8) (g : QFrame) (l : List QFrame) (s : State), (s.blk.port p).link = true → (s.blk.port p).sending = none → s.blk.sw.running = true →
    (s.blk.port p).queues.get c = g :: l → s.blk.since g.since ≤ bits s.blk.sw.ageMax 9 0 * 1000000 →
    (s.blk.gateAllows p c (s.blk.wireSize p g) = true → s.blk.outranked p c = false → s.blk.ctlOpen p = true → Safety.runs (.frameTxStart p c) s fun t =>
      (t.blk.port p).sending = some (g, c, s.blk.time.dt) ∧ (t.blk.port p).queues.get c = l ∧ (∀ d : Fin 8, d ≠ c → (t.blk.port p).queues.get d = (s.blk.port p).queues.get d)
        ∧ (∀ q : Fin 13, q ≠ p → t.blk.port q = s.blk.port q) ∧ t.mem = s.mem)
    ∧ (s.blk.gateAllows p c (s.blk.wireSize p g) = false → Safety.runs (.frameTxStart p c) s fun t =>
      (t.blk.port p).sending = none ∧ (t.blk.port p).queues = (s.blk.port p).queues ∧ t.mem = s.mem)) ∧
  (∀ (p : Fin 13) (c : Fin 8) (d : BitVec 64) (g : QFrame) (s : State), p.val < 11 → (s.blk.port p).sending = some (g, c, d) → g.report = none →
    Safety.runs (.frameTxDone p) s fun t => (t.blk.port p).sending = none ∧ (t.blk.port p).counters.get 2 = (s.blk.port p).counters.get 2 + 1
      ∧ (t.blk.port p).counters.get 3 = (s.blk.port p).counters.get 3 + s.blk.wireSize p g ∧ (t.blk.port p).queues = (s.blk.port p).queues
      ∧ (∀ cells sh : Nat, s.blk.sw.refs.find? (fun r => r.1 = g.ref) = some (g.ref, cells, sh, 1) → t.blk.sw.used = s.blk.sw.used - cells
          ∧ t.blk.sw.sharedUsed = s.blk.sw.sharedUsed - sh)
      ∧ (∀ q : Fin 13, q ≠ p → t.blk.port q = s.blk.port q) ∧ t.blk = { s.blk with sw := t.blk.sw } ∧ t.mem = s.mem)

/-- R291, R299, R302, R303, R306 to R308, R311: links come up at the port's rate and drop their queues when they go down; dynamic entries age and are flushed, static ones stay; the operations of the database and of the PHY bus run one at a time; gate entries follow one another; a stream that times out starts afresh; a counter's low word latches its high word; MACsec that loses its partner takes the controlled port down. Where a clause rests on the model's own choices and not on the spec, they are those of log entries 21, 40. -/
def Obligations.SwitchTablesAndLinks : Prop :=
  (∀ (p : Fin 13) (s : State), 2 ≤ p.val → p.val < 11 → s.blk.sw.running = true → s.blk.sw.noSerdes = false → (s.blk.port p).enabled = true → (s.blk.port p).link = false →
    (∀ q : Fin 2, (s.blk.port ⟨q.val, by omega⟩).msUp = false) → s.blk.keysReady = false →
    Safety.runs (.linkUp p (BitVec.ofNat 16 (portRate p))) s fun t => (t.blk.port p).link = true ∧ (t.blk.port p).mbps = portRate p
      ∧ (Safety.room s.blk (srcPort p) → Safety.lastRecord t.blk = some (srcPort p, 1, 1, arg32 (portRate p), hw))
      ∧ (∀ q : Fin 13, q ≠ p → t.blk.port q = s.blk.port q) ∧ t.mem = s.mem) ∧
  (∀ (p : Fin 13) (r : BitVec 16) (s : State), (s.blk.sw.noSerdes = true ∨ (s.blk.port p).link = true) → Safety.runs (.linkUp p r) s fun t => t = s) ∧
  (∀ (p : Fin 13) (s : State), p.val < 11 → (s.blk.port p).link = true → s.blk.time.slavePort ≠ BitVec.ofNat 8 p.val → Safety.runs (.linkDown p) s fun t =>
    (t.blk.port p).link = false ∧ (t.blk.port p).sending = none ∧ (∀ c : Fin 8, (t.blk.port p).queues.get c = [])
    ∧ t.blk.sw.fdb = s.blk.sw.fdb.filter (fun e => e.stat || e.mask ≠ 2 ^ p.val) ∧ t.blk.time = s.blk.time
    ∧ (∀ q : Fin 13, q ≠ p → t.blk.port q = s.blk.port q) ∧ t.mem = s.mem) ∧
  (∀ (m : BitVec 48) (v : BitVec 12) (s : State), Safety.runs (.fdbAgeExpiry m v) s fun t =>
    (∀ e ∈ t.blk.sw.fdb, e ∈ s.blk.sw.fdb ∧ (e.stat = false → ¬ (e.mac = m ∧ e.vid = v.toNat)))
    ∧ (∀ e ∈ s.blk.sw.fdb, (e.stat = true ∨ e.mac ≠ m ∨ e.vid ≠ v.toNat) → e ∈ t.blk.sw.fdb)
    ∧ t.blk = { s.blk with sw := { s.blk.sw with fdb := t.blk.sw.fdb } } ∧ t.mem = s.mem) ∧
  (∀ s : State,
    (s.blk.sw.busy = false → Safety.runs .swFdbLookup s fun t => t.blk = { s.blk with sw := { s.blk.sw with cmd := 1, busy := true } } ∧ t.mem = s.mem)
    ∧ (s.blk.sw.busy = false → Safety.runs .swFdbFlushVid s fun t => t.blk = { s.blk with sw := { s.blk.sw with cmd := 2, busy := true } } ∧ t.mem = s.mem)
    ∧ (s.blk.sw.busy = false → Safety.runs .swFdbFlushAll s fun t => t.blk = { s.blk with sw := { s.blk.sw with cmd := 3, busy := true } } ∧ t.mem = s.mem)
    ∧ (s.blk.sw.busy = true → s.blk.sw.cmd = 1 → Safety.runs .fdbOperationDone s fun t => t.blk.sw.busy = false ∧ t.blk.sw.fdb = s.blk.sw.fdb
      ∧ (bit t.blk.sw.result 0 = true ↔ (s.blk.sw.lookup (BitVec.ofNat 48 (s.blk.sw.macLo.toNat + bits s.blk.sw.macHi 15 0 * 2 ^ 32)) (bits s.blk.sw.macHi 27 16)).isSome = true)
      ∧ t.mem = s.mem)
    ∧ (s.blk.sw.busy = true → s.blk.sw.cmd = 2 → Safety.runs .fdbOperationDone s fun t =>
      t.blk = { s.blk with sw := { s.blk.sw with busy := false, fdb := s.blk.sw.fdb.filter (fun e => e.stat || e.vid ≠ bits s.blk.sw.macHi 27 16) } } ∧ t.mem = s.mem)
    ∧ (s.blk.sw.busy = true → s.blk.sw.cmd = 3 → Safety.runs .fdbOperationDone s fun t =>
      t.blk = { s.blk with sw := { s.blk.sw with busy := false, fdb := s.blk.sw.fdb.filter (·.stat) } } ∧ t.mem = s.mem)
    ∧ (∀ w : Word, s.blk.sw.mdioBusy = false → Safety.runs (.swMdioAccess .chanter w) s fun t => t.blk.sw.mdioBusy = bit w 17
      ∧ bits t.blk.sw.mdioData 16 0 = bits w 16 0 ∧ t.blk = { s.blk with sw := { s.blk.sw with mdioData := t.blk.sw.mdioData, mdioBusy := t.blk.sw.mdioBusy } } ∧ t.mem = s.mem)
    ∧ (∀ (d : BitVec 16) (bad : Bool), s.blk.sw.mdioBusy = true → Safety.runs (.mdioAccessDone d bad) s fun t => let p := bits s.blk.sw.mdioAddr 3 0
      t.blk.sw.mdioBusy = false ∧ bit t.blk.sw.mdioData 30 = (bad || decide (p < 2 ∨ 10 < p))
        ∧ (bad = false → 2 ≤ p → p ≤ 10 → bit s.blk.sw.mdioData 16 = false → bits t.blk.sw.mdioData 15 0 = d.toNat) ∧ t.mem = s.mem)) ∧
  (∀ (p : Fin 13) (e : Word × Word) (s : State), s.blk.gatesRun (s.blk.port p) = true → (s.blk.port p).gclWait = false →
    (s.blk.port p).gcl[(s.blk.port p).gateEntry + 1]? = some e → Safety.runs (.gclEntryExpiry p) s fun t =>
      (t.blk.port p).gateEntry = (s.blk.port p).gateEntry + 1 ∧ (t.blk.port p).gateNow = e.1.truncate 8
        ∧ (t.blk.port p).gateEnd = (s.blk.port p).gateEnd + e.2.zeroExtend 64 ∧ (∀ q : Fin 13, q ≠ p → t.blk.port q = s.blk.port q) ∧ t.mem = s.mem) ∧
  (∀ (p : Fin 13) (s : State), (s.blk.port p).gcl[(s.blk.port p).gateEntry + 1]? = none → Safety.runs (.gclEntryExpiry p) s fun t => t = s) ∧
  (∀ (k : Fin 64) (p : Fin 13) (s : State), bit (s.blk.sw.frer.get k).cfg 12 = true → bit (s.blk.sw.frer.get k).cfg 14 = true → Safety.runs (.frerTimeout k p) s fun t =>
    (t.blk.sw.frer.get k).recSeq = none ∧ (t.blk.sw.frer.get k).hist = [] ∧ (∀ j : Fin 64, j ≠ k → t.blk.sw.frer.get j = s.blk.sw.frer.get j)
    ∧ (Safety.room s.blk (srcPort p) → Safety.lastRecord t.blk = some (srcPort p, 6, 2, arg32 k.val, hw)) ∧ t.blk = { s.blk with sw := t.blk.sw, evs := t.blk.evs } ∧ t.mem = s.mem) ∧
  (∀ (p : Fin 13) (j : Fin 10) (s : State), Safety.runs (.swCounterLoRead .chanter p j) s fun t =>
    t.blk.reply = { data := BitVec.ofNat 64 ((s.blk.port p).counters.get j % 2 ^ 32), fault := false, isolated := false }
    ∧ (t.blk.port p).latch.find? (fun l => decide (l.1 = .chanter ∧ l.2.1 = j)) = some (.chanter, j, arg32 ((s.blk.port p).counters.get j / 2 ^ 32))
    ∧ (t.blk.port p).counters = (s.blk.port p).counters ∧ (∀ q : Fin 13, q ≠ p → t.blk.port q = s.blk.port q) ∧ t.mem = s.mem) ∧
  (∀ (p : Fin 13) (s : State), let n := (s.blk.port p).counters.get 6 + (s.blk.port p).counters.get 7 + (s.blk.port p).counters.get 8
    ((s.blk.port p).dropsLogged < n → (s.blk.port p).dropsDt = none → Safety.runs (.bufferDrop p) s fun t => (t.blk.port p).dropsLogged = n
      ∧ (Safety.room s.blk (srcPort p) → Safety.lastRecord t.blk = some (srcPort p, 9, 2, arg32 (n - (s.blk.port p).dropsLogged), hw)) ∧ t.mem = s.mem)
    ∧ (∀ d : BitVec 64, (s.blk.port p).dropsDt = some d → s.blk.since d < 1000000000 → Safety.runs (.bufferDrop p) s fun t => t = s)) ∧
  (∀ (a : Bool) (n : BitVec 4) (s : State), (s.blk.port 10).link = true → Safety.runs (.plcaChange a n) s fun t => (t.blk.port 10).plca = a
    ∧ (Safety.room s.blk (srcPort 10) → Safety.lastRecord t.blk = some (srcPort 10, 0xB, 1, arg32 (b2n a + n.toNat * 256), hw)) ∧ t.mem = s.mem) ∧
  (∀ (p : Fin 2) (r : BitVec 2) (s : State), (s.blk.port ⟨p.val, by omega⟩).msUp = true → Safety.runs (.mkaLost p r) s fun t =>
    (t.blk.port ⟨p.val, by omega⟩).msUp = false ∧ (t.blk.port ⟨p.val, by omega⟩).msSa = false
    ∧ (Safety.room s.blk (srcPort ⟨p.val, by omega⟩) → Safety.lastRecord t.blk = some (srcPort ⟨p.val, by omega⟩, 7, 3, (if r = 2 then 2 else 3), hw)) ∧ t.mem = s.mem)

/-! ### Resets, starts, supplies and sleep (R373 to R393) -/

/-- R374, R375, R377, R378, R396: what each reset source asserts, and with which reach, when no episode runs: power-on, the pins while VIO_B is present, a supply difference, overtemperature, the watchdog's first and second expiry, a commanded reset, a fatal fault, a debug request; the command RESET_DEVICE only notes what is due; a kick restarts the watchdog. Where a clause rests on the model's own choices and not on the spec, they are those of log entry 44. -/
def Obligations.ResetSourcesBeginEpisodes : Prop :=
  (∀ s : State, s.blk.rcc.episode = none →
    Safety.asserts .shellPowerOn 0 s ∧ Safety.asserts .supplyDifference 3 s ∧ Safety.asserts .chanterFatalFault 14 s
    ∧ (s.blk.rcc.vioB = true → Safety.asserts .poresetNAssert 1 s ∧ Safety.asserts .sysresetNAssert 2 s)
    ∧ (s.blk.rcc.vioB = false → (Safety.runs .poresetNAssert s fun t => t = s) ∧ Safety.runs .sysresetNAssert s fun t => t = s)
    ∧ (∀ tj : BitVec 16, 2080 < tj.toInt → Safety.asserts (.shellOvertemp tj) 4 s)
    ∧ (∀ tj : BitVec 16, tj.toInt ≤ 2080 → Safety.runs (.shellOvertemp tj) s fun t => t = s)
    ∧ (s.blk.rcc.wdtLast = none → Safety.asserts .watchdog 13 s)
    ∧ (∀ d : BitVec 64, s.blk.rcc.wdtLast = some d → s.blk.since d ≤ 10000000000 → Safety.asserts .watchdog 5 s)
    ∧ (∀ d : BitVec 64, s.blk.rcc.wdtLast = some d → 10000000000 < s.blk.since d → Safety.asserts .watchdog 13 s)
    ∧ (s.blk.rcc.resetDue = some true → Safety.asserts (.resetDeviceAsserted true) 7 s)
    ∧ (s.blk.rcc.resetDue = some false → Safety.asserts (.resetDeviceAsserted false) 12 s)
    ∧ ((s.blk.sec.debugScope ≠ 0 ∨ s.blk.sec.lc = lcBlank) → Safety.asserts .debugResetRequest 15 s)
    ∧ (s.blk.sec.debugScope = 0 → s.blk.sec.lc ≠ lcBlank → Safety.runs .debugResetRequest s fun t => t = s)) ∧
  (∀ s : State, s.blk.rcc.episode.isSome = true → Safety.runs .watchdog s fun t => t = s) ∧
  (∀ (r : Req) (s : State), Safety.accepted cmdResetDevice r s.blk → nonZeroAt (Safety.payload r) 1 3 = none →
    (byteAt (Safety.payload r) 0 = 1 ∨ (byteAt (Safety.payload r) 0 = 2 ∧ s.blk.rcc.mode ≠ .recovery)) → Safety.runs (.resetDevice r) s fun t =>
      t.blk.rcc = { s.blk.rcc with resetDue := some (decide (byteAt (Safety.payload r) 0 = 1)) } ∧ Safety.okays s t r 0x204 []
        ∧ t.blk = { s.blk with rcc := t.blk.rcc, mboxes := t.blk.mboxes } ∧ t.mem = s.mem) ∧
  (∀ (w : Word) (s : State),
    (w = 0x5A5A → Safety.runs (.rccWdtKickWrite .chanter w) s fun t => t.blk = { s.blk with rcc := { s.blk.rcc with wdtStart := s.blk.time.dt } } ∧ t.mem = s.mem)
    ∧ (w ≠ 0x5A5A → Safety.runs (.rccWdtKickWrite .chanter w) s fun t => t = s)) ∧
  (∀ (e : Reach) (s : State), s.blk.rcc.episode = some e → Safety.runs .supplyDifference s fun t =>
    t.blk.rcc.episode = some (e.wider .s) ∧ t.blk.rcc.asserted.toNat.testBit 3 = true ∧ t.blk.rcc.seen = s.blk.rcc.seen ||| 8
    ∧ t.blk.rcc.step = min s.blk.rcc.step 3 ∧ t.mem = s.mem)

/-- R374, R377 to R380, R390: releases, the exit sequence, and clocks: a step runs when no asserted source holds it, in order; the first step of the effective reach records the cause; E5 clears the volatile memories; E7 releases RESETOUT_N; E8 ends the episode in BOOT, or in the mode that a C reset kept; blocks are released under clock-good gating and fail by name. Where a clause rests on the model's own choices and not on the spec, they are those of log entries 1, 44, 45. -/
def Obligations.EpisodesRunTheExitSequence : Prop :=
  (∀ s : State,
    (Safety.runs .poresetNRelease s fun t => t.blk.rcc.nPoreset = true ∧ t.blk.rcc.asserted = s.blk.rcc.asserted &&& ~~~ 2 ∧ t.blk = { s.blk with rcc := t.blk.rcc } ∧ t.mem = s.mem)
    ∧ (Safety.runs .sysresetNRelease s fun t => t.blk.rcc.nSysreset = true ∧ t.blk.rcc.asserted = s.blk.rcc.asserted &&& ~~~ 4 ∧ t.blk = { s.blk with rcc := t.blk.rcc } ∧ t.mem = s.mem)
    ∧ (∀ n : ResetBit, 3 ≤ n.val → n.val ≠ 8 → s.blk.rcc.asserted.toNat.testBit n.val = true → Safety.runs (.resetSourceRelease n) s fun t =>
        t.blk.rcc.asserted.toNat.testBit n.val = false ∧ t.blk.rcc.episode = s.blk.rcc.episode ∧ t.blk = { s.blk with rcc := t.blk.rcc } ∧ t.mem = s.mem)) ∧
  (∀ (l : List (BitVec 5)) (e : Reach) (s : State), s.blk.rcc.episode = some e →
    (s.blk.rcc.mayRun s.blk.rcc.step = false → Safety.runs (.exitStepDone l) s fun t => t.blk.rcc.step = s.blk.rcc.step ∧ t.blk.rcc.episode = some e
      ∧ t.blk.rcc.holding = decide (s.blk.rcc.firstStep e < s.blk.rcc.step) ∧ t.blk = { s.blk with rcc := t.blk.rcc } ∧ t.mem = s.mem)
    ∧ (s.blk.rcc.mayRun s.blk.rcc.step = true → s.blk.rcc.step ≠ 8 → s.blk.rcc.step ≠ 1 → Safety.runs (.exitStepDone l) s fun t => t.blk.rcc.step = s.blk.rcc.step + 1
      ∧ t.blk.rcc.episode = some e ∧ t.blk.rcc.asserted = s.blk.rcc.asserted
      ∧ (s.blk.rcc.firstStep e = s.blk.rcc.step → s.blk.rcc.recorded = none → t.blk.rcc.cause = mkWord [s.blk.rcc.seen.toNat, e.num * 2 ^ 28]
          ∧ t.blk.rcc.causePrev = (if e = .p then 0 else s.blk.rcc.cause))
      ∧ (s.blk.rcc.step = 7 → t.blk.rcc.resetoutLow = false)
      ∧ (s.blk.rcc.step = 5 → ∀ a : Nat, (0x10000000 ≤ a ∧ a < 0x11000000) ∨ (0x80000000 ≤ a ∧ a < 0x100000000) → Mem.read t.mem a = 0)
      ∧ (s.blk.rcc.step ≠ 5 → t.mem = s.mem))
    ∧ (s.blk.rcc.mayRun 8 = true → s.blk.rcc.step = 8 → s.blk.sec.lcPending = none → Safety.runs (.exitStepDone l) s fun t => t.blk.rcc.episode = none
      ∧ (e ≠ .c → t.blk.rcc.mode = .boot ∧ t.blk.evs.resumed = true ∧ t.blk.rcc.modeCause = (if s.blk.rcc.seen.toNat.testBit 8 then mcWake else mcReset))
      ∧ (e = .c → t.blk.rcc.mode = s.blk.rcc.mode))) ∧
  (∀ (i : Block) (d : BitVec 16) (s : State),
    (s.blk.rcc.blkState.get i = .pending → s.blk.clockless i = false → s.blk.rcc.mode = .boot → Safety.runs (.clockGood i d) s fun t =>
      t.blk.rcc.blkState.get i = .running ∧ t.blk.rcc.blkDev.get i = d ∧ (∀ j : Block, j ≠ i → t.blk.rcc.blkState.get j = s.blk.rcc.blkState.get j)
        ∧ t.blk = { s.blk with rcc := t.blk.rcc } ∧ t.mem = s.mem)
    ∧ (s.blk.rcc.blkState.get i = .pending → s.blk.clockless i = false → 5 ≤ i.val → Safety.runs (.clockFail i d) s fun t =>
      t.blk.rcc.blkState.get i = .fail ∧ (∀ j : Block, j ≠ i → t.blk.rcc.blkState.get j = s.blk.rcc.blkState.get j) ∧ t.blk.rcc.episode = s.blk.rcc.episode
        ∧ (Safety.room s.blk srcRcc → Safety.lastRecord t.blk = some (srcRcc, 2, 4, arg32 i.val, hw)) ∧ t.blk = { s.blk with rcc := t.blk.rcc, evs := t.blk.evs } ∧ t.mem = s.mem)
    ∧ (s.blk.clockless i = true → (Safety.runs (.clockGood i d) s fun t => t = s) ∧ Safety.runs (.clockFail i d) s fun t => t = s)
    ∧ (s.blk.rcc.blkState.get i = .running → Safety.runs (.clockLost i d) s fun t => t.blk.rcc.blkState.get i = .pending
      ∧ (∀ j : Block, j ≠ i → t.blk.rcc.blkState.get j = s.blk.rcc.blkState.get j) ∧ t.mem = s.mem)
    ∧ (s.blk.rcc.blkState.get i ≠ .running → Safety.runs (.clockLost i d) s fun t => t = s))

/-- R271, R381, R390, R391, R437, R438, R447: a start completes into RECOVERY by strap or for want of an image, or, when the Chanter slot and a configuration pass, into RUN, with the breath and the switch running; the third failure of the partition monitor in ten minutes schedules LIMP for tick N+2. Where a clause rests on the model's own choices and not on the spec, they are those of log entries 45, 46. -/
def Obligations.StartsEndInRunOrRecovery : Prop :=
  (∀ (f : Bool) (s : State), s.blk.rcc.mode = .boot → s.blk.rcc.episode = none →
    (1 ≤ s.blk.rcc.bootSel.toNat → s.blk.rcc.bootSel.toNat ≤ 3 → Safety.runs (.bootComplete f) s fun t => t.blk.rcc.mode = .recovery
      ∧ t.blk.rcc.modeCause = mcStrap ∧ t.blk.breath.running = s.blk.breath.running ∧ t.blk.upd.comps = s.blk.upd.comps)
    ∧ (s.blk.rcc.bootSel = 0 → s.blk.upd.bootA = false → s.blk.upd.bootB = false → Safety.runs (.bootComplete f) s fun t => t.blk.rcc.mode = .recovery
      ∧ t.blk.rcc.modeCause = mcNoImage ∧ t.blk.upd.comps = s.blk.upd.comps)
    ∧ (s.blk.rcc.bootSel = 0 → (s.blk.upd.bootA = true ∨ s.blk.upd.bootB = true) → Safety.runs (.bootComplete f) s fun t =>
        (∀ (b1 b2 : Blk) (im : Image), s.blk.startComponents.pickChanter s.mem f = some b1 → b1.pickConfig s.mem = some (b2, im) → s.blk.rcc.lockFlag = false →
          s.blk.rcc.bootTamper = 0 → t.blk.rcc.mode = .run ∧ t.blk.rcc.modeCause = mcStart ∧ t.blk.breath.running = true ∧ t.blk.sw.running = true)
        ∧ ((s.blk.startComponents.pickChanter s.mem f = none ∨ ∃ b1, s.blk.startComponents.pickChanter s.mem f = some b1 ∧ b1.pickConfig s.mem = none) →
          t.blk.rcc.mode = .recovery ∧ t.blk.rcc.modeCause = mcNoImage))) ∧
  (∀ (f : Bool) (s : State), (s.blk.rcc.mode ≠ .boot ∨ s.blk.rcc.episode.isSome = true) → Safety.runs (.bootComplete f) s fun t => t.blk = s.blk ∧ t.mem = s.mem) ∧
  (∀ s : State, s.blk.rcc.mode = .run →
    (s.blk.rcc.pmFails = [] → Safety.runs .partitionMonitorFailure s fun t => t.blk.rcc = { s.blk.rcc with pmFails := [s.blk.time.dt] }
      ∧ t.blk = { s.blk with rcc := t.blk.rcc } ∧ t.mem = s.mem)
    ∧ (∀ x y : BitVec 64, s.blk.rcc.pmFails = [x, y] → s.blk.since x < 600000000000 → s.blk.since y < 600000000000 → s.blk.rcc.sched = none →
      Safety.runs .partitionMonitorFailure s fun t => t.blk.rcc.pmFails = [] ∧ t.blk.rcc.mode = .run
        ∧ t.blk.rcc.sched = some { target := .limp, cause := mcApp, at_ := s.blk.breath.bn + 2, rank := 4, due := none } ∧ t.mem = s.mem))

/-- R383 to R388, R393, R397: the core level steps within its range; a lost feed is noted, and logged while the other is good; a good feed charges VHOLD; the hold-up commit begins once, writes the journal, and its return asserts source 9; sleep is asked for under its guard, ends in the powered-down shell, and a wake before that schedules the way back. Where a clause rests on the model's own choices and not on the spec, they are those of log entry 46. -/
def Obligations.SuppliesAndSleep : Prop :=
  (∀ (up : Bool) (m : BitVec 12) (s : State), 720 ≤ bits s.blk.rcc.pwrCore 11 0 → bits s.blk.rcc.pwrCore 11 0 ≤ 880 → Safety.runs (.avsStep up m) s fun t =>
    let v := bits s.blk.rcc.pwrCore 11 0
    let w := if up then min 880 (v + 5) else max 720 (v - 5)
    bits t.blk.rcc.pwrCore 11 0 = w ∧ bits t.blk.rcc.pwrCore 27 16 = m.toNat ∧ (w ≠ (if up then v + 5 else v - 5) → bit t.blk.rcc.pwrSticky 3 = true)
      ∧ t.blk = { s.blk with rcc := t.blk.rcc } ∧ t.mem = s.mem) ∧
  (∀ (v : BitVec 16) (s : State), v.toNat < 4000 → s.blk.rcc.feedA = true → s.blk.rcc.feedB = true → s.blk.variant ≠ .nz820 →
    (Safety.runs (.feedLost false v) s fun t => t.blk.rcc.feedA = false ∧ t.blk.rcc.feedB = true ∧ bit t.blk.rcc.pwrSticky 0 = true
      ∧ bits t.blk.rcc.vbat 15 0 = v.toNat ∧ (Safety.room s.blk srcRcc → Safety.lastRecord t.blk = some (srcRcc, 5, 3, 0, hw))
      ∧ t.blk = { s.blk with rcc := t.blk.rcc, evs := t.blk.evs } ∧ t.mem = s.mem)
    ∧ (Safety.runs (.feedLost true v) s fun t => t.blk.rcc.feedB = false ∧ t.blk.rcc.feedA = true ∧ bit t.blk.rcc.pwrSticky 1 = true
      ∧ bits t.blk.rcc.vbat 31 16 = v.toNat ∧ (Safety.room s.blk srcRcc → Safety.lastRecord t.blk = some (srcRcc, 5, 3, 1, hw))
      ∧ t.blk = { s.blk with rcc := t.blk.rcc, evs := t.blk.evs } ∧ t.mem = s.mem)) ∧
  (∀ (f : Bool) (v : BitVec 16) (s : State),
    (4000 ≤ v.toNat → Safety.runs (.feedLost f v) s fun t => t = s) ∧ (v.toNat < 4250 → Safety.runs (.feedGood f v) s fun t => t = s)
    ∧ (4250 ≤ v.toNat → s.blk.rcc.holdup = false → Safety.runs (.feedGood f v) s fun t => (if f then t.blk.rcc.feedB else t.blk.rcc.feedA) = true
      ∧ t.blk.rcc.vholdOk = true ∧ bits t.blk.rcc.vhold 15 0 = max (bits t.blk.rcc.vbat 15 0) (bits t.blk.rcc.vbat 31 16)
      ∧ t.blk = { s.blk with rcc := t.blk.rcc, evs := t.blk.evs } ∧ t.mem = s.mem)
    ∧ (4250 ≤ v.toNat → s.blk.rcc.holdup = true → s.blk.rcc.mode ≠ .sleep → s.blk.rcc.holdupDone = false → Safety.runs (.feedGood f v) s fun t =>
      t.blk.rcc.feedBack = true ∧ t.blk.rcc.holdup = true ∧ t.blk.rcc.holdupDone = false ∧ t.blk.rcc.episode = s.blk.rcc.episode ∧ t.mem = s.mem)
    ∧ (4250 ≤ v.toNat → s.blk.rcc.holdup = true → s.blk.rcc.mode ≠ .sleep → s.blk.rcc.holdupDone = true → s.blk.rcc.episode = none → Safety.runs (.feedGood f v) s fun t =>
      t.blk.rcc.episode = some .s ∧ t.blk.rcc.asserted.toNat.testBit 9 = true ∧ t.blk.rcc.step = 1 ∧ t.mem = s.mem)) ∧
  (∀ s : State, s.blk.rcc.powered = true →
    (s.blk.rcc.holdup = false → Safety.runs .holdupTrip s fun t => t.blk.rcc.holdup = true ∧ t.blk.rcc.holdupDone = false ∧ bit t.blk.rcc.pwrSticky 2 = true
      ∧ t.blk.sw.running = false ∧ t.blk.breath.bn = s.blk.breath.bn ∧ t.mem = s.mem)
    ∧ (s.blk.rcc.holdup = true → Safety.runs .holdupTrip s fun t => t = s)) ∧
  (∀ (us : BitVec 16) (s : State), s.blk.rcc.holdup = true → s.blk.rcc.holdupDone = false → s.blk.rcc.feedBack = false → Safety.runs (.holdupCommitted us) s fun t =>
    t.blk.rcc.holdupDone = true ∧ bits t.blk.rcc.holdLast 15 0 = us.toNat ∧ bit t.blk.rcc.holdLast 16 = true ∧ t.blk.evs.logQ = []
    ∧ t.blk.evs.unwritten ≤ s.blk.evs.logQ.length ∧ t.blk.time.anchorDt = some s.blk.time.dt ∧ t.blk.time.anchorAot = s.blk.time.aot ∧ t.blk.rcc.episode = s.blk.rcc.episode) ∧
  (∀ (us : BitVec 16) (s : State), s.blk.rcc.holdup = true → s.blk.rcc.holdupDone = false → s.blk.rcc.feedBack = true → s.blk.rcc.episode = none →
    Safety.runs (.holdupCommitted us) s fun t => t.blk.rcc.episode = some .s ∧ t.blk.rcc.asserted.toNat.testBit 9 = true ∧ t.blk.rcc.step = 1
      ∧ t.blk.rcc.feedBack = false ∧ bits t.blk.rcc.holdLast 15 0 = us.toNat ∧ bit t.blk.rcc.holdLast 16 = true) ∧
  (∀ s : State, s.blk.rcc.holdup = true → Safety.runs .vholdDepleted s fun t => t.blk.rcc.powered = false ∧ t.blk.rcc.vholdOk = false ∧ t.blk.breath.running = false
    ∧ (s.blk.rcc.holdupDone = false → bit t.blk.rcc.holdLast 16 = false) ∧ t.mem = s.mem) ∧
  (∀ s : State,
    (bit s.blk.rcc.sleepCtrl 0 = true → s.blk.guard .sleep = some true → s.blk.rcc.sched = none → Safety.runs .autoSleepRequest s fun t =>
      t.blk.rcc = { s.blk.rcc with sched := some { target := .sleep, cause := mcAutoSleep, at_ := s.blk.breath.bn + 2, rank := 5, due := none } }
        ∧ t.blk = { s.blk with rcc := t.blk.rcc } ∧ t.mem = s.mem)
    ∧ (bit s.blk.rcc.sleepCtrl 0 = false → Safety.runs .autoSleepRequest s fun t => t = s)
    ∧ (s.blk.rcc.mode = .sleep → s.blk.rcc.sleepStep = 4 → Safety.runs .sleepPowerDown s fun t => t.blk.rcc.powered = false ∧ t.blk.rcc.sleepStep = 5
      ∧ t.blk.evs.resumed = false ∧ t.blk.nmg.sleepAot = s.blk.time.aot ∧ t.blk.rcc.mode = .sleep ∧ t.mem = s.mem)
    ∧ ((s.blk.rcc.mode ≠ .sleep ∨ s.blk.rcc.sleepStep ≠ 4) → Safety.runs .sleepPowerDown s fun t => t = s)
    ∧ (∀ k : Fin 4, s.blk.rcc.mode = .sleep → s.blk.rcc.sleepStep < 5 → s.blk.rcc.bootTamper = 0 → s.blk.breath.running = false → s.blk.sec.tmpPending = 0 →
      Safety.runs (.sleepAbortedEntry k) s fun t => t.blk.rcc.sleepStep = 0 ∧ t.blk.rcc.holdup = false ∧ t.blk.breath.running = true ∧ t.blk.sw.running = true
        ∧ t.blk.rcc.sched = some { target := s.blk.rcc.sleepFrom, cause := mcWake, at_ := s.blk.breath.bn + 1, rank := 1, due := none } ∧ t.mem = s.mem)
    ∧ (Safety.runs .alwaysOnPowerOn s fun t => t.blk.time = { s.blk.time with aot := 0, aotFrac := 0, aotContinuous := false } ∧ t.blk.nmg.wakeSrc = 0
      ∧ t.blk.sec.tmpStatus = 0 ∧ t.blk.sec.tmpPending = 0 ∧ t.blk.rcc = { s.blk.rcc with vka := true } ∧ t.blk.evs = s.blk.evs ∧ t.mem = s.mem)
    ∧ (∀ lost : Bool, Safety.runs (.vioLost false lost) s fun t => t.blk.rcc.vioA = !lost ∧ t.blk.rcc.vioB = s.blk.rcc.vioB ∧ (lost = true → bit t.blk.rcc.pwrSticky 4 = true)
      ∧ t.blk = { s.blk with rcc := t.blk.rcc } ∧ t.mem = s.mem)
    ∧ (Safety.runs (.vioLost true true) s fun t => t.blk.rcc.vioB = false ∧ t.blk.rcc.nPoreset = true ∧ t.blk.rcc.nSysreset = true
      ∧ t.blk.rcc.asserted = s.blk.rcc.asserted &&& ~~~ 6 ∧ bit t.blk.rcc.pwrSticky 5 = true ∧ t.blk = { s.blk with rcc := t.blk.rcc } ∧ t.mem = s.mem))

/-! ### Identity, keys and tamper (R401 to R432) -/

/-- R255, R412 to R416: a key update that passes every check is prepared and answered `ACCEPTED`, one at a time; its commit takes the slots, the epochs, the counter, the digest and the receipt as one and flips the half; a key that does not unwrap leaves everything as it was; the same message again draws the same receipt. Where a clause rests on the model's own choices and not on the spec, they are those of log entries 4, 47. -/
def Obligations.KeyUpdatesCommitWhole : Prop :=
  (∀ (r : Req) (p : List Byte) (l : List KeyOp) (s : State), Safety.wholeInParts cmdKeyUpdate r s.blk p → 1 ≤ (byteAt p 2).toNat → (byteAt p 2).toNat ≤ 8 →
    Safety.pass (s.blk.headChecks p) → leAt p 36 4 + 40 + sigLen = p.length → keyOps (byteAt p 2).toNat 40 (slice p 40 (p.length - 40 - sigLen)) = .ok l →
    (∀ o ∈ l, Safety.pass (o.checks l)) →
    (s.blk.sec.ku.isSome = true → Safety.runs (.keyUpdate r) s fun t => Safety.refuses s t r 0x901 0x30 0xFFFF 1 0)
    ∧ (s.blk.sec.ku = none → s.blk.keysReady = true → Safety.runs (.keyUpdate r) s fun t =>
      Safety.pass (s.blk.authChecks p (s.blk.signer (leAt p 32 2) roleKeyUpdate)) →
      (¬ Safety.sameUpdate s.blk p → leAt p 24 8 = s.blk.sec.kuCnt.toNat + 1 →
        (∃ k : KeyUpd, t.blk.sec.ku = some k ∧ k.digest = Config.sha3 p ∧ k.counter = BitVec.ofNat 63 (leAt p 24 8)) ∧ t.blk.sec = { s.blk.sec with ku := t.blk.sec.ku }
        ∧ Safety.answers s t r 0x901 1 0xFFFFFFFF [] ∧ t.blk = { s.blk with sec := t.blk.sec, mboxes := t.blk.mboxes } ∧ t.mem = s.mem)
      ∧ (Safety.sameUpdate s.blk p → Safety.answers s t r 0x901 0x52 s.blk.ebn s.blk.sec.receipt ∧ Safety.onlyAnswers s t))) ∧
  (∀ (k : KeyUpd) (s : State), s.blk.sec.ku = some k →
    Safety.runs .keyUpdateCommitted s fun t =>
    (k.unwraps = true → t.blk.sec.ku = none ∧ t.blk.sec.slots = k.slots ∧ t.blk.sec.kuCnt = k.counter
      ∧ t.blk.sec.kuHalf = !s.blk.sec.kuHalf ∧ t.blk.sec.kuDigest = k.digest ∧ t.blk.sec.receipt = s.blk.makeReceipt k ∧ (t.blk.sec.epochAtt, t.blk.sec.epochSeal) = k.epochs
      ∧ t.blk.sec.lc = s.blk.sec.lc ∧ (Safety.room s.blk srcHusk → Safety.lastRecord t.blk = some (srcHusk, 2, 2, arg32 k.counter.toNat, hw))
      ∧ (t.blk.mboxes.get k.due.mb).notes.map (fun n => (n.opcode, n.client, n.status, n.payload)) =
          (s.blk.mboxes.get k.due.mb).notes.map (fun n => (n.opcode, n.client, n.status, n.payload)) ++ [(k.due.opcode + 0x40, k.due.client, 0, s.blk.makeReceipt k)]
      ∧ t.mem = s.mem)
    ∧ (k.unwraps = false → t.blk.sec = { s.blk.sec with ku := none }
      ∧ (t.blk.mboxes.get k.due.mb).notes.length = (s.blk.mboxes.get k.due.mb).notes.length + 1 ∧ t.mem = s.mem)) ∧
  (∀ s : State, s.blk.sec.ku = none → Safety.runs .keyUpdateCommitted s fun t => t = s)

/-- R403, R404, R410, R411, R417, R418, R421: signed messages: a life-cycle change answers, erases the store and asserts source 7; unlock and owner lock take a counter above the stored one; debug access opens for its duration and is closed at its end; the attestation report is given once a second and mailbox. Where a clause rests on the model's own choices and not on the spec, they are those of log entries 4, 47. -/
def Obligations.SignedMessagesAct : Prop :=
  (∀ (r : Req) (p : List Byte) (n g : Nat) (k : Fin 64) (x : Slot) (s : State), Safety.wholeInParts cmdLifecycleSet r s.blk p → s.blk.rcc.episode = none →
    Safety.pass (s.blk.ctlChecks p 1 (if leAt p 36 4 = lcOwned then pubLen else 0)) → nonZeroAt p 24 8 = none → leAt p 36 4 ≤ 4 →
    s.blk.lcTransition (leAt p 36 4) = some (n, g) → s.blk.slotOfHandle (leAt p 32 2) = some (k, x) → k.val = n → x.used = true → x.type = ktAnchor →
    s.blk.anchorsReady = true → Safety.runs (.lifecycleSet r) s fun t => Safety.pass (s.blk.authChecks p (some x)) →
      t.blk.sec.lc = leAt p 36 4 ∧ t.blk.sec.gen = g ∧ t.blk.sec.lcPending = none ∧ t.blk.sec.receipt = [] ∧ t.blk.sec.epochAtt = 0 ∧ t.blk.sec.epochSeal = 0
      ∧ (∀ j : Fin 64, j ≠ 5 → j ≠ 6 → (t.blk.sec.slots.get j).used = false) ∧ t.blk.sec.kuCnt = s.blk.sec.kuCnt ∧ t.blk.sec.ctlCnt = s.blk.sec.ctlCnt
      ∧ t.blk.sec.dbgCnt = s.blk.sec.dbgCnt ∧ t.blk.rcc.asserted.toNat.testBit 7 = true ∧ t.blk.rcc.episode = some .s ∧ t.mem = s.mem) ∧
  (∀ (r : Req) (p : List Byte) (s : State), Safety.wholeInParts cmdLifecycleSet r s.blk p → Safety.pass (s.blk.ctlChecks p 1 (if leAt p 36 4 = lcOwned then pubLen else 0)) →
    nonZeroAt p 24 8 = none → leAt p 36 4 ≤ 4 → s.blk.lcTransition (leAt p 36 4) = none → Safety.runs (.lifecycleSet r) s fun t =>
      t.blk.sec = s.blk.sec ∧ t.blk.rcc = s.blk.rcc ∧ t.mem = s.mem) ∧
  (∀ (r : Req) (p : List Byte) (s : State), Safety.wholeInParts cmdLockdownExit r s.blk p → s.blk.rcc.sched = none → s.blk.sec.class2Now = false →
    Safety.runs (.lockdownExit r) s fun t => s.blk.counted p 2 (fun a => decide (a = 0)) = none → t.blk.sec.ctlCnt = BitVec.ofNat 64 (leAt p 24 8) ∧ t.blk.rcc.mode = s.blk.rcc.mode
      ∧ t.blk.rcc.sched = some { target := .run, cause := mcExit, at_ := s.blk.breath.bn + 2, rank := 5, due := some (reqDue r 0x906) } ∧ t.mem = s.mem) ∧
  (∀ (r : Req) (p : List Byte) (s : State), Safety.wholeInParts cmdOwnerLock r s.blk p → Safety.runs (.ownerLock r) s fun t => s.blk.counted p 3 (fun a => decide (a ≤ 1)) = none →
    t.blk.sec.ownerLock = decide (leAt p 36 4 = 1) ∧ t.blk.sec.ctlCnt = BitVec.ofNat 64 (leAt p 24 8) ∧ t.blk.sec.slots = s.blk.sec.slots ∧ t.blk.rcc = s.blk.rcc ∧ t.mem = s.mem) ∧
  (∀ (r : Req) (p : List Byte) (s : State), Safety.wholeInParts cmdDebugAuth r s.blk p → Safety.pass (s.blk.headChecks p) → nonZeroAt p 2 1 = none → 60 ≤ leAt p 36 4 →
    leAt p 36 4 ≤ 28800 → leAt p 40 4 < 512 → nonZeroAt p 44 4 = none →
    s.blk.sec.dbgCnt.toNat < leAt p 24 8 → Safety.runs (.debugAuth r) s fun t => Safety.pass (s.blk.authChecks p (s.blk.signer (leAt p 32 2) roleDebug)) → t.blk.sec.debugScope = BitVec.ofNat 10 (leAt p 40 4)
      ∧ t.blk.sec.debugEnd = s.blk.time.dt + BitVec.ofNat 64 (leAt p 36 4 * 1000000000) ∧ t.blk.sec.dbgCnt = BitVec.ofNat 64 (leAt p 24 8)
      ∧ (Safety.room s.blk srcDebug → Safety.lastRecord t.blk = some (srcDebug, 0x30, 3, arg32 (leAt p 40 4), hw)) ∧ t.mem = s.mem) ∧
  (∀ s : State,
    (s.blk.sec.debugScope ≠ 0 → s.blk.dr.debugOn = 0 → Safety.runs .debugAccessExpiry s fun t => t.blk.sec = { s.blk.sec with debugScope := 0 }
      ∧ (Safety.room s.blk srcDebug → Safety.lastRecord t.blk = some (srcDebug, 0x31, 2, 1, hw)) ∧ t.blk = { s.blk with sec := t.blk.sec, evs := t.blk.evs } ∧ t.mem = s.mem)
    ∧ (s.blk.sec.debugScope = 0 → Safety.runs .debugAccessExpiry s fun t => t = s)) ∧
  (∀ (r : Req) (s : State), Safety.accepted cmdAttest r s.blk → s.blk.keysReady = true → (s.blk.mboxes.get r.mb).lastAttest = none → Safety.runs (.attest r) s fun t =>
    (t.blk.mboxes.get r.mb).lastAttest = some s.blk.time.dt ∧ t.blk.evs.nextSeq = s.blk.evs.nextSeq + 1 ∧ t.blk.sec = s.blk.sec ∧ t.mem = s.mem
    ∧ (∃ q : List Byte, Safety.okays s t r 0x105 q ∧ q.length = 5691)) ∧
  (∀ (r : Req) (d : BitVec 64) (s : State), Safety.accepted cmdAttest r s.blk → (s.blk.mboxes.get r.mb).lastAttest = some d → s.blk.since d < 1000000000 →
    Safety.runs (.attest r) s fun t => Safety.refuses s t r 0x105 0x30 0xFFFF 2 (1000 - s.blk.since d / 1000000))

/-- R422 to R426: an alarm is recorded with its source, class, mode and AOT and is logged; class 1 makes the keys unavailable for the hold, class 2 locks them and schedules LOCKDOWN, in SLEEP it is held as pending; the hold ends in AVAILABLE; a failed health test stops the entropy source until a retest succeeds. Where a clause rests on the model's own choices and not on the spec, they are those of log entry 47. -/
def Obligations.AlarmsProtectTheKeys : Prop :=
  (∀ (c : Byte) (s : State), 1 ≤ c.toNat → c.toNat ≤ 3 → s.blk.sec.class1 = [] → s.blk.rcc.mode = .run → s.blk.sec.husk = .available → s.blk.sec.ku = none →
    s.blk.sec.debugScope = 0 → bit s.blk.sec.cryCtrl 0 = false → Safety.runs (.tamperAlarm c) s fun t => t.blk.sec.husk = .unavailable ∧ t.blk.sec.cl1Hold = true
      ∧ t.blk.sec.tmpLast = mkWord [c.toNat, 256, 3 * 1024] ∧ t.blk.sec.tmpLastAot = s.blk.time.aot ∧ t.blk.sec.class1 = [s.blk.time.aot]
      ∧ bit t.blk.sec.tmpSticky (c.toNat - 1) = true ∧ t.blk.rcc = s.blk.rcc
      ∧ (Safety.room s.blk srcTmp → Safety.lastRecord t.blk = some (srcTmp, 0x20, 4, mkWord [c.toNat, 256, 3 * 1024], hw))
      ∧ (∀ m : Fin 12, (t.blk.mboxes.get m).resps = (s.blk.mboxes.get m).resps) ∧ t.mem = s.mem) ∧
  (∀ (c : Byte) (s : State), (c = 0x10 ∨ c = 0x11) → s.blk.rcc.mode = .run → s.blk.rcc.sched = none → s.blk.sec.ku = none → s.blk.sec.debugScope = 0 →
    bit s.blk.sec.cryCtrl 0 = false → Safety.runs (.tamperAlarm c) s fun t => t.blk.sec.husk = .locked ∧ t.blk.sec.class2Now = true
      ∧ t.blk.rcc.sched = some { target := .lockdown, cause := mcTamper2, at_ := s.blk.breath.bn + 2, rank := 2, due := none } ∧ t.blk.rcc.mode = .run
      ∧ (∀ n : Fin 64, (t.blk.sec.slots.get n).cached = false) ∧ t.mem = s.mem) ∧
  (∀ (c : Byte) (s : State), s.blk.tamperClass c = 0 → Safety.runs (.tamperAlarm c) s fun t => t.blk = s.blk ∧ t.mem = s.mem) ∧
  (∀ (c : Byte) (s : State), (c = 0x10 ∨ c = 0x11) → s.blk.rcc.mode = .sleep → s.blk.rcc.sleepStep ≠ 5 → s.blk.sec.debugScope = 0 → Safety.runs (.tamperAlarm c) s fun t =>
    t.blk.rcc.bootTamper = max s.blk.rcc.bootTamper 2 ∧ t.blk.sec.tmpPending = satInc s.blk.sec.tmpPending 255 ∧ t.blk.nvm = s.blk.nvm ∧ t.mem = s.mem) ∧
  (∀ s : State,
    (s.blk.sec.cl1Hold = true → s.blk.sec.husk = .unavailable → Safety.runs .cl1HoldExpiry s fun t => t.blk.sec.husk = .available ∧ t.blk.sec.cl1Hold = false ∧ t.blk.rcc = s.blk.rcc ∧ t.mem = s.mem)
    ∧ (s.blk.sec.cl1Hold = true → s.blk.sec.husk = .locked → Safety.runs .cl1HoldExpiry s fun t => t.blk.sec = { s.blk.sec with cl1Hold := false } ∧ t.mem = s.mem)
    ∧ (s.blk.sec.cl1Hold = false → Safety.runs .cl1HoldExpiry s fun t => t = s)) ∧
  (∀ (x y : Bool) (s : State), Safety.runs (.entropyFail x y) s fun t => t.blk.sec.entropyOk = false ∧ bit t.blk.sec.crySticky 0 = true
    ∧ t.blk.sec.entRep = (if x then satInc s.blk.sec.entRep 0xFFFF else s.blk.sec.entRep) ∧ t.blk.sec.entProp = (if y then satInc s.blk.sec.entProp 0xFFFF else s.blk.sec.entProp)
    ∧ (Safety.room s.blk srcCry → Safety.lastRecord t.blk = some (srcCry, 0x10, 3, arg32 (b2n x + 2 * b2n y), hw))
    ∧ t.blk = { s.blk with sec := t.blk.sec, evs := t.blk.evs } ∧ t.mem = s.mem) ∧
  (∀ s : State,
    (s.blk.sec.entropyOk = false → Safety.runs (.entropyRetest true) s fun t => t.blk.sec = { s.blk.sec with entropyOk := true }
      ∧ (Safety.room s.blk srcCry → Safety.lastRecord t.blk = some (srcCry, 0x11, 1, 0, hw)) ∧ t.mem = s.mem)
    ∧ (Safety.runs (.entropyRetest false) s fun t => t = s))

/-- R419, R420, R426, R427: the Chanter hands descriptors over; the engine serves the one at the tail and writes its output, its length and its status; a handle that names no key gives status 2. A handshake whose host an anchor vouches for is challenged; its end opens the one session; a datagram is taken once and in the window, any other is counted; each rule of closing ends the session with its reason. Where a clause rests on the model's own choices and not on the spec, they are those of log entries 4, 48. -/
def Obligations.CryptoRingAndSessions : Prop :=
  (∀ (w : Word) (s : State), Safety.runs (.cryHeadWrite .chanter w) s fun t => t.blk = { s.blk with sec := { s.blk.sec with cryHead := arg32 (bits w 9 0) } } ∧ t.mem = s.mem) ∧
  (∀ s : State, let a := s.blk.sec.cryRing.toNat + 64 * s.blk.sec.cryTail
    let d := Mem.readBytes s.mem a 64
    (bit s.blk.sec.cryCtrl 0 = true → s.blk.sec.cryTail ≠ s.blk.sec.cryHead.toNat % 1024 →
      (byteAt d 0 = 1 → Safety.runs .cryptoDescriptorDone s fun t =>
        let o := (digestBytes (Config.sha3 (Mem.readBytes s.mem (leAt d 8 8) (leAt d 4 4)))).take (leAt d 24 4)
        t.blk.sec.cryTail = (s.blk.sec.cryTail + 1) % 2 ^ (bits s.blk.sec.crySize 3 0) % 1024 ∧ t.blk.sec.slots = s.blk.sec.slots
        ∧ t.mem = Mem.stores s.mem [.put (leAt d 16 8) o, .put (a + 28) (leBytes 4 o.length), .put (a + 1) [1]])
      ∧ (byteAt d 0 = 3 → s.blk.slotOfHandle (leAt d 2 2) = none → Safety.runs .cryptoDescriptorDone s fun t =>
        t.blk.sec.cryTail = (s.blk.sec.cryTail + 1) % 2 ^ (bits s.blk.sec.crySize 3 0) % 1024 ∧ bit t.blk.sec.crySticky 2 = true
        ∧ t.mem = Mem.stores s.mem [.put (leAt d 16 8) [], .put (a + 28) [0, 0, 0, 0], .put (a + 1) [2]]))
    ∧ ((bit s.blk.sec.cryCtrl 0 = false ∨ s.blk.sec.cryTail = s.blk.sec.cryHead.toNat % 1024) → Safety.runs .cryptoDescriptorDone s fun t => t.blk = s.blk ∧ t.mem = s.mem)) ∧
  (∀ (h : List Byte) (s : State), s.blk.mgmtServes = true → s.blk.hsBlocked = false → s.blk.sec.entropyOk = true →
    Safety.runs (.mgmtHello h) s fun t => t.blk.sec.session = s.blk.sec.session ∧ t.blk.sec.slots = s.blk.sec.slots ∧ t.mem = s.mem
    ∧ (∀ key : List Byte, s.blk.hostKey (slice h 1604 (leAt h 1600 4)) = some key → h.length = 1604 + leAt h 1600 4 + sigLen →
      Config.mldsaVerify key (splitSig h).1 (splitSig h).2 = true → t.blk.sec.challenge.isSome = true ∧ t.blk.sec.sent.length = 1 ∧ t.blk.evs = s.blk.evs)
    ∧ (s.blk.hostKey (slice h 1604 (leAt h 1600 4)) = none → s.blk.sec.failedHs = [] → t.blk.sec.challenge = none ∧ t.blk.sec.sent = []
        ∧ t.blk.sec.failedHs = [s.blk.time.dt] ∧ (Safety.room s.blk srcMgmt → Safety.lastRecord t.blk = some (srcMgmt, 0x42, 2, 2, hw)))) ∧
  (∀ (h : List Byte) (s : State), (s.blk.mgmtServes = false ∨ s.blk.hsBlocked = true) → Safety.runs (.mgmtHello h) s fun t => t = s) ∧
  (∀ (f : List Byte) (c : Word × List Byte × List Byte) (s : State), s.blk.sec.challenge = some c → leAt f 0 4 = c.1.toNat → f.length = 4 + sigLen → s.blk.sec.session = none →
    Safety.runs (.mgmtFinish f) s fun t =>
      Config.mldsaVerify ((s.blk.hostKey (slice c.2.1 1604 (leAt c.2.1 1600 4))).getD []) (digestBytes (Config.sha3 c.2.1)) (f.drop 4) = true →
      (∃ y : Session, t.blk.sec.session = some y ∧ y.id = c.1 ∧ y.rxSeen = [] ∧ y.txCount = 0 ∧ y.openDt = s.blk.time.dt) ∧ t.blk.sec.challenge = none
      ∧ (Safety.room s.blk srcMgmt → Safety.lastRecord t.blk = some (srcMgmt, 0x40, 1, c.1, hw)) ∧ t.mem = s.mem) ∧
  (∀ (f : List Byte) (s : State), s.blk.sec.challenge = none → Safety.runs (.mgmtFinish f) s fun t => t = s) ∧
  (∀ (d : List Byte) (y : Session) (s : State), s.blk.sec.session = some y → 32 ≤ d.length → d.length ≤ 4128 → leAt d 0 4 = 0x10 → leAt d 4 4 = y.id.toNat →
    s.blk.mgmtServes = true →
    (y.fresh (leAt d 8 8) = true → Safety.runs (.sessionDatagram d) s fun t => ∀ m : List Byte, Config.gcmOpen y.keyIn ([0, 0, 0, 0] ++ slice d 8 8) (d.take 16) (d.drop 16) = some m →
      t.blk.sec.session = some (y.accept (leAt d 8 8) s.blk.time.dt) ∧ t.blk.sec.badDatagrams = s.blk.sec.badDatagrams
        ∧ (∀ q : Fin 256, q ≠ mbQueue 10 0 → t.blk.queues.get q = s.blk.queues.get q) ∧ t.mem = s.mem)
    ∧ (y.fresh (leAt d 8 8) = false → Safety.runs (.sessionDatagram d) s fun t =>
      t.blk = { s.blk with sec := { s.blk.sec with badDatagrams := s.blk.sec.badDatagrams + 1 } } ∧ t.mem = s.mem)) ∧
  (∀ (y : Session) (s : State), s.blk.sec.session = some y →
    (Safety.runs .sessionIdleClose s fun t => t.blk.sec.session = none ∧ (t.blk.mboxes.get 10).resps = [] ∧ (Safety.room s.blk srcMgmt → Safety.lastRecord t.blk = some (srcMgmt, 0x41, 1, 2, hw)) ∧ t.mem = s.mem)
    ∧ (Safety.runs .sessionKeyLifeClose s fun t => t.blk.sec.session = none ∧ (t.blk.mboxes.get 10).resps = [] ∧ (Safety.room s.blk srcMgmt → Safety.lastRecord t.blk = some (srcMgmt, 0x41, 1, 3, hw)) ∧ t.mem = s.mem))

/-! ### Firmware update and recovery (R433 to R451) -/

/-- R256, R435 to R441: an update whose manifest passes erases the slot that does not run and receives; its bytes come in order and are stored where they belong; its end is checked, and the slot is verified, or invalid. R449: over P2 the first valid frame fixes the host; a whole message goes to MB10; one that repeats the number of the last request draws its responses again; a message that misses a segment is discarded. Where a clause rests on the model's own choices and not on the spec, they are those of log entries 4, 49. -/
def Obligations.UpdatesAreReceivedAndChecked : Prop :=
  (∀ (r : Req) (p : List Byte) (i : Fin 13) (s : State), Safety.wholeInParts cmdUpdBegin r s.blk p → compIdx (byteAt p 2).toNat = some i → s.blk.rcc.mode = .service →
    Safety.pass (s.blk.manifestFields p) → i.val ≠ 4 → s.blk.updBusy i = false → s.blk.sec.ownerLock = false → Safety.pass s.blk.siteChecks →
    Safety.pass (s.blk.manifestRollback i p) → Safety.runs (.updBegin r) s fun t => Safety.pass (s.blk.manifestAuth p) → let n := (byteAt p 2).toNat
      let sb := !(s.blk.comp i).runB
      t.blk.upd.state = .receiving ∧ t.blk.upd.comp = n ∧ t.blk.upd.received = 0 ∧ t.blk.upd.imgLen = leAt p 36 4
      ∧ ((t.blk.comp i).slot sb).state = .receiving ∧ ((t.blk.comp i).slot sb).digest = BitVec.ofNat 512 (leAt p 40 64)
      ∧ (t.blk.comp i).slot (s.blk.comp i).runB = (s.blk.comp i).slot (s.blk.comp i).runB ∧ (t.blk.comp i).runB = (s.blk.comp i).runB ∧ Safety.otherComps s.blk t.blk i
      ∧ (∀ a : Nat, slotBase n sb ≤ a → a < slotBase n sb + (slotArea n).2 → Mem.read t.mem a = 0)
      ∧ (∀ a : Nat, (a < slotBase n sb ∨ slotBase n sb + (slotArea n).2 ≤ a) → Mem.read t.mem a = Mem.read s.mem a)) ∧
  (∀ (r : Req) (i : Fin 13) (s : State), Safety.canonical s → Safety.accepted cmdUpdData r s.blk → s.blk.upd.state = .receiving → compIdx s.blk.upd.comp = some i →
    nonZeroAt (Safety.payload r) 4 4 = none →
    (leAt (Safety.payload r) 0 4 = s.blk.upd.received → 8 ≤ (Safety.payload r).length → s.blk.upd.received + ((Safety.payload r).length - 8) ≤ s.blk.upd.imgLen →
      s.blk.upd.imgLen ≤ (slotArea s.blk.upd.comp).2 →
      Safety.runs (.updData r) s fun t => let n := (Safety.payload r).length - 8
        let a := slotBase s.blk.upd.comp (!(s.blk.comp i).runB) + s.blk.upd.received
        t.blk.upd = { s.blk.upd with received := s.blk.upd.received + n } ∧ Safety.okays s t r 0xA02 (leBytes 4 (s.blk.upd.received + n))
        ∧ (∀ j : Nat, j < n → Mem.read t.mem (a + j) = byteAt (Safety.payload r) (8 + j))
        ∧ (∀ x : Nat, (x < a ∨ a + n ≤ x) → Mem.read t.mem x = Mem.read s.mem x))
    ∧ (leAt (Safety.payload r) 0 4 ≠ s.blk.upd.received → Safety.runs (.updData r) s fun t => Safety.refuses s t r 0xA02 0x12 0 2 s.blk.upd.received)) ∧
  (∀ (r : Req) (s : State), Safety.accepted cmdUpdFinish r s.blk → s.blk.upd.state = .receiving →
    (s.blk.upd.imgLen ≤ s.blk.upd.received → Safety.runs (.updFinish r) s fun t => t.blk.upd.state = .verifying ∧ t.blk.upd.due.isSome = true ∧ t.blk.upd.comps = s.blk.upd.comps
      ∧ t.blk = { s.blk with upd := t.blk.upd, mboxes := t.blk.mboxes } ∧ t.mem = s.mem)
    ∧ (s.blk.upd.received < s.blk.upd.imgLen → Safety.runs (.updFinish r) s fun t => Safety.refuses s t r 0xA03 0x12 0xFFFF 2 s.blk.upd.received)) ∧
  (∀ (i : Fin 13) (s : State), s.blk.upd.state = .verifying → compIdx s.blk.upd.comp = some i → let sb := !(s.blk.comp i).runB
    Safety.runs .updateVerified s fun t => Safety.otherComps s.blk t.blk i ∧ t.mem = s.mem
    ∧ (s.blk.imageGood s.mem s.blk.upd.comp sb ((s.blk.comp i).slot sb) = true → t.blk.upd.state = .verified
      ∧ ((t.blk.comp i).slot sb).state = .verified ∧ (Safety.room s.blk (srcUpd s.blk.upd.comp) →
        Safety.lastRecord t.blk = some (srcUpd s.blk.upd.comp, 3, 1, arg32 s.blk.upd.imgLen, hw)))
    ∧ (s.blk.imageGood s.mem s.blk.upd.comp sb ((s.blk.comp i).slot sb) = false → t.blk.upd.state = .idle ∧ ((t.blk.comp i).slot sb).state = .invalid)) ∧
  (∀ (a : BitVec 48) (l : List Byte) (s : State), s.blk.rcc.mode = .recovery → s.blk.rcc.bootSel = 1 → 8 ≤ l.length → l.length ≤ 1408 → byteAt l 0 = 0x20 → byteAt l 3 = 0 →
    (s.blk.upd.recHost = none ∨ s.blk.upd.recHost = some a) →
    (byteAt l 1 = 0 → byteAt l 2 = 1 → s.blk.upd.recLast = none → Safety.runs (.recoveryFrame a l) s fun t => t.blk.upd.recHost = some a
      ∧ t.blk.upd.recLast = some (wordAt l 4, []) ∧ t.blk.upd.recMsg = none ∧ t.blk.upd.comps = s.blk.upd.comps
      ∧ (∀ q : Fin 256, q ≠ mbQueue 10 0 → t.blk.queues.get q = s.blk.queues.get q) ∧ t.mem = s.mem)
    ∧ (∀ m : List (List Byte), byteAt l 1 = 0 → byteAt l 2 = 1 → s.blk.upd.recLast = some (wordAt l 4, m) → Safety.runs (.recoveryFrame a l) s fun t =>
        t.blk.upd.recHost = some a ∧ t.blk.queues = s.blk.queues ∧ t.blk.sec.sent = m.flatMap (t.blk.romFrames (wordAt l 4)) ∧ t.mem = s.mem)
    ∧ (byteAt l 1 = 0 → byteAt l 2 = 2 → s.blk.upd.recMsg = none → Safety.runs (.recoveryFrame a l) s fun t => t.blk.upd.recMsg = some (wordAt l 4, 2)
      ∧ t.blk.upd.recSegs = [(0, l.drop 8)] ∧ t.blk.queues = s.blk.queues ∧ t.mem = s.mem)) ∧
  (∀ (a b : BitVec 48) (l : List Byte) (s : State), (s.blk.rcc.mode ≠ .recovery ∨ (s.blk.upd.recHost = some b ∧ b ≠ a)) → Safety.runs (.recoveryFrame a l) s fun t => t = s) ∧
  (∀ s : State, Safety.runs .recoverySegmentTimeout s fun t => t.blk = { s.blk with upd := { s.blk.upd with recMsg := none, recSegs := [] } } ∧ t.mem = s.mem)

/-- R442, R443, R445, R446, R450, R451: a verified update is scheduled, and dropped by `UPD_ABORT`; at its start a pending activation makes the old slot previous and the new one a trial; a trial that is confirmed becomes active and raises its counter; one that fails sets its fault and reverts at the next start, or at once. A package of QSPI that differs and passes is installed and on trial. Where a clause rests on the model's own choices and not on the spec, they are those of log entries 4, 45, 49. -/
def Obligations.UpdatesActivateOnTrial : Prop :=
  (∀ (r : Req) (i : Fin 13) (s : State), Safety.accepted cmdUpdActivate r s.blk → compIdx s.blk.upd.comp = some i → s.blk.upd.state = .verified → byteAt (Safety.payload r) 0 = 0 →
    nonZeroAt (Safety.payload r) 1 7 = none → Safety.pass s.blk.siteChecks → i.val < 5 → i.val ≠ 1 → Safety.runs (.updActivate r) s fun t =>
      t.blk.upd.state = .scheduled ∧ (t.blk.comp i).pendingAct = true ∧ (t.blk.comp i).runB = (s.blk.comp i).runB ∧ Safety.otherComps s.blk t.blk i
      ∧ Safety.answers s t r 0xA04 1 0xFFFFFFFF [] ∧ t.mem = s.mem) ∧
  (∀ (r : Req) (s : State), Safety.accepted cmdUpdActivate r s.blk → compIdx s.blk.upd.comp = some 1 → s.blk.upd.state = .verified → byteAt (Safety.payload r) 0 = 0 →
    nonZeroAt (Safety.payload r) 1 7 = none → Safety.pass s.blk.siteChecks → s.blk.rcc.mode ≠ .recovery → Safety.runs (.updActivate r) s fun t =>
      t.blk.upd.state = .scheduled ∧ t.blk.upd.target = some (s.blk.breath.bn + 2) ∧ t.blk.upd.due.isSome = true ∧ (t.blk.comp 1).pendingAct = true ∧ t.mem = s.mem) ∧
  (∀ (r : Req) (s : State), Safety.accepted cmdUpdAbort r s.blk →
    (s.blk.upd.state = .idle → Safety.runs (.updAbort r) s fun t => Safety.okays s t r 0xA05 [] ∧ Safety.onlyAnswers s t)
    ∧ (∀ i : Fin 13, s.blk.upd.state = .receiving → compIdx s.blk.upd.comp = some i → s.blk.upd.due = none → Safety.runs (.updAbort r) s fun t => t.blk.upd.state = .idle
      ∧ ((t.blk.comp i).slot (!(s.blk.comp i).runB)).state = .invalid ∧ (t.blk.comp i).slot (s.blk.comp i).runB = (s.blk.comp i).slot (s.blk.comp i).runB ∧ t.mem = s.mem)
    ∧ (∀ i : Fin 13, s.blk.upd.state = .scheduled → compIdx s.blk.upd.comp = some i → i.val < 5 → s.blk.upd.due = none → Safety.runs (.updAbort r) s fun t => t.blk.upd.state = .idle
      ∧ (t.blk.comp i).pendingAct = false ∧ (∀ sb : Bool, (t.blk.comp i).slot sb = (s.blk.comp i).slot sb) ∧ t.mem = s.mem)) ∧
  (∀ (c : Byte) (i : Fin 13) (s : State), compIdx c.toNat = some i → s.blk.rcc.mode = .boot → s.blk.rcc.episode = none → i.val < 4 → i.val ≠ 1 →
    ((s.blk.comp i).pendingAct = true → ((s.blk.comp i).slot (s.blk.comp i).runB).state = .active → Safety.runs (.updateActivated c) s fun t =>
      (t.blk.comp i).runB = !(s.blk.comp i).runB ∧ (t.blk.comp i).pendingAct = false ∧ ((t.blk.comp i).slot (!(s.blk.comp i).runB)).state = .trial
      ∧ ((t.blk.comp i).slot (s.blk.comp i).runB).state = .previous ∧ Safety.otherComps s.blk t.blk i ∧ t.mem = s.mem)
    ∧ ((s.blk.comp i).pendingAct = false → Safety.runs (.updateActivated c) s fun t => t = s)) ∧
  (∀ (c : Byte) (i : Fin 13) (s : State), compIdx c.toNat = some i → i.val < 4 → s.blk.trialOpen i = true →
    (s.blk.confirmable i = true → Safety.runs (.updateConfirmed c) s fun t =>
      ((t.blk.comp i).slot (s.blk.comp i).runB).state = .active ∧ (t.blk.comp i).runB = (s.blk.comp i).runB
      ∧ (t.blk.comp i).counter = max (s.blk.comp i).counter ((s.blk.comp i).slot (s.blk.comp i).runB).secVer
      ∧ (t.blk.comp i).format = ((s.blk.comp i).slot (s.blk.comp i).runB).format ∧ Safety.otherComps s.blk t.blk i ∧ t.mem = s.mem)
    ∧ (s.blk.confirmable i = false → Safety.runs (.updateConfirmed c) s fun t => t = s)
    ∧ (∀ w : BitVec 3, i.val ≠ 1 → s.blk.failable i w.toNat = true → Safety.runs (.updateTrialFailed c w) s fun t => (t.blk.comp i).revert = true
      ∧ bit t.blk.rcc.gpioFault 0 = true ∧ (t.blk.comp i).runB = (s.blk.comp i).runB ∧ (Safety.room s.blk (srcUpd (compCode i)) →
        Safety.lastRecord t.blk = some (srcUpd (compCode i), 7, 3, arg32 w.toNat, hw)) ∧ t.mem = s.mem)
    ∧ (∀ w : BitVec 3, s.blk.failable i w.toNat = false → Safety.runs (.updateTrialFailed c w) s fun t => t = s)
    ∧ (i.val = 1 → s.blk.failable 1 3 = true → ((s.blk.comp 1).slot (!(s.blk.comp 1).runB)).state = .previous → Safety.runs (.updateTrialFailed c 3) s fun t =>
        (t.blk.comp 1).runB = !(s.blk.comp 1).runB ∧ ((t.blk.comp 1).slot (!(s.blk.comp 1).runB)).state = .active
        ∧ ((t.blk.comp 1).slot (s.blk.comp 1).runB).state = .invalid ∧ t.blk.dr.assertReset = some 4 ∧ t.mem = s.mem)) ∧
  (∀ (l img : List Byte) (i : Fin 13) (s : State), let p := padTo manifestLen l
    let n := (byteAt p 2).toNat
    let x := manifestSlot p .verified
    let sb := !(s.blk.comp i).runB
    compIdx n = some i → s.blk.rcc.mode = .boot → s.blk.rcc.episode = none → s.blk.rcc.bootSel = 4 → i.val < 4 →
    (s.blk.running i).digest ≠ x.digest → Safety.pass (s.blk.manifestFields p) → Safety.pass (s.blk.manifestRollback i p) →
    Safety.runs (.qspiPackageInstall l img) s fun t => Safety.pass (s.blk.manifestAuth p) →
      s.blk.imageGood (Mem.stores s.mem [.clear (slotBase n sb) (slotArea n).2, .put (slotBase n sb) (padTo x.len img)]) n sb x = true →
      (t.blk.comp i).runB = sb ∧ ((t.blk.comp i).slot sb).state = .trial ∧ ((t.blk.comp i).slot sb).digest = x.digest ∧ Safety.otherComps s.blk t.blk i
      ∧ t.mem = Mem.stores s.mem [.clear (slotBase n sb) (slotArea n).2, .put (slotBase n sb) (padTo x.len img)]) ∧
  (∀ (l img : List Byte) (s : State), (s.blk.rcc.mode ≠ .boot ∨ s.blk.rcc.bootSel ≠ 4) → Safety.runs (.qspiPackageInstall l img) s fun t => t.blk = s.blk ∧ t.mem = s.mem)

/-! ### Registers (R6 to R10, R16 to R18, R257) -/

/-- The Reset column of the register tables of R63, R90, R91, R202, R225 to R227, R308, R309, R329, R351, R352, R371, R396, R397, R430 and R431, of registers whose Reset value is not zero, and five whose is, as the Chanter reads them at reset. Where a clause rests on the model's own choices and not on the spec, they are those of log entries 1, 14, 18. -/
def Obligations.RegistersReadTheirResetValues : Prop :=
  ∀ x ∈ ([(0x40000000, 0x30000001), (0x4000001C, 0x64), (0x40010010, 0x46), (0x40010014, 0xA00), (0x40010018, 0x28), (0x40021008, 0xF4240), (0x4002100C, 0x1F4),
      (0x40021010, 0x2710), (0x40021018, 0x00F8F8F8), (0x4002101C, 0xFD), (0x40022010, 1), (0x40022014, 8000), (0x40022024, 60), (0x40028004, 250),
      (0x40028008, 30), (0x40028030, 8), (0x40028034, 32), (0x4003000C, 0x400), (0x40030408, 0x1C200), (0x40044008, 0x4000), (0x40050300, 0xFA0),
      (0x40070008, 4), (0x40070014, 2), (0x40080008, 0xA), (0x40080010, 0x0F9F7E00), (0x40080014, 0x07071E00), (0x40080018, 0x8020), (0x40080020, 0x006403E8),
      (0x40080024, 0x2800), (0x40090000, 0x05000202), (0x40090004, 0x0C841064), (0x40090008, 0x003203E8), (0x4009000C, 0x000A07D0), (0x4009F000, 0xF0),
      (0x4009F004, 0x003F0A01), (0x400A0004, 0x80008000), (0x400A0010, 0x12C), (0x400A0014, 0x1F4), (0x400A1204, 0x00018001), (0x400A1208, 0x00FAC681),
      (0x400A1210, 0x4010), (0x400A1220, 0xFFFFFFFF), (0x400A1254, 0x00FF0102), (0x400B0004, 0x3300), (0x400B0018, 0xA), (0x400D0004, 0x3C00),
      (0x40010000, 0), (0x400A0000, 0), (0x400C0008, 0), (0x40010020, 0), (0x40028010, 0)] : List (Nat × Word)), State.reset.blk.blockRead .chanter x.1 = x.2

/-- R6 to R10, R16 to R18, R179, R396, R397: a write of a register goes by its type: a read/write register takes its defined bits (and ignores a value that its table excludes), a write-1-to-clear register drops the bits written 1, a read-only one keeps its value; a write by an initiator without access, a misaligned one and one that meets no range of the map leave every register alone. Where a clause rests on the model's own choices and not on the spec, they are those of log entries 17, 22. -/
def Obligations.RegisterWritesFollowTheirTypes : Prop :=
  (∀ (w : Word) (s : State),
    (10 ≤ bits w 15 0 → bits w 15 0 ≤ 10000 → Safety.runs (.registerWrite .chanter 0x4000001C 2 (w.zeroExtend 64)) s fun t =>
      t.blk = { s.blk with rcc := { s.blk.rcc with wdtCfg := w &&& 0xFFFF } } ∧ t.mem = s.mem)
    ∧ (bits w 15 0 < 10 ∨ 10000 < bits w 15 0 → Safety.runs (.registerWrite .chanter 0x4000001C 2 (w.zeroExtend 64)) s fun t => t.blk = s.blk ∧ t.mem = s.mem)
    ∧ (Safety.runs (.registerWrite .chanter 0x40010020 2 (w.zeroExtend 64)) s fun t =>
      t.blk = { s.blk with rcc := { s.blk.rcc with pwrSticky := s.blk.rcc.pwrSticky &&& ~~~ (w &&& 0x3F) } } ∧ t.mem = s.mem)
    ∧ (Safety.runs (.registerWrite .chanter 0x40010018 2 (w.zeroExtend 64)) s fun t => t.blk.rcc = { s.blk.rcc with updThresh := w &&& 0xFF } ∧ t.mem = s.mem)
    ∧ (Safety.runs (.registerWrite .chanter 0x40021008 2 (w.zeroExtend 64)) s fun t => t.blk = { s.blk with time := { s.blk.time with stepThresh := w } } ∧ t.mem = s.mem)
    ∧ (Safety.runs (.registerWrite .chanter 0x40000000 2 (w.zeroExtend 64)) s fun t => t.blk = s.blk ∧ t.mem = s.mem)
    ∧ (s.blk.absent (.block 10) = false → Safety.runs (.registerWrite .chanter 0x40060000 2 (w.zeroExtend 64)) s fun t => t.blk = s.blk ∧ t.mem = s.mem)) ∧
  (∀ (i : Initiator) (a : Word) (n : Fin 4) (d : BitVec 64) (s : State), inBlocks a.toNat = true → inWindow a.toNat = false → s.blk.absentAt i a.toNat = none → mapped a.toNat = true →
    (aligned a.toNat n = false ∨ s.blk.allows i a.toNat true = false) → Safety.runs (.registerWrite i a n d) s fun t => i ∈ t.blk.breath.denied
      ∧ t.blk.rcc = s.blk.rcc ∧ t.blk.time = s.blk.time ∧ t.blk.sec = s.blk.sec ∧ t.blk.sw = s.blk.sw ∧ t.blk.cans = s.blk.cans ∧ t.blk.queues = s.blk.queues ∧ t.mem = s.mem) ∧
  (∀ (k : Fin 8) (a : Word) (s : State), 0x40000000 ≤ a.toNat → a.toNat < 0x40020000 → s.blk.allows (.tenant k) a.toNat true = false) ∧
  (∀ (i : Initiator) (a : Word) (n : Fin 4) (d : BitVec 64) (s : State), inWindow a.toNat = false → s.blk.absentAt i a.toNat = none → mapped a.toNat = false →
    Safety.runs (.registerWrite i a n d) s fun t => t.blk.rcc = s.blk.rcc ∧ t.blk.time = s.blk.time ∧ t.blk.sec = s.blk.sec ∧ t.blk.sw = s.blk.sw
      ∧ t.blk.chans = s.blk.chans ∧ t.blk.queues = s.blk.queues ∧ t.mem = s.mem)

/-- R257: `REG_READ` answers with the word that the Chanter reads and logs the access; `REG_WRITE` writes as the Chanter writes; both refuse the security blocks, the pod pool and what reading would change, and `REG_WRITE` the NVM too. Where a clause rests on the model's own choices and not on the spec, they are those of log entry 24. -/
def Obligations.RegistersByCommand : Prop :=
  (∀ (r : Req) (s : State), let a := leAt (Safety.payload r) 0 4
    Safety.accepted cmdRegRead r s.blk → s.blk.absentAt .chanter a = none →
    (inBlocks a = true → a % 4 = 0 → blockNo a ∉ [2, 4, 6, 7, 8, 0xA, 0xD] → mapped a = true → leAt (Safety.payload r) 4 2 = 1 → nonZeroAt (Safety.payload r) 6 2 = none →
      Safety.runs (.regRead r) s fun t => Safety.okays s t r 0xB02 (leBytes 4 (s.blk.blockRead .chanter a).toNat)
        ∧ (Safety.room s.blk (srcMb r.mb) → Safety.lastRecord t.blk = some (srcMb r.mb, 0x25, 2, arg32 a, idByte (reqWho r)))
        ∧ t.blk = { s.blk with evs := t.blk.evs, mboxes := t.blk.mboxes } ∧ t.mem = s.mem)
    ∧ (protectedAddr a = true → Safety.runs (.regRead r) s fun t => Safety.refuses s t r 0xB02 0x20 0 3 a)) ∧
  (∀ (r : Req) (s : State), let a := leAt (Safety.payload r) 0 4
    Safety.accepted cmdRegWrite r s.blk → s.blk.absentAt .chanter a = none →
    (a = 0x40010018 → Safety.runs (.regWrite r) s fun t => Safety.okays s t r 0xB03 [] ∧ t.blk.rcc = { s.blk.rcc with updThresh := wordAt (Safety.payload r) 4 &&& 0xFF }
        ∧ (Safety.room s.blk (srcMb r.mb) → Safety.lastRecord t.blk = some (srcMb r.mb, 0x25, 2, arg32 a, idByte (reqWho r))) ∧ t.mem = s.mem)
    ∧ (s.blk.writeProtected a = true → Safety.runs (.regWrite r) s fun t => Safety.refuses s t r 0xB03 0x20 0 3 a)
    ∧ (a % 4 ≠ 0 → s.blk.writeProtected a = false → Safety.runs (.regWrite r) s fun t => Safety.refuses s t r 0xB03 0x12 0 1 0)) ∧
  (∀ (a : Nat) (b : Blk), (inBlocks a = true ∧ (blockNo a = 6 ∨ blockNo a = 7 ∨ blockNo a = 0xD)) ∨ inPool a = true ∨ inNvm a = true → b.writeProtected a = true)
end

