-- ==== Sys2Proof/Laws/State.lean ====
section
/-! SUPPORT. One lemma per field per update of the state: what an update of one unit leaves alone, and what it changes.
All are true by unfolding one record update. -/

namespace Sys2Proof.Machine
open Sys2Proof

/-! ### Tables -/

@[simp] theorem vmod_get_self {α : Type} {n : Nat} (v : Vector α n) (i : Fin n) (f : α → α) : (vmod v i f).get i = f (v.get i) := by
  show (v.set i.val (f (v.get i)) i.isLt)[i.val] = f (v.get i)
  simp

theorem vmod_get_ne {α : Type} {n : Nat} (v : Vector α n) (i j : Fin n) (f : α → α) (h : i ≠ j) :
    (vmod v i f).get j = v.get j := by
  have h1 : i.val ≠ j.val := fun e => h (Fin.ext e)
  show (v.set i.val (f (v.get i)) i.isLt)[j.val] = v[j.val]
  simp [h1]

theorem vmod_get {α : Type} {n : Nat} (v : Vector α n) (i j : Fin n) (f : α → α) :
    (vmod v i f).get j = if i = j then f (v.get j) else v.get j := by
  by_cases h : i = j
  · subst h; simp
  · simp [vmod_get_ne v i j f h, h]

/-- An update that changes nothing at its place changes nothing. -/
theorem vmod_id {α : Type} {n : Nat} (v : Vector α n) (i : Fin n) (f : α → α) (h : f (v.get i) = v.get i) : vmod v i f = v := by
  have h1 : v.get i = v[i.val] := rfl
  unfold vmod
  rw [h, h1]
  simp

/-! ### The state -/

@[simp] theorem State.onBlk_blk (s : State) (f : Blk → Blk) : (s.onBlk f).blk = f s.blk := rfl
@[simp] theorem State.onBlk_mem (s : State) (f : Blk → Blk) : (s.onBlk f).mem = s.mem := rfl
@[simp] theorem State.onBlk_pending (s : State) (f : Blk → Blk) : (s.onBlk f).pending = s.pending := rfl
@[simp] theorem State.onMem_blk (s : State) (f : Mem → Blk → Blk × List Store) :
    (s.onMem f).blk = (f s.mem s.blk).1.heal (f s.mem s.blk).2 := rfl
@[simp] theorem State.onMem_mem (s : State) (f : Mem → Blk → Blk × List Store) :
    (s.onMem f).mem = Mem.stores s.mem (f s.mem s.blk).2 := rfl
@[simp] theorem State.onMem_pending (s : State) (f : Mem → Blk → Blk × List Store) : (s.onMem f).pending = s.pending := rfl
@[simp] theorem State.withPending_pending (s : State) (l : List Instr) : (s.withPending l).pending = l := rfl
@[simp] theorem State.withPending_mem (s : State) (l : List Instr) : (s.withPending l).mem = s.mem := rfl
@[simp] theorem State.withPending_blk (s : State) (l : List Instr) : (s.withPending l).blk = s.blk := rfl
@[simp] theorem State.reset_pending : State.reset.pending = [] := rfl
@[simp] theorem State.reset_mem : State.reset.mem = [] := rfl

/-! ### Updates of one unit -/

@[simp] theorem Blk.onBre_variant (b : Blk) (f : Breath → Breath) : (b.onBre f).variant = b.variant := rfl
@[simp] theorem Blk.onBre_uid (b : Blk) (f : Breath → Breath) : (b.onBre f).uid = b.uid := rfl
@[simp] theorem Blk.onBre_rev (b : Blk) (f : Breath → Breath) : (b.onBre f).rev = b.rev := rfl
@[simp] theorem Blk.onBre_absentLogged (b : Blk) (f : Breath → Breath) : (b.onBre f).absentLogged = b.absentLogged := rfl
@[simp] theorem Blk.onBre_reply (b : Blk) (f : Breath → Breath) : (b.onBre f).reply = b.reply := rfl
@[simp] theorem Blk.onBre_freeCtr (b : Blk) (f : Breath → Breath) : (b.onBre f).freeCtr = b.freeCtr := rfl
@[simp] theorem Blk.onBre_breath (b : Blk) (f : Breath → Breath) : (b.onBre f).breath = f b.breath := rfl
@[simp] theorem Blk.onBre_time (b : Blk) (f : Breath → Breath) : (b.onBre f).time = b.time := rfl
@[simp] theorem Blk.onBre_evs (b : Blk) (f : Breath → Breath) : (b.onBre f).evs = b.evs := rfl
@[simp] theorem Blk.onBre_chans (b : Blk) (f : Breath → Breath) : (b.onBre f).chans = b.chans := rfl
@[simp] theorem Blk.onBre_kernels (b : Blk) (f : Breath → Breath) : (b.onBre f).kernels = b.kernels := rfl
@[simp] theorem Blk.onBre_motion (b : Blk) (f : Breath → Breath) : (b.onBre f).motion = b.motion := rfl
@[simp] theorem Blk.onBre_bridges (b : Blk) (f : Breath → Breath) : (b.onBre f).bridges = b.bridges := rfl
@[simp] theorem Blk.onBre_slots (b : Blk) (f : Breath → Breath) : (b.onBre f).slots = b.slots := rfl
@[simp] theorem Blk.onBre_senseDrive (b : Blk) (f : Breath → Breath) : (b.onBre f).senseDrive = b.senseDrive := rfl
@[simp] theorem Blk.onBre_senseNext (b : Blk) (f : Breath → Breath) : (b.onBre f).senseNext = b.senseNext := rfl
@[simp] theorem Blk.onBre_queues (b : Blk) (f : Breath → Breath) : (b.onBre f).queues = b.queues := rfl
@[simp] theorem Blk.onBre_mboxes (b : Blk) (f : Breath → Breath) : (b.onBre f).mboxes = b.mboxes := rfl
@[simp] theorem Blk.onBre_trans (b : Blk) (f : Breath → Breath) : (b.onBre f).trans = b.trans := rfl
@[simp] theorem Blk.onBre_cfg (b : Blk) (f : Breath → Breath) : (b.onBre f).cfg = b.cfg := rfl
@[simp] theorem Blk.onBre_tenants (b : Blk) (f : Breath → Breath) : (b.onBre f).tenants = b.tenants := rfl
@[simp] theorem Blk.onBre_dr (b : Blk) (f : Breath → Breath) : (b.onBre f).dr = b.dr := rfl
@[simp] theorem Blk.onBre_rcc (b : Blk) (f : Breath → Breath) : (b.onBre f).rcc = b.rcc := rfl
@[simp] theorem Blk.onBre_cans (b : Blk) (f : Breath → Breath) : (b.onBre f).cans = b.cans := rfl
@[simp] theorem Blk.onBre_nms (b : Blk) (f : Breath → Breath) : (b.onBre f).nms = b.nms := rfl
@[simp] theorem Blk.onBre_nmg (b : Blk) (f : Breath → Breath) : (b.onBre f).nmg = b.nmg := rfl
@[simp] theorem Blk.onBre_sw (b : Blk) (f : Breath → Breath) : (b.onBre f).sw = b.sw := rfl
@[simp] theorem Blk.onBre_sec (b : Blk) (f : Breath → Breath) : (b.onBre f).sec = b.sec := rfl
@[simp] theorem Blk.onBre_upd (b : Blk) (f : Breath → Breath) : (b.onBre f).upd = b.upd := rfl
@[simp] theorem Blk.onBre_nvm (b : Blk) (f : Breath → Breath) : (b.onBre f).nvm = b.nvm := rfl

@[simp] theorem Blk.onEvs_variant (b : Blk) (f : Evs → Evs) : (b.onEvs f).variant = b.variant := rfl
@[simp] theorem Blk.onEvs_uid (b : Blk) (f : Evs → Evs) : (b.onEvs f).uid = b.uid := rfl
@[simp] theorem Blk.onEvs_rev (b : Blk) (f : Evs → Evs) : (b.onEvs f).rev = b.rev := rfl
@[simp] theorem Blk.onEvs_absentLogged (b : Blk) (f : Evs → Evs) : (b.onEvs f).absentLogged = b.absentLogged := rfl
@[simp] theorem Blk.onEvs_reply (b : Blk) (f : Evs → Evs) : (b.onEvs f).reply = b.reply := rfl
@[simp] theorem Blk.onEvs_freeCtr (b : Blk) (f : Evs → Evs) : (b.onEvs f).freeCtr = b.freeCtr := rfl
@[simp] theorem Blk.onEvs_breath (b : Blk) (f : Evs → Evs) : (b.onEvs f).breath = b.breath := rfl
@[simp] theorem Blk.onEvs_time (b : Blk) (f : Evs → Evs) : (b.onEvs f).time = b.time := rfl
@[simp] theorem Blk.onEvs_evs (b : Blk) (f : Evs → Evs) : (b.onEvs f).evs = f b.evs := rfl
@[simp] theorem Blk.onEvs_chans (b : Blk) (f : Evs → Evs) : (b.onEvs f).chans = b.chans := rfl
@[simp] theorem Blk.onEvs_kernels (b : Blk) (f : Evs → Evs) : (b.onEvs f).kernels = b.kernels := rfl
@[simp] theorem Blk.onEvs_motion (b : Blk) (f : Evs → Evs) : (b.onEvs f).motion = b.motion := rfl
@[simp] theorem Blk.onEvs_bridges (b : Blk) (f : Evs → Evs) : (b.onEvs f).bridges = b.bridges := rfl
@[simp] theorem Blk.onEvs_slots (b : Blk) (f : Evs → Evs) : (b.onEvs f).slots = b.slots := rfl
@[simp] theorem Blk.onEvs_senseDrive (b : Blk) (f : Evs → Evs) : (b.onEvs f).senseDrive = b.senseDrive := rfl
@[simp] theorem Blk.onEvs_senseNext (b : Blk) (f : Evs → Evs) : (b.onEvs f).senseNext = b.senseNext := rfl
@[simp] theorem Blk.onEvs_queues (b : Blk) (f : Evs → Evs) : (b.onEvs f).queues = b.queues := rfl
@[simp] theorem Blk.onEvs_mboxes (b : Blk) (f : Evs → Evs) : (b.onEvs f).mboxes = b.mboxes := rfl
@[simp] theorem Blk.onEvs_trans (b : Blk) (f : Evs → Evs) : (b.onEvs f).trans = b.trans := rfl
@[simp] theorem Blk.onEvs_cfg (b : Blk) (f : Evs → Evs) : (b.onEvs f).cfg = b.cfg := rfl
@[simp] theorem Blk.onEvs_tenants (b : Blk) (f : Evs → Evs) : (b.onEvs f).tenants = b.tenants := rfl
@[simp] theorem Blk.onEvs_dr (b : Blk) (f : Evs → Evs) : (b.onEvs f).dr = b.dr := rfl
@[simp] theorem Blk.onEvs_rcc (b : Blk) (f : Evs → Evs) : (b.onEvs f).rcc = b.rcc := rfl
@[simp] theorem Blk.onEvs_cans (b : Blk) (f : Evs → Evs) : (b.onEvs f).cans = b.cans := rfl
@[simp] theorem Blk.onEvs_nms (b : Blk) (f : Evs → Evs) : (b.onEvs f).nms = b.nms := rfl
@[simp] theorem Blk.onEvs_nmg (b : Blk) (f : Evs → Evs) : (b.onEvs f).nmg = b.nmg := rfl
@[simp] theorem Blk.onEvs_sw (b : Blk) (f : Evs → Evs) : (b.onEvs f).sw = b.sw := rfl
@[simp] theorem Blk.onEvs_sec (b : Blk) (f : Evs → Evs) : (b.onEvs f).sec = b.sec := rfl
@[simp] theorem Blk.onEvs_upd (b : Blk) (f : Evs → Evs) : (b.onEvs f).upd = b.upd := rfl
@[simp] theorem Blk.onEvs_nvm (b : Blk) (f : Evs → Evs) : (b.onEvs f).nvm = b.nvm := rfl

@[simp] theorem Blk.onTb_variant (b : Blk) (f : TimeBase → TimeBase) : (b.onTb f).variant = b.variant := rfl
@[simp] theorem Blk.onTb_uid (b : Blk) (f : TimeBase → TimeBase) : (b.onTb f).uid = b.uid := rfl
@[simp] theorem Blk.onTb_rev (b : Blk) (f : TimeBase → TimeBase) : (b.onTb f).rev = b.rev := rfl
@[simp] theorem Blk.onTb_absentLogged (b : Blk) (f : TimeBase → TimeBase) : (b.onTb f).absentLogged = b.absentLogged := rfl
@[simp] theorem Blk.onTb_reply (b : Blk) (f : TimeBase → TimeBase) : (b.onTb f).reply = b.reply := rfl
@[simp] theorem Blk.onTb_freeCtr (b : Blk) (f : TimeBase → TimeBase) : (b.onTb f).freeCtr = b.freeCtr := rfl
@[simp] theorem Blk.onTb_breath (b : Blk) (f : TimeBase → TimeBase) : (b.onTb f).breath = b.breath := rfl
@[simp] theorem Blk.onTb_time (b : Blk) (f : TimeBase → TimeBase) : (b.onTb f).time = f b.time := rfl
@[simp] theorem Blk.onTb_evs (b : Blk) (f : TimeBase → TimeBase) : (b.onTb f).evs = b.evs := rfl
@[simp] theorem Blk.onTb_chans (b : Blk) (f : TimeBase → TimeBase) : (b.onTb f).chans = b.chans := rfl
@[simp] theorem Blk.onTb_kernels (b : Blk) (f : TimeBase → TimeBase) : (b.onTb f).kernels = b.kernels := rfl
@[simp] theorem Blk.onTb_motion (b : Blk) (f : TimeBase → TimeBase) : (b.onTb f).motion = b.motion := rfl
@[simp] theorem Blk.onTb_bridges (b : Blk) (f : TimeBase → TimeBase) : (b.onTb f).bridges = b.bridges := rfl
@[simp] theorem Blk.onTb_slots (b : Blk) (f : TimeBase → TimeBase) : (b.onTb f).slots = b.slots := rfl
@[simp] theorem Blk.onTb_senseDrive (b : Blk) (f : TimeBase → TimeBase) : (b.onTb f).senseDrive = b.senseDrive := rfl
@[simp] theorem Blk.onTb_senseNext (b : Blk) (f : TimeBase → TimeBase) : (b.onTb f).senseNext = b.senseNext := rfl
@[simp] theorem Blk.onTb_queues (b : Blk) (f : TimeBase → TimeBase) : (b.onTb f).queues = b.queues := rfl
@[simp] theorem Blk.onTb_mboxes (b : Blk) (f : TimeBase → TimeBase) : (b.onTb f).mboxes = b.mboxes := rfl
@[simp] theorem Blk.onTb_trans (b : Blk) (f : TimeBase → TimeBase) : (b.onTb f).trans = b.trans := rfl
@[simp] theorem Blk.onTb_cfg (b : Blk) (f : TimeBase → TimeBase) : (b.onTb f).cfg = b.cfg := rfl
@[simp] theorem Blk.onTb_tenants (b : Blk) (f : TimeBase → TimeBase) : (b.onTb f).tenants = b.tenants := rfl
@[simp] theorem Blk.onTb_dr (b : Blk) (f : TimeBase → TimeBase) : (b.onTb f).dr = b.dr := rfl
@[simp] theorem Blk.onTb_rcc (b : Blk) (f : TimeBase → TimeBase) : (b.onTb f).rcc = b.rcc := rfl
@[simp] theorem Blk.onTb_cans (b : Blk) (f : TimeBase → TimeBase) : (b.onTb f).cans = b.cans := rfl
@[simp] theorem Blk.onTb_nms (b : Blk) (f : TimeBase → TimeBase) : (b.onTb f).nms = b.nms := rfl
@[simp] theorem Blk.onTb_nmg (b : Blk) (f : TimeBase → TimeBase) : (b.onTb f).nmg = b.nmg := rfl
@[simp] theorem Blk.onTb_sw (b : Blk) (f : TimeBase → TimeBase) : (b.onTb f).sw = b.sw := rfl
@[simp] theorem Blk.onTb_sec (b : Blk) (f : TimeBase → TimeBase) : (b.onTb f).sec = b.sec := rfl
@[simp] theorem Blk.onTb_upd (b : Blk) (f : TimeBase → TimeBase) : (b.onTb f).upd = b.upd := rfl
@[simp] theorem Blk.onTb_nvm (b : Blk) (f : TimeBase → TimeBase) : (b.onTb f).nvm = b.nvm := rfl

@[simp] theorem Blk.onRcc_variant (b : Blk) (f : Rcc → Rcc) : (b.onRcc f).variant = b.variant := rfl
@[simp] theorem Blk.onRcc_uid (b : Blk) (f : Rcc → Rcc) : (b.onRcc f).uid = b.uid := rfl
@[simp] theorem Blk.onRcc_rev (b : Blk) (f : Rcc → Rcc) : (b.onRcc f).rev = b.rev := rfl
@[simp] theorem Blk.onRcc_absentLogged (b : Blk) (f : Rcc → Rcc) : (b.onRcc f).absentLogged = b.absentLogged := rfl
@[simp] theorem Blk.onRcc_reply (b : Blk) (f : Rcc → Rcc) : (b.onRcc f).reply = b.reply := rfl
@[simp] theorem Blk.onRcc_freeCtr (b : Blk) (f : Rcc → Rcc) : (b.onRcc f).freeCtr = b.freeCtr := rfl
@[simp] theorem Blk.onRcc_breath (b : Blk) (f : Rcc → Rcc) : (b.onRcc f).breath = b.breath := rfl
@[simp] theorem Blk.onRcc_time (b : Blk) (f : Rcc → Rcc) : (b.onRcc f).time = b.time := rfl
@[simp] theorem Blk.onRcc_evs (b : Blk) (f : Rcc → Rcc) : (b.onRcc f).evs = b.evs := rfl
@[simp] theorem Blk.onRcc_chans (b : Blk) (f : Rcc → Rcc) : (b.onRcc f).chans = b.chans := rfl
@[simp] theorem Blk.onRcc_kernels (b : Blk) (f : Rcc → Rcc) : (b.onRcc f).kernels = b.kernels := rfl
@[simp] theorem Blk.onRcc_motion (b : Blk) (f : Rcc → Rcc) : (b.onRcc f).motion = b.motion := rfl
@[simp] theorem Blk.onRcc_bridges (b : Blk) (f : Rcc → Rcc) : (b.onRcc f).bridges = b.bridges := rfl
@[simp] theorem Blk.onRcc_slots (b : Blk) (f : Rcc → Rcc) : (b.onRcc f).slots = b.slots := rfl
@[simp] theorem Blk.onRcc_senseDrive (b : Blk) (f : Rcc → Rcc) : (b.onRcc f).senseDrive = b.senseDrive := rfl
@[simp] theorem Blk.onRcc_senseNext (b : Blk) (f : Rcc → Rcc) : (b.onRcc f).senseNext = b.senseNext := rfl
@[simp] theorem Blk.onRcc_queues (b : Blk) (f : Rcc → Rcc) : (b.onRcc f).queues = b.queues := rfl
@[simp] theorem Blk.onRcc_mboxes (b : Blk) (f : Rcc → Rcc) : (b.onRcc f).mboxes = b.mboxes := rfl
@[simp] theorem Blk.onRcc_trans (b : Blk) (f : Rcc → Rcc) : (b.onRcc f).trans = b.trans := rfl
@[simp] theorem Blk.onRcc_cfg (b : Blk) (f : Rcc → Rcc) : (b.onRcc f).cfg = b.cfg := rfl
@[simp] theorem Blk.onRcc_tenants (b : Blk) (f : Rcc → Rcc) : (b.onRcc f).tenants = b.tenants := rfl
@[simp] theorem Blk.onRcc_dr (b : Blk) (f : Rcc → Rcc) : (b.onRcc f).dr = b.dr := rfl
@[simp] theorem Blk.onRcc_rcc (b : Blk) (f : Rcc → Rcc) : (b.onRcc f).rcc = f b.rcc := rfl
@[simp] theorem Blk.onRcc_cans (b : Blk) (f : Rcc → Rcc) : (b.onRcc f).cans = b.cans := rfl
@[simp] theorem Blk.onRcc_nms (b : Blk) (f : Rcc → Rcc) : (b.onRcc f).nms = b.nms := rfl
@[simp] theorem Blk.onRcc_nmg (b : Blk) (f : Rcc → Rcc) : (b.onRcc f).nmg = b.nmg := rfl
@[simp] theorem Blk.onRcc_sw (b : Blk) (f : Rcc → Rcc) : (b.onRcc f).sw = b.sw := rfl
@[simp] theorem Blk.onRcc_sec (b : Blk) (f : Rcc → Rcc) : (b.onRcc f).sec = b.sec := rfl
@[simp] theorem Blk.onRcc_upd (b : Blk) (f : Rcc → Rcc) : (b.onRcc f).upd = b.upd := rfl
@[simp] theorem Blk.onRcc_nvm (b : Blk) (f : Rcc → Rcc) : (b.onRcc f).nvm = b.nvm := rfl

@[simp] theorem Blk.onSec_variant (b : Blk) (f : Security → Security) : (b.onSec f).variant = b.variant := rfl
@[simp] theorem Blk.onSec_uid (b : Blk) (f : Security → Security) : (b.onSec f).uid = b.uid := rfl
@[simp] theorem Blk.onSec_rev (b : Blk) (f : Security → Security) : (b.onSec f).rev = b.rev := rfl
@[simp] theorem Blk.onSec_absentLogged (b : Blk) (f : Security → Security) : (b.onSec f).absentLogged = b.absentLogged := rfl
@[simp] theorem Blk.onSec_reply (b : Blk) (f : Security → Security) : (b.onSec f).reply = b.reply := rfl
@[simp] theorem Blk.onSec_freeCtr (b : Blk) (f : Security → Security) : (b.onSec f).freeCtr = b.freeCtr := rfl
@[simp] theorem Blk.onSec_breath (b : Blk) (f : Security → Security) : (b.onSec f).breath = b.breath := rfl
@[simp] theorem Blk.onSec_time (b : Blk) (f : Security → Security) : (b.onSec f).time = b.time := rfl
@[simp] theorem Blk.onSec_evs (b : Blk) (f : Security → Security) : (b.onSec f).evs = b.evs := rfl
@[simp] theorem Blk.onSec_chans (b : Blk) (f : Security → Security) : (b.onSec f).chans = b.chans := rfl
@[simp] theorem Blk.onSec_kernels (b : Blk) (f : Security → Security) : (b.onSec f).kernels = b.kernels := rfl
@[simp] theorem Blk.onSec_motion (b : Blk) (f : Security → Security) : (b.onSec f).motion = b.motion := rfl
@[simp] theorem Blk.onSec_bridges (b : Blk) (f : Security → Security) : (b.onSec f).bridges = b.bridges := rfl
@[simp] theorem Blk.onSec_slots (b : Blk) (f : Security → Security) : (b.onSec f).slots = b.slots := rfl
@[simp] theorem Blk.onSec_senseDrive (b : Blk) (f : Security → Security) : (b.onSec f).senseDrive = b.senseDrive := rfl
@[simp] theorem Blk.onSec_senseNext (b : Blk) (f : Security → Security) : (b.onSec f).senseNext = b.senseNext := rfl
@[simp] theorem Blk.onSec_queues (b : Blk) (f : Security → Security) : (b.onSec f).queues = b.queues := rfl
@[simp] theorem Blk.onSec_mboxes (b : Blk) (f : Security → Security) : (b.onSec f).mboxes = b.mboxes := rfl
@[simp] theorem Blk.onSec_trans (b : Blk) (f : Security → Security) : (b.onSec f).trans = b.trans := rfl
@[simp] theorem Blk.onSec_cfg (b : Blk) (f : Security → Security) : (b.onSec f).cfg = b.cfg := rfl
@[simp] theorem Blk.onSec_tenants (b : Blk) (f : Security → Security) : (b.onSec f).tenants = b.tenants := rfl
@[simp] theorem Blk.onSec_dr (b : Blk) (f : Security → Security) : (b.onSec f).dr = b.dr := rfl
@[simp] theorem Blk.onSec_rcc (b : Blk) (f : Security → Security) : (b.onSec f).rcc = b.rcc := rfl
@[simp] theorem Blk.onSec_cans (b : Blk) (f : Security → Security) : (b.onSec f).cans = b.cans := rfl
@[simp] theorem Blk.onSec_nms (b : Blk) (f : Security → Security) : (b.onSec f).nms = b.nms := rfl
@[simp] theorem Blk.onSec_nmg (b : Blk) (f : Security → Security) : (b.onSec f).nmg = b.nmg := rfl
@[simp] theorem Blk.onSec_sw (b : Blk) (f : Security → Security) : (b.onSec f).sw = b.sw := rfl
@[simp] theorem Blk.onSec_sec (b : Blk) (f : Security → Security) : (b.onSec f).sec = f b.sec := rfl
@[simp] theorem Blk.onSec_upd (b : Blk) (f : Security → Security) : (b.onSec f).upd = b.upd := rfl
@[simp] theorem Blk.onSec_nvm (b : Blk) (f : Security → Security) : (b.onSec f).nvm = b.nvm := rfl

@[simp] theorem Blk.onDr_variant (b : Blk) (f : DoubleReed → DoubleReed) : (b.onDr f).variant = b.variant := rfl
@[simp] theorem Blk.onDr_uid (b : Blk) (f : DoubleReed → DoubleReed) : (b.onDr f).uid = b.uid := rfl
@[simp] theorem Blk.onDr_rev (b : Blk) (f : DoubleReed → DoubleReed) : (b.onDr f).rev = b.rev := rfl
@[simp] theorem Blk.onDr_absentLogged (b : Blk) (f : DoubleReed → DoubleReed) : (b.onDr f).absentLogged = b.absentLogged := rfl
@[simp] theorem Blk.onDr_reply (b : Blk) (f : DoubleReed → DoubleReed) : (b.onDr f).reply = b.reply := rfl
@[simp] theorem Blk.onDr_freeCtr (b : Blk) (f : DoubleReed → DoubleReed) : (b.onDr f).freeCtr = b.freeCtr := rfl
@[simp] theorem Blk.onDr_breath (b : Blk) (f : DoubleReed → DoubleReed) : (b.onDr f).breath = b.breath := rfl
@[simp] theorem Blk.onDr_time (b : Blk) (f : DoubleReed → DoubleReed) : (b.onDr f).time = b.time := rfl
@[simp] theorem Blk.onDr_evs (b : Blk) (f : DoubleReed → DoubleReed) : (b.onDr f).evs = b.evs := rfl
@[simp] theorem Blk.onDr_chans (b : Blk) (f : DoubleReed → DoubleReed) : (b.onDr f).chans = b.chans := rfl
@[simp] theorem Blk.onDr_kernels (b : Blk) (f : DoubleReed → DoubleReed) : (b.onDr f).kernels = b.kernels := rfl
@[simp] theorem Blk.onDr_motion (b : Blk) (f : DoubleReed → DoubleReed) : (b.onDr f).motion = b.motion := rfl
@[simp] theorem Blk.onDr_bridges (b : Blk) (f : DoubleReed → DoubleReed) : (b.onDr f).bridges = b.bridges := rfl
@[simp] theorem Blk.onDr_slots (b : Blk) (f : DoubleReed → DoubleReed) : (b.onDr f).slots = b.slots := rfl
@[simp] theorem Blk.onDr_senseDrive (b : Blk) (f : DoubleReed → DoubleReed) : (b.onDr f).senseDrive = b.senseDrive := rfl
@[simp] theorem Blk.onDr_senseNext (b : Blk) (f : DoubleReed → DoubleReed) : (b.onDr f).senseNext = b.senseNext := rfl
@[simp] theorem Blk.onDr_queues (b : Blk) (f : DoubleReed → DoubleReed) : (b.onDr f).queues = b.queues := rfl
@[simp] theorem Blk.onDr_mboxes (b : Blk) (f : DoubleReed → DoubleReed) : (b.onDr f).mboxes = b.mboxes := rfl
@[simp] theorem Blk.onDr_trans (b : Blk) (f : DoubleReed → DoubleReed) : (b.onDr f).trans = b.trans := rfl
@[simp] theorem Blk.onDr_cfg (b : Blk) (f : DoubleReed → DoubleReed) : (b.onDr f).cfg = b.cfg := rfl
@[simp] theorem Blk.onDr_tenants (b : Blk) (f : DoubleReed → DoubleReed) : (b.onDr f).tenants = b.tenants := rfl
@[simp] theorem Blk.onDr_dr (b : Blk) (f : DoubleReed → DoubleReed) : (b.onDr f).dr = f b.dr := rfl
@[simp] theorem Blk.onDr_rcc (b : Blk) (f : DoubleReed → DoubleReed) : (b.onDr f).rcc = b.rcc := rfl
@[simp] theorem Blk.onDr_cans (b : Blk) (f : DoubleReed → DoubleReed) : (b.onDr f).cans = b.cans := rfl
@[simp] theorem Blk.onDr_nms (b : Blk) (f : DoubleReed → DoubleReed) : (b.onDr f).nms = b.nms := rfl
@[simp] theorem Blk.onDr_nmg (b : Blk) (f : DoubleReed → DoubleReed) : (b.onDr f).nmg = b.nmg := rfl
@[simp] theorem Blk.onDr_sw (b : Blk) (f : DoubleReed → DoubleReed) : (b.onDr f).sw = b.sw := rfl
@[simp] theorem Blk.onDr_sec (b : Blk) (f : DoubleReed → DoubleReed) : (b.onDr f).sec = b.sec := rfl
@[simp] theorem Blk.onDr_upd (b : Blk) (f : DoubleReed → DoubleReed) : (b.onDr f).upd = b.upd := rfl
@[simp] theorem Blk.onDr_nvm (b : Blk) (f : DoubleReed → DoubleReed) : (b.onDr f).nvm = b.nvm := rfl

@[simp] theorem Blk.onNvm_variant (b : Blk) (f : Nvm → Nvm) : (b.onNvm f).variant = b.variant := rfl
@[simp] theorem Blk.onNvm_uid (b : Blk) (f : Nvm → Nvm) : (b.onNvm f).uid = b.uid := rfl
@[simp] theorem Blk.onNvm_rev (b : Blk) (f : Nvm → Nvm) : (b.onNvm f).rev = b.rev := rfl
@[simp] theorem Blk.onNvm_absentLogged (b : Blk) (f : Nvm → Nvm) : (b.onNvm f).absentLogged = b.absentLogged := rfl
@[simp] theorem Blk.onNvm_reply (b : Blk) (f : Nvm → Nvm) : (b.onNvm f).reply = b.reply := rfl
@[simp] theorem Blk.onNvm_freeCtr (b : Blk) (f : Nvm → Nvm) : (b.onNvm f).freeCtr = b.freeCtr := rfl
@[simp] theorem Blk.onNvm_breath (b : Blk) (f : Nvm → Nvm) : (b.onNvm f).breath = b.breath := rfl
@[simp] theorem Blk.onNvm_time (b : Blk) (f : Nvm → Nvm) : (b.onNvm f).time = b.time := rfl
@[simp] theorem Blk.onNvm_evs (b : Blk) (f : Nvm → Nvm) : (b.onNvm f).evs = b.evs := rfl
@[simp] theorem Blk.onNvm_chans (b : Blk) (f : Nvm → Nvm) : (b.onNvm f).chans = b.chans := rfl
@[simp] theorem Blk.onNvm_kernels (b : Blk) (f : Nvm → Nvm) : (b.onNvm f).kernels = b.kernels := rfl
@[simp] theorem Blk.onNvm_motion (b : Blk) (f : Nvm → Nvm) : (b.onNvm f).motion = b.motion := rfl
@[simp] theorem Blk.onNvm_bridges (b : Blk) (f : Nvm → Nvm) : (b.onNvm f).bridges = b.bridges := rfl
@[simp] theorem Blk.onNvm_slots (b : Blk) (f : Nvm → Nvm) : (b.onNvm f).slots = b.slots := rfl
@[simp] theorem Blk.onNvm_senseDrive (b : Blk) (f : Nvm → Nvm) : (b.onNvm f).senseDrive = b.senseDrive := rfl
@[simp] theorem Blk.onNvm_senseNext (b : Blk) (f : Nvm → Nvm) : (b.onNvm f).senseNext = b.senseNext := rfl
@[simp] theorem Blk.onNvm_queues (b : Blk) (f : Nvm → Nvm) : (b.onNvm f).queues = b.queues := rfl
@[simp] theorem Blk.onNvm_mboxes (b : Blk) (f : Nvm → Nvm) : (b.onNvm f).mboxes = b.mboxes := rfl
@[simp] theorem Blk.onNvm_trans (b : Blk) (f : Nvm → Nvm) : (b.onNvm f).trans = b.trans := rfl
@[simp] theorem Blk.onNvm_cfg (b : Blk) (f : Nvm → Nvm) : (b.onNvm f).cfg = b.cfg := rfl
@[simp] theorem Blk.onNvm_tenants (b : Blk) (f : Nvm → Nvm) : (b.onNvm f).tenants = b.tenants := rfl
@[simp] theorem Blk.onNvm_dr (b : Blk) (f : Nvm → Nvm) : (b.onNvm f).dr = b.dr := rfl
@[simp] theorem Blk.onNvm_rcc (b : Blk) (f : Nvm → Nvm) : (b.onNvm f).rcc = b.rcc := rfl
@[simp] theorem Blk.onNvm_cans (b : Blk) (f : Nvm → Nvm) : (b.onNvm f).cans = b.cans := rfl
@[simp] theorem Blk.onNvm_nms (b : Blk) (f : Nvm → Nvm) : (b.onNvm f).nms = b.nms := rfl
@[simp] theorem Blk.onNvm_nmg (b : Blk) (f : Nvm → Nvm) : (b.onNvm f).nmg = b.nmg := rfl
@[simp] theorem Blk.onNvm_sw (b : Blk) (f : Nvm → Nvm) : (b.onNvm f).sw = b.sw := rfl
@[simp] theorem Blk.onNvm_sec (b : Blk) (f : Nvm → Nvm) : (b.onNvm f).sec = b.sec := rfl
@[simp] theorem Blk.onNvm_upd (b : Blk) (f : Nvm → Nvm) : (b.onNvm f).upd = b.upd := rfl
@[simp] theorem Blk.onNvm_nvm (b : Blk) (f : Nvm → Nvm) : (b.onNvm f).nvm = f b.nvm := rfl

@[simp] theorem Blk.onUpd_variant (b : Blk) (f : Update → Update) : (b.onUpd f).variant = b.variant := rfl
@[simp] theorem Blk.onUpd_uid (b : Blk) (f : Update → Update) : (b.onUpd f).uid = b.uid := rfl
@[simp] theorem Blk.onUpd_rev (b : Blk) (f : Update → Update) : (b.onUpd f).rev = b.rev := rfl
@[simp] theorem Blk.onUpd_absentLogged (b : Blk) (f : Update → Update) : (b.onUpd f).absentLogged = b.absentLogged := rfl
@[simp] theorem Blk.onUpd_reply (b : Blk) (f : Update → Update) : (b.onUpd f).reply = b.reply := rfl
@[simp] theorem Blk.onUpd_freeCtr (b : Blk) (f : Update → Update) : (b.onUpd f).freeCtr = b.freeCtr := rfl
@[simp] theorem Blk.onUpd_breath (b : Blk) (f : Update → Update) : (b.onUpd f).breath = b.breath := rfl
@[simp] theorem Blk.onUpd_time (b : Blk) (f : Update → Update) : (b.onUpd f).time = b.time := rfl
@[simp] theorem Blk.onUpd_evs (b : Blk) (f : Update → Update) : (b.onUpd f).evs = b.evs := rfl
@[simp] theorem Blk.onUpd_chans (b : Blk) (f : Update → Update) : (b.onUpd f).chans = b.chans := rfl
@[simp] theorem Blk.onUpd_kernels (b : Blk) (f : Update → Update) : (b.onUpd f).kernels = b.kernels := rfl
@[simp] theorem Blk.onUpd_motion (b : Blk) (f : Update → Update) : (b.onUpd f).motion = b.motion := rfl
@[simp] theorem Blk.onUpd_bridges (b : Blk) (f : Update → Update) : (b.onUpd f).bridges = b.bridges := rfl
@[simp] theorem Blk.onUpd_slots (b : Blk) (f : Update → Update) : (b.onUpd f).slots = b.slots := rfl
@[simp] theorem Blk.onUpd_senseDrive (b : Blk) (f : Update → Update) : (b.onUpd f).senseDrive = b.senseDrive := rfl
@[simp] theorem Blk.onUpd_senseNext (b : Blk) (f : Update → Update) : (b.onUpd f).senseNext = b.senseNext := rfl
@[simp] theorem Blk.onUpd_queues (b : Blk) (f : Update → Update) : (b.onUpd f).queues = b.queues := rfl
@[simp] theorem Blk.onUpd_mboxes (b : Blk) (f : Update → Update) : (b.onUpd f).mboxes = b.mboxes := rfl
@[simp] theorem Blk.onUpd_trans (b : Blk) (f : Update → Update) : (b.onUpd f).trans = b.trans := rfl
@[simp] theorem Blk.onUpd_cfg (b : Blk) (f : Update → Update) : (b.onUpd f).cfg = b.cfg := rfl
@[simp] theorem Blk.onUpd_tenants (b : Blk) (f : Update → Update) : (b.onUpd f).tenants = b.tenants := rfl
@[simp] theorem Blk.onUpd_dr (b : Blk) (f : Update → Update) : (b.onUpd f).dr = b.dr := rfl
@[simp] theorem Blk.onUpd_rcc (b : Blk) (f : Update → Update) : (b.onUpd f).rcc = b.rcc := rfl
@[simp] theorem Blk.onUpd_cans (b : Blk) (f : Update → Update) : (b.onUpd f).cans = b.cans := rfl
@[simp] theorem Blk.onUpd_nms (b : Blk) (f : Update → Update) : (b.onUpd f).nms = b.nms := rfl
@[simp] theorem Blk.onUpd_nmg (b : Blk) (f : Update → Update) : (b.onUpd f).nmg = b.nmg := rfl
@[simp] theorem Blk.onUpd_sw (b : Blk) (f : Update → Update) : (b.onUpd f).sw = b.sw := rfl
@[simp] theorem Blk.onUpd_sec (b : Blk) (f : Update → Update) : (b.onUpd f).sec = b.sec := rfl
@[simp] theorem Blk.onUpd_upd (b : Blk) (f : Update → Update) : (b.onUpd f).upd = f b.upd := rfl
@[simp] theorem Blk.onUpd_nvm (b : Blk) (f : Update → Update) : (b.onUpd f).nvm = b.nvm := rfl

@[simp] theorem Blk.onSw_variant (b : Blk) (f : Switch → Switch) : (b.onSw f).variant = b.variant := rfl
@[simp] theorem Blk.onSw_uid (b : Blk) (f : Switch → Switch) : (b.onSw f).uid = b.uid := rfl
@[simp] theorem Blk.onSw_rev (b : Blk) (f : Switch → Switch) : (b.onSw f).rev = b.rev := rfl
@[simp] theorem Blk.onSw_absentLogged (b : Blk) (f : Switch → Switch) : (b.onSw f).absentLogged = b.absentLogged := rfl
@[simp] theorem Blk.onSw_reply (b : Blk) (f : Switch → Switch) : (b.onSw f).reply = b.reply := rfl
@[simp] theorem Blk.onSw_freeCtr (b : Blk) (f : Switch → Switch) : (b.onSw f).freeCtr = b.freeCtr := rfl
@[simp] theorem Blk.onSw_breath (b : Blk) (f : Switch → Switch) : (b.onSw f).breath = b.breath := rfl
@[simp] theorem Blk.onSw_time (b : Blk) (f : Switch → Switch) : (b.onSw f).time = b.time := rfl
@[simp] theorem Blk.onSw_evs (b : Blk) (f : Switch → Switch) : (b.onSw f).evs = b.evs := rfl
@[simp] theorem Blk.onSw_chans (b : Blk) (f : Switch → Switch) : (b.onSw f).chans = b.chans := rfl
@[simp] theorem Blk.onSw_kernels (b : Blk) (f : Switch → Switch) : (b.onSw f).kernels = b.kernels := rfl
@[simp] theorem Blk.onSw_motion (b : Blk) (f : Switch → Switch) : (b.onSw f).motion = b.motion := rfl
@[simp] theorem Blk.onSw_bridges (b : Blk) (f : Switch → Switch) : (b.onSw f).bridges = b.bridges := rfl
@[simp] theorem Blk.onSw_slots (b : Blk) (f : Switch → Switch) : (b.onSw f).slots = b.slots := rfl
@[simp] theorem Blk.onSw_senseDrive (b : Blk) (f : Switch → Switch) : (b.onSw f).senseDrive = b.senseDrive := rfl
@[simp] theorem Blk.onSw_senseNext (b : Blk) (f : Switch → Switch) : (b.onSw f).senseNext = b.senseNext := rfl
@[simp] theorem Blk.onSw_queues (b : Blk) (f : Switch → Switch) : (b.onSw f).queues = b.queues := rfl
@[simp] theorem Blk.onSw_mboxes (b : Blk) (f : Switch → Switch) : (b.onSw f).mboxes = b.mboxes := rfl
@[simp] theorem Blk.onSw_trans (b : Blk) (f : Switch → Switch) : (b.onSw f).trans = b.trans := rfl
@[simp] theorem Blk.onSw_cfg (b : Blk) (f : Switch → Switch) : (b.onSw f).cfg = b.cfg := rfl
@[simp] theorem Blk.onSw_tenants (b : Blk) (f : Switch → Switch) : (b.onSw f).tenants = b.tenants := rfl
@[simp] theorem Blk.onSw_dr (b : Blk) (f : Switch → Switch) : (b.onSw f).dr = b.dr := rfl
@[simp] theorem Blk.onSw_rcc (b : Blk) (f : Switch → Switch) : (b.onSw f).rcc = b.rcc := rfl
@[simp] theorem Blk.onSw_cans (b : Blk) (f : Switch → Switch) : (b.onSw f).cans = b.cans := rfl
@[simp] theorem Blk.onSw_nms (b : Blk) (f : Switch → Switch) : (b.onSw f).nms = b.nms := rfl
@[simp] theorem Blk.onSw_nmg (b : Blk) (f : Switch → Switch) : (b.onSw f).nmg = b.nmg := rfl
@[simp] theorem Blk.onSw_sw (b : Blk) (f : Switch → Switch) : (b.onSw f).sw = f b.sw := rfl
@[simp] theorem Blk.onSw_sec (b : Blk) (f : Switch → Switch) : (b.onSw f).sec = b.sec := rfl
@[simp] theorem Blk.onSw_upd (b : Blk) (f : Switch → Switch) : (b.onSw f).upd = b.upd := rfl
@[simp] theorem Blk.onSw_nvm (b : Blk) (f : Switch → Switch) : (b.onSw f).nvm = b.nvm := rfl

@[simp] theorem Blk.onCfg_variant (b : Blk) (f : CfgSvc → CfgSvc) : (b.onCfg f).variant = b.variant := rfl
@[simp] theorem Blk.onCfg_uid (b : Blk) (f : CfgSvc → CfgSvc) : (b.onCfg f).uid = b.uid := rfl
@[simp] theorem Blk.onCfg_rev (b : Blk) (f : CfgSvc → CfgSvc) : (b.onCfg f).rev = b.rev := rfl
@[simp] theorem Blk.onCfg_absentLogged (b : Blk) (f : CfgSvc → CfgSvc) : (b.onCfg f).absentLogged = b.absentLogged := rfl
@[simp] theorem Blk.onCfg_reply (b : Blk) (f : CfgSvc → CfgSvc) : (b.onCfg f).reply = b.reply := rfl
@[simp] theorem Blk.onCfg_freeCtr (b : Blk) (f : CfgSvc → CfgSvc) : (b.onCfg f).freeCtr = b.freeCtr := rfl
@[simp] theorem Blk.onCfg_breath (b : Blk) (f : CfgSvc → CfgSvc) : (b.onCfg f).breath = b.breath := rfl
@[simp] theorem Blk.onCfg_time (b : Blk) (f : CfgSvc → CfgSvc) : (b.onCfg f).time = b.time := rfl
@[simp] theorem Blk.onCfg_evs (b : Blk) (f : CfgSvc → CfgSvc) : (b.onCfg f).evs = b.evs := rfl
@[simp] theorem Blk.onCfg_chans (b : Blk) (f : CfgSvc → CfgSvc) : (b.onCfg f).chans = b.chans := rfl
@[simp] theorem Blk.onCfg_kernels (b : Blk) (f : CfgSvc → CfgSvc) : (b.onCfg f).kernels = b.kernels := rfl
@[simp] theorem Blk.onCfg_motion (b : Blk) (f : CfgSvc → CfgSvc) : (b.onCfg f).motion = b.motion := rfl
@[simp] theorem Blk.onCfg_bridges (b : Blk) (f : CfgSvc → CfgSvc) : (b.onCfg f).bridges = b.bridges := rfl
@[simp] theorem Blk.onCfg_slots (b : Blk) (f : CfgSvc → CfgSvc) : (b.onCfg f).slots = b.slots := rfl
@[simp] theorem Blk.onCfg_senseDrive (b : Blk) (f : CfgSvc → CfgSvc) : (b.onCfg f).senseDrive = b.senseDrive := rfl
@[simp] theorem Blk.onCfg_senseNext (b : Blk) (f : CfgSvc → CfgSvc) : (b.onCfg f).senseNext = b.senseNext := rfl
@[simp] theorem Blk.onCfg_queues (b : Blk) (f : CfgSvc → CfgSvc) : (b.onCfg f).queues = b.queues := rfl
@[simp] theorem Blk.onCfg_mboxes (b : Blk) (f : CfgSvc → CfgSvc) : (b.onCfg f).mboxes = b.mboxes := rfl
@[simp] theorem Blk.onCfg_trans (b : Blk) (f : CfgSvc → CfgSvc) : (b.onCfg f).trans = b.trans := rfl
@[simp] theorem Blk.onCfg_cfg (b : Blk) (f : CfgSvc → CfgSvc) : (b.onCfg f).cfg = f b.cfg := rfl
@[simp] theorem Blk.onCfg_tenants (b : Blk) (f : CfgSvc → CfgSvc) : (b.onCfg f).tenants = b.tenants := rfl
@[simp] theorem Blk.onCfg_dr (b : Blk) (f : CfgSvc → CfgSvc) : (b.onCfg f).dr = b.dr := rfl
@[simp] theorem Blk.onCfg_rcc (b : Blk) (f : CfgSvc → CfgSvc) : (b.onCfg f).rcc = b.rcc := rfl
@[simp] theorem Blk.onCfg_cans (b : Blk) (f : CfgSvc → CfgSvc) : (b.onCfg f).cans = b.cans := rfl
@[simp] theorem Blk.onCfg_nms (b : Blk) (f : CfgSvc → CfgSvc) : (b.onCfg f).nms = b.nms := rfl
@[simp] theorem Blk.onCfg_nmg (b : Blk) (f : CfgSvc → CfgSvc) : (b.onCfg f).nmg = b.nmg := rfl
@[simp] theorem Blk.onCfg_sw (b : Blk) (f : CfgSvc → CfgSvc) : (b.onCfg f).sw = b.sw := rfl
@[simp] theorem Blk.onCfg_sec (b : Blk) (f : CfgSvc → CfgSvc) : (b.onCfg f).sec = b.sec := rfl
@[simp] theorem Blk.onCfg_upd (b : Blk) (f : CfgSvc → CfgSvc) : (b.onCfg f).upd = b.upd := rfl
@[simp] theorem Blk.onCfg_nvm (b : Blk) (f : CfgSvc → CfgSvc) : (b.onCfg f).nvm = b.nvm := rfl

@[simp] theorem Blk.modCh_variant (b : Blk) (c : Fin 40) (f : Channel → Channel) : (b.modCh c f).variant = b.variant := rfl
@[simp] theorem Blk.modCh_uid (b : Blk) (c : Fin 40) (f : Channel → Channel) : (b.modCh c f).uid = b.uid := rfl
@[simp] theorem Blk.modCh_rev (b : Blk) (c : Fin 40) (f : Channel → Channel) : (b.modCh c f).rev = b.rev := rfl
@[simp] theorem Blk.modCh_absentLogged (b : Blk) (c : Fin 40) (f : Channel → Channel) : (b.modCh c f).absentLogged = b.absentLogged := rfl
@[simp] theorem Blk.modCh_reply (b : Blk) (c : Fin 40) (f : Channel → Channel) : (b.modCh c f).reply = b.reply := rfl
@[simp] theorem Blk.modCh_freeCtr (b : Blk) (c : Fin 40) (f : Channel → Channel) : (b.modCh c f).freeCtr = b.freeCtr := rfl
@[simp] theorem Blk.modCh_breath (b : Blk) (c : Fin 40) (f : Channel → Channel) : (b.modCh c f).breath = b.breath := rfl
@[simp] theorem Blk.modCh_time (b : Blk) (c : Fin 40) (f : Channel → Channel) : (b.modCh c f).time = b.time := rfl
@[simp] theorem Blk.modCh_evs (b : Blk) (c : Fin 40) (f : Channel → Channel) : (b.modCh c f).evs = b.evs := rfl
@[simp] theorem Blk.modCh_chans (b : Blk) (c : Fin 40) (f : Channel → Channel) : (b.modCh c f).chans = vmod b.chans c f := rfl
@[simp] theorem Blk.modCh_kernels (b : Blk) (c : Fin 40) (f : Channel → Channel) : (b.modCh c f).kernels = b.kernels := rfl
@[simp] theorem Blk.modCh_motion (b : Blk) (c : Fin 40) (f : Channel → Channel) : (b.modCh c f).motion = b.motion := rfl
@[simp] theorem Blk.modCh_bridges (b : Blk) (c : Fin 40) (f : Channel → Channel) : (b.modCh c f).bridges = b.bridges := rfl
@[simp] theorem Blk.modCh_slots (b : Blk) (c : Fin 40) (f : Channel → Channel) : (b.modCh c f).slots = b.slots := rfl
@[simp] theorem Blk.modCh_senseDrive (b : Blk) (c : Fin 40) (f : Channel → Channel) : (b.modCh c f).senseDrive = b.senseDrive := rfl
@[simp] theorem Blk.modCh_senseNext (b : Blk) (c : Fin 40) (f : Channel → Channel) : (b.modCh c f).senseNext = b.senseNext := rfl
@[simp] theorem Blk.modCh_queues (b : Blk) (c : Fin 40) (f : Channel → Channel) : (b.modCh c f).queues = b.queues := rfl
@[simp] theorem Blk.modCh_mboxes (b : Blk) (c : Fin 40) (f : Channel → Channel) : (b.modCh c f).mboxes = b.mboxes := rfl
@[simp] theorem Blk.modCh_trans (b : Blk) (c : Fin 40) (f : Channel → Channel) : (b.modCh c f).trans = b.trans := rfl
@[simp] theorem Blk.modCh_cfg (b : Blk) (c : Fin 40) (f : Channel → Channel) : (b.modCh c f).cfg = b.cfg := rfl
@[simp] theorem Blk.modCh_tenants (b : Blk) (c : Fin 40) (f : Channel → Channel) : (b.modCh c f).tenants = b.tenants := rfl
@[simp] theorem Blk.modCh_dr (b : Blk) (c : Fin 40) (f : Channel → Channel) : (b.modCh c f).dr = b.dr := rfl
@[simp] theorem Blk.modCh_rcc (b : Blk) (c : Fin 40) (f : Channel → Channel) : (b.modCh c f).rcc = b.rcc := rfl
@[simp] theorem Blk.modCh_cans (b : Blk) (c : Fin 40) (f : Channel → Channel) : (b.modCh c f).cans = b.cans := rfl
@[simp] theorem Blk.modCh_nms (b : Blk) (c : Fin 40) (f : Channel → Channel) : (b.modCh c f).nms = b.nms := rfl
@[simp] theorem Blk.modCh_nmg (b : Blk) (c : Fin 40) (f : Channel → Channel) : (b.modCh c f).nmg = b.nmg := rfl
@[simp] theorem Blk.modCh_sw (b : Blk) (c : Fin 40) (f : Channel → Channel) : (b.modCh c f).sw = b.sw := rfl
@[simp] theorem Blk.modCh_sec (b : Blk) (c : Fin 40) (f : Channel → Channel) : (b.modCh c f).sec = b.sec := rfl
@[simp] theorem Blk.modCh_upd (b : Blk) (c : Fin 40) (f : Channel → Channel) : (b.modCh c f).upd = b.upd := rfl
@[simp] theorem Blk.modCh_nvm (b : Blk) (c : Fin 40) (f : Channel → Channel) : (b.modCh c f).nvm = b.nvm := rfl

@[simp] theorem Blk.modK_variant (b : Blk) (k : Fin 4) (f : Kernel → Kernel) : (b.modK k f).variant = b.variant := rfl
@[simp] theorem Blk.modK_uid (b : Blk) (k : Fin 4) (f : Kernel → Kernel) : (b.modK k f).uid = b.uid := rfl
@[simp] theorem Blk.modK_rev (b : Blk) (k : Fin 4) (f : Kernel → Kernel) : (b.modK k f).rev = b.rev := rfl
@[simp] theorem Blk.modK_absentLogged (b : Blk) (k : Fin 4) (f : Kernel → Kernel) : (b.modK k f).absentLogged = b.absentLogged := rfl
@[simp] theorem Blk.modK_reply (b : Blk) (k : Fin 4) (f : Kernel → Kernel) : (b.modK k f).reply = b.reply := rfl
@[simp] theorem Blk.modK_freeCtr (b : Blk) (k : Fin 4) (f : Kernel → Kernel) : (b.modK k f).freeCtr = b.freeCtr := rfl
@[simp] theorem Blk.modK_breath (b : Blk) (k : Fin 4) (f : Kernel → Kernel) : (b.modK k f).breath = b.breath := rfl
@[simp] theorem Blk.modK_time (b : Blk) (k : Fin 4) (f : Kernel → Kernel) : (b.modK k f).time = b.time := rfl
@[simp] theorem Blk.modK_evs (b : Blk) (k : Fin 4) (f : Kernel → Kernel) : (b.modK k f).evs = b.evs := rfl
@[simp] theorem Blk.modK_chans (b : Blk) (k : Fin 4) (f : Kernel → Kernel) : (b.modK k f).chans = b.chans := rfl
@[simp] theorem Blk.modK_kernels (b : Blk) (k : Fin 4) (f : Kernel → Kernel) : (b.modK k f).kernels = vmod b.kernels k f := rfl
@[simp] theorem Blk.modK_motion (b : Blk) (k : Fin 4) (f : Kernel → Kernel) : (b.modK k f).motion = b.motion := rfl
@[simp] theorem Blk.modK_bridges (b : Blk) (k : Fin 4) (f : Kernel → Kernel) : (b.modK k f).bridges = b.bridges := rfl
@[simp] theorem Blk.modK_slots (b : Blk) (k : Fin 4) (f : Kernel → Kernel) : (b.modK k f).slots = b.slots := rfl
@[simp] theorem Blk.modK_senseDrive (b : Blk) (k : Fin 4) (f : Kernel → Kernel) : (b.modK k f).senseDrive = b.senseDrive := rfl
@[simp] theorem Blk.modK_senseNext (b : Blk) (k : Fin 4) (f : Kernel → Kernel) : (b.modK k f).senseNext = b.senseNext := rfl
@[simp] theorem Blk.modK_queues (b : Blk) (k : Fin 4) (f : Kernel → Kernel) : (b.modK k f).queues = b.queues := rfl
@[simp] theorem Blk.modK_mboxes (b : Blk) (k : Fin 4) (f : Kernel → Kernel) : (b.modK k f).mboxes = b.mboxes := rfl
@[simp] theorem Blk.modK_trans (b : Blk) (k : Fin 4) (f : Kernel → Kernel) : (b.modK k f).trans = b.trans := rfl
@[simp] theorem Blk.modK_cfg (b : Blk) (k : Fin 4) (f : Kernel → Kernel) : (b.modK k f).cfg = b.cfg := rfl
@[simp] theorem Blk.modK_tenants (b : Blk) (k : Fin 4) (f : Kernel → Kernel) : (b.modK k f).tenants = b.tenants := rfl
@[simp] theorem Blk.modK_dr (b : Blk) (k : Fin 4) (f : Kernel → Kernel) : (b.modK k f).dr = b.dr := rfl
@[simp] theorem Blk.modK_rcc (b : Blk) (k : Fin 4) (f : Kernel → Kernel) : (b.modK k f).rcc = b.rcc := rfl
@[simp] theorem Blk.modK_cans (b : Blk) (k : Fin 4) (f : Kernel → Kernel) : (b.modK k f).cans = b.cans := rfl
@[simp] theorem Blk.modK_nms (b : Blk) (k : Fin 4) (f : Kernel → Kernel) : (b.modK k f).nms = b.nms := rfl
@[simp] theorem Blk.modK_nmg (b : Blk) (k : Fin 4) (f : Kernel → Kernel) : (b.modK k f).nmg = b.nmg := rfl
@[simp] theorem Blk.modK_sw (b : Blk) (k : Fin 4) (f : Kernel → Kernel) : (b.modK k f).sw = b.sw := rfl
@[simp] theorem Blk.modK_sec (b : Blk) (k : Fin 4) (f : Kernel → Kernel) : (b.modK k f).sec = b.sec := rfl
@[simp] theorem Blk.modK_upd (b : Blk) (k : Fin 4) (f : Kernel → Kernel) : (b.modK k f).upd = b.upd := rfl
@[simp] theorem Blk.modK_nvm (b : Blk) (k : Fin 4) (f : Kernel → Kernel) : (b.modK k f).nvm = b.nvm := rfl

@[simp] theorem Blk.modBr_variant (b : Blk) (k : Fin 4) (f : Bridge → Bridge) : (b.modBr k f).variant = b.variant := rfl
@[simp] theorem Blk.modBr_uid (b : Blk) (k : Fin 4) (f : Bridge → Bridge) : (b.modBr k f).uid = b.uid := rfl
@[simp] theorem Blk.modBr_rev (b : Blk) (k : Fin 4) (f : Bridge → Bridge) : (b.modBr k f).rev = b.rev := rfl
@[simp] theorem Blk.modBr_absentLogged (b : Blk) (k : Fin 4) (f : Bridge → Bridge) : (b.modBr k f).absentLogged = b.absentLogged := rfl
@[simp] theorem Blk.modBr_reply (b : Blk) (k : Fin 4) (f : Bridge → Bridge) : (b.modBr k f).reply = b.reply := rfl
@[simp] theorem Blk.modBr_freeCtr (b : Blk) (k : Fin 4) (f : Bridge → Bridge) : (b.modBr k f).freeCtr = b.freeCtr := rfl
@[simp] theorem Blk.modBr_breath (b : Blk) (k : Fin 4) (f : Bridge → Bridge) : (b.modBr k f).breath = b.breath := rfl
@[simp] theorem Blk.modBr_time (b : Blk) (k : Fin 4) (f : Bridge → Bridge) : (b.modBr k f).time = b.time := rfl
@[simp] theorem Blk.modBr_evs (b : Blk) (k : Fin 4) (f : Bridge → Bridge) : (b.modBr k f).evs = b.evs := rfl
@[simp] theorem Blk.modBr_chans (b : Blk) (k : Fin 4) (f : Bridge → Bridge) : (b.modBr k f).chans = b.chans := rfl
@[simp] theorem Blk.modBr_kernels (b : Blk) (k : Fin 4) (f : Bridge → Bridge) : (b.modBr k f).kernels = b.kernels := rfl
@[simp] theorem Blk.modBr_motion (b : Blk) (k : Fin 4) (f : Bridge → Bridge) : (b.modBr k f).motion = b.motion := rfl
@[simp] theorem Blk.modBr_bridges (b : Blk) (k : Fin 4) (f : Bridge → Bridge) : (b.modBr k f).bridges = vmod b.bridges k f := rfl
@[simp] theorem Blk.modBr_slots (b : Blk) (k : Fin 4) (f : Bridge → Bridge) : (b.modBr k f).slots = b.slots := rfl
@[simp] theorem Blk.modBr_senseDrive (b : Blk) (k : Fin 4) (f : Bridge → Bridge) : (b.modBr k f).senseDrive = b.senseDrive := rfl
@[simp] theorem Blk.modBr_senseNext (b : Blk) (k : Fin 4) (f : Bridge → Bridge) : (b.modBr k f).senseNext = b.senseNext := rfl
@[simp] theorem Blk.modBr_queues (b : Blk) (k : Fin 4) (f : Bridge → Bridge) : (b.modBr k f).queues = b.queues := rfl
@[simp] theorem Blk.modBr_mboxes (b : Blk) (k : Fin 4) (f : Bridge → Bridge) : (b.modBr k f).mboxes = b.mboxes := rfl
@[simp] theorem Blk.modBr_trans (b : Blk) (k : Fin 4) (f : Bridge → Bridge) : (b.modBr k f).trans = b.trans := rfl
@[simp] theorem Blk.modBr_cfg (b : Blk) (k : Fin 4) (f : Bridge → Bridge) : (b.modBr k f).cfg = b.cfg := rfl
@[simp] theorem Blk.modBr_tenants (b : Blk) (k : Fin 4) (f : Bridge → Bridge) : (b.modBr k f).tenants = b.tenants := rfl
@[simp] theorem Blk.modBr_dr (b : Blk) (k : Fin 4) (f : Bridge → Bridge) : (b.modBr k f).dr = b.dr := rfl
@[simp] theorem Blk.modBr_rcc (b : Blk) (k : Fin 4) (f : Bridge → Bridge) : (b.modBr k f).rcc = b.rcc := rfl
@[simp] theorem Blk.modBr_cans (b : Blk) (k : Fin 4) (f : Bridge → Bridge) : (b.modBr k f).cans = b.cans := rfl
@[simp] theorem Blk.modBr_nms (b : Blk) (k : Fin 4) (f : Bridge → Bridge) : (b.modBr k f).nms = b.nms := rfl
@[simp] theorem Blk.modBr_nmg (b : Blk) (k : Fin 4) (f : Bridge → Bridge) : (b.modBr k f).nmg = b.nmg := rfl
@[simp] theorem Blk.modBr_sw (b : Blk) (k : Fin 4) (f : Bridge → Bridge) : (b.modBr k f).sw = b.sw := rfl
@[simp] theorem Blk.modBr_sec (b : Blk) (k : Fin 4) (f : Bridge → Bridge) : (b.modBr k f).sec = b.sec := rfl
@[simp] theorem Blk.modBr_upd (b : Blk) (k : Fin 4) (f : Bridge → Bridge) : (b.modBr k f).upd = b.upd := rfl
@[simp] theorem Blk.modBr_nvm (b : Blk) (k : Fin 4) (f : Bridge → Bridge) : (b.modBr k f).nvm = b.nvm := rfl

@[simp] theorem Blk.modQ_variant (b : Blk) (q : Fin 256) (f : Queue → Queue) : (b.modQ q f).variant = b.variant := rfl
@[simp] theorem Blk.modQ_uid (b : Blk) (q : Fin 256) (f : Queue → Queue) : (b.modQ q f).uid = b.uid := rfl
@[simp] theorem Blk.modQ_rev (b : Blk) (q : Fin 256) (f : Queue → Queue) : (b.modQ q f).rev = b.rev := rfl
@[simp] theorem Blk.modQ_absentLogged (b : Blk) (q : Fin 256) (f : Queue → Queue) : (b.modQ q f).absentLogged = b.absentLogged := rfl
@[simp] theorem Blk.modQ_reply (b : Blk) (q : Fin 256) (f : Queue → Queue) : (b.modQ q f).reply = b.reply := rfl
@[simp] theorem Blk.modQ_freeCtr (b : Blk) (q : Fin 256) (f : Queue → Queue) : (b.modQ q f).freeCtr = b.freeCtr := rfl
@[simp] theorem Blk.modQ_breath (b : Blk) (q : Fin 256) (f : Queue → Queue) : (b.modQ q f).breath = b.breath := rfl
@[simp] theorem Blk.modQ_time (b : Blk) (q : Fin 256) (f : Queue → Queue) : (b.modQ q f).time = b.time := rfl
@[simp] theorem Blk.modQ_evs (b : Blk) (q : Fin 256) (f : Queue → Queue) : (b.modQ q f).evs = b.evs := rfl
@[simp] theorem Blk.modQ_chans (b : Blk) (q : Fin 256) (f : Queue → Queue) : (b.modQ q f).chans = b.chans := rfl
@[simp] theorem Blk.modQ_kernels (b : Blk) (q : Fin 256) (f : Queue → Queue) : (b.modQ q f).kernels = b.kernels := rfl
@[simp] theorem Blk.modQ_motion (b : Blk) (q : Fin 256) (f : Queue → Queue) : (b.modQ q f).motion = b.motion := rfl
@[simp] theorem Blk.modQ_bridges (b : Blk) (q : Fin 256) (f : Queue → Queue) : (b.modQ q f).bridges = b.bridges := rfl
@[simp] theorem Blk.modQ_slots (b : Blk) (q : Fin 256) (f : Queue → Queue) : (b.modQ q f).slots = b.slots := rfl
@[simp] theorem Blk.modQ_senseDrive (b : Blk) (q : Fin 256) (f : Queue → Queue) : (b.modQ q f).senseDrive = b.senseDrive := rfl
@[simp] theorem Blk.modQ_senseNext (b : Blk) (q : Fin 256) (f : Queue → Queue) : (b.modQ q f).senseNext = b.senseNext := rfl
@[simp] theorem Blk.modQ_queues (b : Blk) (q : Fin 256) (f : Queue → Queue) : (b.modQ q f).queues = vmod b.queues q f := rfl
@[simp] theorem Blk.modQ_mboxes (b : Blk) (q : Fin 256) (f : Queue → Queue) : (b.modQ q f).mboxes = b.mboxes := rfl
@[simp] theorem Blk.modQ_trans (b : Blk) (q : Fin 256) (f : Queue → Queue) : (b.modQ q f).trans = b.trans := rfl
@[simp] theorem Blk.modQ_cfg (b : Blk) (q : Fin 256) (f : Queue → Queue) : (b.modQ q f).cfg = b.cfg := rfl
@[simp] theorem Blk.modQ_tenants (b : Blk) (q : Fin 256) (f : Queue → Queue) : (b.modQ q f).tenants = b.tenants := rfl
@[simp] theorem Blk.modQ_dr (b : Blk) (q : Fin 256) (f : Queue → Queue) : (b.modQ q f).dr = b.dr := rfl
@[simp] theorem Blk.modQ_rcc (b : Blk) (q : Fin 256) (f : Queue → Queue) : (b.modQ q f).rcc = b.rcc := rfl
@[simp] theorem Blk.modQ_cans (b : Blk) (q : Fin 256) (f : Queue → Queue) : (b.modQ q f).cans = b.cans := rfl
@[simp] theorem Blk.modQ_nms (b : Blk) (q : Fin 256) (f : Queue → Queue) : (b.modQ q f).nms = b.nms := rfl
@[simp] theorem Blk.modQ_nmg (b : Blk) (q : Fin 256) (f : Queue → Queue) : (b.modQ q f).nmg = b.nmg := rfl
@[simp] theorem Blk.modQ_sw (b : Blk) (q : Fin 256) (f : Queue → Queue) : (b.modQ q f).sw = b.sw := rfl
@[simp] theorem Blk.modQ_sec (b : Blk) (q : Fin 256) (f : Queue → Queue) : (b.modQ q f).sec = b.sec := rfl
@[simp] theorem Blk.modQ_upd (b : Blk) (q : Fin 256) (f : Queue → Queue) : (b.modQ q f).upd = b.upd := rfl
@[simp] theorem Blk.modQ_nvm (b : Blk) (q : Fin 256) (f : Queue → Queue) : (b.modQ q f).nvm = b.nvm := rfl

@[simp] theorem Blk.modMb_variant (b : Blk) (m : Fin 12) (f : Mailbox → Mailbox) : (b.modMb m f).variant = b.variant := rfl
@[simp] theorem Blk.modMb_uid (b : Blk) (m : Fin 12) (f : Mailbox → Mailbox) : (b.modMb m f).uid = b.uid := rfl
@[simp] theorem Blk.modMb_rev (b : Blk) (m : Fin 12) (f : Mailbox → Mailbox) : (b.modMb m f).rev = b.rev := rfl
@[simp] theorem Blk.modMb_absentLogged (b : Blk) (m : Fin 12) (f : Mailbox → Mailbox) : (b.modMb m f).absentLogged = b.absentLogged := rfl
@[simp] theorem Blk.modMb_reply (b : Blk) (m : Fin 12) (f : Mailbox → Mailbox) : (b.modMb m f).reply = b.reply := rfl
@[simp] theorem Blk.modMb_freeCtr (b : Blk) (m : Fin 12) (f : Mailbox → Mailbox) : (b.modMb m f).freeCtr = b.freeCtr := rfl
@[simp] theorem Blk.modMb_breath (b : Blk) (m : Fin 12) (f : Mailbox → Mailbox) : (b.modMb m f).breath = b.breath := rfl
@[simp] theorem Blk.modMb_time (b : Blk) (m : Fin 12) (f : Mailbox → Mailbox) : (b.modMb m f).time = b.time := rfl
@[simp] theorem Blk.modMb_evs (b : Blk) (m : Fin 12) (f : Mailbox → Mailbox) : (b.modMb m f).evs = b.evs := rfl
@[simp] theorem Blk.modMb_chans (b : Blk) (m : Fin 12) (f : Mailbox → Mailbox) : (b.modMb m f).chans = b.chans := rfl
@[simp] theorem Blk.modMb_kernels (b : Blk) (m : Fin 12) (f : Mailbox → Mailbox) : (b.modMb m f).kernels = b.kernels := rfl
@[simp] theorem Blk.modMb_motion (b : Blk) (m : Fin 12) (f : Mailbox → Mailbox) : (b.modMb m f).motion = b.motion := rfl
@[simp] theorem Blk.modMb_bridges (b : Blk) (m : Fin 12) (f : Mailbox → Mailbox) : (b.modMb m f).bridges = b.bridges := rfl
@[simp] theorem Blk.modMb_slots (b : Blk) (m : Fin 12) (f : Mailbox → Mailbox) : (b.modMb m f).slots = b.slots := rfl
@[simp] theorem Blk.modMb_senseDrive (b : Blk) (m : Fin 12) (f : Mailbox → Mailbox) : (b.modMb m f).senseDrive = b.senseDrive := rfl
@[simp] theorem Blk.modMb_senseNext (b : Blk) (m : Fin 12) (f : Mailbox → Mailbox) : (b.modMb m f).senseNext = b.senseNext := rfl
@[simp] theorem Blk.modMb_queues (b : Blk) (m : Fin 12) (f : Mailbox → Mailbox) : (b.modMb m f).queues = b.queues := rfl
@[simp] theorem Blk.modMb_mboxes (b : Blk) (m : Fin 12) (f : Mailbox → Mailbox) : (b.modMb m f).mboxes = vmod b.mboxes m f := rfl
@[simp] theorem Blk.modMb_trans (b : Blk) (m : Fin 12) (f : Mailbox → Mailbox) : (b.modMb m f).trans = b.trans := rfl
@[simp] theorem Blk.modMb_cfg (b : Blk) (m : Fin 12) (f : Mailbox → Mailbox) : (b.modMb m f).cfg = b.cfg := rfl
@[simp] theorem Blk.modMb_tenants (b : Blk) (m : Fin 12) (f : Mailbox → Mailbox) : (b.modMb m f).tenants = b.tenants := rfl
@[simp] theorem Blk.modMb_dr (b : Blk) (m : Fin 12) (f : Mailbox → Mailbox) : (b.modMb m f).dr = b.dr := rfl
@[simp] theorem Blk.modMb_rcc (b : Blk) (m : Fin 12) (f : Mailbox → Mailbox) : (b.modMb m f).rcc = b.rcc := rfl
@[simp] theorem Blk.modMb_cans (b : Blk) (m : Fin 12) (f : Mailbox → Mailbox) : (b.modMb m f).cans = b.cans := rfl
@[simp] theorem Blk.modMb_nms (b : Blk) (m : Fin 12) (f : Mailbox → Mailbox) : (b.modMb m f).nms = b.nms := rfl
@[simp] theorem Blk.modMb_nmg (b : Blk) (m : Fin 12) (f : Mailbox → Mailbox) : (b.modMb m f).nmg = b.nmg := rfl
@[simp] theorem Blk.modMb_sw (b : Blk) (m : Fin 12) (f : Mailbox → Mailbox) : (b.modMb m f).sw = b.sw := rfl
@[simp] theorem Blk.modMb_sec (b : Blk) (m : Fin 12) (f : Mailbox → Mailbox) : (b.modMb m f).sec = b.sec := rfl
@[simp] theorem Blk.modMb_upd (b : Blk) (m : Fin 12) (f : Mailbox → Mailbox) : (b.modMb m f).upd = b.upd := rfl
@[simp] theorem Blk.modMb_nvm (b : Blk) (m : Fin 12) (f : Mailbox → Mailbox) : (b.modMb m f).nvm = b.nvm := rfl

@[simp] theorem Blk.modT_variant (b : Blk) (t : Fin 8) (f : Tenant → Tenant) : (b.modT t f).variant = b.variant := rfl
@[simp] theorem Blk.modT_uid (b : Blk) (t : Fin 8) (f : Tenant → Tenant) : (b.modT t f).uid = b.uid := rfl
@[simp] theorem Blk.modT_rev (b : Blk) (t : Fin 8) (f : Tenant → Tenant) : (b.modT t f).rev = b.rev := rfl
@[simp] theorem Blk.modT_absentLogged (b : Blk) (t : Fin 8) (f : Tenant → Tenant) : (b.modT t f).absentLogged = b.absentLogged := rfl
@[simp] theorem Blk.modT_reply (b : Blk) (t : Fin 8) (f : Tenant → Tenant) : (b.modT t f).reply = b.reply := rfl
@[simp] theorem Blk.modT_freeCtr (b : Blk) (t : Fin 8) (f : Tenant → Tenant) : (b.modT t f).freeCtr = b.freeCtr := rfl
@[simp] theorem Blk.modT_breath (b : Blk) (t : Fin 8) (f : Tenant → Tenant) : (b.modT t f).breath = b.breath := rfl
@[simp] theorem Blk.modT_time (b : Blk) (t : Fin 8) (f : Tenant → Tenant) : (b.modT t f).time = b.time := rfl
@[simp] theorem Blk.modT_evs (b : Blk) (t : Fin 8) (f : Tenant → Tenant) : (b.modT t f).evs = b.evs := rfl
@[simp] theorem Blk.modT_chans (b : Blk) (t : Fin 8) (f : Tenant → Tenant) : (b.modT t f).chans = b.chans := rfl
@[simp] theorem Blk.modT_kernels (b : Blk) (t : Fin 8) (f : Tenant → Tenant) : (b.modT t f).kernels = b.kernels := rfl
@[simp] theorem Blk.modT_motion (b : Blk) (t : Fin 8) (f : Tenant → Tenant) : (b.modT t f).motion = b.motion := rfl
@[simp] theorem Blk.modT_bridges (b : Blk) (t : Fin 8) (f : Tenant → Tenant) : (b.modT t f).bridges = b.bridges := rfl
@[simp] theorem Blk.modT_slots (b : Blk) (t : Fin 8) (f : Tenant → Tenant) : (b.modT t f).slots = b.slots := rfl
@[simp] theorem Blk.modT_senseDrive (b : Blk) (t : Fin 8) (f : Tenant → Tenant) : (b.modT t f).senseDrive = b.senseDrive := rfl
@[simp] theorem Blk.modT_senseNext (b : Blk) (t : Fin 8) (f : Tenant → Tenant) : (b.modT t f).senseNext = b.senseNext := rfl
@[simp] theorem Blk.modT_queues (b : Blk) (t : Fin 8) (f : Tenant → Tenant) : (b.modT t f).queues = b.queues := rfl
@[simp] theorem Blk.modT_mboxes (b : Blk) (t : Fin 8) (f : Tenant → Tenant) : (b.modT t f).mboxes = b.mboxes := rfl
@[simp] theorem Blk.modT_trans (b : Blk) (t : Fin 8) (f : Tenant → Tenant) : (b.modT t f).trans = b.trans := rfl
@[simp] theorem Blk.modT_cfg (b : Blk) (t : Fin 8) (f : Tenant → Tenant) : (b.modT t f).cfg = b.cfg := rfl
@[simp] theorem Blk.modT_tenants (b : Blk) (t : Fin 8) (f : Tenant → Tenant) : (b.modT t f).tenants = vmod b.tenants t f := rfl
@[simp] theorem Blk.modT_dr (b : Blk) (t : Fin 8) (f : Tenant → Tenant) : (b.modT t f).dr = b.dr := rfl
@[simp] theorem Blk.modT_rcc (b : Blk) (t : Fin 8) (f : Tenant → Tenant) : (b.modT t f).rcc = b.rcc := rfl
@[simp] theorem Blk.modT_cans (b : Blk) (t : Fin 8) (f : Tenant → Tenant) : (b.modT t f).cans = b.cans := rfl
@[simp] theorem Blk.modT_nms (b : Blk) (t : Fin 8) (f : Tenant → Tenant) : (b.modT t f).nms = b.nms := rfl
@[simp] theorem Blk.modT_nmg (b : Blk) (t : Fin 8) (f : Tenant → Tenant) : (b.modT t f).nmg = b.nmg := rfl
@[simp] theorem Blk.modT_sw (b : Blk) (t : Fin 8) (f : Tenant → Tenant) : (b.modT t f).sw = b.sw := rfl
@[simp] theorem Blk.modT_sec (b : Blk) (t : Fin 8) (f : Tenant → Tenant) : (b.modT t f).sec = b.sec := rfl
@[simp] theorem Blk.modT_upd (b : Blk) (t : Fin 8) (f : Tenant → Tenant) : (b.modT t f).upd = b.upd := rfl
@[simp] theorem Blk.modT_nvm (b : Blk) (t : Fin 8) (f : Tenant → Tenant) : (b.modT t f).nvm = b.nvm := rfl

@[simp] theorem Blk.modCan_variant (b : Blk) (c : Fin 6) (f : Can → Can) : (b.modCan c f).variant = b.variant := rfl
@[simp] theorem Blk.modCan_uid (b : Blk) (c : Fin 6) (f : Can → Can) : (b.modCan c f).uid = b.uid := rfl
@[simp] theorem Blk.modCan_rev (b : Blk) (c : Fin 6) (f : Can → Can) : (b.modCan c f).rev = b.rev := rfl
@[simp] theorem Blk.modCan_absentLogged (b : Blk) (c : Fin 6) (f : Can → Can) : (b.modCan c f).absentLogged = b.absentLogged := rfl
@[simp] theorem Blk.modCan_reply (b : Blk) (c : Fin 6) (f : Can → Can) : (b.modCan c f).reply = b.reply := rfl
@[simp] theorem Blk.modCan_freeCtr (b : Blk) (c : Fin 6) (f : Can → Can) : (b.modCan c f).freeCtr = b.freeCtr := rfl
@[simp] theorem Blk.modCan_breath (b : Blk) (c : Fin 6) (f : Can → Can) : (b.modCan c f).breath = b.breath := rfl
@[simp] theorem Blk.modCan_time (b : Blk) (c : Fin 6) (f : Can → Can) : (b.modCan c f).time = b.time := rfl
@[simp] theorem Blk.modCan_evs (b : Blk) (c : Fin 6) (f : Can → Can) : (b.modCan c f).evs = b.evs := rfl
@[simp] theorem Blk.modCan_chans (b : Blk) (c : Fin 6) (f : Can → Can) : (b.modCan c f).chans = b.chans := rfl
@[simp] theorem Blk.modCan_kernels (b : Blk) (c : Fin 6) (f : Can → Can) : (b.modCan c f).kernels = b.kernels := rfl
@[simp] theorem Blk.modCan_motion (b : Blk) (c : Fin 6) (f : Can → Can) : (b.modCan c f).motion = b.motion := rfl
@[simp] theorem Blk.modCan_bridges (b : Blk) (c : Fin 6) (f : Can → Can) : (b.modCan c f).bridges = b.bridges := rfl
@[simp] theorem Blk.modCan_slots (b : Blk) (c : Fin 6) (f : Can → Can) : (b.modCan c f).slots = b.slots := rfl
@[simp] theorem Blk.modCan_senseDrive (b : Blk) (c : Fin 6) (f : Can → Can) : (b.modCan c f).senseDrive = b.senseDrive := rfl
@[simp] theorem Blk.modCan_senseNext (b : Blk) (c : Fin 6) (f : Can → Can) : (b.modCan c f).senseNext = b.senseNext := rfl
@[simp] theorem Blk.modCan_queues (b : Blk) (c : Fin 6) (f : Can → Can) : (b.modCan c f).queues = b.queues := rfl
@[simp] theorem Blk.modCan_mboxes (b : Blk) (c : Fin 6) (f : Can → Can) : (b.modCan c f).mboxes = b.mboxes := rfl
@[simp] theorem Blk.modCan_trans (b : Blk) (c : Fin 6) (f : Can → Can) : (b.modCan c f).trans = b.trans := rfl
@[simp] theorem Blk.modCan_cfg (b : Blk) (c : Fin 6) (f : Can → Can) : (b.modCan c f).cfg = b.cfg := rfl
@[simp] theorem Blk.modCan_tenants (b : Blk) (c : Fin 6) (f : Can → Can) : (b.modCan c f).tenants = b.tenants := rfl
@[simp] theorem Blk.modCan_dr (b : Blk) (c : Fin 6) (f : Can → Can) : (b.modCan c f).dr = b.dr := rfl
@[simp] theorem Blk.modCan_rcc (b : Blk) (c : Fin 6) (f : Can → Can) : (b.modCan c f).rcc = b.rcc := rfl
@[simp] theorem Blk.modCan_cans (b : Blk) (c : Fin 6) (f : Can → Can) : (b.modCan c f).cans = vmod b.cans c f := rfl
@[simp] theorem Blk.modCan_nms (b : Blk) (c : Fin 6) (f : Can → Can) : (b.modCan c f).nms = b.nms := rfl
@[simp] theorem Blk.modCan_nmg (b : Blk) (c : Fin 6) (f : Can → Can) : (b.modCan c f).nmg = b.nmg := rfl
@[simp] theorem Blk.modCan_sw (b : Blk) (c : Fin 6) (f : Can → Can) : (b.modCan c f).sw = b.sw := rfl
@[simp] theorem Blk.modCan_sec (b : Blk) (c : Fin 6) (f : Can → Can) : (b.modCan c f).sec = b.sec := rfl
@[simp] theorem Blk.modCan_upd (b : Blk) (c : Fin 6) (f : Can → Can) : (b.modCan c f).upd = b.upd := rfl
@[simp] theorem Blk.modCan_nvm (b : Blk) (c : Fin 6) (f : Can → Can) : (b.modCan c f).nvm = b.nvm := rfl

@[simp] theorem Blk.modNm_variant (b : Blk) (c : Fin 6) (f : Nm → Nm) : (b.modNm c f).variant = b.variant := rfl
@[simp] theorem Blk.modNm_uid (b : Blk) (c : Fin 6) (f : Nm → Nm) : (b.modNm c f).uid = b.uid := rfl
@[simp] theorem Blk.modNm_rev (b : Blk) (c : Fin 6) (f : Nm → Nm) : (b.modNm c f).rev = b.rev := rfl
@[simp] theorem Blk.modNm_absentLogged (b : Blk) (c : Fin 6) (f : Nm → Nm) : (b.modNm c f).absentLogged = b.absentLogged := rfl
@[simp] theorem Blk.modNm_reply (b : Blk) (c : Fin 6) (f : Nm → Nm) : (b.modNm c f).reply = b.reply := rfl
@[simp] theorem Blk.modNm_freeCtr (b : Blk) (c : Fin 6) (f : Nm → Nm) : (b.modNm c f).freeCtr = b.freeCtr := rfl
@[simp] theorem Blk.modNm_breath (b : Blk) (c : Fin 6) (f : Nm → Nm) : (b.modNm c f).breath = b.breath := rfl
@[simp] theorem Blk.modNm_time (b : Blk) (c : Fin 6) (f : Nm → Nm) : (b.modNm c f).time = b.time := rfl
@[simp] theorem Blk.modNm_evs (b : Blk) (c : Fin 6) (f : Nm → Nm) : (b.modNm c f).evs = b.evs := rfl
@[simp] theorem Blk.modNm_chans (b : Blk) (c : Fin 6) (f : Nm → Nm) : (b.modNm c f).chans = b.chans := rfl
@[simp] theorem Blk.modNm_kernels (b : Blk) (c : Fin 6) (f : Nm → Nm) : (b.modNm c f).kernels = b.kernels := rfl
@[simp] theorem Blk.modNm_motion (b : Blk) (c : Fin 6) (f : Nm → Nm) : (b.modNm c f).motion = b.motion := rfl
@[simp] theorem Blk.modNm_bridges (b : Blk) (c : Fin 6) (f : Nm → Nm) : (b.modNm c f).bridges = b.bridges := rfl
@[simp] theorem Blk.modNm_slots (b : Blk) (c : Fin 6) (f : Nm → Nm) : (b.modNm c f).slots = b.slots := rfl
@[simp] theorem Blk.modNm_senseDrive (b : Blk) (c : Fin 6) (f : Nm → Nm) : (b.modNm c f).senseDrive = b.senseDrive := rfl
@[simp] theorem Blk.modNm_senseNext (b : Blk) (c : Fin 6) (f : Nm → Nm) : (b.modNm c f).senseNext = b.senseNext := rfl
@[simp] theorem Blk.modNm_queues (b : Blk) (c : Fin 6) (f : Nm → Nm) : (b.modNm c f).queues = b.queues := rfl
@[simp] theorem Blk.modNm_mboxes (b : Blk) (c : Fin 6) (f : Nm → Nm) : (b.modNm c f).mboxes = b.mboxes := rfl
@[simp] theorem Blk.modNm_trans (b : Blk) (c : Fin 6) (f : Nm → Nm) : (b.modNm c f).trans = b.trans := rfl
@[simp] theorem Blk.modNm_cfg (b : Blk) (c : Fin 6) (f : Nm → Nm) : (b.modNm c f).cfg = b.cfg := rfl
@[simp] theorem Blk.modNm_tenants (b : Blk) (c : Fin 6) (f : Nm → Nm) : (b.modNm c f).tenants = b.tenants := rfl
@[simp] theorem Blk.modNm_dr (b : Blk) (c : Fin 6) (f : Nm → Nm) : (b.modNm c f).dr = b.dr := rfl
@[simp] theorem Blk.modNm_rcc (b : Blk) (c : Fin 6) (f : Nm → Nm) : (b.modNm c f).rcc = b.rcc := rfl
@[simp] theorem Blk.modNm_cans (b : Blk) (c : Fin 6) (f : Nm → Nm) : (b.modNm c f).cans = b.cans := rfl
@[simp] theorem Blk.modNm_nms (b : Blk) (c : Fin 6) (f : Nm → Nm) : (b.modNm c f).nms = vmod b.nms c f := rfl
@[simp] theorem Blk.modNm_nmg (b : Blk) (c : Fin 6) (f : Nm → Nm) : (b.modNm c f).nmg = b.nmg := rfl
@[simp] theorem Blk.modNm_sw (b : Blk) (c : Fin 6) (f : Nm → Nm) : (b.modNm c f).sw = b.sw := rfl
@[simp] theorem Blk.modNm_sec (b : Blk) (c : Fin 6) (f : Nm → Nm) : (b.modNm c f).sec = b.sec := rfl
@[simp] theorem Blk.modNm_upd (b : Blk) (c : Fin 6) (f : Nm → Nm) : (b.modNm c f).upd = b.upd := rfl
@[simp] theorem Blk.modNm_nvm (b : Blk) (c : Fin 6) (f : Nm → Nm) : (b.modNm c f).nvm = b.nvm := rfl

@[simp] theorem Blk.heal_variant (b : Blk) (l : List Store) : (b.heal l).variant = b.variant := rfl
@[simp] theorem Blk.heal_uid (b : Blk) (l : List Store) : (b.heal l).uid = b.uid := rfl
@[simp] theorem Blk.heal_rev (b : Blk) (l : List Store) : (b.heal l).rev = b.rev := rfl
@[simp] theorem Blk.heal_absentLogged (b : Blk) (l : List Store) : (b.heal l).absentLogged = b.absentLogged := rfl
@[simp] theorem Blk.heal_reply (b : Blk) (l : List Store) : (b.heal l).reply = b.reply := rfl
@[simp] theorem Blk.heal_freeCtr (b : Blk) (l : List Store) : (b.heal l).freeCtr = b.freeCtr := rfl
@[simp] theorem Blk.heal_breath (b : Blk) (l : List Store) : (b.heal l).breath = b.breath := rfl
@[simp] theorem Blk.heal_time (b : Blk) (l : List Store) : (b.heal l).time = b.time := rfl
@[simp] theorem Blk.heal_evs (b : Blk) (l : List Store) : (b.heal l).evs = b.evs := rfl
@[simp] theorem Blk.heal_chans (b : Blk) (l : List Store) : (b.heal l).chans = b.chans := rfl
@[simp] theorem Blk.heal_kernels (b : Blk) (l : List Store) : (b.heal l).kernels = b.kernels := rfl
@[simp] theorem Blk.heal_motion (b : Blk) (l : List Store) : (b.heal l).motion = b.motion := rfl
@[simp] theorem Blk.heal_bridges (b : Blk) (l : List Store) : (b.heal l).bridges = b.bridges := rfl
@[simp] theorem Blk.heal_slots (b : Blk) (l : List Store) : (b.heal l).slots = b.slots := rfl
@[simp] theorem Blk.heal_senseDrive (b : Blk) (l : List Store) : (b.heal l).senseDrive = b.senseDrive := rfl
@[simp] theorem Blk.heal_senseNext (b : Blk) (l : List Store) : (b.heal l).senseNext = b.senseNext := rfl
@[simp] theorem Blk.heal_queues (b : Blk) (l : List Store) : (b.heal l).queues = b.queues := rfl
@[simp] theorem Blk.heal_mboxes (b : Blk) (l : List Store) : (b.heal l).mboxes = b.mboxes := rfl
@[simp] theorem Blk.heal_trans (b : Blk) (l : List Store) : (b.heal l).trans = b.trans := rfl
@[simp] theorem Blk.heal_cfg (b : Blk) (l : List Store) : (b.heal l).cfg = b.cfg := rfl
@[simp] theorem Blk.heal_tenants (b : Blk) (l : List Store) : (b.heal l).tenants = b.tenants := rfl
@[simp] theorem Blk.heal_dr (b : Blk) (l : List Store) : (b.heal l).dr = b.dr := rfl
@[simp] theorem Blk.heal_rcc (b : Blk) (l : List Store) : (b.heal l).rcc = b.rcc := rfl
@[simp] theorem Blk.heal_cans (b : Blk) (l : List Store) : (b.heal l).cans = b.cans := rfl
@[simp] theorem Blk.heal_nms (b : Blk) (l : List Store) : (b.heal l).nms = b.nms := rfl
@[simp] theorem Blk.heal_nmg (b : Blk) (l : List Store) : (b.heal l).nmg = b.nmg := rfl
@[simp] theorem Blk.heal_sw (b : Blk) (l : List Store) : (b.heal l).sw = b.sw := rfl
@[simp] theorem Blk.heal_sec (b : Blk) (l : List Store) : (b.heal l).sec = b.sec := rfl
@[simp] theorem Blk.heal_upd (b : Blk) (l : List Store) : (b.heal l).upd = b.upd := rfl

/-! ### Units of a table -/

@[simp] theorem Blk.modCh_ch (b : Blk) (c : Fin 40) (f : Channel → Channel) : (b.modCh c f).ch c = f (b.ch c) := vmod_get_self ..
theorem Blk.modCh_ch_ne (b : Blk) (c d : Fin 40) (f : Channel → Channel) (h : c ≠ d) : (b.modCh c f).ch d = b.ch d :=
  vmod_get_ne _ _ _ _ h
@[simp] theorem Blk.modK_kn (b : Blk) (k : Fin 4) (f : Kernel → Kernel) : (b.modK k f).kn k = f (b.kn k) := vmod_get_self ..
theorem Blk.modK_kn_ne (b : Blk) (k j : Fin 4) (f : Kernel → Kernel) (h : k ≠ j) : (b.modK k f).kn j = b.kn j :=
  vmod_get_ne _ _ _ _ h
@[simp] theorem Blk.modCh_kn (b : Blk) (c : Fin 40) (f : Channel → Channel) (k : Fin 4) : (b.modCh c f).kn k = b.kn k := rfl
@[simp] theorem Blk.modK_ch (b : Blk) (k : Fin 4) (f : Kernel → Kernel) (c : Fin 40) : (b.modK k f).ch c = b.ch c := rfl

end Sys2Proof.Machine
end

