-- ==== Sys2Proof/Laws/Events.lean ====
section
/-! SUPPORT. What capturing a record does (R72 to R74): it changes the sequencer, or the kernel's buffer, alone, and the record
is the last one waiting where there is room. -/

namespace Sys2Proof.Machine
open Sys2Proof

/-- Capturing a record changes the sequencer alone. -/
theorem Blk.offer_eq (b : Blk) (p : PRec) : b.offer p = { b with evs := (b.offer p).evs } := by
  have h1 : ∃ e, b.handLost p.src = { b with evs := e } := by
    unfold Blk.handLost
    split
    · split
      · exact ⟨_, rfl⟩
      · exact ⟨b.evs, rfl⟩
    · exact ⟨b.evs, rfl⟩
  obtain ⟨e1, h1⟩ := h1
  have h2 : ∃ e, b.offer p = { b with evs := e } := by
    unfold Blk.offer
    rw [h1]
    dsimp only
    split
    · exact ⟨_, rfl⟩
    · exact ⟨_, rfl⟩
  obtain ⟨e2, h2⟩ := h2
  rw [h2]

theorem Blk.ev_eq (b : Blk) (src : BitVec 16) (code sev : Nat) (arg : Word) (tn : Byte) (pin : Bool) (fl : Nat) :
    b.ev src code sev arg tn pin fl = { b with evs := (b.ev src code sev arg tn pin fl).evs } := Blk.offer_eq ..

@[simp] theorem Blk.ev_variant (b : Blk) (src : BitVec 16) (code sev : Nat) (arg : Word) (tn : Byte) (pin : Bool) (fl : Nat) :
    (b.ev src code sev arg tn pin fl).variant = b.variant := by rw [Blk.ev_eq]
@[simp] theorem Blk.ev_uid (b : Blk) (src : BitVec 16) (code sev : Nat) (arg : Word) (tn : Byte) (pin : Bool) (fl : Nat) :
    (b.ev src code sev arg tn pin fl).uid = b.uid := by rw [Blk.ev_eq]
@[simp] theorem Blk.ev_rev (b : Blk) (src : BitVec 16) (code sev : Nat) (arg : Word) (tn : Byte) (pin : Bool) (fl : Nat) :
    (b.ev src code sev arg tn pin fl).rev = b.rev := by rw [Blk.ev_eq]
@[simp] theorem Blk.ev_absentLogged (b : Blk) (src : BitVec 16) (code sev : Nat) (arg : Word) (tn : Byte) (pin : Bool) (fl : Nat) :
    (b.ev src code sev arg tn pin fl).absentLogged = b.absentLogged := by rw [Blk.ev_eq]
@[simp] theorem Blk.ev_reply (b : Blk) (src : BitVec 16) (code sev : Nat) (arg : Word) (tn : Byte) (pin : Bool) (fl : Nat) :
    (b.ev src code sev arg tn pin fl).reply = b.reply := by rw [Blk.ev_eq]
@[simp] theorem Blk.ev_freeCtr (b : Blk) (src : BitVec 16) (code sev : Nat) (arg : Word) (tn : Byte) (pin : Bool) (fl : Nat) :
    (b.ev src code sev arg tn pin fl).freeCtr = b.freeCtr := by rw [Blk.ev_eq]
@[simp] theorem Blk.ev_breath (b : Blk) (src : BitVec 16) (code sev : Nat) (arg : Word) (tn : Byte) (pin : Bool) (fl : Nat) :
    (b.ev src code sev arg tn pin fl).breath = b.breath := by rw [Blk.ev_eq]
@[simp] theorem Blk.ev_time (b : Blk) (src : BitVec 16) (code sev : Nat) (arg : Word) (tn : Byte) (pin : Bool) (fl : Nat) :
    (b.ev src code sev arg tn pin fl).time = b.time := by rw [Blk.ev_eq]
@[simp] theorem Blk.ev_chans (b : Blk) (src : BitVec 16) (code sev : Nat) (arg : Word) (tn : Byte) (pin : Bool) (fl : Nat) :
    (b.ev src code sev arg tn pin fl).chans = b.chans := by rw [Blk.ev_eq]
@[simp] theorem Blk.ev_kernels (b : Blk) (src : BitVec 16) (code sev : Nat) (arg : Word) (tn : Byte) (pin : Bool) (fl : Nat) :
    (b.ev src code sev arg tn pin fl).kernels = b.kernels := by rw [Blk.ev_eq]
@[simp] theorem Blk.ev_motion (b : Blk) (src : BitVec 16) (code sev : Nat) (arg : Word) (tn : Byte) (pin : Bool) (fl : Nat) :
    (b.ev src code sev arg tn pin fl).motion = b.motion := by rw [Blk.ev_eq]
@[simp] theorem Blk.ev_bridges (b : Blk) (src : BitVec 16) (code sev : Nat) (arg : Word) (tn : Byte) (pin : Bool) (fl : Nat) :
    (b.ev src code sev arg tn pin fl).bridges = b.bridges := by rw [Blk.ev_eq]
@[simp] theorem Blk.ev_slots (b : Blk) (src : BitVec 16) (code sev : Nat) (arg : Word) (tn : Byte) (pin : Bool) (fl : Nat) :
    (b.ev src code sev arg tn pin fl).slots = b.slots := by rw [Blk.ev_eq]
@[simp] theorem Blk.ev_senseDrive (b : Blk) (src : BitVec 16) (code sev : Nat) (arg : Word) (tn : Byte) (pin : Bool) (fl : Nat) :
    (b.ev src code sev arg tn pin fl).senseDrive = b.senseDrive := by rw [Blk.ev_eq]
@[simp] theorem Blk.ev_senseNext (b : Blk) (src : BitVec 16) (code sev : Nat) (arg : Word) (tn : Byte) (pin : Bool) (fl : Nat) :
    (b.ev src code sev arg tn pin fl).senseNext = b.senseNext := by rw [Blk.ev_eq]
@[simp] theorem Blk.ev_queues (b : Blk) (src : BitVec 16) (code sev : Nat) (arg : Word) (tn : Byte) (pin : Bool) (fl : Nat) :
    (b.ev src code sev arg tn pin fl).queues = b.queues := by rw [Blk.ev_eq]
@[simp] theorem Blk.ev_mboxes (b : Blk) (src : BitVec 16) (code sev : Nat) (arg : Word) (tn : Byte) (pin : Bool) (fl : Nat) :
    (b.ev src code sev arg tn pin fl).mboxes = b.mboxes := by rw [Blk.ev_eq]
@[simp] theorem Blk.ev_trans (b : Blk) (src : BitVec 16) (code sev : Nat) (arg : Word) (tn : Byte) (pin : Bool) (fl : Nat) :
    (b.ev src code sev arg tn pin fl).trans = b.trans := by rw [Blk.ev_eq]
@[simp] theorem Blk.ev_cfg (b : Blk) (src : BitVec 16) (code sev : Nat) (arg : Word) (tn : Byte) (pin : Bool) (fl : Nat) :
    (b.ev src code sev arg tn pin fl).cfg = b.cfg := by rw [Blk.ev_eq]
@[simp] theorem Blk.ev_tenants (b : Blk) (src : BitVec 16) (code sev : Nat) (arg : Word) (tn : Byte) (pin : Bool) (fl : Nat) :
    (b.ev src code sev arg tn pin fl).tenants = b.tenants := by rw [Blk.ev_eq]
@[simp] theorem Blk.ev_dr (b : Blk) (src : BitVec 16) (code sev : Nat) (arg : Word) (tn : Byte) (pin : Bool) (fl : Nat) :
    (b.ev src code sev arg tn pin fl).dr = b.dr := by rw [Blk.ev_eq]
@[simp] theorem Blk.ev_rcc (b : Blk) (src : BitVec 16) (code sev : Nat) (arg : Word) (tn : Byte) (pin : Bool) (fl : Nat) :
    (b.ev src code sev arg tn pin fl).rcc = b.rcc := by rw [Blk.ev_eq]
@[simp] theorem Blk.ev_cans (b : Blk) (src : BitVec 16) (code sev : Nat) (arg : Word) (tn : Byte) (pin : Bool) (fl : Nat) :
    (b.ev src code sev arg tn pin fl).cans = b.cans := by rw [Blk.ev_eq]
@[simp] theorem Blk.ev_nms (b : Blk) (src : BitVec 16) (code sev : Nat) (arg : Word) (tn : Byte) (pin : Bool) (fl : Nat) :
    (b.ev src code sev arg tn pin fl).nms = b.nms := by rw [Blk.ev_eq]
@[simp] theorem Blk.ev_nmg (b : Blk) (src : BitVec 16) (code sev : Nat) (arg : Word) (tn : Byte) (pin : Bool) (fl : Nat) :
    (b.ev src code sev arg tn pin fl).nmg = b.nmg := by rw [Blk.ev_eq]
@[simp] theorem Blk.ev_sw (b : Blk) (src : BitVec 16) (code sev : Nat) (arg : Word) (tn : Byte) (pin : Bool) (fl : Nat) :
    (b.ev src code sev arg tn pin fl).sw = b.sw := by rw [Blk.ev_eq]
@[simp] theorem Blk.ev_sec (b : Blk) (src : BitVec 16) (code sev : Nat) (arg : Word) (tn : Byte) (pin : Bool) (fl : Nat) :
    (b.ev src code sev arg tn pin fl).sec = b.sec := by rw [Blk.ev_eq]
@[simp] theorem Blk.ev_upd (b : Blk) (src : BitVec 16) (code sev : Nat) (arg : Word) (tn : Byte) (pin : Bool) (fl : Nat) :
    (b.ev src code sev arg tn pin fl).upd = b.upd := by rw [Blk.ev_eq]
@[simp] theorem Blk.ev_nvm (b : Blk) (src : BitVec 16) (code sev : Nat) (arg : Word) (tn : Byte) (pin : Bool) (fl : Nat) :
    (b.ev src code sev arg tn pin fl).nvm = b.nvm := by rw [Blk.ev_eq]

/-- A source with room keeps the record as its last. -/
theorem Blk.offer_last (b : Blk) (p : PRec) (h : Safety.room b p.src) : (b.offer p).evs.queue.getLast? = some p := by
  have h0 : b.waiting p.src < shellBuffer := by unfold Safety.room at h; omega
  have h1 : (b.handLost p.src).waiting p.src < shellBuffer := by
    unfold Blk.handLost
    split
    · rw [if_pos h0]
      unfold Safety.room at h
      simp only [Blk.waiting, Blk.onEvs_evs, List.filter_append, List.length_append] at h ⊢
      have : (List.filter (fun q : PRec => q.src = p.src) [b.lostRec p.src hw ‹Nat›]).length ≤ 1 :=
        (List.length_filter_le _ _).trans (by simp)
      omega
    · exact h0
  unfold Blk.offer
  simp only [h1, if_true]
  simp

theorem Blk.ev_last (b : Blk) (src : BitVec 16) (code sev : Nat) (arg : Word) (tn : Byte) (pin : Bool) (fl : Nat)
    (h : Safety.room b src) :
    Safety.lastRecord (b.ev src code sev arg tn pin fl) = some (src, BitVec.ofNat 16 code, BitVec.ofNat 3 sev, arg, tn) := by
  unfold Safety.lastRecord Blk.ev
  rw [Blk.offer_last b (b.capture src code sev arg tn fl pin) h]
  rfl

/-- Room is a matter of the sequencer alone. -/
theorem Safety.room_congr {a b : Blk} {src : BitVec 16} (h : a.evs = b.evs) : Safety.room a src ↔ Safety.room b src := by
  unfold Safety.room Blk.waiting; rw [h]

/-- A kernel's record changes its buffer alone. -/
theorem Blk.kev_eq (b : Blk) (k : Fin 4) (src : BitVec 16) (code sev : Nat) (arg : Word) (tn : Byte) (pin : Bool) (fl : Nat) :
    b.kev k src code sev arg tn pin fl = { b with kernels := (b.kev k src code sev arg tn pin fl).kernels } := rfl

@[simp] theorem Blk.kev_variant (b : Blk) (k : Fin 4) (src : BitVec 16) (code sev : Nat) (arg : Word) (tn : Byte) (pin : Bool) (fl : Nat) :
    (b.kev k src code sev arg tn pin fl).variant = b.variant := rfl
@[simp] theorem Blk.kev_uid (b : Blk) (k : Fin 4) (src : BitVec 16) (code sev : Nat) (arg : Word) (tn : Byte) (pin : Bool) (fl : Nat) :
    (b.kev k src code sev arg tn pin fl).uid = b.uid := rfl
@[simp] theorem Blk.kev_rev (b : Blk) (k : Fin 4) (src : BitVec 16) (code sev : Nat) (arg : Word) (tn : Byte) (pin : Bool) (fl : Nat) :
    (b.kev k src code sev arg tn pin fl).rev = b.rev := rfl
@[simp] theorem Blk.kev_absentLogged (b : Blk) (k : Fin 4) (src : BitVec 16) (code sev : Nat) (arg : Word) (tn : Byte) (pin : Bool) (fl : Nat) :
    (b.kev k src code sev arg tn pin fl).absentLogged = b.absentLogged := rfl
@[simp] theorem Blk.kev_reply (b : Blk) (k : Fin 4) (src : BitVec 16) (code sev : Nat) (arg : Word) (tn : Byte) (pin : Bool) (fl : Nat) :
    (b.kev k src code sev arg tn pin fl).reply = b.reply := rfl
@[simp] theorem Blk.kev_freeCtr (b : Blk) (k : Fin 4) (src : BitVec 16) (code sev : Nat) (arg : Word) (tn : Byte) (pin : Bool) (fl : Nat) :
    (b.kev k src code sev arg tn pin fl).freeCtr = b.freeCtr := rfl
@[simp] theorem Blk.kev_breath (b : Blk) (k : Fin 4) (src : BitVec 16) (code sev : Nat) (arg : Word) (tn : Byte) (pin : Bool) (fl : Nat) :
    (b.kev k src code sev arg tn pin fl).breath = b.breath := rfl
@[simp] theorem Blk.kev_time (b : Blk) (k : Fin 4) (src : BitVec 16) (code sev : Nat) (arg : Word) (tn : Byte) (pin : Bool) (fl : Nat) :
    (b.kev k src code sev arg tn pin fl).time = b.time := rfl
@[simp] theorem Blk.kev_evs (b : Blk) (k : Fin 4) (src : BitVec 16) (code sev : Nat) (arg : Word) (tn : Byte) (pin : Bool) (fl : Nat) :
    (b.kev k src code sev arg tn pin fl).evs = b.evs := rfl
@[simp] theorem Blk.kev_chans (b : Blk) (k : Fin 4) (src : BitVec 16) (code sev : Nat) (arg : Word) (tn : Byte) (pin : Bool) (fl : Nat) :
    (b.kev k src code sev arg tn pin fl).chans = b.chans := rfl
@[simp] theorem Blk.kev_motion (b : Blk) (k : Fin 4) (src : BitVec 16) (code sev : Nat) (arg : Word) (tn : Byte) (pin : Bool) (fl : Nat) :
    (b.kev k src code sev arg tn pin fl).motion = b.motion := rfl
@[simp] theorem Blk.kev_bridges (b : Blk) (k : Fin 4) (src : BitVec 16) (code sev : Nat) (arg : Word) (tn : Byte) (pin : Bool) (fl : Nat) :
    (b.kev k src code sev arg tn pin fl).bridges = b.bridges := rfl
@[simp] theorem Blk.kev_slots (b : Blk) (k : Fin 4) (src : BitVec 16) (code sev : Nat) (arg : Word) (tn : Byte) (pin : Bool) (fl : Nat) :
    (b.kev k src code sev arg tn pin fl).slots = b.slots := rfl
@[simp] theorem Blk.kev_senseDrive (b : Blk) (k : Fin 4) (src : BitVec 16) (code sev : Nat) (arg : Word) (tn : Byte) (pin : Bool) (fl : Nat) :
    (b.kev k src code sev arg tn pin fl).senseDrive = b.senseDrive := rfl
@[simp] theorem Blk.kev_senseNext (b : Blk) (k : Fin 4) (src : BitVec 16) (code sev : Nat) (arg : Word) (tn : Byte) (pin : Bool) (fl : Nat) :
    (b.kev k src code sev arg tn pin fl).senseNext = b.senseNext := rfl
@[simp] theorem Blk.kev_queues (b : Blk) (k : Fin 4) (src : BitVec 16) (code sev : Nat) (arg : Word) (tn : Byte) (pin : Bool) (fl : Nat) :
    (b.kev k src code sev arg tn pin fl).queues = b.queues := rfl
@[simp] theorem Blk.kev_mboxes (b : Blk) (k : Fin 4) (src : BitVec 16) (code sev : Nat) (arg : Word) (tn : Byte) (pin : Bool) (fl : Nat) :
    (b.kev k src code sev arg tn pin fl).mboxes = b.mboxes := rfl
@[simp] theorem Blk.kev_trans (b : Blk) (k : Fin 4) (src : BitVec 16) (code sev : Nat) (arg : Word) (tn : Byte) (pin : Bool) (fl : Nat) :
    (b.kev k src code sev arg tn pin fl).trans = b.trans := rfl
@[simp] theorem Blk.kev_cfg (b : Blk) (k : Fin 4) (src : BitVec 16) (code sev : Nat) (arg : Word) (tn : Byte) (pin : Bool) (fl : Nat) :
    (b.kev k src code sev arg tn pin fl).cfg = b.cfg := rfl
@[simp] theorem Blk.kev_tenants (b : Blk) (k : Fin 4) (src : BitVec 16) (code sev : Nat) (arg : Word) (tn : Byte) (pin : Bool) (fl : Nat) :
    (b.kev k src code sev arg tn pin fl).tenants = b.tenants := rfl
@[simp] theorem Blk.kev_dr (b : Blk) (k : Fin 4) (src : BitVec 16) (code sev : Nat) (arg : Word) (tn : Byte) (pin : Bool) (fl : Nat) :
    (b.kev k src code sev arg tn pin fl).dr = b.dr := rfl
@[simp] theorem Blk.kev_rcc (b : Blk) (k : Fin 4) (src : BitVec 16) (code sev : Nat) (arg : Word) (tn : Byte) (pin : Bool) (fl : Nat) :
    (b.kev k src code sev arg tn pin fl).rcc = b.rcc := rfl
@[simp] theorem Blk.kev_cans (b : Blk) (k : Fin 4) (src : BitVec 16) (code sev : Nat) (arg : Word) (tn : Byte) (pin : Bool) (fl : Nat) :
    (b.kev k src code sev arg tn pin fl).cans = b.cans := rfl
@[simp] theorem Blk.kev_nms (b : Blk) (k : Fin 4) (src : BitVec 16) (code sev : Nat) (arg : Word) (tn : Byte) (pin : Bool) (fl : Nat) :
    (b.kev k src code sev arg tn pin fl).nms = b.nms := rfl
@[simp] theorem Blk.kev_nmg (b : Blk) (k : Fin 4) (src : BitVec 16) (code sev : Nat) (arg : Word) (tn : Byte) (pin : Bool) (fl : Nat) :
    (b.kev k src code sev arg tn pin fl).nmg = b.nmg := rfl
@[simp] theorem Blk.kev_sw (b : Blk) (k : Fin 4) (src : BitVec 16) (code sev : Nat) (arg : Word) (tn : Byte) (pin : Bool) (fl : Nat) :
    (b.kev k src code sev arg tn pin fl).sw = b.sw := rfl
@[simp] theorem Blk.kev_sec (b : Blk) (k : Fin 4) (src : BitVec 16) (code sev : Nat) (arg : Word) (tn : Byte) (pin : Bool) (fl : Nat) :
    (b.kev k src code sev arg tn pin fl).sec = b.sec := rfl
@[simp] theorem Blk.kev_upd (b : Blk) (k : Fin 4) (src : BitVec 16) (code sev : Nat) (arg : Word) (tn : Byte) (pin : Bool) (fl : Nat) :
    (b.kev k src code sev arg tn pin fl).upd = b.upd := rfl
@[simp] theorem Blk.kev_nvm (b : Blk) (k : Fin 4) (src : BitVec 16) (code sev : Nat) (arg : Word) (tn : Byte) (pin : Bool) (fl : Nat) :
    (b.kev k src code sev arg tn pin fl).nvm = b.nvm := rfl

/-- A kernel's record leaves every field of the kernel but its buffer. -/
theorem Blk.kev_kn (b : Blk) (k : Fin 4) (src : BitVec 16) (code sev : Nat) (arg : Word) (tn : Byte) (pin : Bool) (fl : Nat) (j : Fin 4) :
    (b.kev k src code sev arg tn pin fl).kn j =
      { b.kn j with buf := ((b.kev k src code sev arg tn pin fl).kn j).buf, bufLost := ((b.kev k src code sev arg tn pin fl).kn j).bufLost } := by
  unfold Blk.kev Blk.kn Blk.modK
  simp only [vmod_get]
  by_cases h : k = j
  · subst h
    simp only [if_true]
    split
    · rfl
    · split <;> rfl
  · simp [h]

/-- A kernel with room keeps the record as its last. -/
theorem Blk.kev_last (b : Blk) (k : Fin 4) (src : BitVec 16) (code sev : Nat) (arg : Word) (tn : Byte) (pin : Bool) (fl : Nat)
    (h : Safety.kernelRoom b k 1) :
    Safety.lastKernelRecord (b.kev k src code sev arg tn pin fl) k = some (src, BitVec.ofNat 16 code, BitVec.ofNat 3 sev, arg, tn) := by
  unfold Safety.kernelRoom Blk.kn at h
  unfold Safety.lastKernelRecord Blk.kev Blk.kn Blk.modK
  simp only [vmod_get_self]
  split
  · simp [Blk.capture]
  · split
    · simp [Blk.capture]
    · rename_i h1 h2
      simp at h1 h2
      omega

end Sys2Proof.Machine
end

