-- ==== Sys2Proof/Laws/Ramdar.lean ====
section
/-! SUPPORT. What the shared parts of serving a request do (R232 to R241): a request in one message that passes the shared
checks reaches its body with its payload, and an answer is one more response of its mailbox. -/

namespace Sys2Proof.Machine
open Sys2Proof

/-- An answer changes its mailbox alone. -/
theorem Blk.respond_eq (b : Blk) (op : Nat) (r : Req) (st : Nat) (n : Word) (p : List Byte) (c : Bool) :
    b.respond op r st n p c = { b with mboxes := (b.respond op r st n p c).mboxes } := rfl

/-- A completion changes its mailbox alone. -/
theorem Blk.complete_eq (b : Blk) (d : Due) (st : Nat) (n : Word) (p : List Byte) :
    b.complete d st n p = { b with mboxes := (b.complete d st n p).mboxes } := rfl

@[simp] theorem Blk.respond_variant (b : Blk) (op : Nat) (r : Req) (st : Nat) (n : Word) (p : List Byte) (c : Bool) :
    (b.respond op r st n p c).variant = b.variant := rfl
@[simp] theorem Blk.ok_variant (b : Blk) (op : Nat) (r : Req) (p : List Byte) : (b.ok op r p).variant = b.variant := rfl
@[simp] theorem Blk.complete_variant (b : Blk) (d : Due) (st : Nat) (n : Word) (p : List Byte) :
    (b.complete d st n p).variant = b.variant := rfl
@[simp] theorem Blk.respond_uid (b : Blk) (op : Nat) (r : Req) (st : Nat) (n : Word) (p : List Byte) (c : Bool) :
    (b.respond op r st n p c).uid = b.uid := rfl
@[simp] theorem Blk.ok_uid (b : Blk) (op : Nat) (r : Req) (p : List Byte) : (b.ok op r p).uid = b.uid := rfl
@[simp] theorem Blk.complete_uid (b : Blk) (d : Due) (st : Nat) (n : Word) (p : List Byte) :
    (b.complete d st n p).uid = b.uid := rfl
@[simp] theorem Blk.respond_rev (b : Blk) (op : Nat) (r : Req) (st : Nat) (n : Word) (p : List Byte) (c : Bool) :
    (b.respond op r st n p c).rev = b.rev := rfl
@[simp] theorem Blk.ok_rev (b : Blk) (op : Nat) (r : Req) (p : List Byte) : (b.ok op r p).rev = b.rev := rfl
@[simp] theorem Blk.complete_rev (b : Blk) (d : Due) (st : Nat) (n : Word) (p : List Byte) :
    (b.complete d st n p).rev = b.rev := rfl
@[simp] theorem Blk.respond_absentLogged (b : Blk) (op : Nat) (r : Req) (st : Nat) (n : Word) (p : List Byte) (c : Bool) :
    (b.respond op r st n p c).absentLogged = b.absentLogged := rfl
@[simp] theorem Blk.ok_absentLogged (b : Blk) (op : Nat) (r : Req) (p : List Byte) : (b.ok op r p).absentLogged = b.absentLogged := rfl
@[simp] theorem Blk.complete_absentLogged (b : Blk) (d : Due) (st : Nat) (n : Word) (p : List Byte) :
    (b.complete d st n p).absentLogged = b.absentLogged := rfl
@[simp] theorem Blk.respond_reply (b : Blk) (op : Nat) (r : Req) (st : Nat) (n : Word) (p : List Byte) (c : Bool) :
    (b.respond op r st n p c).reply = b.reply := rfl
@[simp] theorem Blk.ok_reply (b : Blk) (op : Nat) (r : Req) (p : List Byte) : (b.ok op r p).reply = b.reply := rfl
@[simp] theorem Blk.complete_reply (b : Blk) (d : Due) (st : Nat) (n : Word) (p : List Byte) :
    (b.complete d st n p).reply = b.reply := rfl
@[simp] theorem Blk.respond_freeCtr (b : Blk) (op : Nat) (r : Req) (st : Nat) (n : Word) (p : List Byte) (c : Bool) :
    (b.respond op r st n p c).freeCtr = b.freeCtr := rfl
@[simp] theorem Blk.ok_freeCtr (b : Blk) (op : Nat) (r : Req) (p : List Byte) : (b.ok op r p).freeCtr = b.freeCtr := rfl
@[simp] theorem Blk.complete_freeCtr (b : Blk) (d : Due) (st : Nat) (n : Word) (p : List Byte) :
    (b.complete d st n p).freeCtr = b.freeCtr := rfl
@[simp] theorem Blk.respond_breath (b : Blk) (op : Nat) (r : Req) (st : Nat) (n : Word) (p : List Byte) (c : Bool) :
    (b.respond op r st n p c).breath = b.breath := rfl
@[simp] theorem Blk.ok_breath (b : Blk) (op : Nat) (r : Req) (p : List Byte) : (b.ok op r p).breath = b.breath := rfl
@[simp] theorem Blk.complete_breath (b : Blk) (d : Due) (st : Nat) (n : Word) (p : List Byte) :
    (b.complete d st n p).breath = b.breath := rfl
@[simp] theorem Blk.respond_time (b : Blk) (op : Nat) (r : Req) (st : Nat) (n : Word) (p : List Byte) (c : Bool) :
    (b.respond op r st n p c).time = b.time := rfl
@[simp] theorem Blk.ok_time (b : Blk) (op : Nat) (r : Req) (p : List Byte) : (b.ok op r p).time = b.time := rfl
@[simp] theorem Blk.complete_time (b : Blk) (d : Due) (st : Nat) (n : Word) (p : List Byte) :
    (b.complete d st n p).time = b.time := rfl
@[simp] theorem Blk.respond_evs (b : Blk) (op : Nat) (r : Req) (st : Nat) (n : Word) (p : List Byte) (c : Bool) :
    (b.respond op r st n p c).evs = b.evs := rfl
@[simp] theorem Blk.ok_evs (b : Blk) (op : Nat) (r : Req) (p : List Byte) : (b.ok op r p).evs = b.evs := rfl
@[simp] theorem Blk.complete_evs (b : Blk) (d : Due) (st : Nat) (n : Word) (p : List Byte) :
    (b.complete d st n p).evs = b.evs := rfl
@[simp] theorem Blk.respond_chans (b : Blk) (op : Nat) (r : Req) (st : Nat) (n : Word) (p : List Byte) (c : Bool) :
    (b.respond op r st n p c).chans = b.chans := rfl
@[simp] theorem Blk.ok_chans (b : Blk) (op : Nat) (r : Req) (p : List Byte) : (b.ok op r p).chans = b.chans := rfl
@[simp] theorem Blk.complete_chans (b : Blk) (d : Due) (st : Nat) (n : Word) (p : List Byte) :
    (b.complete d st n p).chans = b.chans := rfl
@[simp] theorem Blk.respond_kernels (b : Blk) (op : Nat) (r : Req) (st : Nat) (n : Word) (p : List Byte) (c : Bool) :
    (b.respond op r st n p c).kernels = b.kernels := rfl
@[simp] theorem Blk.ok_kernels (b : Blk) (op : Nat) (r : Req) (p : List Byte) : (b.ok op r p).kernels = b.kernels := rfl
@[simp] theorem Blk.complete_kernels (b : Blk) (d : Due) (st : Nat) (n : Word) (p : List Byte) :
    (b.complete d st n p).kernels = b.kernels := rfl
@[simp] theorem Blk.respond_motion (b : Blk) (op : Nat) (r : Req) (st : Nat) (n : Word) (p : List Byte) (c : Bool) :
    (b.respond op r st n p c).motion = b.motion := rfl
@[simp] theorem Blk.ok_motion (b : Blk) (op : Nat) (r : Req) (p : List Byte) : (b.ok op r p).motion = b.motion := rfl
@[simp] theorem Blk.complete_motion (b : Blk) (d : Due) (st : Nat) (n : Word) (p : List Byte) :
    (b.complete d st n p).motion = b.motion := rfl
@[simp] theorem Blk.respond_bridges (b : Blk) (op : Nat) (r : Req) (st : Nat) (n : Word) (p : List Byte) (c : Bool) :
    (b.respond op r st n p c).bridges = b.bridges := rfl
@[simp] theorem Blk.ok_bridges (b : Blk) (op : Nat) (r : Req) (p : List Byte) : (b.ok op r p).bridges = b.bridges := rfl
@[simp] theorem Blk.complete_bridges (b : Blk) (d : Due) (st : Nat) (n : Word) (p : List Byte) :
    (b.complete d st n p).bridges = b.bridges := rfl
@[simp] theorem Blk.respond_slots (b : Blk) (op : Nat) (r : Req) (st : Nat) (n : Word) (p : List Byte) (c : Bool) :
    (b.respond op r st n p c).slots = b.slots := rfl
@[simp] theorem Blk.ok_slots (b : Blk) (op : Nat) (r : Req) (p : List Byte) : (b.ok op r p).slots = b.slots := rfl
@[simp] theorem Blk.complete_slots (b : Blk) (d : Due) (st : Nat) (n : Word) (p : List Byte) :
    (b.complete d st n p).slots = b.slots := rfl
@[simp] theorem Blk.respond_senseDrive (b : Blk) (op : Nat) (r : Req) (st : Nat) (n : Word) (p : List Byte) (c : Bool) :
    (b.respond op r st n p c).senseDrive = b.senseDrive := rfl
@[simp] theorem Blk.ok_senseDrive (b : Blk) (op : Nat) (r : Req) (p : List Byte) : (b.ok op r p).senseDrive = b.senseDrive := rfl
@[simp] theorem Blk.complete_senseDrive (b : Blk) (d : Due) (st : Nat) (n : Word) (p : List Byte) :
    (b.complete d st n p).senseDrive = b.senseDrive := rfl
@[simp] theorem Blk.respond_senseNext (b : Blk) (op : Nat) (r : Req) (st : Nat) (n : Word) (p : List Byte) (c : Bool) :
    (b.respond op r st n p c).senseNext = b.senseNext := rfl
@[simp] theorem Blk.ok_senseNext (b : Blk) (op : Nat) (r : Req) (p : List Byte) : (b.ok op r p).senseNext = b.senseNext := rfl
@[simp] theorem Blk.complete_senseNext (b : Blk) (d : Due) (st : Nat) (n : Word) (p : List Byte) :
    (b.complete d st n p).senseNext = b.senseNext := rfl
@[simp] theorem Blk.respond_queues (b : Blk) (op : Nat) (r : Req) (st : Nat) (n : Word) (p : List Byte) (c : Bool) :
    (b.respond op r st n p c).queues = b.queues := rfl
@[simp] theorem Blk.ok_queues (b : Blk) (op : Nat) (r : Req) (p : List Byte) : (b.ok op r p).queues = b.queues := rfl
@[simp] theorem Blk.complete_queues (b : Blk) (d : Due) (st : Nat) (n : Word) (p : List Byte) :
    (b.complete d st n p).queues = b.queues := rfl
@[simp] theorem Blk.respond_trans (b : Blk) (op : Nat) (r : Req) (st : Nat) (n : Word) (p : List Byte) (c : Bool) :
    (b.respond op r st n p c).trans = b.trans := rfl
@[simp] theorem Blk.ok_trans (b : Blk) (op : Nat) (r : Req) (p : List Byte) : (b.ok op r p).trans = b.trans := rfl
@[simp] theorem Blk.complete_trans (b : Blk) (d : Due) (st : Nat) (n : Word) (p : List Byte) :
    (b.complete d st n p).trans = b.trans := rfl
@[simp] theorem Blk.respond_cfg (b : Blk) (op : Nat) (r : Req) (st : Nat) (n : Word) (p : List Byte) (c : Bool) :
    (b.respond op r st n p c).cfg = b.cfg := rfl
@[simp] theorem Blk.ok_cfg (b : Blk) (op : Nat) (r : Req) (p : List Byte) : (b.ok op r p).cfg = b.cfg := rfl
@[simp] theorem Blk.complete_cfg (b : Blk) (d : Due) (st : Nat) (n : Word) (p : List Byte) :
    (b.complete d st n p).cfg = b.cfg := rfl
@[simp] theorem Blk.respond_tenants (b : Blk) (op : Nat) (r : Req) (st : Nat) (n : Word) (p : List Byte) (c : Bool) :
    (b.respond op r st n p c).tenants = b.tenants := rfl
@[simp] theorem Blk.ok_tenants (b : Blk) (op : Nat) (r : Req) (p : List Byte) : (b.ok op r p).tenants = b.tenants := rfl
@[simp] theorem Blk.complete_tenants (b : Blk) (d : Due) (st : Nat) (n : Word) (p : List Byte) :
    (b.complete d st n p).tenants = b.tenants := rfl
@[simp] theorem Blk.respond_dr (b : Blk) (op : Nat) (r : Req) (st : Nat) (n : Word) (p : List Byte) (c : Bool) :
    (b.respond op r st n p c).dr = b.dr := rfl
@[simp] theorem Blk.ok_dr (b : Blk) (op : Nat) (r : Req) (p : List Byte) : (b.ok op r p).dr = b.dr := rfl
@[simp] theorem Blk.complete_dr (b : Blk) (d : Due) (st : Nat) (n : Word) (p : List Byte) :
    (b.complete d st n p).dr = b.dr := rfl
@[simp] theorem Blk.respond_rcc (b : Blk) (op : Nat) (r : Req) (st : Nat) (n : Word) (p : List Byte) (c : Bool) :
    (b.respond op r st n p c).rcc = b.rcc := rfl
@[simp] theorem Blk.ok_rcc (b : Blk) (op : Nat) (r : Req) (p : List Byte) : (b.ok op r p).rcc = b.rcc := rfl
@[simp] theorem Blk.complete_rcc (b : Blk) (d : Due) (st : Nat) (n : Word) (p : List Byte) :
    (b.complete d st n p).rcc = b.rcc := rfl
@[simp] theorem Blk.respond_cans (b : Blk) (op : Nat) (r : Req) (st : Nat) (n : Word) (p : List Byte) (c : Bool) :
    (b.respond op r st n p c).cans = b.cans := rfl
@[simp] theorem Blk.ok_cans (b : Blk) (op : Nat) (r : Req) (p : List Byte) : (b.ok op r p).cans = b.cans := rfl
@[simp] theorem Blk.complete_cans (b : Blk) (d : Due) (st : Nat) (n : Word) (p : List Byte) :
    (b.complete d st n p).cans = b.cans := rfl
@[simp] theorem Blk.respond_nms (b : Blk) (op : Nat) (r : Req) (st : Nat) (n : Word) (p : List Byte) (c : Bool) :
    (b.respond op r st n p c).nms = b.nms := rfl
@[simp] theorem Blk.ok_nms (b : Blk) (op : Nat) (r : Req) (p : List Byte) : (b.ok op r p).nms = b.nms := rfl
@[simp] theorem Blk.complete_nms (b : Blk) (d : Due) (st : Nat) (n : Word) (p : List Byte) :
    (b.complete d st n p).nms = b.nms := rfl
@[simp] theorem Blk.respond_nmg (b : Blk) (op : Nat) (r : Req) (st : Nat) (n : Word) (p : List Byte) (c : Bool) :
    (b.respond op r st n p c).nmg = b.nmg := rfl
@[simp] theorem Blk.ok_nmg (b : Blk) (op : Nat) (r : Req) (p : List Byte) : (b.ok op r p).nmg = b.nmg := rfl
@[simp] theorem Blk.complete_nmg (b : Blk) (d : Due) (st : Nat) (n : Word) (p : List Byte) :
    (b.complete d st n p).nmg = b.nmg := rfl
@[simp] theorem Blk.respond_sw (b : Blk) (op : Nat) (r : Req) (st : Nat) (n : Word) (p : List Byte) (c : Bool) :
    (b.respond op r st n p c).sw = b.sw := rfl
@[simp] theorem Blk.ok_sw (b : Blk) (op : Nat) (r : Req) (p : List Byte) : (b.ok op r p).sw = b.sw := rfl
@[simp] theorem Blk.complete_sw (b : Blk) (d : Due) (st : Nat) (n : Word) (p : List Byte) :
    (b.complete d st n p).sw = b.sw := rfl
@[simp] theorem Blk.respond_sec (b : Blk) (op : Nat) (r : Req) (st : Nat) (n : Word) (p : List Byte) (c : Bool) :
    (b.respond op r st n p c).sec = b.sec := rfl
@[simp] theorem Blk.ok_sec (b : Blk) (op : Nat) (r : Req) (p : List Byte) : (b.ok op r p).sec = b.sec := rfl
@[simp] theorem Blk.complete_sec (b : Blk) (d : Due) (st : Nat) (n : Word) (p : List Byte) :
    (b.complete d st n p).sec = b.sec := rfl
@[simp] theorem Blk.respond_upd (b : Blk) (op : Nat) (r : Req) (st : Nat) (n : Word) (p : List Byte) (c : Bool) :
    (b.respond op r st n p c).upd = b.upd := rfl
@[simp] theorem Blk.ok_upd (b : Blk) (op : Nat) (r : Req) (p : List Byte) : (b.ok op r p).upd = b.upd := rfl
@[simp] theorem Blk.complete_upd (b : Blk) (d : Due) (st : Nat) (n : Word) (p : List Byte) :
    (b.complete d st n p).upd = b.upd := rfl
@[simp] theorem Blk.respond_nvm (b : Blk) (op : Nat) (r : Req) (st : Nat) (n : Word) (p : List Byte) (c : Bool) :
    (b.respond op r st n p c).nvm = b.nvm := rfl
@[simp] theorem Blk.ok_nvm (b : Blk) (op : Nat) (r : Req) (p : List Byte) : (b.ok op r p).nvm = b.nvm := rfl
@[simp] theorem Blk.complete_nvm (b : Blk) (d : Due) (st : Nat) (n : Word) (p : List Byte) :
    (b.complete d st n p).nvm = b.nvm := rfl

/-- The response an answer adds. -/
def Blk.answerOf (b : Blk) (op : Nat) (r : Req) (st : Nat) (n : Word) (p : List Byte) (c : Bool) : Resp :=
  { opcode := BitVec.ofNat 16 op, client := r.client, who := idByte (reqWho r),
    flags := BitVec.ofNat 8 (1 + 8 * b2n c + 16 * b2n (decide (b.rcc.mode = .recovery))),
    status := BitVec.ofNat 16 st, ebn := n, payload := p }

/-- An answer is the last response waiting in its mailbox. -/
theorem Blk.respond_resps (b : Blk) (op : Nat) (r : Req) (st : Nat) (n : Word) (p : List Byte) (c : Bool) :
    ((b.respond op r st n p c).mboxes.get r.mb).resps = (b.mboxes.get r.mb).resps ++ [b.answerOf op r st n p c] := by
  simp [Blk.respond, Blk.answerOf]

theorem Blk.modMb_none (b : Blk) (m : Fin 12) (h : (b.mboxes.get m).assembly = none) :
    (b.modMb m fun x => { x with assembly := none }) = b := by
  have : vmod b.mboxes m (fun x : Mailbox => { x with assembly := none }) = b.mboxes :=
    vmod_id _ _ _ (by cases hx : b.mboxes.get m; simp_all)
  unfold Blk.modMb
  rw [this]

/-- A request in one message that passes the shared checks goes on to its body, and the block stands as it was. -/
theorem screen_pass {c : Cmd} {r : Req} {b : Blk} {ab : Blk → List Byte → Option (UnitName × Nat)}
    {gr : Blk → Initiator → List Byte → Option Err} (h : Safety.accepted c r b)
    (ha : ab b (Safety.payload r) = none) (hg : gr b (reqWho r) (Safety.payload r) = none) :
    screen c r ab gr false b = .pass b (reqWho r) (Safety.payload r) := by
  obtain ⟨h1, h2, h3, h4, h5, h6, h7, h8⟩ := h
  have hc : b.abandon r = b := by simp [Blk.abandon, h1]
  have hs : b.assembled r = ([], 0) := by simp [Blk.assembled, h1]
  have hl : lengthErr c r ([] : List Byte).length = none := by
    simp [lengthErr, firstErr, h3, h4, h5, Nat.not_lt.mpr h2, show ¬ 65280 < r.len.toNat by omega]
  have hm : b.modeErr c = none := by simp [Blk.modeErr, h6]
  have hw : whoErr c (reqWho r) = none := by simp [whoErr, h7]
  unfold Safety.payload at *
  unfold screen
  simp only [hc, ite_self, Bool.false_eq_true, if_false, hs, hl, h4, List.nil_append, Blk.modMb_none b r.mb h1, ha, hm, hw, hg, h8]
  rfl

theorem serve_pass {c : Cmd} {r : Req} {b : Blk} {ab : Blk → List Byte → Option (UnitName × Nat)}
    {gr : Blk → Initiator → List Byte → Option Err} {body : Blk → Initiator → List Byte → Blk} (h : Safety.accepted c r b)
    (ha : ab b (Safety.payload r) = none) (hg : gr b (reqWho r) (Safety.payload r) = none) :
    serve c r ab gr body b = body b (reqWho r) (Safety.payload r) := by
  unfold serve; rw [screen_pass h ha hg]

theorem serveW_pass {c : Cmd} {r : Req} {b : Blk} {ab : Blk → List Byte → Option (UnitName × Nat)}
    {gr : Blk → Initiator → List Byte → Option Err} {body : Blk → Initiator → List Byte → BW} (h : Safety.accepted c r b)
    (ha : ab b (Safety.payload r) = none) (hg : gr b (reqWho r) (Safety.payload r) = none) :
    serveW c r ab gr body b = body b (reqWho r) (Safety.payload r) := by
  unfold serveW; rw [screen_pass h ha hg]

/-- A body whose further checks pass answers `OK`. -/
theorem answerI_ok {c : Cmd} {r : Req} {b : Blk} {checks : List (Bool × Err)} {f : Blk → List Byte × Blk}
    (h : firstErr checks = none) : answerI c r b checks f = (f b).2.ok c.op r (f b).1 := by
  unfold answerI; rw [h]

end Sys2Proof.Machine
end

