-- ==== Sys2Proof/Laws/Frames.lean ====
section
/-! SUPPORT. Frames of the operations that fold over units, and of notifications. -/

namespace Sys2Proof.Machine
open Sys2Proof

/-- What no turn of a fold changes, the fold does not change. -/
theorem foldl_keep {α β γ : Type} (g : α → γ) (f : α → β → α) (h : ∀ a x, g (f a x) = g a) :
    ∀ (l : List β) (a : α), g (l.foldl f a) = g a := by
  intro l
  induction l with
  | nil => intro a; rfl
  | cons x l ih => intro a; exact (ih (f a x)).trans (h a x)

theorem forAll_keep {α γ : Type} {n : Nat} (g : α → γ) (f : α → Fin n → α) (h : ∀ a x, g (f a x) = g a) (a : α) :
    g (forAll n f a) = g a := foldl_keep g f h _ a

/-! ### Notifications change the mailboxes alone -/

@[simp] theorem Blk.notify_variant (b : Blk) (op : Nat) (p : List Byte) (c : Initiator → Bool) : (b.notify op p c).variant = b.variant := by
  unfold Blk.notify
  refine forAll_keep (fun x : Blk => x.variant) _ ?_ b
  intro a m
  dsimp only
  split <;> rfl
@[simp] theorem Blk.notifyAll_variant (b : Blk) (op : Nat) (p : List Byte) : (b.notifyAll op p).variant = b.variant := Blk.notify_variant ..
@[simp] theorem Blk.notify_uid (b : Blk) (op : Nat) (p : List Byte) (c : Initiator → Bool) : (b.notify op p c).uid = b.uid := by
  unfold Blk.notify
  refine forAll_keep (fun x : Blk => x.uid) _ ?_ b
  intro a m
  dsimp only
  split <;> rfl
@[simp] theorem Blk.notifyAll_uid (b : Blk) (op : Nat) (p : List Byte) : (b.notifyAll op p).uid = b.uid := Blk.notify_uid ..
@[simp] theorem Blk.notify_rev (b : Blk) (op : Nat) (p : List Byte) (c : Initiator → Bool) : (b.notify op p c).rev = b.rev := by
  unfold Blk.notify
  refine forAll_keep (fun x : Blk => x.rev) _ ?_ b
  intro a m
  dsimp only
  split <;> rfl
@[simp] theorem Blk.notifyAll_rev (b : Blk) (op : Nat) (p : List Byte) : (b.notifyAll op p).rev = b.rev := Blk.notify_rev ..
@[simp] theorem Blk.notify_absentLogged (b : Blk) (op : Nat) (p : List Byte) (c : Initiator → Bool) : (b.notify op p c).absentLogged = b.absentLogged := by
  unfold Blk.notify
  refine forAll_keep (fun x : Blk => x.absentLogged) _ ?_ b
  intro a m
  dsimp only
  split <;> rfl
@[simp] theorem Blk.notifyAll_absentLogged (b : Blk) (op : Nat) (p : List Byte) : (b.notifyAll op p).absentLogged = b.absentLogged := Blk.notify_absentLogged ..
@[simp] theorem Blk.notify_reply (b : Blk) (op : Nat) (p : List Byte) (c : Initiator → Bool) : (b.notify op p c).reply = b.reply := by
  unfold Blk.notify
  refine forAll_keep (fun x : Blk => x.reply) _ ?_ b
  intro a m
  dsimp only
  split <;> rfl
@[simp] theorem Blk.notifyAll_reply (b : Blk) (op : Nat) (p : List Byte) : (b.notifyAll op p).reply = b.reply := Blk.notify_reply ..
@[simp] theorem Blk.notify_freeCtr (b : Blk) (op : Nat) (p : List Byte) (c : Initiator → Bool) : (b.notify op p c).freeCtr = b.freeCtr := by
  unfold Blk.notify
  refine forAll_keep (fun x : Blk => x.freeCtr) _ ?_ b
  intro a m
  dsimp only
  split <;> rfl
@[simp] theorem Blk.notifyAll_freeCtr (b : Blk) (op : Nat) (p : List Byte) : (b.notifyAll op p).freeCtr = b.freeCtr := Blk.notify_freeCtr ..
@[simp] theorem Blk.notify_breath (b : Blk) (op : Nat) (p : List Byte) (c : Initiator → Bool) : (b.notify op p c).breath = b.breath := by
  unfold Blk.notify
  refine forAll_keep (fun x : Blk => x.breath) _ ?_ b
  intro a m
  dsimp only
  split <;> rfl
@[simp] theorem Blk.notifyAll_breath (b : Blk) (op : Nat) (p : List Byte) : (b.notifyAll op p).breath = b.breath := Blk.notify_breath ..
@[simp] theorem Blk.notify_time (b : Blk) (op : Nat) (p : List Byte) (c : Initiator → Bool) : (b.notify op p c).time = b.time := by
  unfold Blk.notify
  refine forAll_keep (fun x : Blk => x.time) _ ?_ b
  intro a m
  dsimp only
  split <;> rfl
@[simp] theorem Blk.notifyAll_time (b : Blk) (op : Nat) (p : List Byte) : (b.notifyAll op p).time = b.time := Blk.notify_time ..
@[simp] theorem Blk.notify_evs (b : Blk) (op : Nat) (p : List Byte) (c : Initiator → Bool) : (b.notify op p c).evs = b.evs := by
  unfold Blk.notify
  refine forAll_keep (fun x : Blk => x.evs) _ ?_ b
  intro a m
  dsimp only
  split <;> rfl
@[simp] theorem Blk.notifyAll_evs (b : Blk) (op : Nat) (p : List Byte) : (b.notifyAll op p).evs = b.evs := Blk.notify_evs ..
@[simp] theorem Blk.notify_chans (b : Blk) (op : Nat) (p : List Byte) (c : Initiator → Bool) : (b.notify op p c).chans = b.chans := by
  unfold Blk.notify
  refine forAll_keep (fun x : Blk => x.chans) _ ?_ b
  intro a m
  dsimp only
  split <;> rfl
@[simp] theorem Blk.notifyAll_chans (b : Blk) (op : Nat) (p : List Byte) : (b.notifyAll op p).chans = b.chans := Blk.notify_chans ..
@[simp] theorem Blk.notify_kernels (b : Blk) (op : Nat) (p : List Byte) (c : Initiator → Bool) : (b.notify op p c).kernels = b.kernels := by
  unfold Blk.notify
  refine forAll_keep (fun x : Blk => x.kernels) _ ?_ b
  intro a m
  dsimp only
  split <;> rfl
@[simp] theorem Blk.notifyAll_kernels (b : Blk) (op : Nat) (p : List Byte) : (b.notifyAll op p).kernels = b.kernels := Blk.notify_kernels ..
@[simp] theorem Blk.notify_motion (b : Blk) (op : Nat) (p : List Byte) (c : Initiator → Bool) : (b.notify op p c).motion = b.motion := by
  unfold Blk.notify
  refine forAll_keep (fun x : Blk => x.motion) _ ?_ b
  intro a m
  dsimp only
  split <;> rfl
@[simp] theorem Blk.notifyAll_motion (b : Blk) (op : Nat) (p : List Byte) : (b.notifyAll op p).motion = b.motion := Blk.notify_motion ..
@[simp] theorem Blk.notify_bridges (b : Blk) (op : Nat) (p : List Byte) (c : Initiator → Bool) : (b.notify op p c).bridges = b.bridges := by
  unfold Blk.notify
  refine forAll_keep (fun x : Blk => x.bridges) _ ?_ b
  intro a m
  dsimp only
  split <;> rfl
@[simp] theorem Blk.notifyAll_bridges (b : Blk) (op : Nat) (p : List Byte) : (b.notifyAll op p).bridges = b.bridges := Blk.notify_bridges ..
@[simp] theorem Blk.notify_slots (b : Blk) (op : Nat) (p : List Byte) (c : Initiator → Bool) : (b.notify op p c).slots = b.slots := by
  unfold Blk.notify
  refine forAll_keep (fun x : Blk => x.slots) _ ?_ b
  intro a m
  dsimp only
  split <;> rfl
@[simp] theorem Blk.notifyAll_slots (b : Blk) (op : Nat) (p : List Byte) : (b.notifyAll op p).slots = b.slots := Blk.notify_slots ..
@[simp] theorem Blk.notify_senseDrive (b : Blk) (op : Nat) (p : List Byte) (c : Initiator → Bool) : (b.notify op p c).senseDrive = b.senseDrive := by
  unfold Blk.notify
  refine forAll_keep (fun x : Blk => x.senseDrive) _ ?_ b
  intro a m
  dsimp only
  split <;> rfl
@[simp] theorem Blk.notifyAll_senseDrive (b : Blk) (op : Nat) (p : List Byte) : (b.notifyAll op p).senseDrive = b.senseDrive := Blk.notify_senseDrive ..
@[simp] theorem Blk.notify_senseNext (b : Blk) (op : Nat) (p : List Byte) (c : Initiator → Bool) : (b.notify op p c).senseNext = b.senseNext := by
  unfold Blk.notify
  refine forAll_keep (fun x : Blk => x.senseNext) _ ?_ b
  intro a m
  dsimp only
  split <;> rfl
@[simp] theorem Blk.notifyAll_senseNext (b : Blk) (op : Nat) (p : List Byte) : (b.notifyAll op p).senseNext = b.senseNext := Blk.notify_senseNext ..
@[simp] theorem Blk.notify_queues (b : Blk) (op : Nat) (p : List Byte) (c : Initiator → Bool) : (b.notify op p c).queues = b.queues := by
  unfold Blk.notify
  refine forAll_keep (fun x : Blk => x.queues) _ ?_ b
  intro a m
  dsimp only
  split <;> rfl
@[simp] theorem Blk.notifyAll_queues (b : Blk) (op : Nat) (p : List Byte) : (b.notifyAll op p).queues = b.queues := Blk.notify_queues ..
@[simp] theorem Blk.notify_trans (b : Blk) (op : Nat) (p : List Byte) (c : Initiator → Bool) : (b.notify op p c).trans = b.trans := by
  unfold Blk.notify
  refine forAll_keep (fun x : Blk => x.trans) _ ?_ b
  intro a m
  dsimp only
  split <;> rfl
@[simp] theorem Blk.notifyAll_trans (b : Blk) (op : Nat) (p : List Byte) : (b.notifyAll op p).trans = b.trans := Blk.notify_trans ..
@[simp] theorem Blk.notify_cfg (b : Blk) (op : Nat) (p : List Byte) (c : Initiator → Bool) : (b.notify op p c).cfg = b.cfg := by
  unfold Blk.notify
  refine forAll_keep (fun x : Blk => x.cfg) _ ?_ b
  intro a m
  dsimp only
  split <;> rfl
@[simp] theorem Blk.notifyAll_cfg (b : Blk) (op : Nat) (p : List Byte) : (b.notifyAll op p).cfg = b.cfg := Blk.notify_cfg ..
@[simp] theorem Blk.notify_tenants (b : Blk) (op : Nat) (p : List Byte) (c : Initiator → Bool) : (b.notify op p c).tenants = b.tenants := by
  unfold Blk.notify
  refine forAll_keep (fun x : Blk => x.tenants) _ ?_ b
  intro a m
  dsimp only
  split <;> rfl
@[simp] theorem Blk.notifyAll_tenants (b : Blk) (op : Nat) (p : List Byte) : (b.notifyAll op p).tenants = b.tenants := Blk.notify_tenants ..
@[simp] theorem Blk.notify_dr (b : Blk) (op : Nat) (p : List Byte) (c : Initiator → Bool) : (b.notify op p c).dr = b.dr := by
  unfold Blk.notify
  refine forAll_keep (fun x : Blk => x.dr) _ ?_ b
  intro a m
  dsimp only
  split <;> rfl
@[simp] theorem Blk.notifyAll_dr (b : Blk) (op : Nat) (p : List Byte) : (b.notifyAll op p).dr = b.dr := Blk.notify_dr ..
@[simp] theorem Blk.notify_rcc (b : Blk) (op : Nat) (p : List Byte) (c : Initiator → Bool) : (b.notify op p c).rcc = b.rcc := by
  unfold Blk.notify
  refine forAll_keep (fun x : Blk => x.rcc) _ ?_ b
  intro a m
  dsimp only
  split <;> rfl
@[simp] theorem Blk.notifyAll_rcc (b : Blk) (op : Nat) (p : List Byte) : (b.notifyAll op p).rcc = b.rcc := Blk.notify_rcc ..
@[simp] theorem Blk.notify_cans (b : Blk) (op : Nat) (p : List Byte) (c : Initiator → Bool) : (b.notify op p c).cans = b.cans := by
  unfold Blk.notify
  refine forAll_keep (fun x : Blk => x.cans) _ ?_ b
  intro a m
  dsimp only
  split <;> rfl
@[simp] theorem Blk.notifyAll_cans (b : Blk) (op : Nat) (p : List Byte) : (b.notifyAll op p).cans = b.cans := Blk.notify_cans ..
@[simp] theorem Blk.notify_nms (b : Blk) (op : Nat) (p : List Byte) (c : Initiator → Bool) : (b.notify op p c).nms = b.nms := by
  unfold Blk.notify
  refine forAll_keep (fun x : Blk => x.nms) _ ?_ b
  intro a m
  dsimp only
  split <;> rfl
@[simp] theorem Blk.notifyAll_nms (b : Blk) (op : Nat) (p : List Byte) : (b.notifyAll op p).nms = b.nms := Blk.notify_nms ..
@[simp] theorem Blk.notify_nmg (b : Blk) (op : Nat) (p : List Byte) (c : Initiator → Bool) : (b.notify op p c).nmg = b.nmg := by
  unfold Blk.notify
  refine forAll_keep (fun x : Blk => x.nmg) _ ?_ b
  intro a m
  dsimp only
  split <;> rfl
@[simp] theorem Blk.notifyAll_nmg (b : Blk) (op : Nat) (p : List Byte) : (b.notifyAll op p).nmg = b.nmg := Blk.notify_nmg ..
@[simp] theorem Blk.notify_sw (b : Blk) (op : Nat) (p : List Byte) (c : Initiator → Bool) : (b.notify op p c).sw = b.sw := by
  unfold Blk.notify
  refine forAll_keep (fun x : Blk => x.sw) _ ?_ b
  intro a m
  dsimp only
  split <;> rfl
@[simp] theorem Blk.notifyAll_sw (b : Blk) (op : Nat) (p : List Byte) : (b.notifyAll op p).sw = b.sw := Blk.notify_sw ..
@[simp] theorem Blk.notify_sec (b : Blk) (op : Nat) (p : List Byte) (c : Initiator → Bool) : (b.notify op p c).sec = b.sec := by
  unfold Blk.notify
  refine forAll_keep (fun x : Blk => x.sec) _ ?_ b
  intro a m
  dsimp only
  split <;> rfl
@[simp] theorem Blk.notifyAll_sec (b : Blk) (op : Nat) (p : List Byte) : (b.notifyAll op p).sec = b.sec := Blk.notify_sec ..
@[simp] theorem Blk.notify_upd (b : Blk) (op : Nat) (p : List Byte) (c : Initiator → Bool) : (b.notify op p c).upd = b.upd := by
  unfold Blk.notify
  refine forAll_keep (fun x : Blk => x.upd) _ ?_ b
  intro a m
  dsimp only
  split <;> rfl
@[simp] theorem Blk.notifyAll_upd (b : Blk) (op : Nat) (p : List Byte) : (b.notifyAll op p).upd = b.upd := Blk.notify_upd ..
@[simp] theorem Blk.notify_nvm (b : Blk) (op : Nat) (p : List Byte) (c : Initiator → Bool) : (b.notify op p c).nvm = b.nvm := by
  unfold Blk.notify
  refine forAll_keep (fun x : Blk => x.nvm) _ ?_ b
  intro a m
  dsimp only
  split <;> rfl
@[simp] theorem Blk.notifyAll_nvm (b : Blk) (op : Nat) (p : List Byte) : (b.notifyAll op p).nvm = b.nvm := Blk.notify_nvm ..

end Sys2Proof.Machine
end

