-- ==== Sys2Proof/Laws/Mem.lean ====
section
/-! SUPPORT. What the operations on the byte memories do: each keeps the canonical form, changes only the bytes it names, and
leaves every byte that the device does not write alone. -/

namespace Sys2Proof.Machine
open Sys2Proof

/-! ### The canonical form -/

/-- Every listed address of a canonical memory lies above `a`. -/
def Mem.above (a : Nat) : Mem → Bool
  | [] => true
  | c :: _ => decide (a < c.1)

theorem Mem.wf_cons (c : Host.Cell) (t : Mem) :
    Mem.wf (c :: t) = (decide (c.2 ≠ unlisted) && Mem.above c.1 t && Mem.wf t) := by
  cases t with
  | nil => simp [Mem.wf, Mem.above]
  | cons d t => simp [Mem.wf, Mem.above]

theorem Mem.wf_tail {c : Host.Cell} {t : Mem} (h : Mem.wf (c :: t) = true) : Mem.wf t = true := by
  rw [Mem.wf_cons] at h; simp at h; exact h.2

theorem Mem.above_write {a p : Nat} {v : Byte} (h : a < p) : ∀ {m : Mem}, Mem.wf m = true → Mem.above a m = true →
    Mem.above a (Mem.write m p v) = true := by
  intro m
  induction m with
  | nil => intro _ _; simp only [Mem.write]; split <;> simp [Mem.above, h]
  | cons c t ih =>
    intro hw ha
    obtain ⟨a', v'⟩ := c
    simp only [Mem.above, decide_eq_true_eq] at ha
    simp only [Mem.write]
    split
    · split <;> simp [Mem.above, h, ha]
    · split
      · rename_i h1 h2
        split
        · cases t with
          | nil => simp [Mem.above]
          | cons d t =>
            rw [Mem.wf_cons] at hw
            simp [Mem.above] at hw ⊢
            omega
        · simp [Mem.above, h]
      · simp [Mem.above, ha]

/-- Writing one byte keeps the canonical form. -/
theorem Mem.wf_write {m : Mem} (a : Nat) (v : Byte) (h : Mem.wf m = true) : Mem.wf (Mem.write m a v) = true := by
  induction m with
  | nil => simp only [Mem.write]; split <;> simp_all [Mem.wf]
  | cons c t ih =>
    obtain ⟨a', v'⟩ := c
    have ht := Mem.wf_tail h
    have h' := h
    rw [Mem.wf_cons] at h'
    simp only [Bool.and_eq_true, decide_eq_true_eq] at h'
    simp only [Mem.write]
    split
    · rename_i h1
      split
      · exact h
      · rename_i h2
        rw [Mem.wf_cons]
        simp only [Bool.and_eq_true, decide_eq_true_eq]
        exact ⟨⟨h2, by simpa [Mem.above] using h1⟩, h⟩
    · split
      · rename_i h1 h2
        split
        · exact ht
        · rename_i h3
          rw [Mem.wf_cons]
          simp only [Bool.and_eq_true, decide_eq_true_eq]
          refine ⟨⟨h3, ?_⟩, ht⟩
          rw [h2]; exact h'.1.2
      · rename_i h1 h2
        rw [Mem.wf_cons]
        simp only [Bool.and_eq_true, decide_eq_true_eq]
        exact ⟨⟨h'.1.1, Mem.above_write (by omega) ht h'.1.2⟩, ih ht⟩

/-- Writing bytes keeps the canonical form. -/
theorem Mem.wf_writeBytes (l : List Byte) : ∀ (m : Mem) (a : Nat), Mem.wf m = true → Mem.wf (Mem.writeBytes m a l) = true := by
  induction l with
  | nil => intro m a h; exact h
  | cons b l ih =>
    intro m a h
    simp only [Mem.writeBytes]
    refine ih _ _ ?_
    split
    · exact Mem.wf_write a b h
    · exact h

theorem Mem.above_filter (p : Host.Cell → Bool) {a : Nat} : ∀ {m : Mem}, Mem.wf m = true → Mem.above a m = true →
    Mem.above a (m.filter p) = true := by
  intro m
  induction m with
  | nil => intro _ _; rfl
  | cons c t ih =>
    intro hw ha
    simp only [Mem.above, decide_eq_true_eq] at ha
    by_cases hp : p c = true
    · simp [hp, Mem.above, ha]
    · rw [List.filter_cons_of_neg hp]
      refine ih (Mem.wf_tail hw) ?_
      rw [Mem.wf_cons] at hw
      cases t with
      | nil => rfl
      | cons d t =>
        simp [Mem.above] at hw ⊢
        omega

/-- Dropping cells keeps the canonical form. -/
theorem Mem.wf_filter (p : Host.Cell → Bool) {m : Mem} (h : Mem.wf m = true) : Mem.wf (m.filter p) = true := by
  induction m with
  | nil => rfl
  | cons c t ih =>
    have ht := Mem.wf_tail h
    by_cases hp : p c = true
    · rw [List.filter_cons_of_pos hp, Mem.wf_cons]
      rw [Mem.wf_cons] at h
      simp only [Bool.and_eq_true] at h ⊢
      exact ⟨⟨h.1.1, Mem.above_filter p ht h.1.2⟩, ih ht⟩
    · rw [List.filter_cons_of_neg hp]; exact ih ht

/-- Zeroing a range keeps the canonical form. -/
theorem Mem.wf_clear {m : Mem} (a n : Nat) (h : Mem.wf m = true) : Mem.wf (Mem.clear m a n) = true := Mem.wf_filter _ h

/-- A store keeps the canonical form. -/
theorem Mem.wf_store {m : Mem} (x : Store) (h : Mem.wf m = true) : Mem.wf (Mem.store m x) = true := by
  cases x with
  | put a l => exact Mem.wf_writeBytes l m a h
  | clear a n => exact Mem.wf_clear a n h

/-- The stores of a command keep the canonical form. -/
theorem Mem.wf_stores (l : List Store) : ∀ {m : Mem}, Mem.wf m = true → Mem.wf (Mem.stores m l) = true := by
  induction l with
  | nil => intro m h; exact h
  | cons x l ih => intro m h; exact ih (Mem.wf_store x h)

/-! ### Reads after writes -/

/-- The byte written reads back. -/
@[simp] theorem Mem.read_write_self {m : Mem} (a : Nat) (v : Byte) (h : Mem.wf m = true) : Mem.read (Mem.write m a v) a = v := by
  induction m with
  | nil => simp only [Mem.write]; split <;> simp_all [Mem.read]
  | cons c t ih =>
    obtain ⟨a', v'⟩ := c
    have ht := Mem.wf_tail h
    have key : ∀ (t : Mem), Mem.wf t = true → ∀ b, (a ≤ b ∧ Mem.above b t = true ∨ Mem.above a t = true) → Mem.read t a = unlisted := by
      intro t
      induction t with
      | nil => intros; rfl
      | cons d t ih2 =>
        intro hw b hb
        obtain ⟨x, y⟩ := d
        have hx : a < x := by
          rcases hb with ⟨h1, h2⟩ | h2
          · simp [Mem.above] at h2; omega
          · simpa [Mem.above] using h2
        simp only [Mem.read]
        rw [if_neg (by omega)]
        refine ih2 (Mem.wf_tail hw) x (.inl ⟨by omega, ?_⟩)
        rw [Mem.wf_cons] at hw
        simp only [Bool.and_eq_true] at hw
        exact hw.1.2
    simp only [Mem.write]
    split
    · rename_i h1
      split
      · rename_i h2
        rw [h2]
        refine key _ h a (.inr ?_)
        simpa [Mem.above] using h1
      · simp [Mem.read]
    · split
      · rename_i h1 h2
        split
        · rename_i h3
          rw [h3]
          refine key _ ht a' (.inl ⟨by omega, ?_⟩)
          rw [Mem.wf_cons] at h
          simp only [Bool.and_eq_true] at h
          exact h.1.2
        · simp [Mem.read]
      · rename_i h1 h2
        simp only [Mem.read]
        rw [if_neg h2]
        exact ih ht

/-- Every other byte reads as before. -/
theorem Mem.read_write_ne {m : Mem} {a p : Nat} (v : Byte) (h : a ≠ p) : Mem.read (Mem.write m p v) a = Mem.read m a := by
  induction m with
  | nil => simp only [Mem.write]; split <;> simp [Mem.read, h]
  | cons c t ih =>
    obtain ⟨a', v'⟩ := c
    simp only [Mem.write]
    split
    · split
      · rfl
      · simp [Mem.read, h]
    · split
      · rename_i h1 h2
        split
        · subst h2; simp [Mem.read, h]
        · subst h2; simp [Mem.read, h]
      · simp only [Mem.read]
        split
        · rfl
        · exact ih

/-- Bytes outside those written read as before. -/
theorem Mem.read_writeBytes_out (l : List Byte) : ∀ (m : Mem) (p a : Nat), ¬ (p ≤ a ∧ a < p + l.length) →
    Mem.read (Mem.writeBytes m p l) a = Mem.read m a := by
  induction l with
  | nil => intros; rfl
  | cons b l ih =>
    intro m p a h
    simp only [Mem.writeBytes, List.length_cons] at h ⊢
    rw [ih _ _ _ (by omega)]
    split
    · exact Mem.read_write_ne b (by omega)
    · rfl

/-- Bytes of a read-only memory read as before. -/
theorem Mem.read_writeBytes_ro (l : List Byte) : ∀ (m : Mem) (p a : Nat), writable a = false →
    Mem.read (Mem.writeBytes m p l) a = Mem.read m a := by
  induction l with
  | nil => intros; rfl
  | cons b l ih =>
    intro m p a h
    simp only [Mem.writeBytes]
    rw [ih _ _ _ h]
    split
    · rename_i hp
      exact Mem.read_write_ne b (by rintro rfl; simp [h] at hp)
    · rfl

/-- Dropping cells at addresses that a test picks: the others read as before. -/
theorem Mem.read_filter_out {m : Mem} (g : Nat → Bool) {a : Nat} (h : g a = false) :
    Mem.read (m.filter (fun c => !g c.1)) a = Mem.read m a := by
  induction m with
  | nil => rfl
  | cons c t ih =>
    obtain ⟨x, y⟩ := c
    cases hx : g x with
    | false =>
      rw [List.filter_cons_of_pos (by simp [hx])]
      simp only [Mem.read]
      split
      · rfl
      · exact ih
    | true =>
      rw [List.filter_cons_of_neg (by simp [hx])]
      simp only [Mem.read]
      rw [if_neg (by rintro rfl; simp [h] at hx)]
      exact ih

/-- A dropped cell's address reads as unlisted. -/
theorem Mem.read_filter_in {m : Mem} (g : Nat → Bool) {a : Nat} (h : g a = true) :
    Mem.read (m.filter (fun c => !g c.1)) a = unlisted := by
  induction m with
  | nil => rfl
  | cons c t ih =>
    obtain ⟨x, y⟩ := c
    cases hx : g x with
    | false =>
      rw [List.filter_cons_of_pos (by simp [hx])]
      simp only [Mem.read]
      rw [if_neg (by rintro rfl; simp [h] at hx)]
      exact ih
    | true => rw [List.filter_cons_of_neg (by simp [hx])]; exact ih

/-- Bytes outside a zeroed range read as before. -/
theorem Mem.read_clear_out {m : Mem} {p n a : Nat} (h : clears p n a = false) : Mem.read (Mem.clear m p n) a = Mem.read m a :=
  Mem.read_filter_out _ h

/-- A zeroed byte reads zero. -/
theorem Mem.read_clear_in {m : Mem} {p n a : Nat} (h : clears p n a = true) : Mem.read (Mem.clear m p n) a = 0 :=
  Mem.read_filter_in _ h

/-- A store leaves the read-only bytes alone. -/
theorem Mem.read_store_ro {m : Mem} (x : Store) {a : Nat} (h : writable a = false) : Mem.read (Mem.store m x) a = Mem.read m a := by
  cases x with
  | put p l => exact Mem.read_writeBytes_ro l m p a h
  | clear p n => exact Mem.read_clear_out (by simp [clears, h])

/-- The stores of a command leave the read-only bytes alone. -/
theorem Mem.read_stores_ro (l : List Store) {a : Nat} (h : writable a = false) :
    ∀ (m : Mem), Mem.read (Mem.stores m l) a = Mem.read m a := by
  induction l with
  | nil => intro m; rfl
  | cons x l ih => intro m; exact (ih (Mem.store m x)).trans (Mem.read_store_ro x h)

/-- Bytes that no store of a command covers read as before. -/
theorem Mem.read_stores_out (l : List Store) {a : Nat} (h : l.any (Store.hits a) = false) :
    ∀ (m : Mem), Mem.read (Mem.stores m l) a = Mem.read m a := by
  induction l with
  | nil => intro m; rfl
  | cons x l ih =>
    intro m
    simp only [List.any_cons, Bool.or_eq_false_iff] at h
    refine (ih h.2 (Mem.store m x)).trans ?_
    cases x with
    | put p b => exact Mem.read_writeBytes_out b m p a (by simpa [Store.hits] using h.1)
    | clear p n =>
      have h1 := h.1
      simp only [Store.hits, decide_eq_false_iff_not] at h1
      refine Mem.read_clear_out ?_
      simp only [clears]
      by_cases h2 : p ≤ a
      · by_cases h3 : a < p + n
        · exact absurd ⟨h2, h3⟩ h1
        · simp [h3]
      · simp [h2]

end Sys2Proof.Machine
end

