-- ==== Sys2Proof/Laws/Step.lean ====
section
/-! SUPPORT. What a command can do, said once: every command answers a next state; it changes the block alone, or it changes the
block and carries out a list of stores, which is empty where `Safety.stores` does not name the command. -/

namespace Sys2Proof.Machine
open Sys2Proof

set_option maxHeartbeats 2000000 in
/-- What a command can do. -/
theorem exec_cases (c : Instr) (s : State) :
    (∃ f, exec c s = .next (s.onBlk f)) ∨
      (∃ f, exec c s = .next (s.onMem f) ∧ (Safety.stores c = false → ∀ m b, (f m b).2 = [])) := by
  cases c <;> first
    | exact .inl ⟨_, rfl⟩
    | exact .inr ⟨_, rfl, fun h => Bool.noConfusion h⟩
    | exact .inr ⟨_, rfl, fun _ _ _ => rfl⟩

/-- What a step can do: time passes, or the front command acts on the block, or on the block and the memories. -/
theorem step_cases {s t : State} (h : step s = .next t) :
    (s.pending = [] ∧ t = s.idle) ∨
      (∃ c rest, s.pending = c :: rest ∧
        ((∃ f, t = (s.withPending rest).onBlk f) ∨ (∃ f, t = (s.withPending rest).onMem f))) := by
  unfold step at h
  split at h
  · cases h; exact .inl ⟨‹_›, rfl⟩
  · rename_i c rest hp
    refine .inr ⟨c, rest, hp, ?_⟩
    rcases exec_cases c (s.withPending rest) with ⟨f, hf⟩ | ⟨f, hf, _⟩ <;> rw [hf] at h <;> cases h
    · exact .inl ⟨f, rfl⟩
    · exact .inr ⟨f, rfl⟩

end Sys2Proof.Machine
end

