-- ==== Sys2Proof/Tests/Slice0.lean ====
section
/-! SUPPORT. Tests: the well-formedness check refuses an ill-formed term for each of its conditions; single commands do what the rules
say on small states; and for every statement of Certificates/Slice0/Obligations.lean that has hypotheses, concrete states and operands
that meet them, clause by clause. The states are small changes of `State.reset`. -/



namespace Sys2Proof.Tests
open Sys2Proof Sys2Proof.Machine
set_option Elab.async false
set_option maxRecDepth 100000

/-! ### Helpers: states near reset, and requests -/

def st (f : Blk → Blk) : State := { State.reset with blk := f State.reset.blk }
def ch0 (f : Channel → Channel) : Blk → Blk := fun b => { b with chans := b.chans.map f }
def kn0 (f : Kernel → Kernel) : Blk → Blk := fun b => { b with kernels := b.kernels.map f }
def pow : Blk → Blk := fun b => { kn0 (fun k => { k with powered := true }) b with bridges := b.bridges.map fun x => { x with state := .joined } }
def on1 : Channel → Channel := fun c => { c with prot := .on, applied := { c.applied with cmd := 1 } }
def im0 : Image := { (default : Image) with id := 5, breathLen := 250, guard := 30, channels := (List.range 40).map fun c => (c, { (default : ChanCfg) with owner := .tenant 3, start := (0x3E8, 0, 1) }), tenants := (List.range 8).map fun t => (t, { (default : TenantCfg) with enabled := true, vcpus := 1, granules := [t], inboxSize := 12 }) }
def imaged : Blk → Blk := fun b => { b with cfg := { b.cfg with active := some im0, activeId := 5 } }
def inMode (m : Mode) : Blk → Blk := fun b => b.onRcc fun x => { x with mode := m }
def bs (l : List Nat) : List Byte := l.map (BitVec.ofNat 8)
def mkReq (mb : Fin 12) (p : List Byte) (client : Word := 7) (flags : Byte := 0) : Req :=
  let n := (16 + p.length + 3) / 4
  { mb := mb, client := client, flags := flags, len := BitVec.ofNat 16 p.length, words := n,
    payload := p ++ List.replicate (4 * (n - 4) - p.length) 0 }

/-- Whether a command answers a next state of which `p` holds. -/
def after (c : Instr) (s : State) (p : State → Bool) : Bool :=
  match exec c s with
  | .next t => p t
  | _ => false
/-- RUN with every kernel powered and joined. -/
def run0 (f : Blk → Blk) : State := st fun b => f (inMode .run (pow b))
def oneChan (f : Channel → Channel) : Blk → Blk := fun b => { b with chans := vmod b.chans 7 f }
def oneQueue (q : Fin 256) (f : Queue → Queue) : Blk → Blk := fun b => { b with queues := vmod b.queues q f }
def frame0 : CanFrame := { ident := 0x123, ide := false, fdf := false, brs := false, esi := false, remote := false, dlc := 2, data := [1, 2] }
def req0 : Req := mkReq 10 (bs [1, 0, 0, 0])
def badReq : Req := { mb := 10, client := 1, flags := 0, len := 4, words := 5, payload := [] }

/-! ### Well-formedness -/

/-- Each condition of `Instr.wf` refuses a term that breaks it, and takes one that does not. -/
theorem test_wf_refuses :
    Instr.wf (.tick []) = false ∧ Instr.wf (.kernelWindowEnd 0 ⟨0, 0, [], [], ⟨0, 0, 0, 0, 0, 0, 0⟩⟩) = false
    ∧ Instr.wf (.wireModelStep 0 [1]) = false ∧ Instr.wf (.energyAccumulate 0 [1]) = false ∧ Instr.wf (.arcFrame 0 0 []) = false
    ∧ Instr.wf (.nmFrameReceived 0 { frame0 with dlc := 3 }) = false ∧ Instr.wf (.canFrameReceived 0 { frame0 with remote := true } 0) = false
    ∧ Instr.wf (.canFrameReceived 0 { frame0 with ident := 0x800 } 0) = false ∧ Instr.wf (.detectorWake 0 (.frame { frame0 with data := [] })) = false
    ∧ Instr.wf (.badOpcodeRequest badReq 0x999) = false ∧ Instr.wf (.echo badReq) = false ∧ Instr.wf (.echo { badReq with words := 3 }) = false
    ∧ Instr.wf (.reqMalformed 0 16) = false ∧ Instr.wf (.uartFrameReceived []) = false ∧ Instr.wf (.exitStepDone (List.replicate 17 0)) = false := by decide +kernel
theorem test_wf_takes :
    Instr.wf (.canFrameReceived 0 frame0 0) = true ∧ Instr.wf (.echo req0) = true ∧ Instr.wf (.reqMalformed 0 15) = true
    ∧ Instr.wf (.canFrameReceived 0 { frame0 with fdf := true, dlc := 9, data := List.replicate 12 0 } 0) = true := by decide +kernel

/-! ### The reset state, the queue and the invariants -/

theorem test_reset_meets_the_invariants : Mem.wf State.reset.mem = true ∧ State.reset.pending = [] := by decide +kernel
theorem test_no_word_spells_a_command : decodeTableWord 32 0x12345678 = none := rfl
theorem test_meets_StepRunsTheFrontCommand : ∃ (c : Instr) (rest : List Instr) (s : State), s.pending = c :: rest :=
  ⟨.holdoverExpiry, [.spiStatus], State.reset.withPending [.holdoverExpiry, .spiStatus], rfl⟩
theorem test_meets_IdleStepLetsTimePass : ∃ s : State, s.pending = [] ∧ s.blk.time.rateNow = 0 := ⟨State.reset, by decide +kernel⟩
theorem test_meets_EveryStepKeepsMemoryCanonical : ∃ s t : State, Safety.canonical s ∧ step s = .next t :=
  ⟨State.reset.withPending [.registerWrite .chanter 0x10000000 0 5], _, rfl, rfl⟩
theorem test_meets_EveryStepKeepsReadOnlyBytes : ∃ s t : State, step s = .next t := ⟨State.reset.withPending [.spiStatus], _, rfl⟩
theorem test_meets_CommandsStoreOnlyTheirBytes :
    (∃ c : Instr, Safety.stores c = false) ∧ (∃ (i : Initiator) (addr : Word) (w : Fin 4) (d : BitVec 64) (s : State) (a : Nat),
      (registerWrite i addr w d s.blk).2.any (Store.hits a) = false) :=
  ⟨⟨.spiStatus, rfl⟩, ⟨.chanter, 0x10000000, 0, 5, State.reset, 0x10000001, by decide +kernel⟩⟩
theorem test_meets_RegistersReadTheirResetValues : ((0x40000000, 0x30000001) : Nat × Word) ∈ [((0x40000000, 0x30000001) : Nat × Word)] := by decide
theorem test_sram_store : after (.registerWrite .chanter 0x10000003 0 0x1A7) State.reset (fun t =>
    Mem.read t.mem 0x10000003 = 0xA7 && Mem.read t.mem 0x10000004 = 0) = true := by decide +kernel

/-! ### Worked examples of the spec, and single rules -/

/-- R20 and its worked example: CH23 lies in kernel 2, its page at 0x5201_3000, its alias at 0x52E1_3000; an NZ820 has no CH23. -/
theorem test_channel_page : pageBase 23 = 0x52013000 ∧ kOf 23 = 2 ∧ pageBase 23 + 0xE00000 = 0x52E13000
    ∧ (st fun b => { b with variant := .nz820 }).blk.hasChan 23 = false := by decide +kernel
/-- R30 and its worked example: the transition breath ends at 3,600,000,600,000 ns. -/
theorem test_grid : gridAt (3600000250000 + 300000) 300000 = 3600000600000 := by decide +kernel
/-- R75: the stored index 0x0C41 lets the next boot begin in block 0x0C42. -/
theorem test_seq_block : after (.exitStepDone []) (st fun b => (b.onRcc fun r => { r with episode := some .p, step := 8, powered := true }).onNvm
    fun n => { n with counters := [(0, [(0xC41, 0, 0)])] }) (fun t => t.blk.evs.highWater = 0xC42 && t.blk.evs.resumed) = true := by decide +kernel
/-- R138: the pauses of the default parameters; the eighth fault latches. -/
theorem test_pauses : (State.reset.blk.ch 7).pauseMs 1 = 10 ∧ (State.reset.blk.ch 7).pauseMs 3 = 40 ∧ (State.reset.blk.ch 7).pauseMs 7 = 640
    ∧ (State.reset.blk.ch 7).latchAfter = 8 := by decide +kernel
/-- R133, R138: criterion B with the window closed is fault 1 with a pause. -/
theorem test_hard_short : after (.hardShort 7 true 900) (run0 (oneChan fun c => { c with prot := .limiting })) (fun t =>
    (t.blk.ch 7).faultCount = 1 && (t.blk.ch 7).prot = .pause && (t.blk.ch 7).pauseLen = 10 && (t.blk.ch 6).faultCount = 0) = true := by decide +kernel
/-- R138: the eighth fault sets the retry latch. -/
theorem test_retry_latch : after (.hardShort 7 true 900) (run0 (oneChan fun c => { c with prot := .limiting, faultCount := 7 })) (fun t =>
    (t.blk.ch 7).faultCount = 8 && (t.blk.ch 7).prot = .latched && (t.blk.ch 7).retryLatch) = true := by decide +kernel
/-- R105: only positive products count. -/
theorem test_energy : after (.energyAccumulate 0 [5, -3, 0, 0, 0, 0, 0, 0, 0, 7]) (run0 id) (fun t =>
    (t.blk.ch 0).energy = 5 && (t.blk.ch 1).energy = 0 && (t.blk.ch 9).energy = 7 && (t.blk.ch 10).energy = 0) = true := by decide +kernel
/-- R192: a free semaphore is acquired, and one held by the Chanter reads HELD_CHANTER. -/
theorem test_semaphore : after (.kseSemRead 1 3) (run0 id) (fun t => t.blk.reply.data = 1 && (t.blk.kn 1).sems.get 3 = .chanter) = true
    ∧ after (.kseSemRead 1 3) (run0 fun b => { b with kernels := vmod b.kernels 1 fun k => { k with sems := k.sems.set 3 .chanter } })
        (fun t => t.blk.reply.data = 4) = true := by decide +kernel
/-- The worked example of R212: the tenth word of T3's request on Q009 closes it, byte 8 becomes 0x03, and the message takes one pod. -/
theorem test_close : after (.pqWrEnd (.tenant 3) 9 5) (run0 fun b => oneQueue 9 (fun q => { q with limits := 0x00400000, owners := 0xC2003, holdCfg := 4, openMsg := some (List.replicate 9 0) }) { b with tenants := b.tenants.map fun t => { t with state := .running } })
    (fun t => (t.blk.queues.get 9).msgs.map (fun m => (m.words.length, m.words.getD 2 0)) = [(10, 3)] && (t.blk.queues.get 9).pods = 1) = true := by decide +kernel
/-- R212, R274: word 1,025 of one message aborts it with `TOO_LONG`, and is one fault of its tenant. -/
def longMsg : State := run0 fun b => oneQueue 9 (fun q => { q with limits := 0x00400000, owners := 0xC2003, holdCfg := 4, openMsg := some (List.replicate 1024 0) })
  { b with tenants := b.tenants.map fun t => { t with state := .running } }
theorem test_too_long : after (.pqWr (.tenant 3) 9 5 none) longMsg
    (fun t => (t.blk.queues.get 9).aborted && bit (t.blk.queues.get 9).sticky 3 && (t.blk.tenants.get 3).faults = 1 && (t.blk.queues.get 9).openLen = 0) = true := by decide +kernel
theorem test_meets_too_long : ∃ (i : Initiator) (q : Fin 256) (s : State), Safety.produces s.blk i q ∧ (s.blk.queues.get q).aborted = false
    ∧ 1024 ≤ (s.blk.queues.get q).openLen := ⟨.tenant 3, 9, longMsg, ⟨by decide +kernel, by decide +kernel, by decide +kernel⟩, by decide +kernel, by decide +kernel⟩
/-- R223: 0x7E and 0x7D are escaped. -/
theorem test_escape : escape [0x7E, 0x41, 0x7D] = [0x7D, 0x5E, 0x41, 0x7D, 0x5D] ∧ unescape [0x7D, 0x5E, 0x41] = some [0x7E, 0x41] := by decide +kernel
/-- R464: a counter never falls. -/
theorem test_counter : after (.counterWrite 0x500 6) (st fun b => b.onNvm fun n => { n with counters := [(0x500, [(7, 0, 0)])] }) (fun t => t.blk.ctrValue 0x500 = 7) = true
    ∧ after (.counterWrite 0x500 9) (st fun b => b.onNvm fun n => { n with counters := [(0x500, [(7, 0, 0)])] }) (fun t => t.blk.ctrValue 0x500 = 9) = true := by decide +kernel
/-- R69: an offset above 10,000 ns in SYNCED leads to UNSYNCED, one of 10,000 ns does not. -/
theorem test_sync : after (.syncReceived 3 9 10001) (st fun b => b.onTb fun t => { t with ctrl := 0x3FF1, state := .synced, slavePort := 3 }) (fun t => t.blk.time.state = .unsynced) = true
    ∧ after (.syncReceived 3 9 10000) (st fun b => b.onTb fun t => { t with ctrl := 0x3FF1, state := .synced, slavePort := 3 }) (fun t => t.blk.time.state = .synced) = true := by decide +kernel
/-- R374, R377: PORESET_N begins an episode of reach P and pulls RESETOUT_N low. -/
theorem test_poreset : after .poresetNAssert (run0 fun b => b.onRcc fun r => { r with powered := true }) (fun t =>
    t.blk.rcc.episode = some .p && t.blk.rcc.resetoutLow && t.blk.rcc.asserted = 2 && t.blk.rcc.mode = .boot) = true := by decide +kernel
/-- R378 and its worked example: SYSRESET_N, still asserted, holds the sequence before E3. -/
theorem test_holding : after (.exitStepDone []) (st fun b => b.onRcc fun r => { r with episode := some .p, step := 3, asserted := 4, powered := true })
    (fun t => t.blk.rcc.step = 3 && t.blk.rcc.holding) = true := by decide +kernel
/-- R199 and its worked example: the loss of the ground limit isolates kernel 2 alone. -/
theorem test_isolation : after (.boundaryExcursion 2 1) (run0 id) (fun t =>
    (t.blk.bridges.get 2).state = .isolated && (t.blk.bridges.get 1).state = .joined) = true := by decide +kernel
/-- R383: the core level is clamped at 880 mV. -/
theorem test_avs : after (.avsStep true 880) (st fun b => b.onRcc fun r => { r with pwrCore := 878 }) (fun t =>
    bits t.blk.rcc.pwrCore 11 0 = 880 && bit t.blk.rcc.pwrSticky 3) = true := by decide +kernel
/-- R440 and its worked example: security version 12 over 11 and format 8 over 7 pass, version 10 does not. -/
theorem test_rollback :
    let b := (st fun b => b.modComp 0 fun c => { c with counter := 11, format := 7 }).blk
    let man := fun v f => List.replicate 28 (0 : Byte) ++ leBytes 2 f ++ [0, 0] ++ leBytes 4 v
    firstErr (b.manifestRollback 0 (man 12 8)) = none ∧ (firstErr (b.manifestRollback 0 (man 10 8))).isSome = true
      ∧ (firstErr (b.manifestRollback 0 (man 12 6))).isSome = true := by decide +kernel
/-- R426: the repetition test stops the entropy source. -/
theorem test_entropy : after (.entropyFail true false) (run0 id) (fun t => t.blk.sec.entropyOk = false && t.blk.sec.entRep = 1 && t.blk.sec.entProp = 0) = true := by decide +kernel
/-- R332: a bus that settles is asleep and its FIFO is empty. -/
theorem test_settle : after (.settleExpiry 2) (run0 fun b => { b with nms := vmod b.nms 2 fun n => { n with state := .settle } }) (fun t =>
    (t.blk.nm 2).state = .asleep && (t.blk.can 2).state = .asleep && (t.blk.can 2).fifo = []) = true := by decide +kernel
/-- R231, R242: ECHO answers its payload with status OK. -/
theorem test_echo : after (.echo (mkReq 10 (bs [7, 8, 9]))) (run0 id) (fun t =>
    (t.blk.mboxes.get 10).resps.map (fun a => (a.opcode, a.status, a.payload)) = [(0x101, 0, [7, 8, 9])]) = true := by decide +kernel
/-- R180: an atomic access reads zero with an access fault. -/
theorem test_atomic : after (.atomicRefused (.tenant 1) 0x52013000) (run0 id) (fun t =>
    t.blk.reply = { data := 0, fault := true, isolated := false } && (t.blk.tenants.get 1).faults = 1 && t.mem = []) = true := by decide +kernel

/-! ### The hypotheses of the statements can be met -/

namespace C02
def tb (f : TimeBase → TimeBase) : State := st fun b => b.onTb fun t => f { t with ctrl := 0x003FF001 }
def s1 : State := st fun b => { b with variant := .nz830 }
def s2 : State := tb id
def s3 : State := tb fun t => { t with state := .synced, slavePort := 3, ctrl := 0x001FF801 }
def s4 : State := tb fun t => { t with state := .holdover }
def s5 : State := tb fun t => { t with state := .master }
def s6 : State := tb fun t => { t with slewing := true }

/-- The hypotheses of each clause of `AbsentUnits` are met together. -/
theorem test_meets_AbsentUnits :
    (∃ (s : State) (u : UnitName), s.blk.absent u = true) :=
  ⟨s1, .macsec, by decide +kernel⟩

/-- The hypotheses of each clause of `TimeBaseMovesAndReads` are met together. -/
theorem test_meets_TimeBaseMovesAndReads :
    (∃ (s : State) (p : Fin 10), Safety.syncCounts s.blk p)
    ∧ (∃ (s : State), s.blk.time.state = TbState.synced ∧ s.blk.time.syncEn = true ∧ s.blk.time.slavePort ≠ noPort ∧ s.blk.time.gmCapable = false)
    ∧ (∃ (s : State), s.blk.time.state = TbState.holdover)
    ∧ (∃ (s : State) (p : Fin 10), s.blk.time.state = TbState.master ∧ s.blk.time.syncEn = true ∧ s.blk.time.portEn p = true ∧ s.blk.time.extCfg = false ∧ s.blk.time.slavePort = noPort)
    ∧ (∃ (s : State), s.blk.time.slewing = true)
    ∧ (∃ (s : State) (p : Fin 10), s.blk.time.syncEn = true ∧ s.blk.time.portEn p = true ∧ s.blk.time.slavePort ≠ BitVec.ofNat 8 ↑p)
    ∧ (∃ (s : State) (p : Fin 10), s.blk.time.syncEn = true ∧ s.blk.time.portEn p = true) :=
  ⟨⟨s2, 8, by unfold Safety.syncCounts; decide +kernel⟩,
   ⟨s3, by decide +kernel⟩,
   ⟨s4, by decide +kernel⟩,
   ⟨s5, 8, by decide +kernel⟩,
   ⟨s6, by decide +kernel⟩,
   ⟨s2, 8, by decide +kernel⟩,
   ⟨s2, 8, by decide +kernel⟩⟩

end C02

namespace C03
def rec0 : PRec := { dt := 5, src := srcOf 1 3, code := 0x10, tenant := 2, sev := 2, flags := 0, arg := 9, pinned := false }
def vw (f : View → View) : Blk → Blk := fun b => b.onEvs fun e => { e with views := e.views.map f }
def s1 : State := st fun b => (b.onEvs fun e => { e with sealDeferred := true }).onSec fun x => { x with husk := .available }
def s2 : State := st fun b => b.onEvs fun e => { e with resumed := true, queue := [{ rec0 with sev := 0 }] }
def s3 : State := st fun b => (vw (fun v => { v with base := 0x10000000, size := 4, lost := 3 }) b).onEvs fun e => { e with resumed := true, queue := [], logLostNow := 4, srcLost := [(srcOf 1 3, 3)] }
def s4 : State := st fun b => (vw (fun v => { v with base := 0x10000000, size := 4, filter := 0x1F }) b).onEvs fun e => { e with resumed := true, queue := [rec0, rec0] }
def s5 : State := st fun b => b.onRcc fun n => { n with mode := .run }
def s6 : State := st fun b => b.onNvm fun n => { n with scrub := true }

/-- The hypotheses of each clause of `LogWriterAndSeals` are met together. -/
theorem test_meets_LogWriterAndSeals :
    (∃ (a : Nat), (¬(201326592 ≤ a ∧ a < 206028800)))
    ∧ (∃ (s : State), s.blk.sec.husk = HuskState.available)
    ∧ (∃ (s : State), s.blk.sec.husk ≠ HuskState.available) :=
  ⟨⟨3, by decide +kernel⟩,
   ⟨s1, by decide +kernel⟩,
   ⟨State.reset, by decide +kernel⟩⟩

/-- The hypotheses of each clause of `GrantsDeliverOrLoseRecords` are met together. -/
theorem test_meets_GrantsDeliverOrLoseRecords :
    (∃ (s : State) (p : PRec) (rest : List PRec), s.blk.evs.resumed = true ∧ s.blk.evs.queue = p :: rest ∧ Safety.nothingLost s.blk)
    ∧ (∃ (s : State) (v : Fin 9), s.blk.evs.resumed = true ∧ (s.blk.evs.views.get v).size ≠ 0 ∧ 0 < (s.blk.evs.views.get v).lost ∧ 2 ≤ (s.blk.evs.views.get v).free ∧ s.blk.viewInReset v = false)
    ∧ (∃ (s : State), s.blk.evs.resumed = true ∧ 0 < s.blk.evs.logLostNow ∧ s.blk.evs.logRoom false 2 = true ∧ s.blk.evs.logSev ≤ 2)
    ∧ (∃ (s : State) (src : BitVec 16) (n : Nat), s.blk.evs.resumed = true ∧ findKey s.blk.evs.srcLost src = some n ∧ s.blk.waiting src < shellBuffer)
    ∧ (∃ (s : State) (i : Initiator) (v : Fin 9) (named : Option (Fin 9)), (i = viewOwner v ∨ i = Initiator.chanter ∧ named = some v) ∧ (s.blk.evs.views.get v).size ≠ 0)
    ∧ (∃ (i : Initiator), (∀ (v : Fin 9), i ≠ viewOwner v) ∧ i ≠ Initiator.chanter) :=
  ⟨⟨s2, (s2.blk.evs.queue.headD default), s2.blk.evs.queue.tail, by unfold Safety.nothingLost; decide +kernel⟩,
   ⟨s3, 0, by decide +kernel⟩,
   ⟨s3, by decide +kernel⟩,
   ⟨s3, srcOf 1 3, ((findKey s3.blk.evs.srcLost (srcOf 1 3)).getD default), by decide +kernel⟩,
   ⟨s4, .chanter, 0, some 0, by decide +kernel⟩,
   ⟨.spi, by decide +kernel⟩⟩

/-- The hypotheses of each clause of `JournalAndCounters` are met together. -/
theorem test_meets_JournalAndCounters :
    (∃ (items : List (BitVec 16 × List Byte)), (List.map (fun (x : BitVec 16 × List Byte) => x.1) items).Nodup)
    ∧ (∃ (s : State) (off : BitVec 16) (v : BitVec 64), 0 < ctrSlots off.toNat ∧ off.toNat ≠ ctrStep ∧ ctrOrder off.toNat (s.blk.ctrValue off.toNat) ≤ ctrOrder off.toNat v)
    ∧ (∃ (s : State) (off : BitVec 16) (v : BitVec 64), (ctrSlots off.toNat = 0 ∨ off.toNat = ctrStep ∨ ctrOrder off.toNat v < ctrOrder off.toNat (s.blk.ctrValue off.toNat))) :=
  ⟨⟨default, by decide +kernel⟩,
   ⟨State.reset, 0x500, 0, by decide +kernel⟩,
   ⟨State.reset, srcOf 1 3, 0, by decide +kernel⟩⟩

/-- The hypotheses of each clause of `ScrubsAndMemoryErrors` are met together. -/
theorem test_meets_ScrubsAndMemoryErrors :
    (∃ (s : State), s.blk.nvm.scrub = false ∧ s.blk.rcc.mode ≠ Mode.sleep ∧ s.blk.rcc.mode ≠ Mode.boot)
    ∧ (∃ (s : State), (s.blk.rcc.mode = Mode.sleep ∨ s.blk.rcc.mode = Mode.boot))
    ∧ (∃ (s : State) (corrected : List Word), s.blk.nvm.scrub = true ∧ (∀ a ∈ corrected, a ∉ s.blk.nvm.prevCorr))
    ∧ (∃ (s : State), (∀ a ∈ s.blk.nvm.badWords, BitVec.toNat a < 268435456))
    ∧ (∃ (a : Word), 134217728 ≤ BitVec.toNat a ∧ BitVec.toNat a < 201326592)
    ∧ (∃ (a : Word), (¬(134217728 ≤ BitVec.toNat a ∧ BitVec.toNat a < 209715200))) :=
  ⟨⟨s5, by decide +kernel⟩,
   ⟨State.reset, by decide +kernel⟩,
   ⟨s6, default, by decide +kernel, (fun _ h => nomatch h)⟩,
   ⟨State.reset, (fun _ h => nomatch h)⟩,
   ⟨0x08000000, by decide +kernel⟩,
   ⟨0x10000000, by decide +kernel⟩⟩

end C03

namespace C04

def s1 : State := st fun b => ch0 on1 (pow b)
def s2 : State := st fun b => ch0 (fun c => { on1 c with prot := .limiting }) (pow b)
def s3 : State := st fun b => ch0 (fun c => { on1 c with prot := .inrush, winOpen := true, burstLeft := 3 }) (pow b)
def s4 : State := st fun b => ch0 (fun c => { on1 c with prot := .inrush, winOpen := true, quickOff := true }) (pow b)
def s5 : State := st fun b => ch0 (fun c => { on1 c with prot := .limiting, winOpen := true }) (pow b)
def s6 : State := st fun b => ch0 (fun c => { c with prot := .pause, pauseRun := true, applied := { c.applied with cmd := 1 } }) (pow b)
def s7 : State := st fun b => ch0 (fun c => { c with prot := .pause, pauseRun := true, applied := { c.applied with cmd := 1 }, tjBlock := true }) (pow b)
def s8 : State := st fun b => pow b
def s9 : State := st fun b => kn0 (fun k => { k with overtemp := true, ground := true, under := true, surge := true }) (pow b)
def s10 : State := st fun b => kn0 (fun k => { k with protDirty := true, powered := true, allowance := 5 }) b

/-- The hypotheses of each clause of `FaultsRetriesAndLimits` are met together. -/
theorem test_meets_FaultsRetriesAndLimits :
    (∃ (s : State) (c : Fin 40) (critB : Bool), s.blk.kernelRuns (kOf c) = true ∧ (s.blk.ch (s.blk.lead c)).conducting = true ∧ (critB = true → (s.blk.ch (s.blk.lead c)).prot = Prot.limiting) ∧ (¬((s.blk.ch (s.blk.lead c)).winOpen = true ∧ 0 < (s.blk.ch (s.blk.lead c)).burstLeft ∧ ((s.blk.ch (s.blk.lead c)).prot = Prot.inrush ∨ (s.blk.ch (s.blk.lead c)).prot = Prot.limiting))))
    ∧ (∃ (s : State) (c : Fin 40), (s.blk.ch (s.blk.lead c)).prot = Prot.limiting ∧ (s.blk.ch (s.blk.lead c)).winOpen = false)
    ∧ (∃ (s : State) (c : Fin 40), (s.blk.ch (s.blk.lead c)).conducting = true)
    ∧ (∃ (s : State) (c : Fin 40), ((s.blk.ch (s.blk.lead c)).prot = Prot.on ∨ (s.blk.ch (s.blk.lead c)).prot = Prot.inrush) ∧ (s.blk.ch (s.blk.lead c)).quickOff = false)
    ∧ (∃ (s : State) (c : Fin 40), (s.blk.ch (s.blk.lead c)).prot = Prot.limiting)
    ∧ (∃ (s : State) (c : Fin 40) (critB : Bool), s.blk.kernelRuns (kOf c) = true ∧ (s.blk.ch (s.blk.lead c)).conducting = true ∧ (critB = true → (s.blk.ch (s.blk.lead c)).prot = Prot.limiting) ∧ (s.blk.ch (s.blk.lead c)).winOpen = true ∧ 0 < (s.blk.ch (s.blk.lead c)).burstLeft ∧ ((s.blk.ch (s.blk.lead c)).prot = Prot.inrush ∨ (s.blk.ch (s.blk.lead c)).prot = Prot.limiting))
    ∧ (∃ (s : State) (c : Fin 40), (s.blk.ch (s.blk.lead c)).quickOff = true ∧ (s.blk.ch (s.blk.lead c)).prot = Prot.inrush ∧ (s.blk.kn (kOf (s.blk.lead c))).surge = false)
    ∧ (∃ (s : State) (c : Fin 40), (s.blk.ch (s.blk.lead c)).winOpen = true ∧ (s.blk.ch (s.blk.lead c)).winFrozen = none) :=
  ⟨⟨s1, 0, false, by decide +kernel⟩,
   ⟨s2, 0, by decide +kernel⟩,
   ⟨s1, 0, by decide +kernel⟩,
   ⟨s1, 0, by decide +kernel⟩,
   ⟨s2, 0, by decide +kernel⟩,
   ⟨s3, 0, false, by decide +kernel⟩,
   ⟨s4, 0, by decide +kernel⟩,
   ⟨s5, 0, by decide +kernel⟩⟩

/-- The hypotheses of each clause of `PausesEndInARestart` are met together. -/
theorem test_meets_PausesEndInARestart :
    (∃ (s : State) (c : Fin 40), (s.blk.ch (s.blk.lead c)).prot = Prot.pause ∧ (s.blk.ch (s.blk.lead c)).pauseRun = true)
    ∧ (∃ (s : State) (c : Fin 40), (s.blk.ch (s.blk.lead c)).tjBlock = true)
    ∧ (∃ (s : State) (c : Fin 40), (s.blk.ch (s.blk.lead c)).prot = Prot.on)
    ∧ (∃ (s : State) (c : Fin 40), (s.blk.ch (s.blk.lead c)).prot ≠ Prot.on)
    ∧ (∃ (s : State) (c : Fin 40), (s.blk.ch (s.blk.lead c)).conducting = true) :=
  ⟨⟨s6, 0, by decide +kernel⟩,
   ⟨s7, 0, by decide +kernel⟩,
   ⟨s1, 0, by decide +kernel⟩,
   ⟨State.reset, 0, by decide +kernel⟩,
   ⟨s1, 0, by decide +kernel⟩⟩

/-- The hypotheses of each clause of `SupplyFaultsHoldChannelsOff` are met together. -/
theorem test_meets_SupplyFaultsHoldChannelsOff :
    (∃ (s : State) (k : Fin 4), s.blk.kernelRuns k = true ∧ (s.blk.kn k).overtemp = false)
    ∧ (∃ (s : State) (k : Fin 4), (s.blk.kn k).overtemp = true)
    ∧ (∃ (s : State) (k : Fin 4), s.blk.kernelRuns k = true ∧ (s.blk.kn k).ground = false)
    ∧ (∃ (s : State) (k : Fin 4), (s.blk.kn k).ground = true)
    ∧ (∃ (s : State) (k : Fin 4), s.blk.kernelRuns k = true ∧ (s.blk.kn k).under = false)
    ∧ (∃ (s : State) (k : Fin 4), (s.blk.kn k).under = true)
    ∧ (∃ (s : State) (k : Fin 4), s.blk.kernelRuns k = true)
    ∧ (∃ (s : State) (k : Fin 4), s.blk.kernelRuns k = true ∧ (s.blk.kn k).surge = false)
    ∧ (∃ (s : State) (k : Fin 4), (s.blk.kn k).surge = true) :=
  ⟨⟨s8, 0, by decide +kernel⟩,
   ⟨s9, 0, by decide +kernel⟩,
   ⟨s8, 0, by decide +kernel⟩,
   ⟨s9, 0, by decide +kernel⟩,
   ⟨s8, 0, by decide +kernel⟩,
   ⟨s9, 0, by decide +kernel⟩,
   ⟨s8, 0, by decide +kernel⟩,
   ⟨s8, 0, by decide +kernel⟩,
   ⟨s9, 0, by decide +kernel⟩⟩

/-- The hypotheses of each clause of `ProtectionStoreSurvivesPower` are met together. -/
theorem test_meets_ProtectionStoreSurvivesPower :
    (∃ (s : State) (k : Fin 4), (s.blk.kn k).protDirty = true ∧ 0 < (s.blk.kn k).allowance ∧ (s.blk.kn k).powered = true)
    ∧ (∃ (s : State) (k : Fin 4), s.blk.kernelRuns k = true)
    ∧ (∃ (s : State) (k : Fin 4), s.blk.hasKernel k = true ∧ (s.blk.kn k).powered = false) :=
  ⟨⟨s10, 0, by decide +kernel⟩,
   ⟨s8, 0, by decide +kernel⟩,
   ⟨State.reset, 0, by decide +kernel⟩⟩

end C04

namespace C05
def sh1 : ShadowSet := { cmd := 2, pwm := 0x3E8, ramp := 0, slew := 1 }
def s1 : State := st fun b => ch0 (fun c => { c with prot := .shuttingDown, shutdownActive := true }) (pow b)
def s2 : State := st fun b => ch0 (fun c => { on1 c with applied := { c.applied with cmd := 0x1F42, pwm := 0x100FA0 } }) (pow b)
def s3 : State := st fun b => { (ch0 (fun c => { c with owner := .safety }) (pow b)) with breath := { b.breath with running := true, phase := 4 } }
def s4 : State := st fun b => ch0 (fun c => { on1 c with arcCtrl := c.arcCtrl ||| 3, arcWin := List.replicate 99 (true, 30000) }) (pow b)
def s5 : State := st fun b => ch0 (fun c => { on1 c with arcCtrl := c.arcCtrl ||| 1, openLoadCfg := 500 }) (imaged (pow b))
def s6 : State := st fun b => ch0 (fun c => { on1 c with paired := true }) (pow b)
def s7 : State := st fun b => ch0 (fun c => { on1 c with isoHold := true, coreHold := true }) (kn0 (fun k => { k with isoHoldStart := some 5, coreHoldStart := some 6 }) (pow b))
def s8 : State := st fun b => { (pow b) with senseNext := Vector.replicate 4 (some 0) }
def s9 : State := st fun b => pow b

/-- The hypotheses of each clause of `ShutDownsCarriersAndPulses` are met together. -/
theorem test_meets_ShutDownsCarriersAndPulses :
    (∃ (s : State) (c : Fin 40), (s.blk.ch (s.blk.lead c)).shutdownActive = true ∧ (s.blk.ch (s.blk.lead c)).ramping = false)
    ∧ (∃ (s : State) (c : Fin 40), s.blk.isFollower c = false ∧ (s.blk.ch c).conducting = true ∧ cmdMode (s.blk.ch c).applied.cmd = 2 ∧ (s.blk.ch c).ramping = false)
    ∧ (∃ (sh : ShadowSet) (d : Rat), 0 < sh.freq ∧ 0 ≤ d ∧ d ≤ 1000 ∧ ↑sh.minPulse ≤ sh.periodNs / 2 ∧ d / 1000 * sh.periodNs < ↑sh.minPulse / 2)
    ∧ (∃ (sh : ShadowSet) (d : Rat), 0 < sh.freq ∧ 0 ≤ d ∧ d ≤ 1000 ∧ ↑sh.minPulse ≤ sh.periodNs / 2 ∧ ↑sh.minPulse / 2 ≤ d / 1000 * sh.periodNs ∧ d / 1000 * sh.periodNs < ↑sh.minPulse)
    ∧ (∃ (sh : ShadowSet) (d : Rat), 0 < sh.freq ∧ 0 ≤ d ∧ d ≤ 1000 ∧ ↑sh.minPulse ≤ sh.periodNs / 2 ∧ sh.periodNs - d / 1000 * sh.periodNs < ↑sh.minPulse / 2)
    ∧ (∃ (sh : ShadowSet) (d : Rat), 0 < sh.freq ∧ 0 ≤ d ∧ d ≤ 1000 ∧ ↑sh.minPulse ≤ sh.periodNs / 2 ∧ ↑sh.minPulse / 2 ≤ sh.periodNs - d / 1000 * sh.periodNs ∧ sh.periodNs - d / 1000 * sh.periodNs < ↑sh.minPulse)
    ∧ (∃ (sh : ShadowSet) (d : Rat), 0 < sh.freq ∧ 0 ≤ d ∧ d ≤ 1000 ∧ ↑sh.minPulse ≤ sh.periodNs / 2 ∧ ↑sh.minPulse ≤ d / 1000 * sh.periodNs ∧ ↑sh.minPulse ≤ sh.periodNs - d / 1000 * sh.periodNs) :=
  ⟨⟨s1, 0, by decide +kernel⟩,
   ⟨s2, 0, by decide +kernel⟩,
   ⟨sh1, 0, by decide +kernel⟩,
   ⟨sh1, 30, by decide +kernel⟩,
   ⟨sh1, 987, by decide +kernel⟩,
   ⟨sh1, 970, by decide +kernel⟩,
   ⟨sh1, 500, by decide +kernel⟩⟩

/-- The hypotheses of each clause of `WireModelAndEnergy` are met together. -/
theorem test_meets_WireModelAndEnergy :
    (∃ (s : State) (k : Fin 4) (c : Fin 40), s.blk.kernelRuns k = true ∧ kOf c = k ∧ s.blk.isFollower c = false ∧ (s.blk.ch c).wmEn = true ∧ s.blk.rcc.mode ≠ Mode.sleep ∧ (∀ d ∈ chansOf k, (s.blk.ch d).prot ≠ Prot.limiting))
    ∧ (∃ (s : State) (k : Fin 4), s.blk.kernelRuns k = true)
    ∧ (∃ (s : State) (i : Initiator) (c : Fin 40), s.blk.hasChan c = true ∧ s.blk.reaches i c = true ∧ s.blk.windowOpen (kOf c) = true) :=
  ⟨⟨s3, 0, 0, by decide +kernel⟩,
   ⟨s3, 0, by decide +kernel⟩,
   ⟨s3, .chanter, 0, by decide +kernel⟩⟩

/-- The hypotheses of each clause of `ArcsAndMeasurements` are met together. -/
theorem test_meets_ArcsAndMeasurements :
    (∃ (s : State) (c : Fin 40), s.blk.full = true ∧ s.blk.isFollower c = false ∧ bit (s.blk.ch c).arcCtrl 0 = true)
    ∧ (∃ (s : State) (c : Fin 40) (mean : BitVec 16), s.blk.inUse c = true ∧ (s.blk.ch c).openLoad = false ∧ bits (s.blk.ch c).openLoadCfg 15 0 ≠ 0 ∧ (s.blk.ch (s.blk.lead c)).conducting = true ∧ mean.toNat < bits (s.blk.ch c).openLoadCfg 15 0)
    ∧ (∃ (s : State) (k : Fin 4), s.blk.kernelRuns k = true)
    ∧ (∃ (s : State) (c : Fin 40) (x : BitVec 16) (y : BitVec 16), (s.blk.ch (s.blk.lead c)).paired = true ∧ (s.blk.ch (s.blk.lead c)).conducting = true ∧ 3 * (x.toNat + y.toNat) < 20 * (max x.toNat y.toNat - min x.toNat y.toNat)) :=
  ⟨⟨s4, 0, by decide +kernel⟩,
   ⟨s5, 0, 0, by decide +kernel⟩,
   ⟨s3, 0, by decide +kernel⟩,
   ⟨s6, 0, 0, 1, by decide +kernel⟩⟩

/-- The hypotheses of each clause of `HoldsAndLatchClears` are met together. -/
theorem test_meets_HoldsAndLatchClears :
    (∃ (s : State) (k : Fin 4), (s.blk.kn k).isoHoldStart ≠ none ∧ (∃ c ∈ chansOf k, (s.blk.ch (s.blk.lead c)).isoHold = true))
    ∧ (∃ (s : State) (k : Fin 4), (s.blk.kn k).coreHoldStart ≠ none)
    ∧ (∃ (s : State) (n : Fin 4) (c : Fin 40), s.blk.senseNext.get n = some c)
    ∧ (∃ (s : State) (i : Initiator) (c : Fin 40), s.blk.hasChan c = true ∧ s.blk.reaches i c = true ∧ s.blk.windowOpen (kOf c) = true ∧ s.blk.isFollower c = false ∧ s.blk.inGuard = false)
    ∧ (∃ (s : State) (i : Initiator) (c : Fin 40), s.blk.hasChan c = true ∧ s.blk.reaches i c = true ∧ s.blk.windowOpen (kOf c) = true ∧ s.blk.isFollower c = true)
    ∧ (∃ (s : State) (i : Initiator) (c : Fin 40), s.blk.hasChan c = true ∧ s.blk.reaches i c = true ∧ s.blk.windowOpen (kOf c) = true ∧ s.blk.isFollower c = false ∧ s.blk.inGuard = true)
    ∧ (∃ (s : State) (i : Initiator) (c : Fin 40), s.blk.hasChan c = true ∧ s.blk.reaches i c = false)
    ∧ (∃ (s : State) (i : Initiator) (c : Fin 40), s.blk.hasChan c = true ∧ s.blk.reaches i c = true ∧ s.blk.windowOpen (kOf c) = true ∧ s.blk.isFollower c = false ∧ s.blk.inGuard = false)
    ∧ (∃ (s : State) (i : Initiator) (c : Fin 40), s.blk.hasChan c = true ∧ s.blk.reaches i c = true ∧ s.blk.windowOpen (kOf c) = true ∧ s.blk.isFollower c = true)
    ∧ (∃ (s : State) (i : Initiator) (c : Fin 40), s.blk.hasChan c = true ∧ s.blk.reaches i c = true ∧ s.blk.windowOpen (kOf c) = true ∧ s.blk.isFollower c = false ∧ s.blk.inGuard = true)
    ∧ (∃ (s : State) (i : Initiator) (c : Fin 40), s.blk.hasChan c = true ∧ s.blk.reaches i c = false)
    ∧ (∃ (s : State) (i : Initiator) (c : Fin 40), s.blk.hasChan c = true ∧ s.blk.reaches i c = true ∧ s.blk.windowOpen (kOf c) = true ∧ s.blk.isFollower c = false ∧ s.blk.inGuard = false)
    ∧ (∃ (s : State) (i : Initiator) (c : Fin 40), s.blk.hasChan c = true ∧ s.blk.reaches i c = true ∧ s.blk.windowOpen (kOf c) = true ∧ s.blk.isFollower c = true)
    ∧ (∃ (s : State) (i : Initiator) (c : Fin 40), s.blk.hasChan c = true ∧ s.blk.reaches i c = true ∧ s.blk.windowOpen (kOf c) = true ∧ s.blk.isFollower c = false ∧ s.blk.inGuard = true)
    ∧ (∃ (s : State) (i : Initiator) (c : Fin 40), s.blk.hasChan c = true ∧ s.blk.reaches i c = false) :=
  ⟨⟨s7, 0, by decide +kernel⟩,
   ⟨s7, 0, by decide +kernel⟩,
   ⟨s8, 0, ((s8.blk.senseNext.get (0 : Fin 4)).getD default), by decide +kernel⟩,
   ⟨s9, .chanter, 0, by decide +kernel⟩,
   ⟨s6, .chanter, 39, by decide +kernel⟩,
   ⟨s3, .chanter, 0, by decide +kernel⟩,
   ⟨State.reset, .tenant 3, 0, by decide +kernel⟩,
   ⟨s9, .chanter, 0, by decide +kernel⟩,
   ⟨s6, .chanter, 39, by decide +kernel⟩,
   ⟨s3, .chanter, 0, by decide +kernel⟩,
   ⟨State.reset, .tenant 3, 0, by decide +kernel⟩,
   ⟨s9, .chanter, 0, by decide +kernel⟩,
   ⟨s6, .chanter, 39, by decide +kernel⟩,
   ⟨s3, .chanter, 0, by decide +kernel⟩,
   ⟨State.reset, .tenant 3, 0, by decide +kernel⟩⟩

end C05

namespace C06
def dis (f : Di → Di) : Blk → Blk := kn0 fun k => { k with dis := k.dis.map f }
def s1 : State := st fun b => pow b
def s2 : State := st fun b => dis (fun d => { d with reported := true, cfg := 0xFFFFFFFF }) (pow b)
def s3 : State := st fun b => dis (fun d => { d with stuck := true, stuckMask := true }) (pow b)
def s4 : State := st fun b => { (pow b) with motion := { b.motion with shockDt := some 5 } }
def s5 : State := st fun b => { (pow b) with motion := { b.motion with fault := true } }

/-- The hypotheses of each clause of `InputsAreCountedJudgedAndMasked` are met together. -/
theorem test_meets_InputsAreCountedJudgedAndMasked :
    (∃ (s : State) (d : Fin 32) (high : Bool), s.blk.kernelRuns (kOfDi d) = true ∧ s.blk.rcc.mode ≠ Mode.sleep ∧ (high != (s.blk.di d).activeLow) ≠ (s.blk.di d).active)
    ∧ (∃ (s : State) (d : Fin 32) (high : Bool), (high != (s.blk.di d).activeLow) = (s.blk.di d).active ∧ s.blk.kernelRuns (kOfDi d) = true ∧ s.blk.rcc.mode ≠ Mode.sleep)
    ∧ (∃ (s : State) (k : Fin 4) (d : Fin 32), s.blk.kernelRuns k = true ∧ kOfDi d = k ∧ s.blk.rcc.mode ≠ Mode.sleep ∧ (s.blk.breath.running = false ∨ (s.blk.bridges.get k).state ≠ Boundary.joined))
    ∧ (∃ (s : State) (d : Fin 32), s.blk.kernelRuns (kOfDi d) = true ∧ (s.blk.di d).wake = true ∧ (s.blk.di d).reported = true ∧ (s.blk.di d).stuck = false)
    ∧ (∃ (s : State) (d : Fin 32), (s.blk.di d).stuck = true ∧ (s.blk.di d).reported = false) :=
  ⟨⟨s1, 0, true, by decide +kernel⟩,
   ⟨s1, 0, false, by decide +kernel⟩,
   ⟨s1, 0, 0, by decide +kernel⟩,
   ⟨s2, 0, by decide +kernel⟩,
   ⟨s3, 0, by decide +kernel⟩⟩

/-- The hypotheses of each clause of `MotionIsRecorded` are met together. -/
theorem test_meets_MotionIsRecorded :
    (∃ (s : State) (rms : BitVec 16), s.blk.kernelRuns 0 = true ∧ s.blk.rcc.mode ≠ Mode.sleep ∧ s.blk.motion.seismicOn = false ∧ s.blk.motion.seis * 10 < rms.toNat)
    ∧ (∃ (s : State) (rms : BitVec 16), (s.blk.motion.seismicOn = true ∨ rms.toNat ≤ s.blk.motion.seis * 10))
    ∧ (∃ (s : State) (peak : BitVec 16), s.blk.kernelRuns 0 = true ∧ s.blk.rcc.mode ≠ Mode.sleep ∧ s.blk.motion.shockTh * 4096 < peak.toNat * 10 ∧ (∀ (t0 : BitVec 64), s.blk.motion.shockDt = some t0 → 1000000000 ≤ s.blk.since t0))
    ∧ (∃ (s : State) (t0 : BitVec 64), s.blk.motion.shockDt = some t0 ∧ s.blk.since t0 < 1000000000)
    ∧ (∃ (s : State), s.blk.kernelRuns 0 = true ∧ s.blk.motion.fault = false)
    ∧ (∃ (s : State), s.blk.motion.fault = true)
    ∧ (∃ (s : State), (s.blk.bridges.get 0).state ≠ Boundary.service) :=
  ⟨⟨s1, 0xFFFF, by decide +kernel⟩,
   ⟨State.reset, 0, by decide +kernel⟩,
   ⟨s1, 0xFFFF, by decide +kernel, by decide +kernel, by decide +kernel, (fun _ h => nomatch h)⟩,
   ⟨s4, (s4.blk.motion.shockDt.getD default), by decide +kernel⟩,
   ⟨s1, by decide +kernel⟩,
   ⟨s5, by decide +kernel⟩,
   ⟨State.reset, by decide +kernel⟩⟩

end C06

namespace C07
def br0 (f : Bridge → Bridge) : Blk → Blk := fun b => { b with bridges := b.bridges.map f }
def p0 : Posted := { (default : Posted) with init := .chanter, addr := arg32 (pageBase 0), data := 0x12345, be := 0x0F }
def p1 : Posted := { p0 with init := .tenant 3, addr := arg32 (pageBase 39) }
def mkp (b : Blk) : Blk := { b with bridges := (b.bridges.set 0 { (b.bridges.get 0) with posted := [p0] }).set 3 { (b.bridges.get 3) with posted := [p1] } }
def s1 : State := st fun b => pow b
def s2 : State := st fun b => br0 (fun k => { k with state := .isolated, everJoined := true }) (pow b)
def s3 : State := st fun b => br0 (fun k => { k with failedPolls := 1 }) (pow b)
def s4 : State := st fun b => mkp (pow b)
def s5 : State := st fun b => mkp { (pow b) with slots := b.slots.map fun x => { x with fence := true } }
def s6 : State := st fun b => kn0 (fun k => { k with kept := [(.sem 3, 5), (.vbatMin, 7)] }) (pow b)
def s7 : State := st fun b => kn0 (fun k => { k with unconfirmed := [(.sem 3, 5), (.vbatMin, 7)] }) (pow b)

/-- The hypotheses of each clause of `BoundariesPollsAndRetries` are met together. -/
theorem test_meets_BoundariesPollsAndRetries :
    (∃ (s : State) (k : Fin 4), ((s.blk.bridges.get k).state = Boundary.joined ∨ (s.blk.bridges.get k).state = Boundary.rejoining))
    ∧ (∃ (s : State) (k : Fin 4), (s.blk.bridges.get k).state = Boundary.isolated ∧ (s.blk.kn k).powered = true)
    ∧ (∃ (s : State) (k : Fin 4), s.blk.hasKernel k = true ∧ (s.blk.kn k).powered = true ∧ (s.blk.bridges.get k).state = Boundary.joined ∧ (s.blk.bridges.get k).deliver = none)
    ∧ (∃ (s : State) (k : Fin 4), s.blk.hasKernel k = true ∧ (s.blk.bridges.get k).state = Boundary.joined ∧ (s.blk.bridges.get k).failedPolls = 0)
    ∧ (∃ (s : State) (k : Fin 4), s.blk.hasKernel k = true ∧ (s.blk.bridges.get k).state = Boundary.joined ∧ (s.blk.bridges.get k).failedPolls = 1)
    ∧ (∃ (s : State) (k : Fin 4), s.blk.kernelRuns k = true ∧ (s.blk.kn k).wdSuspended = false ∧ (s.blk.kn k).wdHold = false ∧ (s.blk.kn k).isoHoldStart = none)
    ∧ (∃ (s : State) (k : Fin 4), s.blk.hasKernel k = true) :=
  ⟨⟨s1, 0, by decide +kernel⟩,
   ⟨s2, 0, by decide +kernel⟩,
   ⟨s1, 0, by decide +kernel⟩,
   ⟨s1, 0, by decide +kernel⟩,
   ⟨s3, 0, by decide +kernel⟩,
   ⟨s1, 0, by decide +kernel⟩,
   ⟨State.reset, 0, by decide +kernel⟩⟩

/-- The hypotheses of each clause of `WritesAndFencesCrossTheBridge` are met together. -/
theorem test_meets_WritesAndFencesCrossTheBridge :
    (∃ (s : State) (k : Fin 4) (p : Posted) (c : Fin 40), kOf c = k ∧ (s.blk.bridges.get k).posted = [p] ∧ (s.blk.bridges.get k).state = Boundary.joined ∧ (s.blk.kn k).powered = true ∧ s.blk.reaches p.init c = true ∧ p.addr = arg32 (pageBase c) ∧ p.be = 15 ∧ s.blk.isFollower c = false ∧ s.blk.inGuard = false)
    ∧ (∃ (s : State) (k : Fin 4) (p : Posted) (n : Fin 10) (fault : Option LinkFault), (s.blk.bridges.get k).posted = [p] ∧ slotOf p.init = some n ∧ (s.blk.bridges.get k).state = Boundary.joined ∧ (s.blk.kn k).powered = true ∧ (s.blk.slots.get n).epoch = p.epoch ∧ (fault = some LinkFault.link ∨ fault = none ∧ s.blk.mayWrite p.init k (BitVec.toNat p.addr % 16777216) = false))
    ∧ (∃ (s : State) (i : Initiator) (c : Fin 40), s.blk.hasChan c = true ∧ s.blk.reaches i c = true ∧ (s.blk.bridges.get (kOf c)).posted = [] ∧ s.blk.windowOpen (kOf c) = true ∧ s.blk.isFollower c = false ∧ s.blk.inGuard = false)
    ∧ (∃ (s : State) (i : Initiator) (c : Fin 40), s.blk.hasChan c = true ∧ s.blk.reaches i c = true ∧ (s.blk.bridges.get (kOf c)).posted = [] ∧ (s.blk.bridges.get (kOf c)).state = Boundary.isolated)
    ∧ (∃ (s : State) (i : Initiator) (n : Fin 10) (c : Fin 40), s.blk.hasChan c = true ∧ slotOf i = some n ∧ s.blk.reaches i c = true ∧ s.blk.outstanding i = 0)
    ∧ (∃ (s : State) (i : Initiator) (n : Fin 10) (c : Fin 40), s.blk.hasChan c = true ∧ slotOf i = some n ∧ s.blk.reaches i c = true ∧ s.blk.outstanding i ≠ 0)
    ∧ (∃ (s : State) (i : Initiator) (n : Fin 10), slotOf i = some n ∧ (s.blk.slots.get n).fence = true ∧ s.blk.outstanding i = 0) :=
  ⟨⟨s4, 0, (((s4.blk.bridges.get (0 : Fin 4)).posted).getD 0 default), 0, by decide +kernel⟩,
   ⟨s4, 0, (((s4.blk.bridges.get (0 : Fin 4)).posted).getD 0 default), ((slotOf (((s4.blk.bridges.get (0 : Fin 4)).posted).getD 0 default).init).getD default), some .link, by decide +kernel⟩,
   ⟨s1, .chanter, 0, by decide +kernel⟩,
   ⟨State.reset, .chanter, 0, by decide +kernel⟩,
   ⟨State.reset, .chanter, ((slotOf .chanter).getD default), 0, by decide +kernel⟩,
   ⟨s4, .chanter, ((slotOf .chanter).getD default), 0, by decide +kernel⟩,
   ⟨s5, .safety, ((slotOf .safety).getD default), by decide +kernel⟩⟩

/-- The hypotheses of each clause of `DestructiveReadsAreGuarded` are met together. -/
theorem test_meets_DestructiveReadsAreGuarded :
    (∃ (s : State) (k : Fin 4) (n : Fin 8), s.blk.hasKernel k = true ∧ (s.blk.bridges.get k).posted = [] ∧ s.blk.windowOpen k = true ∧ findKey (s.blk.kn k).unconfirmed (KseReg.sem n) = none ∧ findKey (s.blk.kn k).kept (KseReg.sem n) = none)
    ∧ (∃ (s : State) (k : Fin 4) (n : Fin 8) (v : Word), s.blk.hasKernel k = true ∧ (s.blk.bridges.get k).posted = [] ∧ s.blk.windowOpen k = true ∧ findKey (s.blk.kn k).unconfirmed (KseReg.sem n) = none ∧ findKey (s.blk.kn k).kept (KseReg.sem n) = some v)
    ∧ (∃ (s : State) (k : Fin 4) (n : Fin 10), s.blk.hasKernel k = true ∧ (s.blk.bridges.get k).posted = [] ∧ s.blk.windowOpen k = true ∧ findKey (s.blk.kn k).unconfirmed (KseReg.peak n) = none ∧ findKey (s.blk.kn k).kept (KseReg.peak n) = none)
    ∧ (∃ (s : State) (k : Fin 4), s.blk.hasKernel k = true ∧ (s.blk.bridges.get k).posted = [] ∧ s.blk.windowOpen k = true ∧ findKey (s.blk.kn k).unconfirmed KseReg.vbatMin = none ∧ findKey (s.blk.kn k).kept KseReg.vbatMin = none)
    ∧ (∃ (s : State) (k : Fin 4), s.blk.hasKernel k = true ∧ (s.blk.bridges.get k).posted = [] ∧ s.blk.windowOpen k = true ∧ findKey (s.blk.kn k).unconfirmed KseReg.vbatMax = none ∧ findKey (s.blk.kn k).kept KseReg.vbatMax = none)
    ∧ (∃ (s : State) (k : Fin 4) (r : KseReg) (v : Word), findKey (s.blk.kn k).unconfirmed r = some v)
    ∧ (∃ (s : State) (k : Fin 4), s.blk.windowOpen k = true) :=
  ⟨⟨s1, 0, 0, by decide +kernel⟩,
   ⟨s6, 0, 3, ((findKey (s6.blk.kn (0 : Fin 4)).kept (KseReg.sem (3 : Fin 8))).getD default), by decide +kernel⟩,
   ⟨s1, 0, 3, by decide +kernel⟩,
   ⟨s1, 0, by decide +kernel⟩,
   ⟨s1, 0, by decide +kernel⟩,
   ⟨s7, 0, .sem 3, ((findKey (s7.blk.kn (0 : Fin 4)).unconfirmed (.sem 3)).getD default), by decide +kernel⟩,
   ⟨s1, 0, by decide +kernel⟩⟩

end C07

namespace C08
def q0 (f : Queue → Queue) : Blk → Blk := fun b => { b with queues := ([27, 28, 33, 34, 35] : List (Fin 256)).foldl (fun v i => vmod v i f) b.queues }
def qe (ow : Word) (f : Queue → Queue := id) : Blk → Blk := q0 fun q => f { q with limits := 0x00100008, owners := ow ||| 0x80000, holdCfg := 4 }
def trun : Blk → Blk := fun b => { b with tenants := b.tenants.map fun t => { t with state := .running } }
def m1 : Msg := { words := [1,2,3,4,5,6], seq := some 4 }
def m2 : Msg := { words := [9], seq := some 7 }
def body16 : List Byte := (List.range 16).map fun n => BitVec.ofNat 8 (n * 7)
def lenb : List Byte := leBytes 2 16
def spiW (bad : Nat) : List Byte := [1, 0] ++ lenb ++ body16 ++ leBytes 2 (crc16 (lenb ++ body16) + bad)
def frame : List Byte := let b : List Byte := 1 :: body16; b ++ leBytes 2 (crc16 b)
def s1 : State := st fun b => qe 0x2003 id (trun b)
def s2 : State := st fun b => qe 0x12003 (fun q => { q with holdCfg := 0 }) (trun b)
def s3 : State := st fun b => qe 0x12003 (fun q => { q with openMsg := some [1, 2, 3] }) (trun b)
def s4 : State := st fun b => qe 0x2020 (fun q => { q with aborted := true, openMsg := some [] }) (trun b)
def s5 : State := st fun b => qe 0x202020 id (trun b)
def s6 : State := st fun b => qe 0x2020 (fun q => { q with msgs := [m1, m2], lastWin := [1,2,3,4] }) (trun b)
def s7 : State := st fun b => { qe 0x2020 (fun q => { q with lastWin := [1,2,3,4] }) (trun b) with rcc := { b.rcc with mode := .service } }
def s8 : State := st fun b => { qe 0x2020 (fun q => { q with msgs := [m1, m2], popped := 0 }) (trun b) with rcc := { b.rcc with mode := .service } }

/-- The hypotheses of each clause of `ProducersMakeWholeMessages` are met together. -/
theorem test_meets_ProducersMakeWholeMessages :
    (∃ (s : State) (i : Initiator) (q : Fin 256), Safety.produces s.blk i q ∧ (s.blk.queues.get q).aborted = false ∧ (s.blk.queues.get q).openLen < 1024 ∧ 0 < s.blk.credit (s.blk.queues.get q) ∧ ((s.blk.queues.get q).gatedProd = true ∨ (s.blk.queues.get q).openLen % 16 ≠ 0 ∨ 0 < (s.blk.queues.get q).freeReserve ∨ 0 < s.blk.sharedFree))
    ∧ (∃ (s : State) (i : Initiator) (q : Fin 256), Safety.produces s.blk i q ∧ (s.blk.queues.get q).aborted = false ∧ (s.blk.queues.get q).openLen < 1024 ∧ (s.blk.queues.get q).gatedProd = true ∧ s.blk.credit (s.blk.queues.get q) = 0)
    ∧ (∃ (s : State) (i : Initiator) (q : Fin 256) (l : List Word), Safety.produces s.blk i q ∧ (s.blk.queues.get q).openMsg = some l)
    ∧ (∃ (s : State) (i : Initiator) (q : Fin 256), s.blk.queueAbsent q = false ∧ (s.blk.queues.get q).producer ≠ i.id)
    ∧ (∃ (s : State) (i : Initiator) (q : Fin 256), Safety.produces s.blk i q ∧ (s.blk.queues.get q).aborted = false ∧ (s.blk.queues.get q).openLen < 1024 ∧ 0 < s.blk.credit (s.blk.queues.get q) ∧ s.blk.queueShut (s.blk.queues.get q) = false ∧ ((s.blk.queues.get q).gatedProd = true ∨ (s.blk.queues.get q).openLen % 16 ≠ 0 ∨ 0 < (s.blk.queues.get q).freeReserve ∨ 0 < s.blk.sharedFree))
    ∧ (∃ (s : State) (i : Initiator) (q : Fin 256), Safety.produces s.blk i q ∧ (s.blk.queues.get q).aborted = true) :=
  ⟨⟨s1, .tenant 3, 27, by unfold Safety.produces; decide +kernel⟩,
   ⟨s2, .tenant 3, 27, by unfold Safety.produces; decide +kernel⟩,
   ⟨s3, .tenant 3, 27, (((s3.blk.queues.get (27 : Fin 256)).openMsg).getD default), by unfold Safety.produces; decide +kernel⟩,
   ⟨State.reset, .chanter, 27, by decide +kernel⟩,
   ⟨s1, .tenant 3, 27, by unfold Safety.produces; decide +kernel⟩,
   ⟨s4, .chanter, 27, by unfold Safety.produces; decide +kernel⟩⟩

/-- The hypotheses of each clause of `EnginesAndPops` are met together. -/
theorem test_meets_EnginesAndPops :
    (∃ (s : State) (e : Engine) (q : Fin 256) (msg : List Word), (s.blk.queues.get q).prodEngine = e.code ∧ (s.blk.queues.get q).enabled = true ∧ s.blk.queueShut (s.blk.queues.get q) = false ∧ (s.blk.queues.get q).isRequest = false ∧ msg ≠ [] ∧ msg.length ≤ 1024 ∧ (s.blk.queues.get q).pods + podsOf msg.length ≤ (s.blk.queues.get q).maxPods ∧ podsOf msg.length ≤ (s.blk.queues.get q).freeReserve + s.blk.sharedFree)
    ∧ (∃ (s : State) (e : Engine) (q : Fin 256) (msg : List Word), (s.blk.queues.get q).prodEngine = e.code ∧ (s.blk.queues.get q).enabled = true ∧ s.blk.queueShut (s.blk.queues.get q) = false ∧ (s.blk.queues.get q).isRequest = false ∧ msg ≠ [] ∧ msg.length ≤ 1024 ∧ ((s.blk.queues.get q).maxPods < (s.blk.queues.get q).pods + podsOf msg.length ∨ (s.blk.queues.get q).freeReserve + s.blk.sharedFree < podsOf msg.length))
    ∧ (∃ (s : State) (i : Initiator) (q : Fin 256) (m : Msg) (rest : List Msg), s.blk.queueAbsent q = false ∧ (s.blk.queues.get q).enabled = true ∧ (s.blk.queues.get q).consumer = i.id ∧ s.blk.visible (s.blk.queues.get q) = m :: rest)
    ∧ (∃ (s : State) (i : Initiator) (q : Fin 256), s.blk.queueAbsent q = false ∧ (s.blk.queues.get q).enabled = true ∧ (s.blk.queues.get q).consumer = i.id ∧ s.blk.visible (s.blk.queues.get q) = []) :=
  ⟨⟨s5, .canEng, 27, [1,2,3], by decide +kernel⟩,
   ⟨s5, .canEng, 27, List.replicate 1024 1, by decide +kernel⟩,
   ⟨s6, .chanter, 27, ((s6.blk.visible (s6.blk.queues.get (27 : Fin 256))).headD default), (s6.blk.visible (s6.blk.queues.get (27 : Fin 256))).tail, by decide +kernel⟩,
   ⟨s1, .chanter, 27, by decide +kernel⟩⟩

/-- The hypotheses of each clause of `TransportsCarryFrames` are met together. -/
theorem test_meets_TransportsCarryFrames :
    (∃ (mosi : List Byte), byteAt mosi 0 = 1 ∧ 4 ≤ mosi.length ∧ (leAt mosi 2 2 % 4 ≠ 0 ∨ leAt mosi 2 2 < 16 ∨ 4096 < leAt mosi 2 2))
    ∧ (∃ (s : State) (mosi : List Byte), byteAt mosi 0 = 1 ∧ leAt mosi 2 2 % 4 = 0 ∧ 16 ≤ leAt mosi 2 2 ∧ leAt mosi 2 2 ≤ 4096 ∧ 16 * ceilDiv (leAt mosi 2 2) 64 ≤ s.blk.credit (s.blk.queues.get 27) ∧ 6 + leAt mosi 2 2 ≤ mosi.length ∧ crc16 (slice mosi 2 (2 + leAt mosi 2 2)) ≠ leAt mosi (4 + leAt mosi 2 2) 2)
    ∧ (∃ (s : State) (mosi : List Byte), byteAt mosi 0 = 1 ∧ leAt mosi 2 2 % 4 = 0 ∧ 16 ≤ leAt mosi 2 2 ∧ leAt mosi 2 2 ≤ 4096 ∧ 16 * ceilDiv (leAt mosi 2 2) 64 ≤ s.blk.credit (s.blk.queues.get 27) ∧ 6 + leAt mosi 2 2 ≤ mosi.length ∧ crc16 (slice mosi 2 (2 + leAt mosi 2 2)) = leAt mosi (4 + leAt mosi 2 2) 2)
    ∧ (∃ (s : State) (m : Msg) (rest : List Msg) (mosi : List Byte), byteAt mosi 0 = 2 ∧ byteAt mosi 1 = 0 ∧ m.words ≠ [] ∧ s.blk.visible (s.blk.queues.get 28) = m :: rest)
    ∧ (∃ (s : State), s.blk.rcc.mode ≠ Mode.service ∧ s.blk.rcc.mode ≠ Mode.recovery)
    ∧ (∃ (s : State) (raw : List Byte) (l : List Byte), s.blk.rcc.mode = Mode.service ∧ unescape raw = some l ∧ 19 ≤ l.length ∧ l.length ≤ 4099 ∧ l.length % 4 = 3 ∧ byteAt l 0 = 1 ∧ crc16 (List.take (l.length - 2) l) = leAt l (l.length - 2) 2 ∧ 16 * ceilDiv (l.length - 3) 64 ≤ s.blk.credit (s.blk.queues.get 33))
    ∧ (∃ (s : State) (raw : List Byte), s.blk.rcc.mode = Mode.service ∧ unescape raw = none)
    ∧ (∃ (s : State) (note : Bool) (m : Msg) (rest : List Msg), s.blk.rcc.mode = Mode.service ∧ s.blk.visible (s.blk.queues.get (uartQueue note)) = m :: rest) :=
  ⟨⟨[1, 0, 3, 0], by decide +kernel⟩,
   ⟨s1, spiW 1, by decide +kernel⟩,
   ⟨s1, spiW 0, by decide +kernel⟩,
   ⟨s6, ((s6.blk.visible (s6.blk.queues.get 28)).headD default), (s6.blk.visible (s6.blk.queues.get 28)).tail, [2, 0], by decide +kernel⟩,
   ⟨State.reset, by decide +kernel⟩,
   ⟨s7, escape frame, ((unescape (escape frame)).getD default), by decide +kernel⟩,
   ⟨s7, [0x7D], by decide +kernel⟩,
   ⟨s8, true, ((s8.blk.visible (s8.blk.queues.get (uartQueue true))).headD default), (s8.blk.visible (s8.blk.queues.get (uartQueue true))).tail, by decide +kernel⟩⟩

end C08

namespace C09
def q0 (f : Queue → Queue) : Blk → Blk := fun b => { b with queues := (upTo 37).foldl (fun v i => vmod v (Fin.castLE (by decide) i) f) b.queues }
def qe (ow : Word) (f : Queue → Queue := id) : Blk → Blk := q0 fun q => f { q with limits := 0x01000008, owners := ow ||| 0x80000, holdCfg := 4 }
def full : Blk → Blk := fun b => (inMode .run (ch0 (fun c => { c with cmdGrant := 0xFFFFFFFF }) (pow b)))
def asm (b : Blk) : Blk := { b with mboxes := b.mboxes.map fun m => { m with assembly := some (0x101, 8, [], 1) } }
def rsp (n : Nat) (b : Blk) : Blk := { b with mboxes := b.mboxes.map fun m => { m with resps := [{ opcode := 0x101, client := 7, who := 3, flags := 1, status := 0, ebn := 5, payload := if n = 3 then bs [1,2,3] else List.replicate n 3 }] } }
def s1 : State := st fun b => asm (full b)
def s2 : State := st fun b => { full b with variant := .nz820 }
def s3 : State := st fun b => inMode .recovery (full b)
def s4 : State := st full
def s5 : State := st fun b => ch0 (fun c => { c with owner := .tenant 3 }) (full b)
def s6 : State := st fun b => inMode .run b
def s7 : State := st fun b => let c := full b; { c with bridges := c.bridges.map fun x => { x with state := .service } }
def s8 : State := st fun b => rsp 3 (qe 0x2020 id b)
def s9 : State := st fun b => rsp 5000 (qe 0x2020 id b)
def s10 : State := st fun b => rsp 3 (qe 0x2020 (fun q => { q with limits := 0 }) b)
def s11 : State := st fun b => (full b).onEvs fun e => { e with scanning := false, logTotal := 5 }
def s12 : State := st fun b => { (full b) with breath := { b.breath with running := true, phase := 4 } }
def s13 : State := st fun b => { (full b) with motion := { b.motion with notReady := false, fault := false } }
def s14 : State := st fun b => (full b).onSec fun x => { x with husk := .available }
def s15 : State := st fun b => (full b).onEvs fun e => { e with lastCmdSeal := some 5, scanning := false }
def s16 : State := st fun b => inMode .service (full b)
def s17 : State := st fun b => (full b).onTb fun t => { t with state := .master }
def s18 : State := st fun b => { (full b) with nms := b.nms.map fun n => { n with ctrl := 0x05000617, state := .ring } }

/-- The hypotheses of each clause of `RequestsAreScreened` are met together. -/
theorem test_meets_RequestsAreScreened :
    (∃ (s : State) (m : Fin 12) (n : BitVec 16), n.toNat < 16 ∧ (s.blk.mboxes.get m).assembly = none ∧ Safety.room s.blk (srcOf 8 (256 + ↑m)))
    ∧ (∃ (s : State) (r : Req) (op : BitVec 16), op.toNat ∉ knownOpcodes ∧ (s.blk.mboxes.get r.mb).assembly = none)
    ∧ (∃ (s : State) (r : Req), (s.blk.mboxes.get r.mb).assembly = none ∧ r.len.toNat ≤ 4080 ∧ r.words = ceilDiv (16 + r.len.toNat) 4 ∧ isPart r = false ∧ r.len.toNat ≠ 0)
    ∧ (∃ (s : State) (r : Req), (s.blk.mboxes.get r.mb).assembly = none ∧ r.len.toNat ≤ 4080 ∧ r.words = ceilDiv (16 + r.len.toNat) 4 ∧ isPart r = true)
    ∧ (∃ (s : State) (r : Req) (o : BitVec 16) (c : Word) (l : List Byte) (n : Nat), (s.blk.mboxes.get r.mb).assembly = some (o, c, l, n) ∧ (o ≠ 258 ∨ c ≠ r.client) ∧ s.blk.rcc.mode = Mode.run ∧ r.len = 0 ∧ r.words = 4 ∧ isPart r = false ∧ flagErr r = none ∧ Safety.room s.blk (srcOf 8 (256 + ↑r.mb)))
    ∧ (∃ (s : State) (r : Req), Safety.wellSent cmdChGet r s.blk ∧ s.blk.variant = Variant.nz820 ∧ 20 ≤ BitVec.toNat (byteAt (Safety.payload r) 0) ∧ BitVec.toNat (byteAt (Safety.payload r) 0) < 40)
    ∧ (∃ (s : State) (r : Req), Safety.wellSent cmdModeSet r s.blk ∧ s.blk.rcc.mode = Mode.recovery)
    ∧ (∃ (s : State) (r : Req) (k : Fin 8), Safety.wellSent cmdLogSeal r s.blk ∧ s.blk.rcc.mode = Mode.run ∧ mbOwner r.mb = Initiator.tenant k)
    ∧ (∃ (s : State) (r : Req) (c : Fin 40), Safety.wellSent cmdChSet r s.blk ∧ s.blk.rcc.mode = Mode.run ∧ chanAt (Safety.payload r) 0 = some c ∧ s.blk.hasChan c = true ∧ (s.blk.ch c).owner ≠ Initiator.chanter)
    ∧ (∃ (s : State) (r : Req), Safety.wellSent cmdTimeGet r s.blk ∧ s.blk.rcc.mode = Mode.run ∧ (BitVec.toNat r.flags % 2 = 1 ∨ 224 ≤ BitVec.toNat r.flags))
    ∧ (∃ (s : State) (r : Req) (c : Fin 40), Safety.accepted cmdChGet r s.blk ∧ chanAt (Safety.payload r) 0 = some c ∧ s.blk.hasChan c = true ∧ nonZeroAt (Safety.payload r) 1 3 = none ∧ ((s.blk.bridges.get (kOf c)).state = Boundary.isolated ∨ (s.blk.bridges.get (kOf c)).state = Boundary.rejoining))
    ∧ (∃ (s : State) (r : Req) (c : Fin 40), Safety.accepted cmdChGet r s.blk ∧ chanAt (Safety.payload r) 0 = some c ∧ s.blk.hasChan c = true ∧ nonZeroAt (Safety.payload r) 1 3 = none ∧ (s.blk.bridges.get (kOf c)).state = Boundary.service) :=
  ⟨⟨State.reset, 0, 3, by unfold Safety.room; decide +kernel⟩,
   ⟨State.reset, mkReq 9 (List.replicate 8 0), 3, by decide +kernel⟩,
   ⟨State.reset, mkReq 9 (List.replicate 8 0), by decide +kernel⟩,
   ⟨State.reset, mkReq 0 [] 7 4, by decide +kernel⟩,
   ⟨s1, mkReq 0 [], (((s1.blk.mboxes.get (mkReq 0 []).mb).assembly).getD default).1, (((s1.blk.mboxes.get (mkReq 0 []).mb).assembly).getD default).2.1, (((s1.blk.mboxes.get (mkReq 0 []).mb).assembly).getD default).2.2.1, (((s1.blk.mboxes.get (mkReq 0 []).mb).assembly).getD default).2.2.2, by unfold Safety.room; decide +kernel⟩,
   ⟨s2, mkReq 0 (bs [25,0,0,0]), by unfold Safety.wellSent; decide +kernel⟩,
   ⟨s3, mkReq 9 (List.replicate 8 0), by unfold Safety.wellSent; decide +kernel⟩,
   ⟨s4, mkReq 0 [], 0, by unfold Safety.wellSent; decide +kernel⟩,
   ⟨s5, mkReq 9 (bs [0,1,1,0,0,0,0,0,3,0,0,0,0,0,0,0]), ((chanAt (Safety.payload (mkReq 9 (bs [0,1,1,0,0,0,0,0,3,0,0,0,0,0,0,0]))) 0).getD default), by unfold Safety.wellSent; decide +kernel⟩,
   ⟨s4, mkReq 3 [] 7 1, by unfold Safety.wellSent; decide +kernel⟩,
   ⟨s6, mkReq 3 (bs [0,0,0,0]), ((chanAt (Safety.payload (mkReq 3 (bs [0,0,0,0]))) 0).getD default), by unfold Safety.accepted; decide +kernel⟩,
   ⟨s7, mkReq 3 (bs [0,0,0,0]), ((chanAt (Safety.payload (mkReq 3 (bs [0,0,0,0]))) 0).getD default), by unfold Safety.accepted; decide +kernel⟩⟩

/-- The hypotheses of each clause of `ResponsesArePlaced` are met together. -/
theorem test_meets_ResponsesArePlaced :
    (∃ (s : State) (m : Fin 12) (a : Resp) (rest : List Resp), (s.blk.mboxes.get m).resps = a :: rest ∧ (s.blk.mboxes.get m).notes = [] ∧ (s.blk.queues.get (mbQueue m 1)).enabled = true ∧ s.blk.queueShut (s.blk.queues.get (mbQueue m 1)) = false ∧ a.payload.length ≤ 4080 ∧ s.blk.hasRoom (mbQueue m 1) (ceilDiv (16 + a.payload.length) 4) = true)
    ∧ (∃ (s : State) (m : Fin 12) (a : Resp) (rest : List Resp), (s.blk.mboxes.get m).resps = a :: rest ∧ (s.blk.mboxes.get m).notes = [] ∧ (s.blk.queues.get (mbQueue m 1)).enabled = true ∧ s.blk.queueShut (s.blk.queues.get (mbQueue m 1)) = false ∧ 4080 < a.payload.length ∧ s.blk.hasRoom (mbQueue m 1) 1024 = true)
    ∧ (∃ (s : State) (m : Fin 12) (a : Resp) (rest : List Resp), (s.blk.mboxes.get m).resps = a :: rest ∧ (s.blk.mboxes.get m).notes = [] ∧ (s.blk.queues.get (mbQueue m 1)).enabled = true ∧ s.blk.queueShut (s.blk.queues.get (mbQueue m 1)) = false ∧ a.payload.length ≤ 4080 ∧ s.blk.hasRoom (mbQueue m 1) (ceilDiv (16 + a.payload.length) 4) = false)
    ∧ (∃ (s : State) (m : Fin 12) (a : Resp) (rest : List Resp), (s.blk.mboxes.get m).resps = a :: rest ∧ Safety.room s.blk (srcOf 8 (256 + ↑m))) :=
  ⟨⟨s8, 0, (((s8.blk.mboxes.get (0 : Fin 12)).resps).headD default), ((s8.blk.mboxes.get (0 : Fin 12)).resps).tail, by decide +kernel⟩,
   ⟨s9, 0, (((s9.blk.mboxes.get (0 : Fin 12)).resps).headD default), ((s9.blk.mboxes.get (0 : Fin 12)).resps).tail, by decide +kernel⟩,
   ⟨s10, 0, (((s10.blk.mboxes.get (0 : Fin 12)).resps).headD default), ((s10.blk.mboxes.get (0 : Fin 12)).resps).tail, by decide +kernel⟩,
   ⟨s8, 0, (((s8.blk.mboxes.get (0 : Fin 12)).resps).headD default), ((s8.blk.mboxes.get (0 : Fin 12)).resps).tail, by unfold Safety.room; decide +kernel⟩⟩

/-- The hypotheses of each clause of `ReadingCommandsAnswer` are met together. -/
theorem test_meets_ReadingCommandsAnswer :
    (∃ (s : State) (r : Req), Safety.accepted cmdEcho r s.blk)
    ∧ (∃ (s : State) (r : Req), Safety.accepted cmdGetCaps r s.blk)
    ∧ (∃ (s : State) (r : Req), Safety.accepted cmdGetVersions r s.blk)
    ∧ (∃ (s : State) (r : Req) (cert : List Byte), Safety.accepted cmdGetIdentity r s.blk ∧ nonZeroAt (Safety.payload r) 1 3 = none ∧ (byteAt (Safety.payload r) 0 = 0 ∧ cert = s.blk.sec.certId ∨ byteAt (Safety.payload r) 0 = 1 ∧ cert = s.blk.sec.certAtt))
    ∧ (∃ (s : State) (r : Req), Safety.accepted cmdGetHealth r s.blk)
    ∧ (∃ (s : State) (r : Req), Safety.accepted cmdModeGet r s.blk)
    ∧ (∃ (s : State) (r : Req), Safety.accepted cmdResetCause r s.blk)
    ∧ (∃ (s : State) (r : Req), Safety.accepted cmdCfgInfo r s.blk)
    ∧ (∃ (s : State) (r : Req), Safety.accepted cmdLogInfo r s.blk)
    ∧ (∃ (s : State) (r : Req), Safety.accepted cmdLogRead r s.blk ∧ s.blk.evs.scanning = false ∧ byteAt (Safety.payload r) 0 = 0 ∧ byteAt (Safety.payload r) 1 = 1 ∧ leAt (Safety.payload r) 2 2 = 1 ∧ nonZeroAt (Safety.payload r) 4 4 = none ∧ leAt (Safety.payload r) 8 8 < logSlots ∧ s.blk.nvm.badWords = [] ∧ s.blk.evs.oldest = 0 ∧ leAt (Safety.payload r) 8 8 < s.blk.evs.ringCount)
    ∧ (∃ (s : State) (r : Req), Safety.accepted cmdTimeGet r s.blk)
    ∧ (∃ (s : State) (r : Req) (p : Fin 13), Safety.accepted cmdPortGet r s.blk ∧ byteAt (Safety.payload r) 0 = BitVec.ofNat 8 ↑p ∧ s.blk.hasPort p = true ∧ nonZeroAt (Safety.payload r) 1 3 = none)
    ∧ (∃ (s : State) (r : Req) (c : Fin 6), Safety.accepted cmdCanGet r s.blk ∧ byteAt (Safety.payload r) 0 = BitVec.ofNat 8 ↑c ∧ nonZeroAt (Safety.payload r) 1 3 = none)
    ∧ (∃ (s : State) (r : Req), Safety.accepted cmdKeyInfo r s.blk)
    ∧ (∃ (s : State) (r : Req), Safety.accepted cmdTamperGet r s.blk)
    ∧ (∃ (s : State) (r : Req), Safety.accepted cmdUpdStatus r s.blk) :=
  ⟨⟨State.reset, mkReq 9 (List.replicate 8 0), by unfold Safety.accepted; decide +kernel⟩,
   ⟨State.reset, mkReq 0 [], by unfold Safety.accepted; decide +kernel⟩,
   ⟨State.reset, mkReq 0 [], by unfold Safety.accepted; decide +kernel⟩,
   ⟨State.reset, mkReq 3 (bs [0,0,0,0]), State.reset.blk.sec.certId, by unfold Safety.accepted; decide +kernel, by decide +kernel, Or.inl ⟨by decide +kernel, rfl⟩⟩,
   ⟨State.reset, mkReq 0 [], by unfold Safety.accepted; decide +kernel⟩,
   ⟨State.reset, mkReq 0 [], by unfold Safety.accepted; decide +kernel⟩,
   ⟨State.reset, mkReq 9 [], by unfold Safety.accepted; decide +kernel⟩,
   ⟨State.reset, mkReq 0 [], by unfold Safety.accepted; decide +kernel⟩,
   ⟨State.reset, mkReq 8 [], by unfold Safety.accepted; decide +kernel⟩,
   ⟨s11, mkReq 9 (bs [0,1,1,0,0,0,0,0,3,0,0,0,0,0,0,0]), by unfold Safety.accepted; decide +kernel⟩,
   ⟨State.reset, mkReq 0 [], by unfold Safety.accepted; decide +kernel⟩,
   ⟨s4, mkReq 3 (bs [0,0,0,0]), 0, by unfold Safety.accepted; decide +kernel⟩,
   ⟨s4, mkReq 3 (bs [0,0,0,0]), 0, by unfold Safety.accepted; decide +kernel⟩,
   ⟨s4, mkReq 0 [], by unfold Safety.accepted; decide +kernel⟩,
   ⟨State.reset, mkReq 9 [], by unfold Safety.accepted; decide +kernel⟩,
   ⟨State.reset, mkReq 9 [], by unfold Safety.accepted; decide +kernel⟩⟩

/-- The hypotheses of each clause of `ActingCommandsAct` are met together. -/
theorem test_meets_ActingCommandsAct :
    (∃ (s : State) (r : Req) (c : Fin 40), Safety.accepted cmdChGet r s.blk ∧ chanAt (Safety.payload r) 0 = some c ∧ s.blk.hasChan c = true ∧ nonZeroAt (Safety.payload r) 1 3 = none ∧ (s.blk.bridges.get (kOf c)).state = Boundary.joined)
    ∧ (∃ (s : State) (r : Req) (k : Fin 4) (off : Nat) (n : Nat), Safety.accepted cmdInGet r s.blk ∧ nonZeroAt (Safety.payload r) 2 2 = none ∧ inputPlace (BitVec.toNat (byteAt (Safety.payload r) 0)) (BitVec.toNat (byteAt (Safety.payload r) 1)) = some (k, off, n) ∧ s.blk.hasKernel k = true ∧ (s.blk.bridges.get k).state = Boundary.joined)
    ∧ (∃ (s : State) (r : Req) (c : Fin 40), Safety.accepted cmdChSet r s.blk ∧ chanAt (Safety.payload r) 0 = some c ∧ s.blk.hasChan c = true ∧ (s.blk.ch c).owner = Initiator.chanter ∧ (s.blk.ch c).grants (mbOwner r.mb) = true ∧ firstErr (s.blk.chSetErrs c (Safety.payload r)) = none ∧ (s.blk.bridges.get (kOf c)).state = Boundary.joined ∧ s.blk.mustCarry = false ∧ BitVec.toNat (byteAt (Safety.payload r) 1) = 15)
    ∧ (∃ (s : State) (r : Req), Safety.accepted cmdChSet r s.blk ∧ (∃ (c : Fin 40), chanAt (Safety.payload r) 0 = some c ∧ s.blk.hasChan c = true ∧ (s.blk.ch c).owner = Initiator.chanter ∧ (s.blk.ch c).grants (mbOwner r.mb) = true ∧ firstErr (s.blk.chSetErrs c (Safety.payload r)) = none ∧ (s.blk.bridges.get (kOf c)).state = Boundary.joined) ∧ s.blk.mustCarry = true)
    ∧ (∃ (s : State) (r : Req) (c : Fin 40), Safety.accepted cmdChClear r s.blk ∧ chanAt (Safety.payload r) 0 = some c ∧ s.blk.hasChan c = true ∧ ((s.blk.ch c).owner = mbOwner r.mb ∨ hosts (mbOwner r.mb) = true ∧ ((s.blk.ch c).owner ≠ Initiator.safety ∨ s.blk.rcc.mode = Mode.service)) ∧ s.blk.isFollower c = false ∧ BitVec.toNat (byteAt (Safety.payload r) 1) < 8 ∧ nonZeroAt (Safety.payload r) 2 2 = none ∧ (s.blk.bridges.get (kOf c)).state = Boundary.joined ∧ s.blk.mustCarry = false)
    ∧ (∃ (s : State) (r : Req) (c : Fin 40) (n : Fin 4), Safety.accepted cmdSenseRoute r s.blk ∧ byteAt (Safety.payload r) 0 = BitVec.ofNat 8 ↑n ∧ chanAt (Safety.payload r) 1 = some c ∧ s.blk.hasChan c = true ∧ nonZeroAt (Safety.payload r) 2 2 = none ∧ (∀ (k : Fin 4), (s.blk.bridges.get k).state = Boundary.joined) ∧ s.blk.mustCarry = false)
    ∧ (∃ (s : State) (r : Req), Safety.accepted cmdMotionRefSet r s.blk ∧ (s.blk.bridges.get 0).state = Boundary.joined ∧ s.blk.motion.notReady = false ∧ s.blk.motion.fault = false)
    ∧ (∃ (s : State) (r : Req), Safety.accepted cmdLogSeal r s.blk ∧ s.blk.keysReady = true ∧ s.blk.evs.lastCmdSeal = none)
    ∧ (∃ (s : State) (d : BitVec 64) (r : Req), Safety.accepted cmdLogSeal r s.blk ∧ s.blk.evs.lastCmdSeal = some d ∧ s.blk.since d < 9999000001)
    ∧ (∃ (s : State) (r : Req), Safety.accepted cmdSealGet r s.blk ∧ nonZeroAt (Safety.payload r) 1 3 = none ∧ BitVec.toNat (byteAt (Safety.payload r) 0) ≤ 1)
    ∧ (∃ (s : State) (r : Req), Safety.accepted cmdPinRelease r s.blk ∧ leAt (Safety.payload r) 0 8 ≤ s.blk.evs.sealEndSeq.toNat)
    ∧ (∃ (s : State) (r : Req), Safety.accepted cmdNotifySet r s.blk ∧ leAt (Safety.payload r) 0 2 % 2 = 0 ∧ leAt (Safety.payload r) 0 2 < 4096 ∧ nonZeroAt (Safety.payload r) 2 2 = none)
    ∧ (∃ (s : State) (r : Req), Safety.accepted cmdTimeSet r s.blk ∧ BitVec.toNat (byteAt (Safety.payload r) 8) = 1 ∧ nonZeroAt (Safety.payload r) 9 3 = none ∧ s.blk.time.state ≠ TbState.unsynced ∧ s.blk.time.syncEn = false ∧ BitVec.toNat s.blk.time.stepThresh < leAt (Safety.payload r) 0 8 ∧ leAt (Safety.payload r) 0 8 < 2 ^ 63)
    ∧ (∃ (s : State) (r : Req) (p : Fin 13), Safety.accepted cmdPortSet r s.blk ∧ byteAt (Safety.payload r) 0 = BitVec.ofNat 8 ↑p ∧ ↑p < 11 ∧ s.blk.hasPort p = true ∧ nonZeroAt (Safety.payload r) 2 2 = none ∧ s.blk.sec.session = none ∧ byteAt (Safety.payload r) 1 = 1)
    ∧ (∃ (s : State) (r : Req) (p : Fin 13), Safety.accepted cmdPortSet r s.blk ∧ byteAt (Safety.payload r) 0 = BitVec.ofNat 8 ↑p ∧ ↑p < 11 ∧ s.blk.hasPort p = true ∧ nonZeroAt (Safety.payload r) 2 2 = none ∧ s.blk.sec.session = none ∧ byteAt (Safety.payload r) 1 = 0)
    ∧ (∃ (s : State) (r : Req) (n : Fin 10), Safety.accepted cmdBridgeClear r s.blk ∧ byteAt (Safety.payload r) 0 = BitVec.ofNat 8 ↑n ∧ s.blk.variant = Variant.nz840 ∧ (hosts (mbOwner r.mb) = true ∨ mbOwner r.mb = slotInit n) ∧ nonZeroAt (Safety.payload r) 1 3 = none)
    ∧ (∃ (s : State) (r : Req) (c : Fin 6), Safety.accepted cmdNmRequest r s.blk ∧ byteAt (Safety.payload r) 0 = BitVec.ofNat 8 ↑c ∧ (s.blk.nm c).en = true ∧ nonZeroAt (Safety.payload r) 2 2 = none ∧ byteAt (Safety.payload r) 1 = 0)
    ∧ (∃ (s : State) (r : Req) (c : Fin 6), Safety.accepted cmdNmRequest r s.blk ∧ byteAt (Safety.payload r) 0 = BitVec.ofNat 8 ↑c ∧ (s.blk.nm c).en = true ∧ nonZeroAt (Safety.payload r) 2 2 = none ∧ byteAt (Safety.payload r) 1 = 1) :=
  ⟨⟨s4, mkReq 3 (bs [0,0,0,0]), ((chanAt (Safety.payload (mkReq 3 (bs [0,0,0,0]))) 0).getD default), by unfold Safety.accepted; decide +kernel⟩,
   ⟨s4, mkReq 3 (bs [0,0,0,0]), ((inputPlace (BitVec.toNat (byteAt (Safety.payload (mkReq 3 (bs [0,0,0,0]))) 0)) (BitVec.toNat (byteAt (Safety.payload (mkReq 3 (bs [0,0,0,0]))) 1))).getD default).1, ((inputPlace (BitVec.toNat (byteAt (Safety.payload (mkReq 3 (bs [0,0,0,0]))) 0)) (BitVec.toNat (byteAt (Safety.payload (mkReq 3 (bs [0,0,0,0]))) 1))).getD default).2.1, ((inputPlace (BitVec.toNat (byteAt (Safety.payload (mkReq 3 (bs [0,0,0,0]))) 0)) (BitVec.toNat (byteAt (Safety.payload (mkReq 3 (bs [0,0,0,0]))) 1))).getD default).2.2, by unfold Safety.accepted; decide +kernel⟩,
   ⟨s4, mkReq 0 (bs [0,15,1,2,3,0,0xE8,3,0,0,0,0,0,0,0,0]), ((chanAt (Safety.payload (mkReq 0 (bs [0,15,1,2,3,0,0xE8,3,0,0,0,0,0,0,0,0]))) 0).getD default), by unfold Safety.accepted; decide +kernel⟩,
   ⟨s12, mkReq 9 (bs [0,1,1,0,0,0,0,0,3,0,0,0,0,0,0,0]), by unfold Safety.accepted; decide +kernel⟩,
   ⟨s4, mkReq 9 (bs [0,0,0,0]), ((chanAt (Safety.payload (mkReq 9 (bs [0,0,0,0]))) 0).getD default), by unfold Safety.accepted; decide +kernel⟩,
   ⟨s4, mkReq 8 (bs [0,0,0,0]), ((chanAt (Safety.payload (mkReq 8 (bs [0,0,0,0]))) 1).getD default), 0, by unfold Safety.accepted; decide +kernel⟩,
   ⟨s13, mkReq 9 [], by unfold Safety.accepted; decide +kernel⟩,
   ⟨s14, mkReq 9 [], by unfold Safety.accepted; decide +kernel⟩,
   ⟨s15, (s15.blk.evs.lastCmdSeal.getD default), mkReq 9 [], by unfold Safety.accepted; decide +kernel⟩,
   ⟨State.reset, mkReq 8 (bs [0,0,0,0]), by unfold Safety.accepted; decide +kernel⟩,
   ⟨s16, mkReq 10 (List.replicate 8 0), by unfold Safety.accepted; decide +kernel⟩,
   ⟨State.reset, mkReq 3 (bs [0,0,0,0]), by unfold Safety.accepted; decide +kernel⟩,
   ⟨s17, mkReq 9 (bs [0,0,0,0,1,0,0,0,1,0,0,0]), by unfold Safety.accepted; decide +kernel⟩,
   ⟨s4, mkReq 9 (bs [3,1,0,0]), 3, by unfold Safety.accepted; decide +kernel⟩,
   ⟨s4, mkReq 9 (bs [0,0,0,0]), 0, by unfold Safety.accepted; decide +kernel⟩,
   ⟨s4, mkReq 0 (bs [0,0,0,0]), 0, by unfold Safety.accepted; decide +kernel⟩,
   ⟨s18, mkReq 3 (bs [0,0,0,0]), 0, by unfold Safety.accepted; decide +kernel⟩,
   ⟨s18, mkReq 3 (bs [0,1,0,0]), 0, by unfold Safety.accepted; decide +kernel⟩⟩

end C09

namespace C10
def d0 : Due := { mb := 9, client := 7, who := 0x30, opcode := 0x304 }
def rec1 (t i : Nat) (body : List Byte) : List Byte := leBytes 2 t ++ leBytes 2 i ++ leBytes 4 body.length ++ body ++ List.replicate (ceilDiv body.length 8 * 8 - body.length) 0
def qrec (q own : Nat) : List Byte := rec1 0x20 q (leBytes 4 0x00400000 ++ leBytes 4 own ++ leBytes 4 0)
def recsI : List Byte := rec1 1 0 [0] ++ qrec 27 0x42030 ++ qrec 28 0x3020 ++ qrec 29 0x3020 ++ qrec 30 0x42031 ++ qrec 31 0x3120 ++ qrec 32 0x3120 ++ qrec 33 0x42032 ++ qrec 34 0x3220 ++ qrec 35 0x3220 ++ qrec 40 0x3020FF
def imgI : List Byte := let h := leBytes 2 1 ++ leBytes 2 256 ++ leBytes 4 5 ++ leBytes 4 (256 + recsI.length + 4627) ++ leBytes 2 1 ++ leBytes 2 11 ++ leBytes 16 0 ++ [1, 0, 0, 0] ++ leBytes 4 0 ++ digestBytes (Config.sha3 recsI) ++ List.replicate 152 0
  h ++ recsI ++ List.replicate 4627 3
def memI : List Host.Cell := Mem.writeBytes [] 0x08CA0000 imgI
def run (f : Blk → Blk) : State := st fun b => f (inMode .run (pow b))
def withSlots (b : Blk) : Blk := (upTo 13).foldl (fun b i => b.modComp i fun c => { c with a := { c.a with state := .active }, b := { c.b with state := .verified, len := imgI.length, digest := Config.sha3 imgI } }) b
def tn0 (f : Tenant → Tenant) : Blk → Blk := fun b => { b with tenants := b.tenants.map fun t => f { t with cfg := { t.cfg with enabled := true, granules := [2, 5], resetLimit := 4, faultLimit := 3, windows := [{ vcpu := 1, core := 0, start := 40, len := 50 }] } } }
def cf (f : CfgSvc → CfgSvc) : Blk → Blk := fun b => b.onCfg f
def s1 : State := run id
def s2 : State := run (cf fun c => { c with shadow := .loading, shadowLen := 4 })
def s3 : State := { run (cf fun c => { c with shadow := .verifying, verifyDue := some d0, loaded := imgI.length, shadowLen := imgI.length, shadowDigest := Config.sha3 imgI }) with mem := memI }
def s4 : State := { run (fun b => withSlots (cf (fun c => { c with shadow := .verified, shadowId := 5 }) b)) with mem := memI }
def s5 : State := run (cf fun c => { c with shadow := .scheduled, swapBn := some 1, swapImage := some im0 })
def s6 : State := run (cf fun c => { c with shadow := .scheduled, swapBn := some 7, swapImage := some im0 })
def s7 : State := run fun b => { b with bridges := b.bridges.map fun x => { x with state := .service } }
def s8 : State := run fun b => kn0 (fun k => { k with removing := true }) { b with bridges := b.bridges.map fun x => { x with state := .service } }
def s9 : State := run fun b => kn0 (fun k => { k with trimWrites := 100 }) { b with bridges := b.bridges.map fun x => { x with state := .service } }
def s10 : State := run fun b => kn0 (fun k => { k with service := some 2 }) b
def s11 : State := run fun b => kn0 (fun k => { k with service := some 3 }) b
def s12 : State := run fun b => kn0 (fun k => { k with service := some 1 }) b
def s13 : State := run (tn0 fun t => { t with state := .running })
def s14 : State := run (tn0 fun t => { t with state := .stopped })
def s15 : State := { run (tn0 fun t => { t with state := .stopping }) with mem := [(0x80000000 + 0x200000 * 2, 5), (0x80000000 + 0x200000 * 3, 6)] }
def s16 : State := run (fun b => (tn0 (fun t => { t with state := .running }) (withSlots b)).onSec fun x => { x with husk := .available })
def s17 : State := { run (fun b => withSlots (tn0 (fun t => { t with state := .starting, trySlot := false }) b)) with mem := memI }
def s18 : State := run (tn0 fun t => { t with state := .running, faults := 5 })
def s19 : State := run (fun b => (tn0 (fun t => { t with state := .running }) b).onBre fun r => { r with tovrConsec := Vector.replicate 8 9 })
def s20 : State := run (fun b => (tn0 (fun t => { t with state := .running, cfg := { t.cfg with resetLimit := 1 } })) b)

/-- The hypotheses of each clause of `ConfigurationsLoadVerifyAndSwap` are met together. -/
theorem test_meets_ConfigurationsLoadVerifyAndSwap :
    (∃ (s : State) (r : Req), Safety.accepted cmdCfgLoadBegin r s.blk ∧ 1 ≤ leAt (Safety.payload r) 0 4 ∧ leAt (Safety.payload r) 0 4 ≤ 2097152 ∧ nonZeroAt (Safety.payload r) 4 4 = none ∧ s.blk.cfg.shadow ≠ Shadow.scheduled ∧ s.blk.cfg.shadow ≠ Shadow.verifying)
    ∧ (∃ (s : State) (r : Req), Safety.canonical s ∧ Safety.accepted cmdCfgLoadData r s.blk ∧ leAt (Safety.payload r) 0 4 = s.blk.cfg.loaded ∧ nonZeroAt (Safety.payload r) 4 4 = none ∧ s.blk.cfg.shadow = Shadow.loading ∧ s.blk.cfg.loaded + ((Safety.payload r).length - 8) ≤ s.blk.cfg.shadowLen ∧ s.blk.cfg.shadowLen ≤ 2097152)
    ∧ (∃ (s : State) (r : Req), Safety.accepted cmdCfgLoadData r s.blk ∧ leAt (Safety.payload r) 0 4 ≠ s.blk.cfg.loaded)
    ∧ (∃ (s : State) (r : Req), Safety.accepted cmdCfgVerify r s.blk ∧ s.blk.cfg.shadow ≠ Shadow.scheduled ∧ s.blk.cfg.shadow ≠ Shadow.verifying)
    ∧ (∃ (s : State) (d : Due), s.blk.cfg.shadow = Shadow.verifying ∧ s.blk.cfg.verifyDue = some d ∧ Safety.room s.blk srcSys)
    ∧ (∃ (s : State) (r : Req), Safety.accepted cmdCfgSwap r s.blk ∧ s.blk.cfg.shadow = Shadow.verified ∧ s.blk.cfg.swapBn = none ∧ wordAt (Safety.payload r) 0 = s.blk.cfg.shadowId ∧ nonZeroAt (Safety.payload r) 4 4 = none ∧ leAt (Safety.payload r) 8 8 = 0 ∧ s.blk.breath.bn.toNat + 2 < 2 ^ 48)
    ∧ (∃ (s : State) (n : BitVec 48) (r : Req), Safety.accepted cmdCfgCancel r s.blk ∧ s.blk.cfg.swapBn = some n ∧ n.toNat < s.blk.breath.bn.toNat + 2)
    ∧ (∃ (s : State) (n : BitVec 48) (r : Req), Safety.accepted cmdCfgCancel r s.blk ∧ s.blk.cfg.swapBn = some n ∧ s.blk.breath.bn.toNat + 2 ≤ n.toNat ∧ Safety.room s.blk srcSys)
    ∧ (∃ (s : State) (im : Image), s.blk.cfg.swapBn = some (s.blk.breath.bn + 1) ∧ s.blk.cfg.swapImage = some im) :=
  ⟨⟨s1, mkReq 9 (bs ([0,1,0,0,0,0,0,0] ++ List.replicate 64 0)), by unfold Safety.accepted; decide +kernel⟩,
   ⟨s2, mkReq 9 (bs [0,0,0,0,0,0,0,0,1,2,3,4]), by unfold Safety.accepted Safety.canonical; decide +kernel⟩,
   ⟨s1, mkReq 9 (bs ([0,1,0,0,0,0,0,0] ++ List.replicate 64 0)), by unfold Safety.accepted; decide +kernel⟩,
   ⟨s1, mkReq 9 [], by unfold Safety.accepted; decide +kernel⟩,
   ⟨s3, (s3.blk.cfg.verifyDue.getD default), by unfold Safety.room; decide +kernel⟩,
   ⟨s4, mkReq 9 (bs ([5,0,0,0,0,0,0,0] ++ List.replicate 8 0)), by unfold Safety.accepted; decide +kernel⟩,
   ⟨s5, (s5.blk.cfg.swapBn.getD default), mkReq 9 [], by unfold Safety.accepted; decide +kernel⟩,
   ⟨s6, (s6.blk.cfg.swapBn.getD default), mkReq 9 [], by unfold Safety.accepted Safety.room; decide +kernel⟩,
   ⟨s5, (s5.blk.cfg.swapImage.getD default), by decide +kernel⟩⟩

/-- The hypotheses of each clause of `KernelServiceRuns` are met together. -/
theorem test_meets_KernelServiceRuns :
    (∃ (s : State) (r : Req) (k : Fin 4), Safety.accepted cmdKernelService r s.blk ∧ (s.blk.rcc.mode = Mode.run → s.blk.full = true) ∧ kernelArg (Safety.payload r) = some k ∧ s.blk.hasKernel k = true ∧ nonZeroAt (Safety.payload r) 2 2 = none ∧ s.blk.cfg.swapBn = none ∧ byteAt (Safety.payload r) 1 = 0 ∧ s.blk.anyService = false ∧ (s.blk.bridges.get k).state = Boundary.joined ∧ (∀ (j : Fin 4), (s.blk.bridges.get j).state ≠ Boundary.service) ∧ (∀ (c : Fin 40), (s.blk.ch c).owner ≠ Initiator.safety))
    ∧ (∃ (s : State) (r : Req) (k : Fin 4), Safety.accepted cmdKernelService r s.blk ∧ (s.blk.rcc.mode = Mode.run → s.blk.full = true) ∧ kernelArg (Safety.payload r) = some k ∧ s.blk.hasKernel k = true ∧ nonZeroAt (Safety.payload r) 2 2 = none ∧ s.blk.cfg.swapBn = none ∧ byteAt (Safety.payload r) 1 = 1 ∧ s.blk.anyService = false ∧ (s.blk.bridges.get k).state = Boundary.service)
    ∧ (∃ (s : State) (r : Req) (k : Fin 4), Safety.accepted cmdKernelService r s.blk ∧ (s.blk.rcc.mode = Mode.run → s.blk.full = true) ∧ kernelArg (Safety.payload r) = some k ∧ s.blk.hasKernel k = true ∧ nonZeroAt (Safety.payload r) 2 2 = none ∧ s.blk.cfg.swapBn = none ∧ byteAt (Safety.payload r) 1 = 1 ∧ (s.blk.kn k).removing = true ∧ (s.blk.bridges.get k).state = Boundary.service ∧ (s.blk.kn k).returnPending = none)
    ∧ (∃ (s : State) (r : Req) (k : Fin 4), Safety.accepted cmdKernelService r s.blk ∧ (s.blk.rcc.mode = Mode.run → s.blk.full = true) ∧ kernelArg (Safety.payload r) = some k ∧ s.blk.hasKernel k = true ∧ nonZeroAt (Safety.payload r) 2 2 = none ∧ s.blk.cfg.swapBn = none ∧ byteAt (Safety.payload r) 1 = 2 ∧ s.blk.anyService = false ∧ (s.blk.bridges.get k).state = Boundary.service ∧ (s.blk.kn k).trimWrites < 100)
    ∧ (∃ (s : State) (r : Req) (k : Fin 4), Safety.accepted cmdKernelService r s.blk ∧ (s.blk.rcc.mode = Mode.run → s.blk.full = true) ∧ kernelArg (Safety.payload r) = some k ∧ s.blk.hasKernel k = true ∧ nonZeroAt (Safety.payload r) 2 2 = none ∧ s.blk.cfg.swapBn = none ∧ byteAt (Safety.payload r) 1 = 2 ∧ s.blk.anyService = false ∧ (s.blk.bridges.get k).state = Boundary.service ∧ 100 ≤ (s.blk.kn k).trimWrites)
    ∧ (∃ (s : State) (r : Req) (k : Fin 4), Safety.accepted cmdKernelService r s.blk ∧ (s.blk.rcc.mode = Mode.run → s.blk.full = true) ∧ kernelArg (Safety.payload r) = some k ∧ s.blk.hasKernel k = true ∧ nonZeroAt (Safety.payload r) 2 2 = none ∧ s.blk.cfg.swapBn = none ∧ byteAt (Safety.payload r) 1 = 3 ∧ s.blk.anyService = false ∧ (s.blk.bridges.get k).state = Boundary.service)
    ∧ (∃ (s : State) (k : Fin 4), (s.blk.kn k).removing = true ∧ (∀ (c : Fin 40), (s.blk.ch c).conducting = false) ∧ (s.blk.kn k).returnPending = none)
    ∧ (∃ (s : State) (k : Fin 4), (s.blk.kn k).joinNext = false ∧ (s.blk.kn k).service = some 2)
    ∧ (∃ (s : State) (k : Fin 4), (s.blk.kn k).joinNext = false ∧ (s.blk.kn k).service = some 3)
    ∧ (∃ (s : State) (k : Fin 4), (s.blk.kn k).joinNext = false ∧ (s.blk.kn k).service = some 1)
    ∧ (∃ (s : State) (k : Fin 4), (s.blk.kn k).joinNext = false ∧ (s.blk.kn k).service = none) :=
  ⟨⟨s1, mkReq 9 (bs [0,0,0,0]), ((kernelArg (Safety.payload (mkReq 9 (bs [0,0,0,0])))).getD default), by unfold Safety.accepted; decide +kernel⟩,
   ⟨s7, mkReq 9 (bs [0,1,0,0]), ((kernelArg (Safety.payload (mkReq 9 (bs [0,1,0,0])))).getD default), by unfold Safety.accepted; decide +kernel⟩,
   ⟨s8, mkReq 9 (bs [0,1,0,0]), ((kernelArg (Safety.payload (mkReq 9 (bs [0,1,0,0])))).getD default), by unfold Safety.accepted; decide +kernel⟩,
   ⟨s7, mkReq 9 (bs [1,2,0,0]), ((kernelArg (Safety.payload (mkReq 9 (bs [1,2,0,0])))).getD default), by unfold Safety.accepted; decide +kernel⟩,
   ⟨s9, mkReq 9 (bs [1,2,0,0]), ((kernelArg (Safety.payload (mkReq 9 (bs [1,2,0,0])))).getD default), by unfold Safety.accepted; decide +kernel⟩,
   ⟨s7, mkReq 9 (bs [0,3,0,0]), ((kernelArg (Safety.payload (mkReq 9 (bs [0,3,0,0])))).getD default), by unfold Safety.accepted; decide +kernel⟩,
   ⟨s8, 0, by decide +kernel⟩,
   ⟨s10, 0, by decide +kernel⟩,
   ⟨s11, 0, by decide +kernel⟩,
   ⟨s12, 0, by decide +kernel⟩,
   ⟨State.reset, 0, by decide +kernel⟩⟩

/-- The hypotheses of each clause of `TransitionsAreScheduled` are met together. -/
theorem test_meets_TransitionsAreScheduled :
    (∃ (s : State) (r : Req) (m : Mode), Safety.accepted cmdModeSet r s.blk ∧ Mode.ofCode (BitVec.toNat (byteAt (Safety.payload r) 0)) = some m ∧ nonZeroAt (Safety.payload r) 1 3 = none ∧ s.blk.rcc.sched = none ∧ s.blk.setGuard m = some true ∧ mbOwner r.mb ≠ Initiator.safety)
    ∧ (∃ (s : State) (r : Req) (m : Mode), Safety.accepted cmdModeSet r s.blk ∧ Mode.ofCode (BitVec.toNat (byteAt (Safety.payload r) 0)) = some m ∧ nonZeroAt (Safety.payload r) 1 3 = none ∧ s.blk.rcc.sched = none ∧ s.blk.setGuard m ≠ some true ∧ mbOwner r.mb ≠ Initiator.safety)
    ∧ (∃ (s : State) (r : Req) (k : Fin 8), Safety.accepted cmdTenantCtrl r s.blk ∧ hosts (mbOwner r.mb) = true ∧ s.blk.rcc.mode = Mode.run ∧ tenantArg (Safety.payload r) = some k ∧ s.blk.hasTenant k = true ∧ (s.blk.tn k).cfg.enabled = true ∧ nonZeroAt (Safety.payload r) 2 2 = none ∧ (s.blk.tn k).next = TAssert.none ∧ byteAt (Safety.payload r) 1 = 0 ∧ (s.blk.tn k).state = TState.running)
    ∧ (∃ (s : State) (r : Req) (k : Fin 8), Safety.accepted cmdTenantCtrl r s.blk ∧ hosts (mbOwner r.mb) = true ∧ s.blk.rcc.mode = Mode.run ∧ tenantArg (Safety.payload r) = some k ∧ s.blk.hasTenant k = true ∧ (s.blk.tn k).cfg.enabled = true ∧ nonZeroAt (Safety.payload r) 2 2 = none ∧ (s.blk.tn k).next = TAssert.none ∧ byteAt (Safety.payload r) 1 = 0 ∧ (s.blk.tn k).state = TState.stopped)
    ∧ (∃ (s : State) (r : Req) (k : Fin 8), Safety.accepted cmdTenantCtrl r s.blk ∧ hosts (mbOwner r.mb) = true ∧ s.blk.rcc.mode = Mode.run ∧ tenantArg (Safety.payload r) = some k ∧ s.blk.hasTenant k = true ∧ (s.blk.tn k).cfg.enabled = true ∧ nonZeroAt (Safety.payload r) 2 2 = none ∧ (s.blk.tn k).next = TAssert.none ∧ byteAt (Safety.payload r) 1 = 1 ∧ (s.blk.tn k).state = TState.stopped)
    ∧ (∃ (s : State) (r : Req) (k : Fin 8), Safety.accepted cmdTenantCtrl r s.blk ∧ hosts (mbOwner r.mb) = true ∧ s.blk.rcc.mode = Mode.run ∧ tenantArg (Safety.payload r) = some k ∧ s.blk.hasTenant k = true ∧ (s.blk.tn k).cfg.enabled = true ∧ nonZeroAt (Safety.payload r) 2 2 = none ∧ (s.blk.tn k).next = TAssert.none ∧ byteAt (Safety.payload r) 1 = 1 ∧ (s.blk.tn k).state = TState.running)
    ∧ (∃ (s : State) (r : Req) (k : Fin 8), Safety.accepted cmdTenantCtrl r s.blk ∧ hosts (mbOwner r.mb) = true ∧ s.blk.rcc.mode = Mode.run ∧ tenantArg (Safety.payload r) = some k ∧ s.blk.hasTenant k = true ∧ (s.blk.tn k).cfg.enabled = true ∧ nonZeroAt (Safety.payload r) 2 2 = none ∧ (s.blk.tn k).next = TAssert.none ∧ byteAt (Safety.payload r) 1 = 2 ∧ (s.blk.tn k).state = TState.running)
    ∧ (∃ (s : State) (r : Req) (k : Fin 8), Safety.accepted cmdTenantCtrl r s.blk ∧ hosts (mbOwner r.mb) = true ∧ s.blk.rcc.mode = Mode.run ∧ tenantArg (Safety.payload r) = some k ∧ s.blk.hasTenant k = true ∧ (s.blk.tn k).cfg.enabled = true ∧ nonZeroAt (Safety.payload r) 2 2 = none ∧ (s.blk.tn k).next = TAssert.none ∧ byteAt (Safety.payload r) 1 = 1 ∧ ((s.blk.tn k).state = TState.stopping ∨ (s.blk.tn k).state = TState.resetting) ∧ (s.blk.tn k).pending = none ∧ (s.blk.tn k).pendingDue = [])
    ∧ (∃ (s : State) (r : Req) (k : Fin 8), Safety.accepted cmdTenantReplace r s.blk ∧ (s.blk.rcc.mode = Mode.run → s.blk.full = true) ∧ tenantArg (Safety.payload r) = some k ∧ s.blk.hasTenant k = true ∧ (s.blk.tn k).cfg.enabled = true ∧ nonZeroAt (Safety.payload r) 2 6 = none ∧ BitVec.toNat (byteAt (Safety.payload r) 1) ≤ 1 ∧ leAt (Safety.payload r) 8 8 = 0 ∧ ((s.blk.comp (tenantComp k)).slot (decide (BitVec.toNat (byteAt (Safety.payload r) 1) = 1))).usable = true ∧ (s.blk.tn k).state = TState.running ∧ (s.blk.tn k).replace = none ∧ (s.blk.tn k).replacing = none) :=
  ⟨⟨s1, mkReq 9 (bs [6,0,0,0,9,0,0,0]), ((Mode.ofCode (BitVec.toNat (byteAt (Safety.payload (mkReq 9 (bs [6,0,0,0,9,0,0,0]))) 0))).getD default), by unfold Safety.accepted; decide +kernel⟩,
   ⟨s1, mkReq 9 (bs [4,0,0,0,9,0,0,0]), ((Mode.ofCode (BitVec.toNat (byteAt (Safety.payload (mkReq 9 (bs [4,0,0,0,9,0,0,0]))) 0))).getD default), by unfold Safety.accepted; decide +kernel⟩,
   ⟨s13, mkReq 9 (bs [0,0,0,0]), ((tenantArg (Safety.payload (mkReq 9 (bs [0,0,0,0])))).getD default), by unfold Safety.accepted; decide +kernel⟩,
   ⟨s14, mkReq 9 (bs [0,0,0,0]), ((tenantArg (Safety.payload (mkReq 9 (bs [0,0,0,0])))).getD default), by unfold Safety.accepted; decide +kernel⟩,
   ⟨s14, mkReq 9 (bs [0,1,0,0]), ((tenantArg (Safety.payload (mkReq 9 (bs [0,1,0,0])))).getD default), by unfold Safety.accepted; decide +kernel⟩,
   ⟨s13, mkReq 9 (bs [0,1,0,0]), ((tenantArg (Safety.payload (mkReq 9 (bs [0,1,0,0])))).getD default), by unfold Safety.accepted; decide +kernel⟩,
   ⟨s13, mkReq 9 (bs [1,2,0,0]), ((tenantArg (Safety.payload (mkReq 9 (bs [1,2,0,0])))).getD default), by unfold Safety.accepted; decide +kernel⟩,
   ⟨s15, mkReq 9 (bs [0,1,0,0]), ((tenantArg (Safety.payload (mkReq 9 (bs [0,1,0,0])))).getD default), by unfold Safety.accepted; decide +kernel⟩,
   ⟨s16, mkReq 9 (bs ([5,0,0,0,0,0,0,0] ++ List.replicate 8 0)), ((tenantArg (Safety.payload (mkReq 9 (bs ([5,0,0,0,0,0,0,0] ++ List.replicate 8 0))))).getD default), by unfold Safety.accepted; decide +kernel⟩⟩

/-- The hypotheses of each clause of `TenantsRunAndStop` are met together. -/
theorem test_meets_TenantsRunAndStop :
    (∃ (s : State) (k : Fin 8), ((s.blk.tn k).state = TState.stopping ∨ (s.blk.tn k).state = TState.resetting) ∧ (∀ g ∈ (s.blk.tn k).cfg.granules ++ (s.blk.tn k).extraZero, g < 1024))
    ∧ (∃ (s : State) (k : Fin 8), (s.blk.tn k).state = TState.starting ∧ (s.blk.tn k).runNext = false ∧ (s.blk.tn k).replacing = none ∧ (s.blk.tn k).trySlot = (s.blk.comp (tenantComp k)).runB)
    ∧ (∃ (s : State) (k : Fin 8) (w : Fin 16) (win : Window), (s.blk.tn k).cfg.windows[↑w]? = some win ∧ (s.blk.tn k).state = TState.running)
    ∧ (∃ (s : State) (k : Fin 8), (s.blk.tn k).state = TState.running ∧ (s.blk.tn k).next = TAssert.none ∧ (s.blk.tn k).autoResets = [] ∧ 1 < (s.blk.tn k).cfg.resetLimit)
    ∧ (∃ (s : State) (k : Fin 8), (s.blk.tn k).state = TState.running ∧ (s.blk.tn k).next = TAssert.none ∧ (s.blk.tn k).autoResets = [] ∧ 1 < (s.blk.tn k).cfg.resetLimit ∧ (s.blk.tn k).cfg.faultLimit ≤ (s.blk.tn k).faults)
    ∧ (∃ (s : State) (k : Fin 8), (s.blk.tn k).state = TState.running ∧ (s.blk.tn k).next = TAssert.none ∧ (s.blk.tn k).autoResets = [] ∧ 1 < (s.blk.tn k).cfg.resetLimit ∧ s.blk.breath.ovrLimit ≤ s.blk.breath.tovrConsec.get k)
    ∧ (∃ (s : State) (k : Fin 8), (s.blk.tn k).state = TState.running ∧ (s.blk.tn k).next = TAssert.none ∧ (s.blk.tn k).autoResets = [] ∧ (s.blk.tn k).cfg.resetLimit = 1) :=
  ⟨⟨s15, 2, by decide +kernel⟩,
   ⟨s17, 2, by decide +kernel⟩,
   ⟨s13, 2, 0, (((s13.blk.tn (2 : Fin 8)).cfg.windows[↑(0 : Fin 16)]?).getD default), by decide +kernel⟩,
   ⟨s13, 2, by decide +kernel⟩,
   ⟨s18, 2, by decide +kernel⟩,
   ⟨s19, 2, by decide +kernel⟩,
   ⟨s20, 2, by decide +kernel⟩⟩

end C10

namespace C11
def w1 : Captured := { store := true, addr := 0x10530000, data := 5, be := 0xFF }
def w2 : Captured := { store := false, addr := BitVec.ofNat 32 (pageBase 0), data := 1, be := 0x0F }
def res0 : PassResult := { runTime := 3, writes := [] }
def res1 : PassResult := { runTime := 3, writes := [w1, w2] }
def rq : BitVec 48 × List (List Byte) := (3, [[1]])
def br (n : Nat) : Blk → Blk := fun b => b.onBre fun r => { r with running := true, phase := n, bn := 7, header := List.replicate 256 3 }
def run (f : Blk → Blk) : State := st fun b => f (inMode .run (pow b))
def saf (f : Task → Task) : Blk → Blk := fun b => (ch0 (fun c => { c with owner := .safety }) b).onDr fun d => { d with present := true, run := true, ctrl := 0x3303, tasks := d.tasks.map fun t => f { t with size := 0x00100010 }, chanTask := (List.range 40).map fun n => (Fin.ofNat 40 n, 0) }
def trun : Blk → Blk := fun b => { b with tenants := b.tenants.map fun t => { t with state := .running, cfg := { im0.tenants.head!.2 with granules := [65] } } }
def withSlots (b : Blk) : Blk := (upTo 13).foldl (fun b i => b.modComp i fun c => { c with a := { c.a with state := .active, len := 10, digest := Config.sha3 (List.replicate 10 0) } }) b
def s1 : State := run (br 0)
def s2 : State := run fun b => (br 4 b).onRcc fun r => { r with holdup := true }
def s3 : State := run (br 1)
def s4 : State := run (br 2)
def s5 : State := run (br 4)
def s6 : State := { run (fun b => trun (br 2 b)) with mem := [(0x10000001, 4)] }
def s7 : State := run fun b => (br 2 b).onBre fun r => { r with recQueue := [rq], recDropNew := 4, unverified := 5 }
def s8 : State := run fun b => (br 2 b).onBre fun r => { r with recLogDt := some 5 }
def s9 : State := run fun b => saf id (br 3 b)
def s10 : State := run fun b => saf (fun t => { t with pass := .inA }) (br 3 b)
def s11 : State := run fun b => saf (fun t => { t with pass := .inB, capA := [w1, w2], sigA := signature [w1, w2] }) (br 3 b)
def s12 : State := run fun b => saf (fun t => { t with pass := .inB, capA := [w1, w2], sigA := signature [w1, w2], verified := true }) (br 3 b)
def s13 : State := run fun b => (saf (fun t => { t with verified := true, capA := [w1, w2] }) (br 3 b)).onDr fun d => { d with fenceRunning := true }
def s14 : State := run fun b => (saf (fun t => { t with verified := true, capA := [w1, w2] }) (br 4 b)).onDr fun d => { d with fenceRunning := true }
def s15 : State := run fun b => saf (fun t => { t with consec := 4 }) b
def s16 : State := run fun b => (saf (fun t => { t with consec := 4 }) b).onDr fun d => { d with ctrl := 0x1303 }
def s17 : State := run fun b => (saf id b).onBre fun r => { r with unverified := 5 }
def s18 : State := run fun b => (withSlots (saf id b)).onDr fun d => { d with resetting := true }
def s19 : State := run fun b => inMode .service (saf id b)
def s20 : State := run fun b => (inMode .service (saf id b)).onDr fun d => { d with debugOn := 3 }

/-- The hypotheses of each clause of `BreathsPassTheirPhases` are met together. -/
theorem test_meets_BreathsPassTheirPhases :
    (∃ (s : State), s.blk.breath.running = true ∧ (s.blk.breath.phase = 0 ∨ s.blk.breath.phase = 4) ∧ s.blk.rcc.holdup = false)
    ∧ (∃ (s : State), s.blk.breath.running = true ∧ (s.blk.breath.phase = 0 ∨ s.blk.breath.phase = 4) ∧ s.blk.rcc.holdup = true)
    ∧ (∃ (s : State), s.blk.breath.running = true ∧ s.blk.breath.phase = 1 ∧ s.blk.breath.header.length = 256 ∧ Safety.canonical s)
    ∧ (∃ (s : State), s.blk.breath.running = true ∧ s.blk.breath.phase = 2 ∧ s.blk.dr.present = false)
    ∧ (∃ (s : State), s.blk.breath.running = true ∧ 1 ≤ s.blk.breath.phase ∧ s.blk.breath.phase ≤ 3)
    ∧ (∃ (s : State), s.blk.breath.running = true ∧ 1 ≤ s.blk.breath.phase ∧ s.blk.breath.phase ≤ 3 ∧ s.blk.rcc.episode = none ∧ s.blk.breath.commitT = 0)
    ∧ (∃ (s : State) (k : Fin 4), s.blk.breath.running = true ∧ s.blk.breath.phase = 4 ∧ (s.blk.bridges.get k).state = Boundary.joined ∧ (s.blk.kn k).powered = true ∧ (s.blk.bridges.get k).posted = [])
    ∧ (∃ (s : State) (k : Fin 8) (n : BitVec 48), (s.blk.tn k).state = TState.running ∧ s.blk.breath.running = true ∧ 1 ≤ s.blk.breath.phase ∧ n = s.blk.breath.bn ∧ s.blk.breath.phase ≤ 3)
    ∧ (∃ (s : State) (k : Fin 8) (n : BitVec 48), (s.blk.tn k).state = TState.running ∧ s.blk.breath.running = true ∧ 1 ≤ s.blk.breath.phase ∧ n.toNat < s.blk.breath.bn.toNat)
    ∧ (∃ (s : State) (k : Fin 8), (s.blk.tn k).state ≠ TState.running)
    ∧ (∃ (s : State), s.blk.breath.unverified < 5)
    ∧ (∃ (s : State), 5 ≤ s.blk.breath.unverified)
    ∧ (∃ (s : State) (r : BitVec 48 × List (List Byte)) (rest : List (BitVec 48 × List (List Byte))), s.blk.breath.recQueue = r :: rest)
    ∧ (∃ (s : State), 0 < s.blk.breath.recDropNew ∧ (∀ (d : BitVec 64), s.blk.breath.recLogDt = some d → 1000000000 ≤ s.blk.since d) ∧ Safety.room s.blk srcBre)
    ∧ (∃ (s : State) (d : BitVec 64), s.blk.breath.recLogDt = some d ∧ s.blk.since d < 1000000000) :=
  ⟨⟨s1, by decide +kernel⟩,
   ⟨s2, by decide +kernel⟩,
   ⟨s3, by unfold Safety.canonical; decide +kernel⟩,
   ⟨s4, by decide +kernel⟩,
   ⟨s3, by decide +kernel⟩,
   ⟨s3, by decide +kernel⟩,
   ⟨s5, 0, by decide +kernel⟩,
   ⟨s6, 0, 7, by decide +kernel⟩,
   ⟨s6, 0, 0, by decide +kernel⟩,
   ⟨State.reset, 0, by decide +kernel⟩,
   ⟨State.reset, by decide +kernel⟩,
   ⟨s7, by decide +kernel⟩,
   ⟨s7, (s7.blk.breath.recQueue.headD default), s7.blk.breath.recQueue.tail, by decide +kernel⟩,
   ⟨s7, by decide +kernel, (fun _ h => nomatch h), by unfold Safety.room; decide +kernel⟩,
   ⟨s8, (s8.blk.breath.recLogDt.getD default), by decide +kernel⟩⟩

/-- The hypotheses of each clause of `PassesAreVerified` are met together. -/
theorem test_meets_PassesAreVerified :
    (∃ (s : State) (k : Fin 2), s.blk.safetyRuns = true ∧ s.blk.dr.taskOn k = true ∧ s.blk.dr.failed.get k = false ∧ (s.blk.task k).pass = Pass.idle ∧ s.blk.breath.running = true ∧ s.blk.breath.phase = 3)
    ∧ (∃ (s : State) (k : Fin 2) (res : PassResult), res.writes.all (s.blk.captures k) = true ∧ stateWords res.writes ≤ 4096 ∧ (outputsOf res.writes).length ≤ 2048 ∧ (s.blk.task k).pass = Pass.inA)
    ∧ (∃ (s : State) (k : Fin 2) (res : PassResult), res.writes.all (s.blk.captures k) = true ∧ stateWords res.writes ≤ 4096 ∧ (outputsOf res.writes).length ≤ 2048 ∧ (s.blk.task k).pass = Pass.inB ∧ (s.blk.task k).sigA ≠ signature res.writes ∧ s.blk.dr.debugOn = 0 ∧ (s.blk.task k).counted = false)
    ∧ (∃ (s : State) (k : Fin 2) (res : PassResult), res.writes.all (s.blk.captures k) = true ∧ stateWords res.writes ≤ 4096 ∧ (outputsOf res.writes).length ≤ 2048 ∧ (s.blk.task k).pass = Pass.inB ∧ (s.blk.task k).sigA = signature res.writes ∧ s.blk.dr.debugOn = 0 ∧ (outputsOf (s.blk.task k).capA).length = (outputsOf res.writes).length ∧ (storesOf (s.blk.task k).capA).length = (storesOf res.writes).length ∧ (∃ (j : Fin 2), j ≠ k ∧ s.blk.dr.taskOn j = true ∧ (s.blk.task j).verified = false))
    ∧ (∃ (s : State) (k : Fin 2) (res : PassResult), res.writes.all (s.blk.captures k) = true ∧ stateWords res.writes ≤ 4096 ∧ (outputsOf res.writes).length ≤ 2048 ∧ (s.blk.task k).pass = Pass.inB ∧ (s.blk.task k).sigA = signature res.writes ∧ s.blk.dr.debugOn = 0 ∧ (outputsOf (s.blk.task k).capA).length = (outputsOf res.writes).length ∧ (storesOf (s.blk.task k).capA).length = (storesOf res.writes).length ∧ (∀ (j : Fin 2), j ≠ k → s.blk.dr.taskOn j = true → (s.blk.task j).verified = true))
    ∧ (∃ (s : State), s.blk.dr.fenceRunning = true ∧ s.blk.outstanding Initiator.safety = 0 ∧ s.blk.breath.running = true ∧ s.blk.breath.phase = 3)
    ∧ (∃ (s : State), s.blk.dr.fenceRunning = true ∧ s.blk.outstanding Initiator.safety = 0 ∧ s.blk.breath.running = true ∧ s.blk.breath.phase = 4 ∧ s.blk.dr.debugOn = 0)
    ∧ (∃ (s : State) (k : Fin 2), ((s.blk.task k).pass = Pass.inA ∨ (s.blk.task k).pass = Pass.inB) ∧ s.blk.dr.debugOn = 0 ∧ (s.blk.task k).counted = false) :=
  ⟨⟨s9, 0, by decide +kernel⟩,
   ⟨s10, 0, res0, by decide +kernel⟩,
   ⟨s11, 0, res0, by decide +kernel⟩,
   ⟨s11, 0, res1, by decide +kernel⟩,
   ⟨s12, 0, res1, by decide +kernel⟩,
   ⟨s13, by decide +kernel⟩,
   ⟨s14, by decide +kernel⟩,
   ⟨s10, 0, by decide +kernel⟩⟩

/-- The hypotheses of each clause of `SafetyProgramIsReset` are met together. -/
theorem test_meets_SafetyProgramIsReset :
    (∃ (s : State) (k : Fin 2), s.blk.safetyRuns = true ∧ s.blk.dr.taskOn k = true ∧ s.blk.dr.divLimit ≤ (s.blk.task k).consec ∧ s.blk.dr.resets = [] ∧ 1 < s.blk.dr.resetLimit)
    ∧ (∃ (s : State) (k : Fin 2), s.blk.safetyRuns = true ∧ s.blk.dr.taskOn k = true ∧ s.blk.dr.divLimit ≤ (s.blk.task k).consec ∧ s.blk.dr.resets = [] ∧ s.blk.dr.resetLimit = 1)
    ∧ (∃ (s : State) (c : Fin 7), 2 ≤ ↑c ∧ s.blk.dr.present = true ∧ s.blk.dr.givenUp = false)
    ∧ (∃ (s : State), s.blk.dr.resetting = true)
    ∧ (∃ (s : State), s.blk.safetyRuns = true)
    ∧ (∃ (s : State) (c : Fin 2), s.blk.rcc.mode = Mode.service ∧ (BitVec.toNat s.blk.dr.debugOn).testBit ↑c = false)
    ∧ (∃ (s : State), s.blk.rcc.mode ≠ Mode.service)
    ∧ (∃ (s : State) (c : Fin 2), (BitVec.toNat s.blk.dr.debugOn).testBit ↑c = true) :=
  ⟨⟨s15, 0, by decide +kernel⟩,
   ⟨s16, 0, by decide +kernel⟩,
   ⟨s17, 2, by decide +kernel⟩,
   ⟨s18, by decide +kernel⟩,
   ⟨s17, by decide +kernel⟩,
   ⟨s19, 0, by decide +kernel⟩,
   ⟨State.reset, by decide +kernel⟩,
   ⟨s20, 0, by decide +kernel⟩⟩

end C11

namespace C12
def fr (id d0 d1 d2 d3 : Nat) : CanFrame := { ident := BitVec.ofNat 29 id, ide := false, fdf := false, brs := false, esi := false, remote := false, dlc := 8, data := bs [d0, d1, d2, d3, 7, 0, 3, 0] }
def frames : List CanFrame := [fr 0x502 2 5 1 0, fr 0x502 2 5 1 2, fr 0x502 2 5 2 0, fr 0x502 2 6 3 0, fr 0x502 2 63 4 4, fr 0x502 2 5 1 0, fr 0x502 3 5 1 0, fr 0x102 3 5 1 0, fr 0x502 2 9 1 1, { fr 0x502 2 5 1 0 with remote := true }]
def nf (k fl : Nat) : NmFrame := { src := 5, dst := 9, kind := k, flags := fl, round := 3, count := 2 }
def msgC : Msg := { words := [0x00080103, 0, 0x04030201, 0x08070605], seq := some 4 }
def te : TxEntry := { obj := 3, who := .tenant 3, frame := fr 3 1 2 3 4, report := false, since := 0 }
def te2 : TxEntry := { te with obj := 4 }
def nm0 (f : Nm → Nm) : Blk → Blk := fun b => { b with nms := b.nms.map fun n => f { n with ctrl := 0x05000617, present := [5], filters := n.filters.set 1 (0x40000502, 0x1FFFFFFF, 8, 0, 0) } }
def cn0 (f : Can → Can) : Blk → Blk := fun b => { b with cans := b.cans.map fun n => f { n with state := .active, ctrl := 0xB, rxo := n.rxo.set 7 { (default : RxObj) with cfg := 0x40000502, cfg2 := 0x100 }, txo := n.txo.set 3 { (default : TxObj) with cfg := 0x40000003, cfg2 := 0x303 }, qmap := Vector.replicate 10 50 } }
def cq : Blk → Blk := fun b => { b with queues := b.queues.set 50 { (b.queues.get 50) with owners := 0x02080003, limits := 0x100008, msgs := [msgC] } }
def go (f : Nm → Nm) (g : Can → Can) : State := st fun b => cn0 g (nm0 f (inMode .run (pow b)))
def cq2 (b : Blk) : Blk := { b with queues := b.queues.set 50 { (b.queues.get 50) with owners := 0x02080003, limits := 0x100008, msgs := [{ words := [0x00080003, 0, 0x04030201, 0x08070605], seq := some 4 }] } }
def s1 : State := go (fun n => { n with state := .forming }) id
def s2 : State := go (fun n => { n with state := .ring, present := [5, 9, 11], tokenSent := true }) id
def s3 : State := go (fun n => { n with state := .keepalive, inFlight := some (nf 4 0) }) id
def s4 : State := go (fun n => { n with state := .settle, armed := true }) (fun x => { x with fifoHeld := true, fifo := [te, te2] })
def s5 : State := go (fun n => { n with state := .ring, inFlight := some (nf 1 2) }) id
def s6 : State := go (fun n => { n with state := .ring, inFlight := some (nf 1 0) }) id
def s7 : State := go (fun n => { n with state := .forming, present := [5, 9] }) id
def s8 : State := go (fun n => { n with state := .forming, expiries := 1 }) id
def s9 : State := go (fun n => { n with state := .ring, present := [5, 9], token := true }) id
def s10 : State := go (fun n => { n with state := .keepalive, requests := [(.chanter, 5), (.tenant 3, 5)] }) id
def s11 : State := go (fun n => { n with state := .ring, frameWake := true, heardOther := true, hold := [(3, 5)] }) id
def s12 : State := go (fun n => { n with state := .ring, frameWake := true, wakeFilter := some 1 }) id
def s13 : State := go (fun n => { n with state := .asleep, armed := true }) (fun x => { x with state := .asleep })
def s14 : State := st fun b => (cn0 id (nm0 (fun n => { n with state := .asleep, armed := true, requests := [(.chanter, 5)] }) (inMode .sleep (pow b))))
def s15 : State := st fun b => kn0 (fun k => { k with dis := k.dis.map fun d => { d with cfg := 0xFFFFFFFF } }) (nm0 (fun n => { n with ctrl := 0x05000017 }) (inMode .run (pow b)))
def s16 : State := st fun b => let c := (cn0 id (nm0 (fun n => { n with state := .asleep, armed := true }) (inMode .sleep (pow b)))); { c with nmg := { c.nmg with timerWake := 5, maxAwake := 0xF0 } }
def s17 : State := go id (fun x => { x with rxo := x.rxo.set 7 { (default : RxObj) with cfg := 0x40000502, cfg2 := 0x100, isNew := true } })
def s18 : State := st fun b => cq (cn0 (fun x => { x with fifo := List.replicate 64 te }) (inMode .run b))
def s19 : State := st fun b => cq2 (cn0 (fun x => { x with qmap := (Vector.replicate 10 0).set 3 50 }) (inMode .run b))
def s20 : State := st fun b => cq (cn0 id (inMode .run b))
def s21 : State := go id (fun x => { x with trefSlot := some (false, 3, 4) })
def s22 : State := go (fun n => { n with state := .ring, slot := some (nf 1 0) }) (fun x => { x with fifo := [te] })
def s23 : State := go id (fun x => { x with fifo := [te, te2], sending := some .fifo })
def s24 : State := go id (fun x => { x with fifo := [te], sending := some .fifo, tec := 250, state := .passive })
def s25 : State := go id (fun x => { x with state := .busOff, boffWait := true })
def s26 : State := go id (fun x => { x with state := .busOff, ctrl := 3 })

/-- The hypotheses of each clause of `NmFramesFormTheRing` are met together. -/
theorem test_meets_NmFramesFormTheRing :
    (∃ (s : State) (c : Fin 6) (f : CanFrame), ((s.blk.nm c).en = false ∨ (s.blk.nm c).state = NmState.off ∨ (s.blk.nm c).state = NmState.asleep ∨ inNmRange (s.blk.nm c).base f = false))
    ∧ (∃ (s : State) (c : Fin 6) (f : CanFrame), (s.blk.nm c).en = true ∧ (s.blk.nm c).state ≠ NmState.off ∧ (s.blk.nm c).state ≠ NmState.asleep ∧ inNmRange (s.blk.nm c).base f = true ∧ decodeNm (s.blk.nm c).base f = none)
    ∧ (∃ (s : State) (c : Fin 6) (f : CanFrame) (g : NmFrame), (s.blk.nm c).en = true ∧ (s.blk.nm c).state ≠ NmState.off ∧ (s.blk.nm c).state ≠ NmState.asleep ∧ inNmRange (s.blk.nm c).base f = true ∧ decodeNm (s.blk.nm c).base f = some g ∧ g.src ≠ (s.blk.nm c).addr ∧ (s.blk.nm c).state = NmState.forming ∧ g.kind = kRing)
    ∧ (∃ (s : State) (c : Fin 6) (f : CanFrame) (g : NmFrame), (s.blk.nm c).en = true ∧ (s.blk.nm c).state ≠ NmState.off ∧ (s.blk.nm c).state ≠ NmState.asleep ∧ inNmRange (s.blk.nm c).base f = true ∧ decodeNm (s.blk.nm c).base f = some g ∧ g.src ≠ (s.blk.nm c).addr ∧ (s.blk.nm c).state = NmState.forming ∧ g.kind ≠ kRing)
    ∧ (∃ (s : State) (c : Fin 6) (f : CanFrame) (g : NmFrame), (s.blk.nm c).en = true ∧ (s.blk.nm c).state ≠ NmState.off ∧ (s.blk.nm c).state ≠ NmState.asleep ∧ inNmRange (s.blk.nm c).base f = true ∧ decodeNm (s.blk.nm c).base f = some g ∧ g.src ≠ (s.blk.nm c).addr ∧ (s.blk.nm c).state = NmState.ring ∧ g.kind = kRing ∧ g.flags.testBit 1 = false)
    ∧ (∃ (s : State) (c : Fin 6) (f : CanFrame) (g : NmFrame), (s.blk.nm c).en = true ∧ (s.blk.nm c).state ≠ NmState.off ∧ (s.blk.nm c).state ≠ NmState.asleep ∧ inNmRange (s.blk.nm c).base f = true ∧ decodeNm (s.blk.nm c).base f = some g ∧ g.src ≠ (s.blk.nm c).addr ∧ (s.blk.nm c).state = NmState.ring ∧ g.kind = kRing ∧ g.flags.testBit 1 = true)
    ∧ (∃ (s : State) (c : Fin 6) (f : CanFrame) (g : NmFrame), (s.blk.nm c).en = true ∧ (s.blk.nm c).state ≠ NmState.off ∧ (s.blk.nm c).state ≠ NmState.asleep ∧ inNmRange (s.blk.nm c).base f = true ∧ decodeNm (s.blk.nm c).base f = some g ∧ g.src ≠ (s.blk.nm c).addr ∧ (s.blk.nm c).state = NmState.keepalive ∧ (s.blk.nm c).ring = true ∧ (s.blk.can c).alone = false)
    ∧ (∃ (s : State) (c : Fin 6) (f : CanFrame) (g : NmFrame), (s.blk.nm c).en = true ∧ (s.blk.nm c).state ≠ NmState.off ∧ (s.blk.nm c).state ≠ NmState.asleep ∧ inNmRange (s.blk.nm c).base f = true ∧ decodeNm (s.blk.nm c).base f = some g ∧ g.src ≠ (s.blk.nm c).addr ∧ (s.blk.nm c).state = NmState.settle ∧ (g.kind = kWake ∨ g.kind = kAlive) ∧ (s.blk.nm c).ring = true)
    ∧ (∃ (s : State) (c : Fin 6) (f : NmFrame), (s.blk.nm c).inFlight = some f ∧ f.kind = kRing ∧ f.flags.testBit 1 = true ∧ (s.blk.nm c).state = NmState.ring)
    ∧ (∃ (s : State) (c : Fin 6) (f : NmFrame), (s.blk.nm c).inFlight = some f ∧ f.kind = kRing ∧ f.flags.testBit 1 = false)
    ∧ (∃ (s : State) (c : Fin 6) (f : NmFrame), (s.blk.nm c).inFlight = some f ∧ f.kind = kKeepAlive) :=
  ⟨⟨State.reset, 0, ((frames : List (CanFrame)).getD 0 default), by decide +kernel⟩,
   ⟨s1, 0, ((frames : List (CanFrame)).getD 6 default), by decide +kernel⟩,
   ⟨s1, 0, ((frames : List (CanFrame)).getD 0 default), ((decodeNm (s1.blk.nm (0 : Fin 6)).base ((frames : List (CanFrame)).getD 0 default)).getD default), by decide +kernel⟩,
   ⟨s1, 0, ((frames : List (CanFrame)).getD 2 default), ((decodeNm (s1.blk.nm (0 : Fin 6)).base ((frames : List (CanFrame)).getD 2 default)).getD default), by decide +kernel⟩,
   ⟨s2, 0, ((frames : List (CanFrame)).getD 0 default), ((decodeNm (s2.blk.nm (0 : Fin 6)).base ((frames : List (CanFrame)).getD 0 default)).getD default), by decide +kernel⟩,
   ⟨s2, 0, ((frames : List (CanFrame)).getD 1 default), ((decodeNm (s2.blk.nm (0 : Fin 6)).base ((frames : List (CanFrame)).getD 1 default)).getD default), by decide +kernel⟩,
   ⟨s3, 0, ((frames : List (CanFrame)).getD 0 default), ((decodeNm (s3.blk.nm (0 : Fin 6)).base ((frames : List (CanFrame)).getD 0 default)).getD default), by decide +kernel⟩,
   ⟨s4, 0, ((frames : List (CanFrame)).getD 2 default), ((decodeNm (s4.blk.nm (0 : Fin 6)).base ((frames : List (CanFrame)).getD 2 default)).getD default), by decide +kernel⟩,
   ⟨s5, 0, (((s5.blk.nm (0 : Fin 6)).inFlight).getD default), by decide +kernel⟩,
   ⟨s6, 0, (((s6.blk.nm (0 : Fin 6)).inFlight).getD default), by decide +kernel⟩,
   ⟨s3, 0, (((s3.blk.nm (0 : Fin 6)).inFlight).getD default), by decide +kernel⟩⟩

/-- The hypotheses of each clause of `NmTimersMoveTheBus` are met together. -/
theorem test_meets_NmTimersMoveTheBus :
    (∃ (s : State) (c : Fin 6), (s.blk.nm c).state = NmState.forming ∧ (s.blk.nm c).ringSeen = false ∧ (s.blk.nm c).isLowest = true ∧ 2 ≤ (s.blk.nm c).present.length)
    ∧ (∃ (s : State) (c : Fin 6), (s.blk.nm c).state = NmState.forming ∧ (s.blk.nm c).ringSeen = false ∧ (s.blk.nm c).isLowest = true ∧ (s.blk.nm c).present.length ≤ 1 ∧ (s.blk.nm c).expiries = 0)
    ∧ (∃ (s : State) (c : Fin 6), (s.blk.nm c).state = NmState.forming ∧ (s.blk.nm c).ringSeen = false ∧ (s.blk.nm c).isLowest = true ∧ (s.blk.nm c).present.length ≤ 1 ∧ (s.blk.nm c).expiries ≠ 0)
    ∧ (∃ (s : State) (c : Fin 6), (s.blk.nm c).state = NmState.ring ∧ (s.blk.nm c).tokenSent = true ∧ 3 ≤ (s.blk.nm c).present.length ∧ (s.blk.nm c).present.Nodup)
    ∧ (∃ (s : State) (c : Fin 6), (s.blk.nm c).state = NmState.ring ∧ (s.blk.nm c).token = true)
    ∧ (∃ (s : State) (c : Fin 6), (s.blk.nm c).state = NmState.settle)
    ∧ (∃ (s : State) (c : Fin 6), (s.blk.nm c).state = NmState.keepalive ∧ (s.blk.nm c).ownReq ≠ 0)
    ∧ (∃ (s : State) (c : Fin 6), (s.blk.nm c).state = NmState.keepalive ∧ (s.blk.nm c).ownReq = 0)
    ∧ (∃ (s : State) (c : Fin 6), (s.blk.nm c).frameWake = true ∧ (s.blk.nm c).state ≠ NmState.asleep ∧ (s.blk.nm c).state ≠ NmState.off ∧ ((s.blk.nm c).heardOther = true ∨ (s.blk.nm c).ownReq ≠ 0))
    ∧ (∃ (s : State) (c : Fin 6), (s.blk.nm c).frameWake = true ∧ (s.blk.nm c).state ≠ NmState.asleep ∧ (s.blk.nm c).state ≠ NmState.off ∧ (s.blk.nm c).heardOther = false ∧ (s.blk.nm c).ownReq = 0)
    ∧ (∃ (s : State) (c : Fin 6) (i : Initiator), bits s.blk.nmg.maxAwake 13 0 ≠ 0 ∧ (findKey (s.blk.nm c).requests i).isSome = true)
    ∧ (∃ (s : State) (c : Fin 6) (a : Fin 64) (t0 : BitVec 64), findKey (s.blk.nm c).hold ↑a = some t0) :=
  ⟨⟨s7, 0, by decide +kernel⟩,
   ⟨s1, 0, by decide +kernel⟩,
   ⟨s8, 0, by decide +kernel⟩,
   ⟨s2, 0, by decide +kernel⟩,
   ⟨s9, 0, by decide +kernel⟩,
   ⟨s4, 0, by decide +kernel⟩,
   ⟨s10, 0, by decide +kernel⟩,
   ⟨s3, 0, by decide +kernel⟩,
   ⟨s11, 0, by decide +kernel⟩,
   ⟨s12, 0, by decide +kernel⟩,
   ⟨s10, 0, .chanter, by decide +kernel⟩,
   ⟨s11, 0, 3, ((findKey (s11.blk.nm (0 : Fin 6)).hold ↑(3 : Fin 64)).getD default), by decide +kernel⟩⟩

/-- The hypotheses of each clause of `WakesAreHonoured` are met together. -/
theorem test_meets_WakesAreHonoured :
    (∃ (s : State) (c : Fin 6), ((s.blk.nm c).state = NmState.settle ∨ (s.blk.nm c).state = NmState.asleep) ∧ (s.blk.nm c).ring = true)
    ∧ (∃ (s : State) (c : Fin 6), (s.blk.nm c).state ≠ NmState.settle ∧ (s.blk.nm c).state ≠ NmState.asleep)
    ∧ (∃ (s : State) (c : Fin 6) (f : CanFrame) (j : Fin 4), ↑c < 4 ∧ (s.blk.nm c).armed = true ∧ f.fdf = false ∧ (s.blk.nm c).matchFilter f = some j ∧ (s.blk.nm c).state = NmState.asleep ∧ s.blk.rcc.mode ≠ Mode.sleep ∧ (s.blk.nm c).ring = true)
    ∧ (∃ (s : State) (c : Fin 6) (f : CanFrame) (j : Fin 4), ↑c < 4 ∧ (s.blk.nm c).armed = true ∧ f.fdf = false ∧ (s.blk.nm c).matchFilter f = some j ∧ s.blk.rcc.mode = Mode.sleep ∧ (s.blk.nm c).swEn = true)
    ∧ (∃ (s : State) (c : Fin 6), (4 ≤ ↑c ∨ (s.blk.nm c).armed = false))
    ∧ (∃ (s : State) (d : Fin 32), s.blk.hasKernel (kOfDi d) = true ∧ (s.blk.di d).wakeSource = true)
    ∧ (∃ (s : State), s.blk.rcc.mode = Mode.run ∧ s.blk.rcc.episode = none ∧ (∀ (c : Fin 6), (s.blk.nm c).localBus = false))
    ∧ (∃ (s : State), s.blk.rcc.mode = Mode.sleep ∧ s.blk.rcc.sleepStep ≠ 5 ∧ s.blk.nmg.timerWake ≠ 0)
    ∧ (∃ (s : State), (s.blk.nmg.timerWake = 0 ∨ s.blk.rcc.mode ≠ Mode.sleep)) :=
  ⟨⟨s4, 0, by decide +kernel⟩,
   ⟨State.reset, 0, by decide +kernel⟩,
   ⟨s13, 0, ((frames : List (CanFrame)).getD 0 default), (((s13.blk.nm (0 : Fin 6)).matchFilter ((frames : List (CanFrame)).getD 0 default)).getD default), by decide +kernel⟩,
   ⟨s14, 0, ((frames : List (CanFrame)).getD 0 default), (((s14.blk.nm (0 : Fin 6)).matchFilter ((frames : List (CanFrame)).getD 0 default)).getD default), by decide +kernel⟩,
   ⟨State.reset, 0, by decide +kernel⟩,
   ⟨s15, 0, by decide +kernel⟩,
   ⟨s15, by decide +kernel⟩,
   ⟨s16, by decide +kernel⟩,
   ⟨State.reset, by decide +kernel⟩⟩

/-- The hypotheses of each clause of `CanFramesAndErrors` are met together. -/
theorem test_meets_CanFramesAndErrors :
    (∃ (s : State) (c : Fin 6), (s.blk.can c).state = CanState.active ∧ (s.blk.can c).tec ≤ 127 ∧ (s.blk.can c).recCnt ≤ 127)
    ∧ (∃ (s : State) (c : Fin 6), (s.blk.can c).onBus = false)
    ∧ (∃ (s : State) (c : Fin 6) (n : Fin 10) (q : Fin 256) (m : Msg), (s.blk.can c).onBus = true ∧ (s.blk.can c).alone = false ∧ s.blk.nextRequest c = some (n, q, m) ∧ 64 ≤ (s.blk.can c).fifo.length)
    ∧ (∃ (s : State) (c : Fin 6) (n : Fin 10) (q : Fin 256) (m : Msg) (e : TxEntry), (s.blk.can c).onBus = true ∧ (s.blk.can c).alone = false ∧ s.blk.nextRequest c = some (n, q, m) ∧ (s.blk.can c).fifo.length < 64 ∧ (s.blk.can c).judge (slotInit n) (bytesOf m.words) s.blk.time.dt = Except.ok e)
    ∧ (∃ (s : State) (c : Fin 6) (n : Fin 10) (q : Fin 256) (m : Msg) (r : Nat), (s.blk.can c).onBus = true ∧ (s.blk.can c).alone = false ∧ s.blk.nextRequest c = some (n, q, m) ∧ (s.blk.can c).fifo.length < 64 ∧ (s.blk.can c).judge (slotInit n) (bytesOf m.words) s.blk.time.dt = Except.error r)
    ∧ (∃ (s : State) (c : Fin 6), (s.blk.can c).onBus = true ∧ (s.blk.can c).listen = false ∧ (s.blk.can c).sending = none ∧ (s.blk.nm c).state ≠ NmState.settle ∧ (s.blk.can c).trefSlot.isSome = true)
    ∧ (∃ (s : State) (c : Fin 6), (s.blk.can c).onBus = true ∧ (s.blk.can c).listen = false ∧ (s.blk.can c).sending = none ∧ (s.blk.nm c).state ≠ NmState.settle ∧ (s.blk.can c).trefSlot = none ∧ (s.blk.nm c).slot.isSome = true)
    ∧ (∃ (s : State) (c : Fin 6) (e : TxEntry) (l : List TxEntry), (s.blk.can c).onBus = true ∧ (s.blk.can c).listen = false ∧ (s.blk.can c).sending = none ∧ (s.blk.nm c).state ≠ NmState.settle ∧ (s.blk.can c).trefSlot = none ∧ (s.blk.nm c).slot = none ∧ (s.blk.can c).fifoHeld = false ∧ (s.blk.can c).fifo = e :: l ∧ s.blk.aged (s.blk.can c) e = false)
    ∧ (∃ (s : State) (c : Fin 6) (e : TxEntry) (l : List TxEntry), (s.blk.can c).sending = some CanSlot.fifo ∧ (s.blk.can c).state = CanState.active ∧ (s.blk.can c).alone = false ∧ (s.blk.can c).tec ≤ 127 ∧ (s.blk.can c).recCnt ≤ 127 ∧ (s.blk.can c).fifo = e :: l)
    ∧ (∃ (s : State) (c : Fin 6) (x : CanSlot), (s.blk.can c).sending ≠ some x)
    ∧ (∃ (s : State) (c : Fin 6), (s.blk.can c).onBus = true)
    ∧ (∃ (s : State) (c : Fin 6) (e : CanErr) (w : CanField), (s.blk.can c).state = CanState.active ∧ (s.blk.can c).sending = some CanSlot.fifo ∧ e ≠ CanErr.ack ∧ (w = CanField.arbitration ∨ w = CanField.other) ∧ (s.blk.can c).tec ≤ 127 ∧ (s.blk.can c).recCnt ≤ 127)
    ∧ (∃ (s : State) (c : Fin 6) (e : CanErr) (w : CanField), (s.blk.can c).state = CanState.passive ∧ (s.blk.can c).sending = some CanSlot.fifo ∧ e ≠ CanErr.ack ∧ (w = CanField.arbitration ∨ w = CanField.other) ∧ 248 ≤ (s.blk.can c).tec)
    ∧ (∃ (s : State) (c : Fin 6), (s.blk.can c).state = CanState.busOff ∧ (s.blk.can c).boffAuto = true)
    ∧ (∃ (s : State) (c : Fin 6), (s.blk.can c).state = CanState.busOff ∧ (s.blk.can c).boffAuto = false)
    ∧ (∃ (s : State) (c : Fin 6), (s.blk.can c).state = CanState.busOff ∧ (s.blk.can c).boffAuto = true)
    ∧ (∃ (s : State) (c : Fin 6), (s.blk.can c).state = CanState.busOff ∧ (s.blk.can c).boffWait = true) :=
  ⟨⟨s17, 0, by decide +kernel⟩,
   ⟨State.reset, 0, by decide +kernel⟩,
   ⟨s18, 0, ((s18.blk.nextRequest (0 : Fin 6)).getD default).1, ((s18.blk.nextRequest (0 : Fin 6)).getD default).2.1, ((s18.blk.nextRequest (0 : Fin 6)).getD default).2.2, by decide +kernel⟩,
   ⟨s19, 0, ((s19.blk.nextRequest (0 : Fin 6)).getD default).1, ((s19.blk.nextRequest (0 : Fin 6)).getD default).2.1, ((s19.blk.nextRequest (0 : Fin 6)).getD default).2.2, (match (s19.blk.can (0 : Fin 6)).judge (slotInit ((s19.blk.nextRequest (0 : Fin 6)).getD default).1) (bytesOf ((s19.blk.nextRequest (0 : Fin 6)).getD default).2.2.words) s19.blk.time.dt with | .ok x => x | .error _ => default), by decide +kernel⟩,
   ⟨s20, 0, ((s20.blk.nextRequest (0 : Fin 6)).getD default).1, ((s20.blk.nextRequest (0 : Fin 6)).getD default).2.1, ((s20.blk.nextRequest (0 : Fin 6)).getD default).2.2, 1, by decide +kernel⟩,
   ⟨s21, 0, by decide +kernel⟩,
   ⟨s22, 0, by decide +kernel⟩,
   ⟨s18, 0, (((s18.blk.can (0 : Fin 6)).fifo).headD default), ((s18.blk.can (0 : Fin 6)).fifo).tail, by decide +kernel⟩,
   ⟨s23, 0, (((s23.blk.can (0 : Fin 6)).fifo).headD default), ((s23.blk.can (0 : Fin 6)).fifo).tail, by decide +kernel⟩,
   ⟨State.reset, 0, .fifo, by decide +kernel⟩,
   ⟨s17, 0, by decide +kernel⟩,
   ⟨s23, 0, .stuff, .arbitration, by decide +kernel⟩,
   ⟨s24, 0, .stuff, .arbitration, by decide +kernel⟩,
   ⟨s25, 0, by decide +kernel⟩,
   ⟨s26, 0, by decide +kernel⟩,
   ⟨s25, 0, by decide +kernel⟩,
   ⟨s25, 0, by decide +kernel⟩⟩

end C12

namespace C13
def ef : EthFrame := { dst := 0x020000000005, src := 0x020000000006, tag := some (3, false, 5), etype := 0x800, size := 100, fcsOk := true, seqNo := none, macsecOk := none, data := [1,2,3] }
def fs : List EthFrame := [ef, { ef with size := 300, dst := 0x030000000001 }, { ef with fcsOk := false }, { ef with tag := none }, { ef with size := 63 }, { ef with size := 1999, dst := 0x020000000007 }]
def pm (vid len : Nat) : Msg := { words := wordsOf 64 (bs [2,0,0,0,0,5, 2,0] ++ leBytes 2 len ++ bs [0, 0] ++ leBytes 2 vid ++ List.replicate 100 0), seq := some 4 }
def qf : QFrame := { ref := 9, f := ef, vid := 5, pcp := 3, dei := false, colour := 0, since := 0, stamp := 0, inPort := 4, tagged := true, verified := true, recovered := false, report := none }
def po (f : Port → Port) : Blk → Blk := fun b => b.onSw fun w => { w with running := true, ports := w.ports.map fun p => f { p with link := true }, vlans := [(5, 0x8C001FFF), (6, 0x90001FFF)] }
def run (f : Blk → Blk) : State := st fun b => f (inMode .run (pow b))
def pq (m : Msg) : Blk → Blk := fun b => { b with queues := b.queues.set 50 { (b.queues.get 50) with owners := 0x01080003, limits := 0x100008, msgs := [m] } }
def e1 : Fdb := { mac := 0x020000000006, vid := 5, stat := false, mask := 8, seen := 3 }
def s1 : State := run (po id)
def s2 : State := run (po fun p => { p with cfg := 0x8001 })
def s3 : State := run (fun b => pq (pm 6 70) (po id b))
def s4 : State := run (fun b => pq (pm 5 10) (po id b))
def s5 : State := run (fun b => (po (fun p => { p with queues := Vector.replicate 8 [qf] }) b).onSw fun w => { w with ageMax := 500 })
def s6 : State := run (fun b => (po (fun p => { p with queues := p.queues.set 3 [qf], gateNow := 0 }) b).onSw fun w => { w with ageMax := 500 })
def s7 : State := run (fun b => (po (fun p => { p with sending := some (qf, 3, 5) }) b).onSw fun w => { w with refs := [(9, 1, 0, 1)], used := 5, sharedUsed := 3 })
def s8 : State := run (po fun p => { p with link := false })
def s9 : State := run (fun b => (po id b).onSw fun w => { w with busy := true, cmd := 1, macLo := 6, macHi := 0x50200, fdb := [e1, { e1 with stat := true, vid := 6 }], mdioBusy := true, mdioAddr := 5 })
def s10 : State := run (fun b => (po id b).onSw fun w => { w with busy := true, cmd := 2, macHi := 0x50200, fdb := [e1, { e1 with stat := true, vid := 6 }], mdioBusy := true, mdioAddr := 1 })
def s11 : State := run (fun b => (po id b).onSw fun w => { w with busy := true, cmd := 3, macHi := 0x50200, fdb := [e1, { e1 with stat := true, vid := 6 }] })
def s12 : State := run (fun b => (po (fun p => { p with gclCtrl := 0xFF0103, gcl := [(1, 500), (0xFF, 500)] }) b).onBre fun r => { r with running := true })
def s13 : State := run (fun b => (po id b).onSw fun w => { w with frer := w.frer.map fun f => { f with cfg := 0x5000 } })
def s14 : State := run (po fun p => { p with counters := Vector.replicate 10 (2^33 + 5) })
def s15 : State := run (po fun p => { p with counters := Vector.replicate 10 5, dropsDt := some 5 })
def s16 : State := run (po fun p => { p with msUp := true, msSa := true })

/-- The hypotheses of each clause of `SwitchForwardsFrames` are met together. -/
theorem test_meets_SwitchForwardsFrames :
    (∃ (s : State) (p : Fin 13) (f : EthFrame), ↑p < 11 ∧ s.blk.hasPort p = true ∧ s.blk.sw.running = true ∧ (s.blk.port p).link = true ∧ (s.blk.port p).enabled = true ∧ (f.fcsOk = false ∨ f.size < 64 ∨ 2000 < f.size))
    ∧ (∃ (s : State) (p : Fin 13) (f : EthFrame), ↑p < 11 ∧ s.blk.hasPort p = true ∧ s.blk.sw.running = true ∧ (s.blk.port p).link = true ∧ (s.blk.port p).enabled = true ∧ f.fcsOk = true ∧ 64 ≤ f.size ∧ f.size ≤ 2000 ∧ 2 ≤ ↑p ∧ (s.blk.port p).untaggedOk = false ∧ f.tag = none)
    ∧ (∃ (s : State) (p : Fin 13) (f : EthFrame) (pcp : BitVec 3) (dei : Bool) (v : BitVec 12), ↑p < 11 ∧ s.blk.hasPort p = true ∧ s.blk.sw.running = true ∧ (s.blk.port p).link = true ∧ (s.blk.port p).enabled = true ∧ f.fcsOk = true ∧ 64 ≤ f.size ∧ f.size ≤ 2000 ∧ 2 ≤ ↑p ∧ f.tag = some (pcp, dei, v) ∧ v ≠ 0 ∧ isReserved f.dst = false ∧ bit (s.blk.vlan v.toNat) 31 = true ∧ isMember (s.blk.vlan v.toNat) p = true ∧ findKey s.blk.sw.meters ((s.blk.port p).meterOf ((s.blk.port p).tcOf pcp.toNat)) = none ∧ f.src ≠ f.dst ∧ (∀ (k : Fin 24), bit (s.blk.sw.red.get k).2 12 = false))
    ∧ (∃ (s : State) (p : Fin 13), (11 ≤ ↑p ∨ s.blk.sw.running = false ∨ (s.blk.port p).link = false))
    ∧ (∃ (s : State) (q : Fin 256) (m : Msg) (l : List Msg) (i : Initiator), s.blk.sw.running = true ∧ (s.blk.queues.get q).enabled = true ∧ (s.blk.queues.get q).consEngine = 1 ∧ s.blk.visible (s.blk.queues.get q) = m :: l ∧ Initiator.ofId (s.blk.queues.get q).producer = some i ∧ (bit (s.blk.vlan (leAt (bytesOf m.words) 12 2 % 4096)) 31 = false ∨ vlanOwner (s.blk.vlan (leAt (bytesOf m.words) 12 2 % 4096)) ≠ some i) ∧ i ∉ s.blk.breath.vlanDenied)
    ∧ (∃ (s : State) (q : Fin 256) (m : Msg) (l : List Msg) (i : Initiator), s.blk.sw.running = true ∧ (s.blk.queues.get q).enabled = true ∧ (s.blk.queues.get q).consEngine = 1 ∧ s.blk.visible (s.blk.queues.get q) = m :: l ∧ Initiator.ofId (s.blk.queues.get q).producer = some i ∧ bit (s.blk.vlan (leAt (bytesOf m.words) 12 2 % 4096)) 31 = true ∧ vlanOwner (s.blk.vlan (leAt (bytesOf m.words) 12 2 % 4096)) = some i ∧ (leAt (bytesOf m.words) 8 2 < 60 ∨ 1996 < leAt (bytesOf m.words) 8 2))
    ∧ (∃ (s : State) (p : Fin 13) (c : Fin 8) (g : QFrame) (l : List QFrame), (s.blk.port p).link = true ∧ (s.blk.port p).sending = none ∧ s.blk.sw.running = true ∧ (s.blk.port p).queues.get c = g :: l ∧ s.blk.since g.since ≤ bits s.blk.sw.ageMax 9 0 * 1000000 ∧ s.blk.gateAllows p c (s.blk.wireSize p g) = true ∧ s.blk.outranked p c = false ∧ s.blk.ctlOpen p = true)
    ∧ (∃ (s : State) (p : Fin 13) (c : Fin 8) (g : QFrame) (l : List QFrame), (s.blk.port p).link = true ∧ (s.blk.port p).sending = none ∧ s.blk.sw.running = true ∧ (s.blk.port p).queues.get c = g :: l ∧ s.blk.since g.since ≤ bits s.blk.sw.ageMax 9 0 * 1000000 ∧ s.blk.gateAllows p c (s.blk.wireSize p g) = false)
    ∧ (∃ (s : State) (p : Fin 13) (g : QFrame) (c : Fin 8) (d : BitVec 64), ↑p < 11 ∧ (s.blk.port p).sending = some (g, c, d) ∧ g.report = none) :=
  ⟨⟨s1, 3, ((fs : List (EthFrame)).getD 2 default), by decide +kernel⟩,
   ⟨s2, 3, ((fs : List (EthFrame)).getD 3 default), by decide +kernel⟩,
   ⟨s1, 3, ((fs : List (EthFrame)).getD 0 default), ((((fs : List (EthFrame)).getD 0 default).tag).getD default).1, ((((fs : List (EthFrame)).getD 0 default).tag).getD default).2.1, ((((fs : List (EthFrame)).getD 0 default).tag).getD default).2.2, by decide +kernel⟩,
   ⟨State.reset, 3, by decide +kernel⟩,
   ⟨s3, 50, ((s3.blk.visible (s3.blk.queues.get (50 : Fin 256))).headD default), (s3.blk.visible (s3.blk.queues.get (50 : Fin 256))).tail, ((Initiator.ofId (s3.blk.queues.get (50 : Fin 256)).producer).getD default), by decide +kernel⟩,
   ⟨s4, 50, ((s4.blk.visible (s4.blk.queues.get (50 : Fin 256))).headD default), (s4.blk.visible (s4.blk.queues.get (50 : Fin 256))).tail, ((Initiator.ofId (s4.blk.queues.get (50 : Fin 256)).producer).getD default), by decide +kernel⟩,
   ⟨s5, 3, 7, (((s5.blk.port (3 : Fin 13)).queues.get (7 : Fin 8)).headD default), ((s5.blk.port (3 : Fin 13)).queues.get (7 : Fin 8)).tail, by decide +kernel⟩,
   ⟨s6, 3, 3, (((s6.blk.port (3 : Fin 13)).queues.get (3 : Fin 8)).headD default), ((s6.blk.port (3 : Fin 13)).queues.get (3 : Fin 8)).tail, by decide +kernel⟩,
   ⟨s7, 3, (((s7.blk.port (3 : Fin 13)).sending).getD default).1, (((s7.blk.port (3 : Fin 13)).sending).getD default).2.1, (((s7.blk.port (3 : Fin 13)).sending).getD default).2.2, by decide +kernel⟩⟩

/-- The hypotheses of each clause of `SwitchTablesAndLinks` are met together. -/
theorem test_meets_SwitchTablesAndLinks :
    (∃ (s : State) (p : Fin 13), 2 ≤ ↑p ∧ ↑p < 11 ∧ s.blk.sw.running = true ∧ s.blk.sw.noSerdes = false ∧ (s.blk.port p).enabled = true ∧ (s.blk.port p).link = false ∧ (∀ (q : Fin 2), (s.blk.port ⟨↑q, (by omega)⟩).msUp = false) ∧ s.blk.keysReady = false)
    ∧ (∃ (s : State) (p : Fin 13), (s.blk.sw.noSerdes = true ∨ (s.blk.port p).link = true))
    ∧ (∃ (s : State) (p : Fin 13), ↑p < 11 ∧ (s.blk.port p).link = true ∧ s.blk.time.slavePort ≠ BitVec.ofNat 8 ↑p)
    ∧ (∃ (s : State), s.blk.sw.busy = false)
    ∧ (∃ (s : State), s.blk.sw.busy = true ∧ s.blk.sw.cmd = 1)
    ∧ (∃ (s : State), s.blk.sw.busy = true ∧ s.blk.sw.cmd = 2)
    ∧ (∃ (s : State), s.blk.sw.busy = true ∧ s.blk.sw.cmd = 3)
    ∧ (∃ (s : State), s.blk.sw.mdioBusy = false)
    ∧ (∃ (s : State), s.blk.sw.mdioBusy = true)
    ∧ (∃ (s : State) (p : Fin 13) (e : Word × Word), s.blk.gatesRun (s.blk.port p) = true ∧ (s.blk.port p).gclWait = false ∧ (s.blk.port p).gcl[(s.blk.port p).gateEntry + 1]? = some e)
    ∧ (∃ (s : State) (p : Fin 13), (s.blk.port p).gcl[(s.blk.port p).gateEntry + 1]? = none)
    ∧ (∃ (s : State) (k : Fin 64), bit (s.blk.sw.frer.get k).cfg 12 = true ∧ bit (s.blk.sw.frer.get k).cfg 14 = true)
    ∧ (∃ (s : State) (p : Fin 13), (s.blk.port p).dropsLogged < (s.blk.port p).counters.get 6 + (s.blk.port p).counters.get 7 + (s.blk.port p).counters.get 8 ∧ (s.blk.port p).dropsDt = none)
    ∧ (∃ (s : State) (p : Fin 13) (d : BitVec 64), (s.blk.port p).dropsDt = some d ∧ s.blk.since d < 1000000000)
    ∧ (∃ (s : State), (s.blk.port 10).link = true)
    ∧ (∃ (s : State) (p : Fin 2), (s.blk.port ⟨↑p, (by omega)⟩).msUp = true) :=
  ⟨⟨s8, 3, by decide +kernel⟩,
   ⟨s1, 3, by decide +kernel⟩,
   ⟨s1, 3, by decide +kernel⟩,
   ⟨State.reset, by decide +kernel⟩,
   ⟨s9, by decide +kernel⟩,
   ⟨s10, by decide +kernel⟩,
   ⟨s11, by decide +kernel⟩,
   ⟨State.reset, by decide +kernel⟩,
   ⟨s9, by decide +kernel⟩,
   ⟨s12, 3, (((s12.blk.port (3 : Fin 13)).gcl[(s12.blk.port (3 : Fin 13)).gateEntry + 1]?).getD default), by decide +kernel⟩,
   ⟨State.reset, 3, by decide +kernel⟩,
   ⟨s13, 0, by decide +kernel⟩,
   ⟨s14, 3, by decide +kernel⟩,
   ⟨s15, 3, (((s15.blk.port (3 : Fin 13)).dropsDt).getD default), by decide +kernel⟩,
   ⟨s1, by decide +kernel⟩,
   ⟨s16, 0, by decide +kernel⟩⟩

end C13

namespace C14
def rec1 (t i : Nat) (body : List Byte) : List Byte := leBytes 2 t ++ leBytes 2 i ++ leBytes 4 body.length ++ body ++ List.replicate (ceilDiv body.length 8 * 8 - body.length) 0
def qrec (q own : Nat) : List Byte := rec1 0x20 q (leBytes 4 0x00400000 ++ leBytes 4 own ++ leBytes 4 0)
def recsI : List Byte := rec1 1 0 [0] ++ qrec 27 0x42030 ++ qrec 28 0x3020 ++ qrec 29 0x3020 ++ qrec 30 0x42031 ++ qrec 31 0x3120 ++ qrec 32 0x3120 ++ qrec 33 0x42032 ++ qrec 34 0x3220 ++ qrec 35 0x3220 ++ qrec 40 0x3020FF
def imgI : List Byte := let h := leBytes 2 1 ++ leBytes 2 256 ++ leBytes 4 5 ++ leBytes 4 (256 + recsI.length + 4627) ++ leBytes 2 1 ++ leBytes 2 11 ++ leBytes 16 0 ++ [1, 0, 0, 0] ++ leBytes 4 0 ++ digestBytes (Config.sha3 recsI) ++ List.replicate 152 0
  h ++ recsI ++ List.replicate 4627 3
def memI : List Host.Cell := Mem.writeBytes (Mem.writeBytes [] (slotBase cConfig false) imgI) (slotBase cConfig true) imgI
def withSlots (b : Blk) : Blk := (upTo 13).foldl (fun b i => b.modComp i fun c => let l := if i.val = 4 then imgI else List.replicate 10 0; { c with a := { c.a with state := .active, len := l.length, digest := Config.sha3 l }, b := { c.b with state := .previous, len := l.length, digest := Config.sha3 l } }) b
def run (f : Blk → Blk) : State := st fun b => f (inMode .run (pow b))
def rc (f : Rcc → Rcc) : Blk → Blk := fun b => b.onRcc f
def blks : BlkState → Blk → Blk := fun x => rc fun r => { r with blkState := r.blkState.map fun _ => x, powered := true }
def ep (e : Reach) (n : Nat) (a : Nat) : State := { st (rc fun r => { r with episode := some e, step := n, asserted := BitVec.ofNat _ a, powered := true, seen := 1 }) with mem := [(0x10000003, 4), (0x80000007, 8), (0xFFFFFFFF, 8)] }
def boots (f : Rcc → Rcc) : State := st fun b => rc f (inMode .boot b)
def s1 : State := run (rc fun r => { r with vioB := false })
def s2 : State := run (rc fun r => { r with wdtLast := some 5 })
def s3 : State := run (fun b => (rc (fun r => { r with wdtLast := some 5 }) b).onTb fun x => { x with dt := 10000000006 })
def s4 : State := run (rc fun r => { r with resetDue := some true })
def s5 : State := run (rc fun r => { r with resetDue := some false })
def s6 : State := run (fun b => b.onSec fun x => { x with debugScope := 3 })
def s7 : State := run (rc fun r => { r with episode := some .c, step := 4 })
def s8 : State := run (rc fun r => { r with powered := true, asserted := 0xFFFF })
def s9 : State := ep .s 5 0xFFFF
def s10 : State := ep .p 8 0
def s11 : State := st fun b => blks .pending (inMode .boot b)
def s12 : State := run (rc fun r => { r with straps := 0x18 })
def s13 : State := st fun b => blks .running (inMode .run b)
def s14 : State := boots fun r => { r with bootSel := 1 }
def s15 : State := { st (fun b => (rc (fun r => { r with bootSel := 0, powered := true }) (withSlots (inMode .boot b))).onUpd fun u => { u with bootA := true }) with mem := memI }
def s16 : State := run id
def s17 : State := run (rc fun r => { r with pmFails := [0, 0] })
def s18 : State := run (rc fun r => { r with feedA := true, feedB := true, pwrCore := 720 })
def s19 : State := run (rc fun r => { r with holdup := true, powered := true, holdupDone := false })
def s20 : State := run (rc fun r => { r with holdup := true, powered := true, holdupDone := true })
def s21 : State := run (rc fun r => { r with holdup := true, powered := true, holdupDone := false, feedBack := true })
def s22 : State := run (rc fun r => { r with sleepCtrl := 1 })
def s23 : State := run (fun b => rc (fun r => { r with mode := .sleep, sleepStep := 4, powered := true }) b)

/-- The hypotheses of each clause of `ResetSourcesBeginEpisodes` are met together. -/
theorem test_meets_ResetSourcesBeginEpisodes :
    (∃ (s : State), s.blk.rcc.episode = none)
    ∧ (∃ (s : State), s.blk.rcc.episode = none ∧ s.blk.rcc.vioB = true)
    ∧ (∃ (s : State), s.blk.rcc.episode = none ∧ s.blk.rcc.vioB = false)
    ∧ (∃ (s : State) (tj : BitVec 16), s.blk.rcc.episode = none ∧ 2080 < tj.toInt)
    ∧ (∃ (s : State) (tj : BitVec 16), s.blk.rcc.episode = none ∧ tj.toInt ≤ 2080)
    ∧ (∃ (s : State), s.blk.rcc.episode = none ∧ s.blk.rcc.wdtLast = none)
    ∧ (∃ (s : State) (d : BitVec 64), s.blk.rcc.episode = none ∧ s.blk.rcc.wdtLast = some d ∧ s.blk.since d ≤ 10000000000)
    ∧ (∃ (s : State) (d : BitVec 64), s.blk.rcc.episode = none ∧ s.blk.rcc.wdtLast = some d ∧ 10000000000 < s.blk.since d)
    ∧ (∃ (s : State), s.blk.rcc.episode = none ∧ s.blk.rcc.resetDue = some true)
    ∧ (∃ (s : State), s.blk.rcc.episode = none ∧ s.blk.rcc.resetDue = some false)
    ∧ (∃ (s : State), s.blk.rcc.episode = none ∧ (s.blk.sec.debugScope ≠ 0 ∨ s.blk.sec.lc = lcBlank))
    ∧ (∃ (s : State), s.blk.rcc.episode = none ∧ s.blk.sec.debugScope = 0 ∧ s.blk.sec.lc ≠ lcBlank)
    ∧ (∃ (s : State), s.blk.rcc.episode.isSome = true)
    ∧ (∃ (s : State) (r : Req), Safety.accepted cmdResetDevice r s.blk ∧ nonZeroAt (Safety.payload r) 1 3 = none ∧ (byteAt (Safety.payload r) 0 = 1 ∨ byteAt (Safety.payload r) 0 = 2 ∧ s.blk.rcc.mode ≠ Mode.recovery))
    ∧ (∃ (w : Word), w = 23130)
    ∧ (∃ (w : Word), w ≠ 23130)
    ∧ (∃ (s : State) (e : Reach), s.blk.rcc.episode = some e) :=
  ⟨⟨State.reset, by decide +kernel⟩,
   ⟨State.reset, by decide +kernel⟩,
   ⟨s1, by decide +kernel⟩,
   ⟨State.reset, 2081, by decide +kernel⟩,
   ⟨State.reset, 2080, by decide +kernel⟩,
   ⟨State.reset, by decide +kernel⟩,
   ⟨s2, (s2.blk.rcc.wdtLast.getD default), by decide +kernel⟩,
   ⟨s3, (s3.blk.rcc.wdtLast.getD default), by decide +kernel⟩,
   ⟨s4, by decide +kernel⟩,
   ⟨s5, by decide +kernel⟩,
   ⟨s6, by decide +kernel⟩,
   ⟨State.reset, by decide +kernel⟩,
   ⟨s7, by decide +kernel⟩,
   ⟨State.reset, mkReq 9 (bs [1,0,0,0]), by unfold Safety.accepted; decide +kernel⟩,
   ⟨0x5A5A, by decide +kernel⟩,
   ⟨0, by decide +kernel⟩,
   ⟨s7, (s7.blk.rcc.episode.getD default), by decide +kernel⟩⟩

/-- The hypotheses of each clause of `EpisodesRunTheExitSequence` are met together. -/
theorem test_meets_EpisodesRunTheExitSequence :
    (∃ (s : State) (n : ResetBit), 3 ≤ ↑n ∧ ↑n ≠ 8 ∧ s.blk.rcc.asserted.toNat.testBit ↑n = true)
    ∧ (∃ (s : State) (e : Reach), s.blk.rcc.episode = some e ∧ s.blk.rcc.mayRun s.blk.rcc.step = false)
    ∧ (∃ (s : State) (e : Reach), s.blk.rcc.episode = some e ∧ s.blk.rcc.mayRun s.blk.rcc.step = true ∧ s.blk.rcc.step ≠ 8 ∧ s.blk.rcc.step ≠ 1)
    ∧ (∃ (s : State) (e : Reach), s.blk.rcc.episode = some e ∧ s.blk.rcc.mayRun 8 = true ∧ s.blk.rcc.step = 8 ∧ s.blk.sec.lcPending = none)
    ∧ (∃ (s : State) (i : Block), s.blk.rcc.blkState.get i = BlkState.pending ∧ s.blk.clockless i = false ∧ s.blk.rcc.mode = Mode.boot)
    ∧ (∃ (s : State) (i : Block), s.blk.rcc.blkState.get i = BlkState.pending ∧ s.blk.clockless i = false ∧ 5 ≤ ↑i)
    ∧ (∃ (s : State) (i : Block), s.blk.clockless i = true)
    ∧ (∃ (s : State) (i : Block), s.blk.rcc.blkState.get i = BlkState.running)
    ∧ (∃ (s : State) (i : Block), s.blk.rcc.blkState.get i ≠ BlkState.running) :=
  ⟨⟨s8, 3, by decide +kernel⟩,
   ⟨s9, (s9.blk.rcc.episode.getD default), by decide +kernel⟩,
   ⟨s7, (s7.blk.rcc.episode.getD default), by decide +kernel⟩,
   ⟨s10, (s10.blk.rcc.episode.getD default), by decide +kernel⟩,
   ⟨s11, 0, by decide +kernel⟩,
   ⟨s11, 5, by decide +kernel⟩,
   ⟨s12, 6, by decide +kernel⟩,
   ⟨s13, 0, by decide +kernel⟩,
   ⟨State.reset, 0, by decide +kernel⟩⟩

/-- The hypotheses of each clause of `StartsEndInRunOrRecovery` are met together. -/
theorem test_meets_StartsEndInRunOrRecovery :
    (∃ (s : State), s.blk.rcc.mode = Mode.boot ∧ s.blk.rcc.episode = none ∧ 1 ≤ s.blk.rcc.bootSel.toNat ∧ s.blk.rcc.bootSel.toNat ≤ 3)
    ∧ (∃ (s : State), s.blk.rcc.mode = Mode.boot ∧ s.blk.rcc.episode = none ∧ s.blk.rcc.bootSel = 0 ∧ s.blk.upd.bootA = false ∧ s.blk.upd.bootB = false)
    ∧ (∃ (s : State), s.blk.rcc.mode = Mode.boot ∧ s.blk.rcc.episode = none ∧ s.blk.rcc.bootSel = 0 ∧ (s.blk.upd.bootA = true ∨ s.blk.upd.bootB = true))
    ∧ (∃ (s : State), (s.blk.rcc.mode ≠ Mode.boot ∨ s.blk.rcc.episode.isSome = true))
    ∧ (∃ (s : State), s.blk.rcc.mode = Mode.run ∧ s.blk.rcc.pmFails = [])
    ∧ (∃ (s : State) (x : BitVec 64) (y : BitVec 64), s.blk.rcc.mode = Mode.run ∧ s.blk.rcc.pmFails = [x, y] ∧ s.blk.since x < 600000000000 ∧ s.blk.since y < 600000000000 ∧ s.blk.rcc.sched = none) :=
  ⟨⟨s14, by decide +kernel⟩,
   ⟨State.reset, by decide +kernel⟩,
   ⟨s15, by decide +kernel⟩,
   ⟨s16, by decide +kernel⟩,
   ⟨s16, by decide +kernel⟩,
   ⟨s17, (s17.blk.rcc.pmFails.getD 0 default), (s17.blk.rcc.pmFails.getD 1 default), by decide +kernel⟩⟩

/-- The hypotheses of each clause of `SuppliesAndSleep` are met together. -/
theorem test_meets_SuppliesAndSleep :
    (∃ (s : State), 720 ≤ bits s.blk.rcc.pwrCore 11 0 ∧ bits s.blk.rcc.pwrCore 11 0 ≤ 880)
    ∧ (∃ (s : State) (v : BitVec 16), v.toNat < 4000 ∧ s.blk.rcc.feedA = true ∧ s.blk.rcc.feedB = true ∧ s.blk.variant ≠ Variant.nz820)
    ∧ (∃ (v : BitVec 16), 4000 ≤ v.toNat)
    ∧ (∃ (v : BitVec 16), v.toNat < 4250)
    ∧ (∃ (s : State) (v : BitVec 16), 4250 ≤ v.toNat ∧ s.blk.rcc.holdup = false)
    ∧ (∃ (s : State) (v : BitVec 16), 4250 ≤ v.toNat ∧ s.blk.rcc.holdup = true ∧ s.blk.rcc.mode ≠ Mode.sleep ∧ s.blk.rcc.holdupDone = false)
    ∧ (∃ (s : State) (v : BitVec 16), 4250 ≤ v.toNat ∧ s.blk.rcc.holdup = true ∧ s.blk.rcc.mode ≠ Mode.sleep ∧ s.blk.rcc.holdupDone = true ∧ s.blk.rcc.episode = none)
    ∧ (∃ (s : State), s.blk.rcc.powered = true ∧ s.blk.rcc.holdup = false)
    ∧ (∃ (s : State), s.blk.rcc.powered = true ∧ s.blk.rcc.holdup = true)
    ∧ (∃ (s : State), s.blk.rcc.holdup = true ∧ s.blk.rcc.holdupDone = false ∧ s.blk.rcc.feedBack = false)
    ∧ (∃ (s : State), s.blk.rcc.holdup = true ∧ s.blk.rcc.holdupDone = false ∧ s.blk.rcc.feedBack = true ∧ s.blk.rcc.episode = none)
    ∧ (∃ (s : State), s.blk.rcc.holdup = true)
    ∧ (∃ (s : State), bit s.blk.rcc.sleepCtrl 0 = true ∧ s.blk.guard Mode.sleep = some true ∧ s.blk.rcc.sched = none)
    ∧ (∃ (s : State), bit s.blk.rcc.sleepCtrl 0 = false)
    ∧ (∃ (s : State), s.blk.rcc.mode = Mode.sleep ∧ s.blk.rcc.sleepStep = 4)
    ∧ (∃ (s : State), (s.blk.rcc.mode ≠ Mode.sleep ∨ s.blk.rcc.sleepStep ≠ 4))
    ∧ (∃ (s : State), s.blk.rcc.mode = Mode.sleep ∧ s.blk.rcc.sleepStep < 5 ∧ s.blk.rcc.bootTamper = 0 ∧ s.blk.breath.running = false ∧ s.blk.sec.tmpPending = 0) :=
  ⟨⟨s18, by decide +kernel⟩,
   ⟨State.reset, 2080, by decide +kernel⟩,
   ⟨4000, by decide +kernel⟩,
   ⟨2080, by decide +kernel⟩,
   ⟨State.reset, 4250, by decide +kernel⟩,
   ⟨s19, 4250, by decide +kernel⟩,
   ⟨s20, 4250, by decide +kernel⟩,
   ⟨State.reset, by decide +kernel⟩,
   ⟨s20, by decide +kernel⟩,
   ⟨s19, by decide +kernel⟩,
   ⟨s21, by decide +kernel⟩,
   ⟨s20, by decide +kernel⟩,
   ⟨s22, by decide +kernel⟩,
   ⟨State.reset, by decide +kernel⟩,
   ⟨s23, by decide +kernel⟩,
   ⟨State.reset, by decide +kernel⟩,
   ⟨s23, by decide +kernel⟩⟩

end C14

namespace C15
def uidB : List Byte := List.replicate 16 0
def sg : List Byte := List.replicate 4627 3
def hd (ty lc g cnt handle arg : Nat) : List Byte := leBytes 2 1 ++ leBytes 1 ty ++ [0] ++ uidB ++ leBytes 1 lc ++ leBytes 1 g ++ [0, 0] ++ leBytes 8 cnt ++ leBytes 2 handle ++ [0, 0] ++ leBytes 4 arg
def op1 (code slot ty grant param : Nat) (body : List Byte) : List Byte := leBytes 1 code ++ leBytes 1 slot ++ leBytes 1 ty ++ [0] ++ leBytes 4 grant ++ leBytes 4 param ++ leBytes 2 body.length ++ [0, 0] ++ body
def ku (n : Nat) (ops : List Byte) (cnt : Nat) : List Byte := hd n 1 0 cnt (64 + 16) ops.length ++ ops ++ sg
def pLife (g : Nat) : List Byte := hd 1 1 0 0 (64 + 5) g ++ leBytes 4 pubLen ++ List.replicate pubLen 9 ++ sg
def pLife0 (g : Nat) : List Byte := hd 1 1 0 0 (64 + 5) g ++ leBytes 4 0 ++ sg
def pExit : List Byte := hd 2 1 0 9 (64 + 17) 0 ++ leBytes 4 0 ++ sg
def pOwn (a : Nat) : List Byte := hd 3 1 0 9 (64 + 17) a ++ leBytes 4 0 ++ sg
def pDbg : List Byte := hd 0 1 0 9 (64 + 18) 600 ++ leBytes 4 0x11 ++ leBytes 4 0 ++ sg
def kus : List (List Byte) := [ku 1 (op1 4 20 0 0 0 []) 1, ku 1 (op1 1 21 2 3 0 (List.replicate 1616 4)) 1, ku 2 (op1 5 0xFF 0 0 1 [] ++ op1 2 22 4 0 0 (List.replicate 2592 1)) 1, ku 1 (op1 3 20 0 5 0 []) 7]
def lifes : List (List Byte) := [pLife 2, pLife0 4, pLife0 1, pLife0 3]
def longs : List (List Byte) := kus ++ lifes ++ [pExit, pOwn 1, pOwn 0, pDbg]
def fin4 : List Byte := leBytes 4 7 ++ sg
def dg (id c : Nat) : List Byte := leBytes 4 0x10 ++ leBytes 4 id ++ leBytes 8 c ++ List.replicate 40 1
def sc (f : Security → Security) : Blk → Blk := fun b => b.onSec f
def ky : Blk → Blk := fun b => { (sc (fun x => { x with husk := .available, kuCnt := 0, slots := (Vector.range 64).map fun n => { (x.slots[n]!) with gen := 1, used := true, type := ktAnchor, role := ([4,5,3,2,6,4] : List Nat).getD (n - 16) 4, key := List.replicate 20 (BitVec.ofNat 8 n) } }) b) with variant := .nz840 }
def run (f : Blk → Blk) : State := st fun b => f (ky (inMode .run (pow b)))
def asmOf (op : Nat) (p : List Byte) : Blk → Blk := fun b => { b with mboxes := b.mboxes.map fun m => { m with assembly := some (BitVec.ofNat 16 op, 7, p.take (p.length - 600), 1) } }
def kuOf (u : Bool) : KeyUpd := { (default : KeyUpd) with counter := 5, digest := 7, slots := (ky State.reset.blk).sec.slots, unwraps := u, due := { mb := 10, client := 3, who := 2, opcode := 0x901 } }
def ses : Session := { (default : Session) with id := 7, rxTop := 3, rxSeen := [] }
def ring (n : Nat) (code : Byte) : State := { run (sc fun x => { x with cryCtrl := 1, cryRing := 0x80001000, crySize := 4, cryHead := 5, cryTail := n }) with mem := Mem.writeBytes [] (0x80001000 + 64 * n) ([code, 0, 0xFF, 0xFF] ++ leBytes 4 9 ++ leBytes 8 0x80002000 ++ leBytes 8 0x80003000 ++ leBytes 4 100) }
def kuS (i : Nat) : State := run (asmOf 0x901 (kus.getD i []))
def liS (i : Nat) : State := run fun b => inMode .service (asmOf 0x904 (lifes.getD i []) b)
def s1 : State := run fun b => sc (fun x => { x with ku := some (kuOf true) }) (asmOf 0x901 (kus.getD 0 []) b)
def s2 : State := kuS 0
def s3 : State := liS 0
def s4 : State := liS 3
def s5 : State := run fun b => inMode .lockdown (asmOf 0x906 pExit b)
def s6 : State := run (asmOf 0x907 (pOwn 1))
def s7 : State := run fun b => inMode .service (asmOf 0x903 pDbg b)
def s8 : State := run (sc fun x => { x with debugScope := 3 })
def s9 : State := run (sc fun x => { x with ku := some (kuOf true) })
def s10 : State := run fun b => { b with mboxes := b.mboxes.map fun m => { m with lastAttest := some 5 } }
def s11 : State := run fun b => inMode .sleep b
def s12 : State := run (sc fun x => { x with cl1Hold := true, husk := .unavailable })
def s13 : State := run (sc fun x => { x with cl1Hold := true, husk := .locked })
def s14 : State := run (sc fun x => { x with entropyOk := false })
def s15 : State := ring 1 1
def s16 : State := ring 2 3
def s17 : State := run (sc fun x => { x with challenge := some (7, [], [1,2]), session := none })
def s18 : State := run (sc fun x => { x with session := some ses })
def s19 : State := run (sc fun x => { x with session := some { ses with rxTop := 30, rxSeen := [30] } })

/-- The hypotheses of each clause of `KeyUpdatesCommitWhole` are met together. -/
theorem test_meets_KeyUpdatesCommitWhole :
    (∃ (s : State) (r : Req) (p : List Byte) (l : List KeyOp), Safety.wholeInParts cmdKeyUpdate r s.blk p ∧ 1 ≤ BitVec.toNat (byteAt p 2) ∧ BitVec.toNat (byteAt p 2) ≤ 8 ∧ Safety.pass (s.blk.headChecks p) ∧ leAt p 36 4 + 40 + sigLen = p.length ∧ keyOps (BitVec.toNat (byteAt p 2)) 40 (slice p 40 (p.length - 40 - sigLen)) = Except.ok l ∧ (∀ o ∈ l, Safety.pass (o.checks l)) ∧ s.blk.sec.ku.isSome = true)
    ∧ (∃ (s : State) (r : Req) (p : List Byte) (l : List KeyOp), Safety.wholeInParts cmdKeyUpdate r s.blk p ∧ 1 ≤ BitVec.toNat (byteAt p 2) ∧ BitVec.toNat (byteAt p 2) ≤ 8 ∧ Safety.pass (s.blk.headChecks p) ∧ leAt p 36 4 + 40 + sigLen = p.length ∧ keyOps (BitVec.toNat (byteAt p 2)) 40 (slice p 40 (p.length - 40 - sigLen)) = Except.ok l ∧ (∀ o ∈ l, Safety.pass (o.checks l)) ∧ s.blk.sec.ku = none ∧ s.blk.keysReady = true)
    ∧ (∃ (s : State) (k : KeyUpd), s.blk.sec.ku = some k)
    ∧ (∃ (s : State), s.blk.sec.ku = none) :=
  ⟨⟨s1, mkReq 10 (List.replicate 600 3), ((longs : List (List Byte)).getD 0 default), (match keyOps (BitVec.toNat (byteAt ((longs : List (List Byte)).getD 0 default) 2)) 40 (slice ((longs : List (List Byte)).getD 0 default) 40 (((longs : List (List Byte)).getD 0 default).length - 40 - sigLen)) with | .ok x => x | .error _ => default), by unfold Safety.pass Safety.wholeInParts; decide +kernel⟩,
   ⟨s2, mkReq 10 (List.replicate 600 3), ((longs : List (List Byte)).getD 0 default), (match keyOps (BitVec.toNat (byteAt ((longs : List (List Byte)).getD 0 default) 2)) 40 (slice ((longs : List (List Byte)).getD 0 default) 40 (((longs : List (List Byte)).getD 0 default).length - 40 - sigLen)) with | .ok x => x | .error _ => default), by unfold Safety.pass Safety.wholeInParts; decide +kernel⟩,
   ⟨s1, (s1.blk.sec.ku.getD default), by decide +kernel⟩,
   ⟨State.reset, by decide +kernel⟩⟩

/-- The hypotheses of each clause of `SignedMessagesAct` are met together. -/
theorem test_meets_SignedMessagesAct :
    (∃ (s : State) (r : Req) (p : List Byte) (n : Nat) (g : Nat) (k : Fin 64) (x : Slot), Safety.wholeInParts cmdLifecycleSet r s.blk p ∧ s.blk.rcc.episode = none ∧ Safety.pass (s.blk.ctlChecks p 1 (if leAt p 36 4 = lcOwned then pubLen else 0)) ∧ nonZeroAt p 24 8 = none ∧ leAt p 36 4 ≤ 4 ∧ s.blk.lcTransition (leAt p 36 4) = some (n, g) ∧ s.blk.slotOfHandle (leAt p 32 2) = some (k, x) ∧ ↑k = n ∧ x.used = true ∧ x.type = ktAnchor ∧ s.blk.anchorsReady = true)
    ∧ (∃ (s : State) (r : Req) (p : List Byte), Safety.wholeInParts cmdLifecycleSet r s.blk p ∧ Safety.pass (s.blk.ctlChecks p 1 (if leAt p 36 4 = lcOwned then pubLen else 0)) ∧ nonZeroAt p 24 8 = none ∧ leAt p 36 4 ≤ 4 ∧ s.blk.lcTransition (leAt p 36 4) = none)
    ∧ (∃ (s : State) (r : Req) (p : List Byte), Safety.wholeInParts cmdLockdownExit r s.blk p ∧ s.blk.rcc.sched = none ∧ s.blk.sec.class2Now = false)
    ∧ (∃ (s : State) (r : Req) (p : List Byte), Safety.wholeInParts cmdOwnerLock r s.blk p)
    ∧ (∃ (s : State) (r : Req) (p : List Byte), Safety.wholeInParts cmdDebugAuth r s.blk p ∧ Safety.pass (s.blk.headChecks p) ∧ nonZeroAt p 2 1 = none ∧ 60 ≤ leAt p 36 4 ∧ leAt p 36 4 ≤ 28800 ∧ leAt p 40 4 < 512 ∧ nonZeroAt p 44 4 = none ∧ s.blk.sec.dbgCnt.toNat < leAt p 24 8)
    ∧ (∃ (s : State), s.blk.sec.debugScope ≠ 0 ∧ s.blk.dr.debugOn = 0)
    ∧ (∃ (s : State), s.blk.sec.debugScope = 0)
    ∧ (∃ (s : State) (r : Req), Safety.accepted cmdAttest r s.blk ∧ s.blk.keysReady = true ∧ (s.blk.mboxes.get r.mb).lastAttest = none)
    ∧ (∃ (s : State) (r : Req) (d : BitVec 64), Safety.accepted cmdAttest r s.blk ∧ (s.blk.mboxes.get r.mb).lastAttest = some d ∧ s.blk.since d < 1000000000) :=
  ⟨⟨s3, mkReq 10 (List.replicate 600 3), ((longs : List (List Byte)).getD 4 default), ((s3.blk.lcTransition (leAt ((longs : List (List Byte)).getD 4 default) 36 4)).getD default).1, ((s3.blk.lcTransition (leAt ((longs : List (List Byte)).getD 4 default) 36 4)).getD default).2, ((s3.blk.slotOfHandle (leAt ((longs : List (List Byte)).getD 4 default) 32 2)).getD default).1, ((s3.blk.slotOfHandle (leAt ((longs : List (List Byte)).getD 4 default) 32 2)).getD default).2, by unfold Safety.pass Safety.wholeInParts; decide +kernel⟩,
   ⟨s4, mkReq 10 (List.replicate 600 3), ((longs : List (List Byte)).getD 7 default), by unfold Safety.pass Safety.wholeInParts; decide +kernel⟩,
   ⟨s5, mkReq 10 (List.replicate 600 3), ((longs : List (List Byte)).getD 8 default), by unfold Safety.wholeInParts; decide +kernel⟩,
   ⟨s6, mkReq 10 (List.replicate 600 3), ((longs : List (List Byte)).getD 9 default), by unfold Safety.wholeInParts; decide +kernel⟩,
   ⟨s7, mkReq 10 (List.replicate 600 3), ((longs : List (List Byte)).getD 11 default), by unfold Safety.pass Safety.wholeInParts; decide +kernel⟩,
   ⟨s8, by decide +kernel⟩,
   ⟨State.reset, by decide +kernel⟩,
   ⟨s9, mkReq 10 (List.replicate 64 5), by unfold Safety.accepted; decide +kernel⟩,
   ⟨s10, mkReq 10 (List.replicate 64 5), (((s10.blk.mboxes.get (mkReq 10 (List.replicate 64 5)).mb).lastAttest).getD default), by unfold Safety.accepted; decide +kernel⟩⟩

/-- The hypotheses of each clause of `AlarmsProtectTheKeys` are met together. -/
theorem test_meets_AlarmsProtectTheKeys :
    (∃ (s : State) (c : Byte), 1 ≤ BitVec.toNat c ∧ BitVec.toNat c ≤ 3 ∧ s.blk.sec.class1 = [] ∧ s.blk.rcc.mode = Mode.run ∧ s.blk.sec.husk = HuskState.available ∧ s.blk.sec.ku = none ∧ s.blk.sec.debugScope = 0 ∧ bit s.blk.sec.cryCtrl 0 = false)
    ∧ (∃ (s : State) (c : Byte), (c = 16 ∨ c = 17) ∧ s.blk.rcc.mode = Mode.run ∧ s.blk.rcc.sched = none ∧ s.blk.sec.ku = none ∧ s.blk.sec.debugScope = 0 ∧ bit s.blk.sec.cryCtrl 0 = false)
    ∧ (∃ (s : State) (c : Byte), s.blk.tamperClass c = 0)
    ∧ (∃ (s : State) (c : Byte), (c = 16 ∨ c = 17) ∧ s.blk.rcc.mode = Mode.sleep ∧ s.blk.rcc.sleepStep ≠ 5 ∧ s.blk.sec.debugScope = 0)
    ∧ (∃ (s : State), s.blk.sec.cl1Hold = true ∧ s.blk.sec.husk = HuskState.unavailable)
    ∧ (∃ (s : State), s.blk.sec.cl1Hold = true ∧ s.blk.sec.husk = HuskState.locked)
    ∧ (∃ (s : State), s.blk.sec.cl1Hold = false)
    ∧ (∃ (s : State), s.blk.sec.entropyOk = false) :=
  ⟨⟨s2, 1, by decide +kernel⟩,
   ⟨s2, 0x10, by decide +kernel⟩,
   ⟨State.reset, 0x12, by decide +kernel⟩,
   ⟨s11, 0x10, by decide +kernel⟩,
   ⟨s12, by decide +kernel⟩,
   ⟨s13, by decide +kernel⟩,
   ⟨State.reset, by decide +kernel⟩,
   ⟨s14, by decide +kernel⟩⟩

/-- The hypotheses of each clause of `CryptoRingAndSessions` are met together. -/
theorem test_meets_CryptoRingAndSessions :
    (∃ (s : State), bit s.blk.sec.cryCtrl 0 = true ∧ s.blk.sec.cryTail ≠ BitVec.toNat s.blk.sec.cryHead % 1024 ∧ byteAt (Mem.readBytes s.mem (BitVec.toNat s.blk.sec.cryRing + 64 * s.blk.sec.cryTail) 64) 0 = 1)
    ∧ (∃ (s : State), bit s.blk.sec.cryCtrl 0 = true ∧ s.blk.sec.cryTail ≠ BitVec.toNat s.blk.sec.cryHead % 1024 ∧ byteAt (Mem.readBytes s.mem (BitVec.toNat s.blk.sec.cryRing + 64 * s.blk.sec.cryTail) 64) 0 = 3 ∧ s.blk.slotOfHandle (leAt (Mem.readBytes s.mem (BitVec.toNat s.blk.sec.cryRing + 64 * s.blk.sec.cryTail) 64) 2 2) = none)
    ∧ (∃ (s : State), (bit s.blk.sec.cryCtrl 0 = false ∨ s.blk.sec.cryTail = BitVec.toNat s.blk.sec.cryHead % 1024))
    ∧ (∃ (s : State), s.blk.mgmtServes = true ∧ s.blk.hsBlocked = false ∧ s.blk.sec.entropyOk = true)
    ∧ (∃ (s : State), (s.blk.mgmtServes = false ∨ s.blk.hsBlocked = true))
    ∧ (∃ (s : State) (c : Word × List Byte × List Byte) (f : List Byte), s.blk.sec.challenge = some c ∧ leAt f 0 4 = BitVec.toNat c.1 ∧ f.length = 4 + sigLen ∧ s.blk.sec.session = none)
    ∧ (∃ (s : State), s.blk.sec.challenge = none)
    ∧ (∃ (s : State) (y : Session) (d : List Byte), s.blk.sec.session = some y ∧ 32 ≤ d.length ∧ d.length ≤ 4128 ∧ leAt d 0 4 = 16 ∧ leAt d 4 4 = BitVec.toNat y.id ∧ s.blk.mgmtServes = true ∧ y.fresh (leAt d 8 8) = true)
    ∧ (∃ (s : State) (y : Session) (d : List Byte), s.blk.sec.session = some y ∧ 32 ≤ d.length ∧ d.length ≤ 4128 ∧ leAt d 0 4 = 16 ∧ leAt d 4 4 = BitVec.toNat y.id ∧ s.blk.mgmtServes = true ∧ y.fresh (leAt d 8 8) = false)
    ∧ (∃ (s : State) (y : Session), s.blk.sec.session = some y) :=
  ⟨⟨s15, by decide +kernel⟩,
   ⟨s16, by decide +kernel⟩,
   ⟨State.reset, by decide +kernel⟩,
   ⟨s2, by decide +kernel⟩,
   ⟨State.reset, by decide +kernel⟩,
   ⟨s17, (s17.blk.sec.challenge.getD default), fin4, by decide +kernel⟩,
   ⟨State.reset, by decide +kernel⟩,
   ⟨s18, (s18.blk.sec.session.getD default), dg 7 30, by decide +kernel⟩,
   ⟨s19, (s19.blk.sec.session.getD default), dg 7 30, by decide +kernel⟩,
   ⟨s18, (s18.blk.sec.session.getD default), by decide +kernel⟩⟩

end C15

namespace C16
def sg : List Byte := List.replicate 4627 3
def img0 : List Byte := List.replicate 20 7
def man (code secv fmt len : Nat) (h : Nat) (dig : List Byte) : List Byte := leBytes 2 1 ++ leBytes 1 code ++ [0] ++ leBytes 16 0 ++ [7, 0, 0, 0] ++ [2, 3] ++ leBytes 2 4 ++ leBytes 2 fmt ++ [0, 0] ++ leBytes 4 secv ++ leBytes 4 len ++ dig ++ leBytes 2 h ++ [0, 0] ++ leBytes 4 0 ++ List.replicate 16 0 ++ sg
def d20 : List Byte := List.replicate 64 5
def mans : List (List Byte) := [man 0 3 1 20 (64+5) d20, man 1 3 1 20 (64+19) d20, man 3 3 1 20 (64+5) d20, man 0x10 3 1 20 (64+19) d20, man 0x12 3 1 20 (64+19) d20]
def frame (i n num : Nat) (k : Nat) : List Byte := [0x20] ++ leBytes 1 i ++ leBytes 1 n ++ [0] ++ leBytes 4 num ++ List.replicate k 5
def sc (f : Security → Security) : Blk → Blk := fun b => b.onSec f
def ky : Blk → Blk := fun b => { (sc (fun x => { x with husk := .available, slots := (Vector.range 64).map fun n => { (x.slots[n]!) with gen := 1, used := true, type := ktAnchor, role := ([4,5,3,2,6,4] : List Nat).getD (n - 16) 2, key := List.replicate 20 (BitVec.ofNat 8 n) } }) b) with variant := .nz840, motion := { b.motion with notReady := false, fault := false } }
def withSlots (b : Blk) : Blk := (upTo 13).foldl (fun b i => b.modComp i fun c => { c with a := { c.a with state := .active, len := 5, digest := 4, format := 1 }, b := { c.b with state := .verified, len := 20, digest := Config.sha3 img0, format := 1 } }) b
def ok : Blk → Blk := fun b => withSlots (ky (b.onRcc fun r => { r with vka := true, vholdOk := true, vbat := 0x2F002F00, powered := true }))
def run (f : Blk → Blk) : State := st fun b => f (ok (inMode .run (pow b)))
def asmOf (op : Nat) (p : List Byte) : Blk → Blk := fun b => { b with mboxes := b.mboxes.map fun m => { m with assembly := some (BitVec.ofNat 16 op, 7, p.take (p.length - 600), 1) } }
def up (f : Update → Update) : Blk → Blk := fun b => b.onUpd f
def tri (n : Nat) : Blk → Blk := fun b => (upTo 13).foldl (fun b i => b.modComp i fun c => { c with a := { c.a with state := .trial, secVer := 9 }, b := { c.b with state := .previous }, trialStarts := n }) b
def due1 : Due := { mb := 10, client := 3, who := 2, opcode := 0xA03 }
def upS (n k : Nat) : State := run (up fun u => { u with state := .receiving, comp := n, received := k, imgLen := 20 })
def s1 : State := run fun b => asmOf 0xA01 (mans.getD 0 []) (inMode .service b)
def s2 : State := upS 0 8
def s3 : State := upS 0 20
def s4 : State := run (up fun u => { u with state := .verifying, comp := 0, imgLen := 20, due := some due1 })
def s5 : State := run fun b => (inMode .recovery b).onRcc fun r => { r with bootSel := 1 }
def s6 : State := run fun b => ((inMode .recovery b).onRcc fun r => { r with bootSel := 1 }).onUpd fun u => { u with recHost := some 5, recLast := some (9, [[1,2,3]]) }
def s7 : State := run (up fun u => { u with state := .verified, comp := 0, imgLen := 20 })
def s8 : State := run (up fun u => { u with state := .verified, comp := 1, imgLen := 20 })
def s9 : State := run id
def s10 : State := run (up fun u => { u with state := .scheduled, comp := 0, imgLen := 20 })
def s11 : State := run fun b => (inMode .boot b).onUpd fun u => { u with comps := u.comps.map fun c => { c with pendingAct := true } }
def s12 : State := run (tri 1)
def s13 : State := run (tri 3)
def s14 : State := run fun b => (tri 1 b).onTb fun t => { t with dt := 0xFFFFFFFFFFF }
def s15 : State := run fun b => (inMode .boot b).onRcc fun r => { r with bootSel := 4 }

/-- The hypotheses of each clause of `UpdatesAreReceivedAndChecked` are met together. -/
theorem test_meets_UpdatesAreReceivedAndChecked :
    (∃ (s : State) (r : Req) (p : List Byte) (i : Fin 13), Safety.wholeInParts cmdUpdBegin r s.blk p ∧ compIdx (BitVec.toNat (byteAt p 2)) = some i ∧ s.blk.rcc.mode = Mode.service ∧ Safety.pass (s.blk.manifestFields p) ∧ ↑i ≠ 4 ∧ s.blk.updBusy i = false ∧ s.blk.sec.ownerLock = false ∧ Safety.pass s.blk.siteChecks ∧ Safety.pass (s.blk.manifestRollback i p))
    ∧ (∃ (s : State) (i : Fin 13) (r : Req), Safety.canonical s ∧ Safety.accepted cmdUpdData r s.blk ∧ s.blk.upd.state = UpdState.receiving ∧ compIdx s.blk.upd.comp = some i ∧ nonZeroAt (Safety.payload r) 4 4 = none ∧ leAt (Safety.payload r) 0 4 = s.blk.upd.received ∧ 8 ≤ (Safety.payload r).length ∧ s.blk.upd.received + ((Safety.payload r).length - 8) ≤ s.blk.upd.imgLen ∧ s.blk.upd.imgLen ≤ (slotArea s.blk.upd.comp).2)
    ∧ (∃ (s : State) (i : Fin 13) (r : Req), Safety.canonical s ∧ Safety.accepted cmdUpdData r s.blk ∧ s.blk.upd.state = UpdState.receiving ∧ compIdx s.blk.upd.comp = some i ∧ nonZeroAt (Safety.payload r) 4 4 = none ∧ leAt (Safety.payload r) 0 4 ≠ s.blk.upd.received)
    ∧ (∃ (s : State) (r : Req), Safety.accepted cmdUpdFinish r s.blk ∧ s.blk.upd.state = UpdState.receiving ∧ s.blk.upd.imgLen ≤ s.blk.upd.received)
    ∧ (∃ (s : State) (r : Req), Safety.accepted cmdUpdFinish r s.blk ∧ s.blk.upd.state = UpdState.receiving ∧ s.blk.upd.received < s.blk.upd.imgLen)
    ∧ (∃ (s : State) (i : Fin 13), s.blk.upd.state = UpdState.verifying ∧ compIdx s.blk.upd.comp = some i)
    ∧ (∃ (s : State) (a : BitVec 48) (l : List Byte), s.blk.rcc.mode = Mode.recovery ∧ s.blk.rcc.bootSel = 1 ∧ 8 ≤ l.length ∧ l.length ≤ 1408 ∧ byteAt l 0 = 32 ∧ byteAt l 3 = 0 ∧ (s.blk.upd.recHost = none ∨ s.blk.upd.recHost = some a) ∧ byteAt l 1 = 0 ∧ byteAt l 2 = 1 ∧ s.blk.upd.recLast = none)
    ∧ (∃ (s : State) (a : BitVec 48) (l : List Byte) (m : List (List Byte)), s.blk.rcc.mode = Mode.recovery ∧ s.blk.rcc.bootSel = 1 ∧ 8 ≤ l.length ∧ l.length ≤ 1408 ∧ byteAt l 0 = 32 ∧ byteAt l 3 = 0 ∧ (s.blk.upd.recHost = none ∨ s.blk.upd.recHost = some a) ∧ byteAt l 1 = 0 ∧ byteAt l 2 = 1 ∧ s.blk.upd.recLast = some (wordAt l 4, m))
    ∧ (∃ (s : State) (a : BitVec 48) (l : List Byte), s.blk.rcc.mode = Mode.recovery ∧ s.blk.rcc.bootSel = 1 ∧ 8 ≤ l.length ∧ l.length ≤ 1408 ∧ byteAt l 0 = 32 ∧ byteAt l 3 = 0 ∧ (s.blk.upd.recHost = none ∨ s.blk.upd.recHost = some a) ∧ byteAt l 1 = 0 ∧ byteAt l 2 = 2 ∧ s.blk.upd.recMsg = none)
    ∧ (∃ (s : State) (a : BitVec 48) (b : BitVec 48), (s.blk.rcc.mode ≠ Mode.recovery ∨ s.blk.upd.recHost = some b ∧ b ≠ a)) :=
  ⟨⟨s1, mkReq 10 (List.replicate 600 3), mans.getD 0 [], ((compIdx (BitVec.toNat (byteAt (mans.getD 0 []) 2))).getD default), by unfold Safety.pass Safety.wholeInParts; decide +kernel⟩,
   ⟨s2, ((compIdx s2.blk.upd.comp).getD default), mkReq 10 (leBytes 4 8 ++ leBytes 4 0 ++ [1,2,3,4]), by unfold Safety.accepted Safety.canonical; decide +kernel⟩,
   ⟨s2, ((compIdx s2.blk.upd.comp).getD default), mkReq 10 (List.replicate 16 0), by unfold Safety.accepted Safety.canonical; decide +kernel⟩,
   ⟨s3, mkReq 10 [], by unfold Safety.accepted; decide +kernel⟩,
   ⟨s2, mkReq 10 [], by unfold Safety.accepted; decide +kernel⟩,
   ⟨s4, ((compIdx s4.blk.upd.comp).getD default), by decide +kernel⟩,
   ⟨s5, 5, frame 0 1 9 20, by decide +kernel⟩,
   ⟨s6, 5, frame 0 1 9 20, [[1,2,3]], by decide +kernel⟩,
   ⟨s5, 5, frame 0 2 9 20, by decide +kernel⟩,
   ⟨State.reset, 5, 5, by decide +kernel⟩⟩

/-- The hypotheses of each clause of `UpdatesActivateOnTrial` are met together. -/
theorem test_meets_UpdatesActivateOnTrial :
    (∃ (s : State) (i : Fin 13) (r : Req), Safety.accepted cmdUpdActivate r s.blk ∧ compIdx s.blk.upd.comp = some i ∧ s.blk.upd.state = UpdState.verified ∧ byteAt (Safety.payload r) 0 = 0 ∧ nonZeroAt (Safety.payload r) 1 7 = none ∧ Safety.pass s.blk.siteChecks ∧ ↑i < 5 ∧ ↑i ≠ 1)
    ∧ (∃ (s : State) (r : Req), Safety.accepted cmdUpdActivate r s.blk ∧ compIdx s.blk.upd.comp = some 1 ∧ s.blk.upd.state = UpdState.verified ∧ byteAt (Safety.payload r) 0 = 0 ∧ nonZeroAt (Safety.payload r) 1 7 = none ∧ Safety.pass s.blk.siteChecks ∧ s.blk.rcc.mode ≠ Mode.recovery)
    ∧ (∃ (s : State) (r : Req), Safety.accepted cmdUpdAbort r s.blk ∧ s.blk.upd.state = UpdState.idle)
    ∧ (∃ (s : State) (i : Fin 13) (r : Req), Safety.accepted cmdUpdAbort r s.blk ∧ s.blk.upd.state = UpdState.receiving ∧ compIdx s.blk.upd.comp = some i ∧ s.blk.upd.due = none)
    ∧ (∃ (s : State) (i : Fin 13) (r : Req), Safety.accepted cmdUpdAbort r s.blk ∧ s.blk.upd.state = UpdState.scheduled ∧ compIdx s.blk.upd.comp = some i ∧ ↑i < 5 ∧ s.blk.upd.due = none)
    ∧ (∃ (s : State) (c : Byte) (i : Fin 13), compIdx (BitVec.toNat c) = some i ∧ s.blk.rcc.mode = Mode.boot ∧ s.blk.rcc.episode = none ∧ ↑i < 4 ∧ ↑i ≠ 1 ∧ (s.blk.comp i).pendingAct = true ∧ ((s.blk.comp i).slot (s.blk.comp i).runB).state = ImgState.active)
    ∧ (∃ (s : State) (c : Byte) (i : Fin 13), compIdx (BitVec.toNat c) = some i ∧ s.blk.rcc.mode = Mode.boot ∧ s.blk.rcc.episode = none ∧ ↑i < 4 ∧ ↑i ≠ 1 ∧ (s.blk.comp i).pendingAct = false)
    ∧ (∃ (s : State) (c : Byte) (i : Fin 13), compIdx (BitVec.toNat c) = some i ∧ ↑i < 4 ∧ s.blk.trialOpen i = true ∧ s.blk.confirmable i = true)
    ∧ (∃ (s : State) (c : Byte) (i : Fin 13), compIdx (BitVec.toNat c) = some i ∧ ↑i < 4 ∧ s.blk.trialOpen i = true ∧ s.blk.confirmable i = false)
    ∧ (∃ (s : State) (c : Byte) (i : Fin 13) (w : BitVec 3), compIdx (BitVec.toNat c) = some i ∧ ↑i < 4 ∧ s.blk.trialOpen i = true ∧ ↑i ≠ 1 ∧ s.blk.failable i w.toNat = true)
    ∧ (∃ (s : State) (c : Byte) (i : Fin 13) (w : BitVec 3), compIdx (BitVec.toNat c) = some i ∧ ↑i < 4 ∧ s.blk.trialOpen i = true ∧ s.blk.failable i w.toNat = false)
    ∧ (∃ (s : State) (c : Byte) (i : Fin 13), compIdx (BitVec.toNat c) = some i ∧ ↑i < 4 ∧ s.blk.trialOpen i = true ∧ ↑i = 1 ∧ s.blk.failable 1 3 = true ∧ ((s.blk.comp 1).slot !(s.blk.comp 1).runB).state = ImgState.previous)
    ∧ (∃ (s : State) (l : List Byte) (i : Fin 13), compIdx (BitVec.toNat (byteAt (padTo manifestLen l) 2)) = some i ∧ s.blk.rcc.mode = Mode.boot ∧ s.blk.rcc.episode = none ∧ s.blk.rcc.bootSel = 4 ∧ ↑i < 4 ∧ (s.blk.running i).digest ≠ (manifestSlot (padTo manifestLen l) ImgState.verified).digest ∧ Safety.pass (s.blk.manifestFields (padTo manifestLen l)) ∧ Safety.pass (s.blk.manifestRollback i (padTo manifestLen l)))
    ∧ (∃ (s : State), (s.blk.rcc.mode ≠ Mode.boot ∨ s.blk.rcc.bootSel ≠ 4)) :=
  ⟨⟨s7, ((compIdx s7.blk.upd.comp).getD default), mkReq 10 (List.replicate 16 0), by unfold Safety.accepted Safety.pass; decide +kernel⟩,
   ⟨s8, mkReq 10 (List.replicate 16 0), by unfold Safety.accepted Safety.pass; decide +kernel⟩,
   ⟨s9, mkReq 10 [], by unfold Safety.accepted; decide +kernel⟩,
   ⟨s2, ((compIdx s2.blk.upd.comp).getD default), mkReq 10 [], by unfold Safety.accepted; decide +kernel⟩,
   ⟨s10, ((compIdx s10.blk.upd.comp).getD default), mkReq 10 [], by unfold Safety.accepted; decide +kernel⟩,
   ⟨s11, 0, ((compIdx (BitVec.toNat (0 : Byte))).getD default), by decide +kernel⟩,
   ⟨State.reset, 0, ((compIdx (BitVec.toNat (0 : Byte))).getD default), by decide +kernel⟩,
   ⟨s12, 2, ((compIdx (BitVec.toNat (2 : Byte))).getD default), by decide +kernel⟩,
   ⟨s12, 0, ((compIdx (BitVec.toNat (0 : Byte))).getD default), by decide +kernel⟩,
   ⟨s13, 0, ((compIdx (BitVec.toNat (0 : Byte))).getD default), 1, by decide +kernel⟩,
   ⟨s12, 0, ((compIdx (BitVec.toNat (0 : Byte))).getD default), 1, by decide +kernel⟩,
   ⟨s14, 1, ((compIdx (BitVec.toNat (1 : Byte))).getD default), by decide +kernel⟩,
   ⟨s15, mans.getD 0 [], ((compIdx (BitVec.toNat (byteAt (padTo manifestLen (mans.getD 0 [])) 2))).getD default), by unfold Safety.pass; decide +kernel⟩,
   ⟨State.reset, by decide +kernel⟩⟩

end C16

namespace C17

def s1 : State := st (inMode .service)

/-- The hypotheses of each clause of `RegisterWritesFollowTheirTypes` are met together. -/
theorem test_meets_RegisterWritesFollowTheirTypes :
    (∃ (w : Word), 10 ≤ bits w 15 0 ∧ bits w 15 0 ≤ 10000)
    ∧ (∃ (w : Word), (bits w 15 0 < 10 ∨ 10000 < bits w 15 0))
    ∧ (∃ (s : State), s.blk.absent (UnitName.block 10) = false)
    ∧ (∃ (s : State) (i : Initiator) (a : Word) (n : Fin 4), inBlocks (BitVec.toNat a) = true ∧ inWindow (BitVec.toNat a) = false ∧ s.blk.absentAt i (BitVec.toNat a) = none ∧ mapped (BitVec.toNat a) = true ∧ (aligned (BitVec.toNat a) n = false ∨ s.blk.allows i (BitVec.toNat a) true = false))
    ∧ (∃ (a : Word), 1073741824 ≤ BitVec.toNat a ∧ BitVec.toNat a < 1073872896)
    ∧ (∃ (s : State) (i : Initiator) (a : Word), inWindow (BitVec.toNat a) = false ∧ s.blk.absentAt i (BitVec.toNat a) = none ∧ mapped (BitVec.toNat a) = false) :=
  ⟨⟨0x40010018, by decide +kernel⟩,
   ⟨0x4000FFF0, by decide +kernel⟩,
   ⟨State.reset, by decide +kernel⟩,
   ⟨State.reset, .chanter, 0x40010019, 1, by decide +kernel⟩,
   ⟨0x40010018, by decide +kernel⟩,
   ⟨State.reset, .chanter, 0x70000000, by decide +kernel⟩⟩

/-- The hypotheses of each clause of `RegistersByCommand` are met together. -/
theorem test_meets_RegistersByCommand :
    (∃ (s : State) (r : Req), Safety.accepted cmdRegRead r s.blk ∧ s.blk.absentAt Initiator.chanter (leAt (Safety.payload r) 0 4) = none ∧ inBlocks (leAt (Safety.payload r) 0 4) = true ∧ leAt (Safety.payload r) 0 4 % 4 = 0 ∧ blockNo (leAt (Safety.payload r) 0 4) ∉ [2, 4, 6, 7, 8, 10, 13] ∧ mapped (leAt (Safety.payload r) 0 4) = true ∧ leAt (Safety.payload r) 4 2 = 1 ∧ nonZeroAt (Safety.payload r) 6 2 = none)
    ∧ (∃ (s : State) (r : Req), Safety.accepted cmdRegRead r s.blk ∧ s.blk.absentAt Initiator.chanter (leAt (Safety.payload r) 0 4) = none ∧ protectedAddr (leAt (Safety.payload r) 0 4) = true)
    ∧ (∃ (s : State) (r : Req), Safety.accepted cmdRegWrite r s.blk ∧ s.blk.absentAt Initiator.chanter (leAt (Safety.payload r) 0 4) = none ∧ leAt (Safety.payload r) 0 4 = 1073807384)
    ∧ (∃ (s : State) (r : Req), Safety.accepted cmdRegWrite r s.blk ∧ s.blk.absentAt Initiator.chanter (leAt (Safety.payload r) 0 4) = none ∧ s.blk.writeProtected (leAt (Safety.payload r) 0 4) = true)
    ∧ (∃ (s : State) (r : Req), Safety.accepted cmdRegWrite r s.blk ∧ s.blk.absentAt Initiator.chanter (leAt (Safety.payload r) 0 4) = none ∧ leAt (Safety.payload r) 0 4 % 4 ≠ 0 ∧ s.blk.writeProtected (leAt (Safety.payload r) 0 4) = false)
    ∧ (∃ (a : Nat), (inBlocks a = true ∧ (blockNo a = 6 ∨ blockNo a = 7 ∨ blockNo a = 13) ∨ inPool a = true ∨ inNvm a = true)) :=
  ⟨⟨s1, mkReq 10 (leBytes 4 0x40010018 ++ leBytes 4 1), by unfold Safety.accepted; decide +kernel⟩,
   ⟨s1, mkReq 10 (leBytes 4 0x400D0000 ++ leBytes 4 1), by unfold Safety.accepted; decide +kernel⟩,
   ⟨s1, mkReq 10 (leBytes 4 0x40010018 ++ leBytes 4 1), by unfold Safety.accepted; decide +kernel⟩,
   ⟨s1, mkReq 10 (leBytes 4 0x400D0000 ++ leBytes 4 1), by unfold Safety.accepted; decide +kernel⟩,
   ⟨s1, mkReq 10 (leBytes 4 0x40010019 ++ leBytes 4 1), by unfold Safety.accepted; decide +kernel⟩,
   ⟨0x40060000, by decide +kernel⟩⟩

end C17

end Sys2Proof.Tests
end

section
/-! SUPPORT. An access or a command to an absent unit (R2, R3): what `Blk.notPresent` records and leaves alone, and that the
NOT_PRESENT_ACCESS command is that record, after an answer of zero where it reads. -/

namespace Sys2Proof.Machine
open Sys2Proof

/-! ### The record of an absent unit -/

/-- A unit that this boot has logged logs nothing more. -/
theorem Blk.notPresent_of_logged {b : Blk} {u : UnitName} (arg : Word) (i : Initiator) (h : u ∈ b.absentLogged) :
    b.notPresent u arg i = b := if_pos h

/-- The first access of a boot marks the unit and captures the record of R3. -/
theorem Blk.notPresent_of_not_logged {b : Blk} {u : UnitName} (arg : Word) (i : Initiator) (h : u ∉ b.absentLogged) :
    b.notPresent u arg i = ({ b with absentLogged := u :: b.absentLogged } : Blk).ev srcSys 1 1 arg (idByte i) := if_neg h

theorem Blk.mem_absentLogged_notPresent (b : Blk) (u : UnitName) (arg : Word) (i : Initiator) :
    u ∈ (b.notPresent u arg i).absentLogged := by
  by_cases h : u ∈ b.absentLogged
  · rwa [Blk.notPresent_of_logged arg i h]
  · rw [Blk.notPresent_of_not_logged arg i h, Blk.ev_absentLogged]
    exact List.mem_cons_self

theorem Blk.notPresent_lastRecord {b : Blk} {u : UnitName} (arg : Word) (i : Initiator) (h : u ∉ b.absentLogged)
    (hroom : Safety.room b srcSys) :
    Safety.lastRecord (b.notPresent u arg i) = some (srcSys, 1, 1, arg, idByte i) := by
  rw [Blk.notPresent_of_not_logged arg i h]
  exact Blk.ev_last _ srcSys 1 1 arg (idByte i) false 0 ((Safety.room_congr rfl).2 hroom)

/-- Recording an absent unit changes the units logged in this boot and the sequencer alone. -/
theorem Blk.notPresent_eq (b : Blk) (u : UnitName) (arg : Word) (i : Initiator) :
    b.notPresent u arg i =
      { b with absentLogged := (b.notPresent u arg i).absentLogged, evs := (b.notPresent u arg i).evs } := by
  by_cases h : u ∈ b.absentLogged
  · rw [Blk.notPresent_of_logged arg i h]
  · rw [Blk.notPresent_of_not_logged arg i h, Blk.ev_absentLogged]
    exact Blk.ev_eq ..

@[simp] theorem Blk.notPresent_reply (b : Blk) (u : UnitName) (arg : Word) (i : Initiator) :
    (b.notPresent u arg i).reply = b.reply := by rw [Blk.notPresent_eq]

/-! ### The command -/

theorem exec_notPresentAccess (i : Initiator) (u : UnitName) (a : AbsentAccess) (s : State) :
    exec (.notPresentAccess i u a) s = .next (s.onBlk (notPresentAccess i u a)) := rfl

section
variable {b : Blk} {u : UnitName} (i : Initiator) (h : b.absent u = true)
include h

theorem notPresentAccess_read (a : Word) : notPresentAccess i u (.read a) b = (b.answer 0).notPresent u a i := by
  simp [notPresentAccess, h]

theorem notPresentAccess_write (a : Word) : notPresentAccess i u (.write a) b = b.notPresent u a i := by
  simp [notPresentAccess, h]

theorem notPresentAccess_command (op : BitVec 16) (n : Byte) :
    notPresentAccess i u (.command op n) b = b.notPresent u (arg32 (op.toNat + n.toNat * 65536)) i := by
  simp [notPresentAccess, h]
end

/-- An access that comes down to `Blk.notPresent` with `arg`, so a write or a command: the first of a boot is recorded
with `arg`, later ones log nothing, and all else is left alone. -/
theorem runs_notPresentAccess_of_eq {i : Initiator} {u : UnitName} {a : AbsentAccess} {arg : Word} {s : State}
    (h : notPresentAccess i u a s.blk = s.blk.notPresent u arg i) :
    Safety.runs (.notPresentAccess i u a) s fun t =>
      (u ∉ s.blk.absentLogged → Safety.room s.blk srcSys → Safety.lastRecord t.blk = some (srcSys, 1, 1, arg, idByte i))
      ∧ (u ∈ s.blk.absentLogged → t.blk.evs = s.blk.evs) ∧ u ∈ t.blk.absentLogged
      ∧ t.blk = { s.blk with absentLogged := t.blk.absentLogged, evs := t.blk.evs } := by
  refine ⟨_, exec_notPresentAccess i u a s, ?_⟩
  simp only [State.onBlk_blk, h]
  exact ⟨Blk.notPresent_lastRecord arg i, fun hm => by rw [Blk.notPresent_of_logged arg i hm],
    Blk.mem_absentLogged_notPresent .., Blk.notPresent_eq ..⟩

/-- A read of an absent unit answers zero without a fault, and is recorded as a write is. -/
theorem runs_notPresentAccess_read {i : Initiator} {u : UnitName} {s : State} (h : s.blk.absent u = true) (a : Word) :
    Safety.runs (.notPresentAccess i u (.read a)) s fun t =>
      t.blk.reply = { data := 0, fault := false, isolated := false } ∧ u ∈ t.blk.absentLogged
      ∧ (u ∉ s.blk.absentLogged → Safety.room s.blk srcSys → Safety.lastRecord t.blk = some (srcSys, 1, 1, a, idByte i))
      ∧ (u ∈ s.blk.absentLogged → t.blk.evs = s.blk.evs)
      ∧ t.blk = { s.blk with reply := t.blk.reply, absentLogged := t.blk.absentLogged, evs := t.blk.evs } := by
  refine ⟨_, exec_notPresentAccess i u (.read a) s, ?_⟩
  simp only [State.onBlk_blk, notPresentAccess_read i h, Blk.notPresent_reply]
  have hroom : Safety.room s.blk srcSys → Safety.room (s.blk.answer 0) srcSys := (Safety.room_congr rfl).2
  exact ⟨rfl, Blk.mem_absentLogged_notPresent ..,
    fun hm hr => Blk.notPresent_lastRecord (b := s.blk.answer 0) a i hm (hroom hr),
    fun hm => by rw [Blk.notPresent_of_logged (b := s.blk.answer 0) a i hm]; rfl, Blk.notPresent_eq ..⟩

/-- Settles O10: a read, a write and a command each come down to `Blk.notPresent`, which records a unit once per boot. -/
theorem absentUnits : Obligations.AbsentUnits := by
  intro i u s h
  exact ⟨runs_notPresentAccess_read h,
    fun a => runs_notPresentAccess_of_eq (notPresentAccess_write i h a),
    fun op n => runs_notPresentAccess_of_eq (notPresentAccess_command i h op n)⟩

end Sys2Proof.Machine
end

section
/-! SUPPORT. What a step does to the byte memories (R18): it carries out a list of stores, so the canonical form and the bytes that
the device does not write outlast every step. -/

namespace Sys2Proof.Machine
open Sys2Proof

/-- Every step acts on the memories by a list of stores alone; time passing and a command of the block alone make none. -/
theorem step_mem_eq_stores {s t : State} (h : step s = .next t) : ∃ l : List Store, t.mem = Mem.stores s.mem l := by
  rcases step_cases h with ⟨-, rfl⟩ | ⟨c, rest, -, ⟨f, rfl⟩ | ⟨f, rfl⟩⟩
  · exact ⟨[], rfl⟩
  · exact ⟨[], rfl⟩
  · exact ⟨_, State.onMem_mem ..⟩

/-- Settles O3: a step carries out stores, and each store keeps the canonical form. -/
theorem everyStepKeepsMemoryCanonical : Obligations.EveryStepKeepsMemoryCanonical := by
  intro s t hs h
  obtain ⟨l, hl⟩ := step_mem_eq_stores h
  unfold Safety.canonical
  rw [hl]
  exact Mem.wf_stores l hs

/-- Settles O4: the memory at reset lists no cell. -/
theorem resetMemoryIsCanonical : Obligations.ResetMemoryIsCanonical :=
  ⟨rfl, State.reset_pending, fun _ => rfl⟩

/-- Settles O5: a step carries out stores, and each store drops the bytes outside NVM, SRAM and LPDDR5. -/
theorem everyStepKeepsReadOnlyBytes : Obligations.EveryStepKeepsReadOnlyBytes := by
  intro s t h a ha
  obtain ⟨l, hl⟩ := step_mem_eq_stores h
  rw [hl]
  exact Mem.read_stores_ro l ha s.mem

@[simp] theorem Mem.stores_nil (m : Mem) : Mem.stores m [] = m := rfl

/-- A command that `Safety.stores` does not name runs and leaves the memories alone. -/
theorem runs_mem_of_not_stores {c : Instr} (s : State) (h : Safety.stores c = false) :
    Safety.runs c s fun t => t.mem = s.mem := by
  rcases exec_cases c s with ⟨f, hf⟩ | ⟨f, hf, hnone⟩
  · exact ⟨_, hf, rfl⟩
  · refine ⟨_, hf, (State.onMem_mem s f).trans ?_⟩
    rw [hnone h, Mem.stores_nil]

theorem exec_registerWrite (i : Initiator) (addr : Word) (width : Fin 4) (data : BitVec 64) (s : State) :
    exec (.registerWrite i addr width data) s = .next (s.onMem fun _ b => registerWrite i addr width data b) := rfl

/-- Settles O7: the stores of a command are the only way to the memories, and they change the bytes that they cover alone. -/
theorem commandsStoreOnlyTheirBytes : Obligations.CommandsStoreOnlyTheirBytes := by
  refine ⟨fun _ s h => runs_mem_of_not_stores s h, fun i addr width data s => ⟨_, exec_registerWrite i addr width data s, ?_⟩⟩
  intro a ha
  rw [State.onMem_mem]
  exact Mem.read_stores_out _ ha s.mem

end Sys2Proof.Machine
end

section
/-! SUPPORT. An access that the shell refuses (R17, R19, R180): the three kinds of refusal are one operation, which differs in
the list of initiators that the bellows keeps, the source and the code of its record. -/

namespace Sys2Proof.Machine
open Sys2Proof

/-! ### The answer and the tenant's fault -/

@[simp] theorem Blk.fault1_reply (b : Blk) (i : Initiator) : (b.fault1 i).reply = b.reply := by cases i <;> rfl
@[simp] theorem Blk.fault1_breath (b : Blk) (i : Initiator) : (b.fault1 i).breath = b.breath := by cases i <;> rfl
@[simp] theorem Blk.fault1_evs (b : Blk) (i : Initiator) : (b.fault1 i).evs = b.evs := by cases i <;> rfl

/-- A fault of an initiator touches the tenants alone. -/
theorem Blk.fault1_eq (b : Blk) (i : Initiator) : b.fault1 i = { b with tenants := (b.fault1 i).tenants } := by
  cases i <;> rfl

/-- A tenant's fault counts once, at that tenant; other initiators' faults are not counted (R274). -/
theorem Blk.fault1_faults (b : Blk) (i : Initiator) (n : Fin 8) :
    ((b.fault1 i).tenants.get n).faults = (b.tenants.get n).faults + if i = .tenant n then 1 else 0 := by
  cases i with
  | tenant m =>
    simp only [Blk.fault1, Blk.modT, vmod_get, Initiator.tenant.injEq]
    split <;> rfl
  | _ => rfl

/-! ### One refusal -/

/-- The common form of the refusals: an answer of zero with an access fault and a tenant's fault each time, and a record of the
first of an initiator in a breath; `seen` says whether there was one, `note` has the bellows note the initiator. -/
def Blk.refusal (b : Blk) (i : Initiator) (seen : List Initiator) (note : Breath → Breath) (src : BitVec 16) (code : Nat)
    (addr : Word) : Blk :=
  if i ∈ seen then b.refuse.fault1 i
  else ((b.refuse.fault1 i).onBre note).ev src code 2 addr (idByte i)

/-- The kernel whose bridge records an atomic access to an address of its window (R20, R180). -/
def atomicKernel (addr : Word) : Fin 4 := ⟨addr.toNat / 0x1000000 % 4, Nat.mod_lt _ (by decide)⟩

theorem exec_accessDenied (i : Initiator) (a : Word) (s : State) :
    exec (.accessDenied i a) s = .next (s.onBlk fun b =>
      b.refusal i b.breath.denied (fun r => { r with denied := i :: r.denied }) srcSys 2 a) := rfl

theorem exec_unmappedAccess (i : Initiator) (a : Word) (s : State) :
    exec (.unmappedAccess i a) s = .next (s.onBlk fun b =>
      b.refusal i b.breath.unmapped (fun r => { r with unmapped := i :: r.unmapped }) srcSys 3 a) := rfl

theorem exec_atomicRefused (i : Initiator) (a : Word) (s : State) :
    exec (.atomicRefused i a) s = .next (s.onBlk fun b =>
      b.refusal i b.breath.atomics (fun r => { r with atomics := i :: r.atomics }) (srcBr (atomicKernel a)) 6 a) := rfl

section
variable (b : Blk) {i : Initiator} {seen : List Initiator} (note : Breath → Breath) (src : BitVec 16) (code : Nat) (addr : Word)

theorem Blk.refusal_of_seen (h : i ∈ seen) : b.refusal i seen note src code addr = b.refuse.fault1 i := if_pos h

theorem Blk.refusal_of_not_seen (h : i ∉ seen) :
    b.refusal i seen note src code addr = ((b.refuse.fault1 i).onBre note).ev src code 2 addr (idByte i) := if_neg h

theorem Blk.refusal_reply :
    (b.refusal i seen note src code addr).reply = { data := 0, fault := true, isolated := false } := by
  by_cases h : i ∈ seen
  · rw [Blk.refusal_of_seen b note src code addr h, Blk.fault1_reply]; rfl
  · rw [Blk.refusal_of_not_seen b note src code addr h, Blk.ev_reply, Blk.onBre_reply, Blk.fault1_reply]; rfl

theorem Blk.refusal_tenants : (b.refusal i seen note src code addr).tenants = (b.refuse.fault1 i).tenants := by
  by_cases h : i ∈ seen
  · rw [Blk.refusal_of_seen b note src code addr h]
  · rw [Blk.refusal_of_not_seen b note src code addr h, Blk.ev_tenants, Blk.onBre_tenants]

theorem Blk.refusal_breath :
    (b.refusal i seen note src code addr).breath = if i ∈ seen then b.breath else note b.breath := by
  by_cases h : i ∈ seen
  · rw [Blk.refusal_of_seen b note src code addr h, Blk.fault1_breath, if_pos h]; rfl
  · rw [Blk.refusal_of_not_seen b note src code addr h, Blk.ev_breath, Blk.onBre_breath, Blk.fault1_breath, if_neg h]; rfl

theorem Blk.refusal_evs_of_seen (h : i ∈ seen) : (b.refusal i seen note src code addr).evs = b.evs := by
  rw [Blk.refusal_of_seen b note src code addr h, Blk.fault1_evs]; rfl

theorem Blk.refusal_lastRecord (h : i ∉ seen) (hroom : Safety.room b src) :
    Safety.lastRecord (b.refusal i seen note src code addr) = some (src, BitVec.ofNat 16 code, 2, addr, idByte i) := by
  rw [Blk.refusal_of_not_seen b note src code addr h]
  have hevs : ((b.refuse.fault1 i).onBre note).evs = b.evs := by rw [Blk.onBre_evs, Blk.fault1_evs]; rfl
  exact Blk.ev_last _ src code 2 addr (idByte i) false 0 ((Safety.room_congr hevs).2 hroom)

/-- A refusal changes the answer, the tenants, the bellows and the sequencer alone. -/
theorem Blk.refusal_eq :
    b.refusal i seen note src code addr =
      { b with reply := (b.refusal i seen note src code addr).reply, tenants := (b.refusal i seen note src code addr).tenants,
               breath := (b.refusal i seen note src code addr).breath, evs := (b.refusal i seen note src code addr).evs } := by
  by_cases h : i ∈ seen
  · rw [Blk.refusal_of_seen b note src code addr h, Blk.fault1_eq]; rfl
  · rw [Blk.refusal_of_not_seen b note src code addr h, Blk.ev_eq, Blk.fault1_eq]; rfl
end

/-- What a command does that is a refusal, where the bellows notes the initiator in the list `noted`. -/
theorem runs_refusal {c : Instr} {s : State} {i : Initiator} (noted : Breath → List Initiator) {note : Breath → Breath}
    {src : BitVec 16} {code : Nat} {a : Word}
    (hexec : exec c s = .next (s.onBlk fun b => b.refusal i (noted b.breath) note src code a))
    (hnote : i ∈ noted (note s.blk.breath)) :
    Safety.runs c s fun t =>
      t.mem = s.mem ∧ t.blk.reply = { data := 0, fault := true, isolated := false }
      ∧ (i ∉ noted s.blk.breath → Safety.room s.blk src →
          Safety.lastRecord t.blk = some (src, BitVec.ofNat 16 code, 2, a, idByte i))
      ∧ (i ∈ noted s.blk.breath → t.blk.evs = s.blk.evs) ∧ i ∈ noted t.blk.breath
      ∧ (∀ n : Fin 8, (t.blk.tenants.get n).faults = (s.blk.tenants.get n).faults + if i = .tenant n then 1 else 0)
      ∧ t.blk = { s.blk with reply := t.blk.reply, tenants := t.blk.tenants, breath := t.blk.breath, evs := t.blk.evs } := by
  refine ⟨_, hexec, rfl, Blk.refusal_reply .., Blk.refusal_lastRecord _ note src code a,
    Blk.refusal_evs_of_seen _ note src code a, ?_, fun n => ?_,
    Blk.refusal_eq ..⟩
  · rw [State.onBlk_blk, Blk.refusal_breath]
    split
    · assumption
    · exact hnote
  · rw [State.onBlk_blk, Blk.refusal_tenants, Blk.fault1_faults]
    rfl

/-- R19: the block of the CAN controllers beyond CAN5 is unmapped. -/
theorem mapped_eq_false_of_gap {a : Nat} (hlo : 0x40086000 ≤ a) (hhi : a < 0x40090000) : mapped a = false := by
  simp only [mapped, inWindow, Bool.or_eq_false_iff, Bool.and_eq_false_iff, Bool.not_eq_false', Bool.and_eq_true,
    decide_eq_false_iff_not, decide_eq_true_eq]
  omega

/-- Settles O9: a refused, an unmapped and an atomic access are each one refusal. -/
theorem refusedAccesses : Obligations.RefusedAccesses := by
  refine ⟨fun i a s => runs_refusal (·.denied) (exec_accessDenied i a s) List.mem_cons_self,
    fun i a s => runs_refusal (·.unmapped) (exec_unmappedAccess i a s) List.mem_cons_self,
    fun a => mapped_eq_false_of_gap, fun i a s => ?_⟩
  obtain ⟨t, ht, hmem, hreply, hrec, hrest⟩ :=
    runs_refusal (·.atomics) (exec_atomicRefused i a s) List.mem_cons_self
  refine ⟨t, ht, hmem, hreply, fun k hk => ?_, hrest⟩
  obtain rfl : k = atomicKernel a := Fin.ext hk
  exact hrec

end Sys2Proof.Machine
end

section
/-! SUPPORT. What a command that acts on the block alone leaves, and the record that it captures last. -/

namespace Sys2Proof.Machine
open Sys2Proof

/-- What a command does that acts on the block alone, from the block that it leaves. -/
theorem runs_onBlk {c : Instr} {s : State} {f : Blk → Blk} {b : Blk} {P : State → Prop}
    (hexec : exec c s = .next (s.onBlk f)) (hb : f s.blk = b) (hP : P { s with blk := b }) : Safety.runs c s P :=
  ⟨_, hexec, by subst hb; exact hP⟩

/-- A record captured after a step that leaves the sequencer alone is the last one where the source had room before the step. -/
theorem Blk.ev_last_of_evs_eq {a b : Blk} {src : BitVec 16} (hevs : a.evs = b.evs) (hroom : Safety.room b src)
    (code sev : Nat) (arg : Word) (tn : Byte) (pin : Bool) (fl : Nat) :
    Safety.lastRecord (a.ev src code sev arg tn pin fl) =
      some (src, BitVec.ofNat 16 code, BitVec.ofNat 3 sev, arg, tn) :=
  Blk.ev_last a src code sev arg tn pin fl ((Safety.room_congr hevs).2 hroom)

theorem Safety.lastRecord_congr {a b : Blk} (h : a.evs = b.evs) : Safety.lastRecord a = Safety.lastRecord b := by
  rw [Safety.lastRecord, h]; rfl

end Sys2Proof.Machine
end

section
/-! SUPPORT. Entries of an association list (the latches of R89 are one). -/

namespace Sys2Proof.Machine
open Sys2Proof

variable {κ α : Type} [DecidableEq κ]

@[simp] theorem findKey_setKey_self (l : List (κ × α)) (k : κ) (v : α) : findKey (setKey l k v) k = some v := by
  simp [findKey, setKey]

theorem findKey_setKey_ne (l : List (κ × α)) {j k : κ} (v : α) (h : j ≠ k) : findKey (setKey l k v) j = findKey l j := by
  rw [findKey, setKey, List.find?_cons_of_neg (by simpa using h.symm), List.find?_filter, findKey]
  congr 2
  funext p
  by_cases hj : p.1 = j
  · simp [hj, h]
  · simp [hj]

end Sys2Proof.Machine
end

section
/-! SUPPORT. The time base (R68 to R70): what each change of its state, each correction of an offset and each message does to the
fields of device time, and the rows of the time family in those terms. -/

namespace Sys2Proof.Machine
open Sys2Proof

/-! ### The state machine of R69 -/

/-- A change of state tells the mailboxes and sets three fields. -/
@[simp] theorem Blk.tbEnter_time (b : Blk) (st : TbState) :
    (b.tbEnter st).time = { b.time with state := st, goodSyncs := 0, holdLeft := 0 } := by
  rw [Blk.tbEnter, Blk.notifyAll_time, Blk.onTb_time]

@[simp] theorem Blk.tbEnter_evs (b : Blk) (st : TbState) : (b.tbEnter st).evs = b.evs := by
  rw [Blk.tbEnter, Blk.notifyAll_evs, Blk.onTb_evs]

@[simp] theorem Blk.toSynced_time (b : Blk) (p : Byte) :
    (b.toSynced p).time = { b.time with state := .synced, goodSyncs := 0, holdLeft := 0 } := by
  rw [Blk.toSynced, Blk.ev_time, Blk.tbEnter_time]

@[simp] theorem Blk.toUnsynced_time (b : Blk) :
    b.toUnsynced.time = { b.time with state := .unsynced, goodSyncs := 0, holdLeft := 0 } := by
  rw [Blk.toUnsynced, Blk.ev_time, Blk.tbEnter_time]

/-! ### Corrections of R70 -/

/-- A step moves DT and nothing else of the time base. -/
@[simp] theorem Blk.stepTime_time (b : Blk) (d : Nat) :
    (b.stepTime d).time = { b.time with dt := b.time.dt + BitVec.ofNat 64 d } := by
  unfold Blk.stepTime
  by_cases hr : b.breath.running = true
  · simp only [hr, if_true]
    split <;> simp
  · simp [hr]

/-- A slew changes the rate alone. -/
theorem Blk.startSlew_time (b : Blk) (d : Int) :
    (b.startSlew d).time =
      { b.time with slewing := (b.startSlew d).time.slewing, slewDelta := (b.startSlew d).time.slewDelta,
                    rateNow := (b.startSlew d).time.rateNow } := by
  unfold Blk.startSlew
  split <;> simp

/-- A correction steps DT by an offset above the threshold, and otherwise changes the rate alone. -/
theorem Blk.correct_time (b : Blk) (d : Int) (servo : Bool) :
    (b.correct d servo).time =
      { b.time with dt := if (b.time.stepThresh.toNat : Int) < d then b.time.dt + BitVec.ofNat 64 d.toNat else b.time.dt,
                    slewing := (b.correct d servo).time.slewing, slewDelta := (b.correct d servo).time.slewDelta,
                    rateNow := (b.correct d servo).time.rateNow } := by
  unfold Blk.correct
  by_cases hstep : (b.time.stepThresh.toNat : Int) < d
  · simp [hstep]
  · by_cases hslew : d < -(b.time.stepThresh.toNat : Int)
    · simpa [hstep, hslew] using Blk.startSlew_time b d
    · simp only [gt_iff_lt, hstep, hslew, if_false]
      split <;> simp [Blk.fresh]

/-! ### Syncs of the grandmaster (R69, R70) -/

/-- The syncs of one grandmaster in a row, this one counted, whose offset is at most 1,000 ns (R69). -/
def TimeBase.goodRun (t : TimeBase) (gm : BitVec 64) (d : Int) : Nat :=
  if d.natAbs ≤ 1000 then (if t.gmId = gm then t.goodSyncs else 0) + 1 else 0

/-- The state that a sync leads to, by the table of R69. -/
def TimeBase.syncState (t : TimeBase) (gm : BitVec 64) (d : Int) : TbState :=
  match t.state with
  | .unsynced => if 8 ≤ t.goodRun gm d then .synced else .unsynced
  | .synced => if d.natAbs > 10000 then .unsynced else .synced
  | .holdover => if d.natAbs ≤ 1000 then .synced else .unsynced
  | .master => .master

/-- A counted sync before its correction: the offset, the grandmaster and the slave port are noted and the state moves. -/
def Blk.syncJudged (b : Blk) (p : Byte) (gm : BitVec 64) (d : Int) : Blk :=
  let noted := b.onTb fun t => { t with offset := argInt d, gmId := gm, slavePort := p, lastSlave := p }
  match b.time.state with
  | .unsynced =>
    if b.time.goodRun gm d ≥ 8 then noted.toSynced p else noted.onTb fun t => { t with goodSyncs := b.time.goodRun gm d }
  | .synced => if d.natAbs > 10000 then noted.toUnsynced else noted
  | .holdover => if d.natAbs ≤ 1000 then noted.toSynced p else noted.toUnsynced
  | .master => noted

/-- A sync that counts is judged, then its offset is corrected. -/
theorem syncReceived_eq {b : Blk} {p : Fin 10} (gm : BitVec 64) (d : Int) (h : Safety.syncCounts b p) :
    syncReceived p gm d b = (b.syncJudged (BitVec.ofNat 8 p.val) gm d).correct d true := by
  obtain ⟨hen, hport, hmaster, hslave⟩ := h
  have hcounts : ¬ (b.time.syncEn = false ∨ b.time.portEn p = false ∨ b.time.state = .master
      ∨ ¬ (b.time.slavePort = BitVec.ofNat 8 p.val ∨ b.time.slavePort = noPort)) := by
    simp [hen, hport, hmaster, hslave]
  rw [syncReceived, if_neg hcounts]
  rfl

theorem Blk.syncJudged_time (b : Blk) (p : Byte) (gm : BitVec 64) (d : Int) :
    (b.syncJudged p gm d).time =
      { b.time with offset := argInt d, gmId := gm, slavePort := p, lastSlave := p, state := b.time.syncState gm d,
                    goodSyncs := (b.syncJudged p gm d).time.goodSyncs, holdLeft := (b.syncJudged p gm d).time.holdLeft } := by
  cases hst : b.time.state <;> simp only [Blk.syncJudged, TimeBase.syncState, hst]
  case master => simp [← hst]
  all_goals split <;> simp [hst]

/-- While UNSYNCED the run of good syncs is counted until it is long enough. -/
theorem Blk.syncJudged_goodSyncs {b : Blk} (p : Byte) (gm : BitVec 64) (d : Int) (hst : b.time.state = .unsynced)
    (hrun : b.time.goodRun gm d < 8) : (b.syncJudged p gm d).time.goodSyncs = b.time.goodRun gm d := by
  simp only [Blk.syncJudged, hst, ge_iff_le, if_neg (Nat.not_le.2 hrun)]
  rfl

/-- What a counted sync leaves in the time base. -/
theorem syncReceived_time {b : Blk} {p : Fin 10} (gm : BitVec 64) (d : Int) (h : Safety.syncCounts b p) :
    let t := (syncReceived p gm d b).time
    t.offset = argInt d ∧ t.gmId = gm ∧ t.slavePort = BitVec.ofNat 8 p.val ∧ t.state = b.time.syncState gm d
    ∧ (b.time.state = .unsynced → b.time.goodRun gm d < 8 → t.goodSyncs = b.time.goodRun gm d)
    ∧ t.dt = if (b.time.stepThresh.toNat : Int) < d then b.time.dt + BitVec.ofNat 64 d.toNat else b.time.dt := by
  intro t
  have ht : t = ((b.syncJudged (BitVec.ofNat 8 p.val) gm d).correct d true).time :=
    congrArg Blk.time (syncReceived_eq gm d h)
  rw [ht, Blk.correct_time, Blk.syncJudged_time]
  exact ⟨rfl, rfl, rfl, rfl, Blk.syncJudged_goodSyncs _ gm d, rfl⟩

/-- The first clause of R69 and R70: a sync that counts. -/
theorem runs_syncReceived (p : Fin 10) (gm : BitVec 64) (d : Int) (s : State) (h : Safety.syncCounts s.blk p) :
    Safety.runs (.syncReceived p gm d) s fun t =>
      t.blk.time.offset = argInt d ∧ t.blk.time.gmId = gm ∧ t.blk.time.slavePort = BitVec.ofNat 8 p.val
      ∧ (s.blk.time.state = .synced → t.blk.time.state = if d.natAbs > 10000 then .unsynced else .synced)
      ∧ (s.blk.time.state = .holdover → t.blk.time.state = if d.natAbs ≤ 1000 then .synced else .unsynced)
      ∧ (s.blk.time.state = .unsynced → s.blk.time.gmId = gm → d.natAbs ≤ 1000 →
          t.blk.time.state = (if 7 ≤ s.blk.time.goodSyncs then .synced else .unsynced)
          ∧ (s.blk.time.goodSyncs < 7 → t.blk.time.goodSyncs = s.blk.time.goodSyncs + 1))
      ∧ (s.blk.time.state = .unsynced → 1000 < d.natAbs → t.blk.time.state = .unsynced ∧ t.blk.time.goodSyncs = 0)
      ∧ ((s.blk.time.stepThresh.toNat : Int) < d → t.blk.time.dt = s.blk.time.dt + BitVec.ofNat 64 d.toNat)
      ∧ (d ≤ (s.blk.time.stepThresh.toNat : Int) → t.blk.time.dt = s.blk.time.dt) := by
  obtain ⟨hoffset, hgm, hport, hstate, hgood, hdt⟩ := syncReceived_time gm d h
  refine runs_onBlk rfl rfl ⟨hoffset, hgm, hport, fun hst => ?_, fun hst => ?_, fun hst hsame hsmall => ?_, fun hst hbig => ?_,
    fun hstep => hdt.trans (if_pos hstep), fun hkeep => hdt.trans (if_neg (Int.not_lt.2 hkeep))⟩
  · simpa only [TimeBase.syncState, hst] using hstate
  · simpa only [TimeBase.syncState, hst] using hstate
  · have hrun : s.blk.time.goodRun gm d = s.blk.time.goodSyncs + 1 := by simp [TimeBase.goodRun, hsame, hsmall]
    rw [hrun] at hgood
    refine ⟨?_, fun hfew => hgood hst (by omega)⟩
    simpa [TimeBase.syncState, hst, hrun] using hstate
  · have hrun : s.blk.time.goodRun gm d = 0 := if_neg (Nat.not_le.2 hbig)
    rw [hrun] at hgood
    refine ⟨?_, hgood hst (by decide)⟩
    simpa [TimeBase.syncState, hst, hrun] using hstate

/-! ### Holdover, the better clock, slews and messages (R68 to R70) -/

@[simp] theorem Blk.toHoldover_time (b : Blk) : b.toHoldover.time =
    { b.time with state := .holdover, goodSyncs := 0, holdLeft := b.time.holdover, holdFrom := b.time.dt, slavePort := noPort,
                  lastSlave := if b.time.slavePort = noPort then b.time.lastSlave else b.time.slavePort } := by
  rw [Blk.toHoldover, Blk.ev_time, Blk.onTb_time, Blk.tbEnter_time]

/-- The record of a holdover names the slave port that was lost. -/
theorem Blk.toHoldover_lastRecord {b : Blk} (h : b.time.slavePort ≠ noPort) (hroom : Safety.room b srcTb) :
    Safety.lastRecord b.toHoldover = some (srcTb, 0x21, 2, arg32 b.time.slavePort.toNat, hw) := by
  rw [Blk.toHoldover, if_neg h]
  exact Blk.ev_last_of_evs_eq (by simp) hroom ..

theorem runs_syncReceiptTimeout (s : State) (hst : s.blk.time.state = .synced) (hen : s.blk.time.syncEn = true)
    (hport : s.blk.time.slavePort ≠ noPort) (hgm : s.blk.time.gmCapable = false) :
    Safety.runs .syncReceiptTimeout s fun t => t.blk.time.state = .holdover ∧ t.blk.time.slavePort = noPort
      ∧ t.blk.time.holdLeft = s.blk.time.holdover ∧ t.blk.time.rateNow = s.blk.time.rateNow
      ∧ (Safety.room s.blk srcTb → Safety.lastRecord t.blk = some (srcTb, 0x21, 2, arg32 s.blk.time.slavePort.toNat, hw)) := by
  have hlost : syncReceiptTimeout s.blk = s.blk.toHoldover := by
    simp [syncReceiptTimeout, Blk.slaveLost, hst, hen, hport, hgm]
  exact runs_onBlk rfl hlost ⟨by simp, by simp, by simp, by simp, Blk.toHoldover_lastRecord hport⟩

theorem runs_holdoverExpiry (s : State) (hst : s.blk.time.state = .holdover) :
    Safety.runs .holdoverExpiry s fun t => t.blk.time.state = .unsynced
      ∧ (Safety.room s.blk srcTb → Safety.lastRecord t.blk = some (srcTb, 0x22, 2, s.blk.time.offset, hw)) :=
  runs_onBlk rfl (if_pos hst) ⟨congrArg TimeBase.state (Blk.toUnsynced_time s.blk),
    fun hroom => Blk.ev_last_of_evs_eq (by simp) hroom ..⟩

/-- R68, R69: a better clock than the MASTER's own becomes the grandmaster, on the port that announced it. -/
theorem announceReceived_better {b : Blk} {p : Fin 10} {sys : BitVec 112} (hst : b.time.state = .master)
    (hen : b.time.syncEn = true) (hport : b.time.portEn p = true) (hcfg : b.time.extCfg = false)
    (hslave : b.time.slavePort = noPort) (hbetter : sys.toNat < b.time.ownSys.toNat) :
    announceReceived p sys b =
      ((b.onTb fun t => { t with slavePort := BitVec.ofNat 8 p.val, lastSlave := BitVec.ofNat 8 p.val, gmSys := sys,
                                 gmId := sys.truncate 64, goodSyncs := if t.gmId = sys.truncate 64 then t.goodSyncs else 0 }).tbEnter
        .unsynced).ev srcTb 0x25 1 ((sys.truncate 64 : BitVec 64).truncate 32) := by
  simp [announceReceived, hst, hen, hport, hcfg, hslave, hbetter]

theorem runs_announceReceived_better (p : Fin 10) (sys : BitVec 112) (s : State) (hst : s.blk.time.state = .master)
    (hen : s.blk.time.syncEn = true) (hport : s.blk.time.portEn p = true) (hcfg : s.blk.time.extCfg = false)
    (hslave : s.blk.time.slavePort = noPort) :
    Safety.runs (.announceReceived p sys) s fun t => sys.toNat < s.blk.time.ownSys.toNat →
      t.blk.time.state = .unsynced ∧ t.blk.time.slavePort = BitVec.ofNat 8 p.val ∧ t.blk.time.gmId = sys.truncate 64
      ∧ (Safety.room s.blk srcTb → Safety.lastRecord t.blk = some (srcTb, 0x25, 1, (sys.truncate 64 : BitVec 64).truncate 32, hw)) := by
  refine runs_onBlk rfl rfl fun hbetter => ?_
  rw [announceReceived_better hst hen hport hcfg hslave hbetter]
  exact ⟨by simp, by simp, by simp, fun hroom => Blk.ev_last_of_evs_eq (by simp) hroom ..⟩

theorem runs_slewComplete (s : State) (h : s.blk.time.slewing = true) :
    Safety.runs .slewComplete s fun t => t.blk.time.slewing = false
      ∧ t.blk.time.rateNow = BitVec.ofInt 32 (sint s.blk.time.rateNow + s.blk.time.slewDelta) ∧ t.blk.time.dt = s.blk.time.dt
      ∧ t.blk = { s.blk with time := t.blk.time } :=
  runs_onBlk rfl (if_pos h) ⟨rfl, rfl, rfl, rfl⟩

theorem runs_syncIntervalExpiry (p : Fin 10) (s : State) (hen : s.blk.time.syncEn = true) (hport : s.blk.time.portEn p = true)
    (hslave : s.blk.time.slavePort ≠ BitVec.ofNat 8 p.val) :
    Safety.runs (.syncIntervalExpiry p) s fun t =>
      t.blk.time.sent = (p, .followUp, s.blk.time.syncSeq.get p) :: (p, .sync, s.blk.time.syncSeq.get p) :: s.blk.time.sent
      ∧ t.blk.time.syncSeq.get p = s.blk.time.syncSeq.get p + 1 ∧ t.blk = { s.blk with time := t.blk.time } :=
  runs_onBlk rfl (if_neg (by simp [hen, hport, hslave])) ⟨rfl, vmod_get_self .., rfl⟩

theorem runs_pdelayIntervalExpiry (p : Fin 10) (s : State) (hen : s.blk.time.syncEn = true) (hport : s.blk.time.portEn p = true) :
    Safety.runs (.pdelayIntervalExpiry p) s fun t =>
      t.blk.time.sent = (p, .pdelayReq, s.blk.time.pdelaySeq.get p) :: s.blk.time.sent
      ∧ t.blk.time.pdelaySeq.get p = s.blk.time.pdelaySeq.get p + 1 ∧ t.blk = { s.blk with time := t.blk.time } :=
  runs_onBlk rfl (if_neg (by simp [hen, hport])) ⟨rfl, vmod_get_self .., rfl⟩

/-! ### Reads of device time (R47, R89) -/

/-- R47: a breath-inbox tenant reads the DT of the tick. -/
theorem Blk.dtFor_of_gated {b : Blk} {n : Fin 8} (h : b.breath.modeSel.toNat.testBit n.val = false) :
    b.dtFor (.tenant n) = b.breath.tickDt := by
  simp [Blk.dtFor, Blk.gatedTime, h]

/-- An initiator that is no tenant reads the DT of now. -/
theorem Blk.dtFor_of_not_tenant (b : Blk) {i : Initiator} (h : ∀ n : Fin 8, i ≠ .tenant n) : b.dtFor i = b.time.dt := by
  cases i with
  | tenant n => exact absurd rfl (h n)
  | _ => rfl

/-- `TB_DT_HI` reads the initiator's own latch. -/
theorem Blk.tbReg_dtHi (b : Blk) (i : Initiator) : b.tbReg i 4 = (findKey b.time.hiLatch i).getD 0 := rfl

theorem runs_tbDtLoRead (i : Initiator) (s : State) : Safety.runs (.tbDtLoRead i) s fun t =>
    t.blk.reply = { data := BitVec.ofNat 64 ((s.blk.dtFor i).toNat % 2 ^ 32), fault := false, isolated := false }
    ∧ t.blk.tbReg i 4 = BitVec.ofNat 32 ((s.blk.dtFor i).toNat / 2 ^ 32)
    ∧ (∀ j : Initiator, j ≠ i → t.blk.tbReg j 4 = s.blk.tbReg j 4)
    ∧ (∀ n : Fin 8, i = .tenant n → s.blk.breath.modeSel.toNat.testBit n.val = false → s.blk.dtFor i = s.blk.breath.tickDt)
    ∧ ((∀ n : Fin 8, i ≠ .tenant n) → s.blk.dtFor i = s.blk.time.dt)
    ∧ t.blk.time.dt = s.blk.time.dt ∧ t.blk = { s.blk with time := t.blk.time, reply := t.blk.reply } ∧ t.mem = s.mem := by
  refine runs_onBlk rfl rfl ⟨rfl, ?_, fun j hj => ?_, ?_, s.blk.dtFor_of_not_tenant, rfl, rfl, rfl⟩
  · rw [Blk.tbReg_dtHi]
    exact congrArg (·.getD 0) (findKey_setKey_self s.blk.time.hiLatch i _)
  · rw [Blk.tbReg_dtHi, Blk.tbReg_dtHi]
    exact congrArg (·.getD 0) (findKey_setKey_ne s.blk.time.hiLatch _ hj)
  · rintro n rfl hmode
    exact Blk.dtFor_of_gated hmode

/-- Settles O11: each row of the time family, by what it leaves in the time base. -/
theorem timeBaseMovesAndReads : Obligations.TimeBaseMovesAndReads :=
  ⟨runs_syncReceived, runs_syncReceiptTimeout, runs_holdoverExpiry, runs_announceReceived_better, runs_slewComplete,
    runs_syncIntervalExpiry, runs_pdelayIntervalExpiry, runs_tbDtLoRead⟩

end Sys2Proof.Machine
end

section
/-! SUPPORT. Ranges of memory zeroed one after another (R272 step 4), as a read sees them. -/

namespace Sys2Proof.Machine
open Sys2Proof

theorem Mem.read_clear (m : Mem) (p n a : Nat) :
    Mem.read (Mem.clear m p n) a = if clears p n a = true then 0 else Mem.read m a := by
  split
  · exact Mem.read_clear_in ‹_›
  · exact Mem.read_clear_out (Bool.eq_false_iff.2 ‹_›)

/-- A byte that one of the ranges holds reads zero; every other byte reads as before. -/
theorem Mem.read_stores_clears (base : Nat → Nat) (n a : Nat) (gs : List Nat) (m : Mem) :
    Mem.read (Mem.stores m (gs.map fun g => .clear (base g) n)) a =
      if gs.any (fun g => clears (base g) n a) = true then 0 else Mem.read m a := by
  induction gs generalizing m with
  | nil => rfl
  | cons g gs ih =>
    have hhead : Mem.read (Mem.stores m ((g :: gs).map fun g => .clear (base g) n)) a =
        Mem.read (Mem.stores (Mem.clear m (base g) n) (gs.map fun g => .clear (base g) n)) a := rfl
    rw [hhead, ih, Mem.read_clear, List.any_cons]
    by_cases hg : clears (base g) n a = true <;> simp [hg]

/-- Every byte of the first 1,024 granules is one that the device writes (R18, R265). -/
theorem clears_granule {g a : Nat} (hg : g < 1024) (hlo : 0x80000000 + g * 0x200000 ≤ a)
    (hhi : a < 0x80000000 + (g + 1) * 0x200000) : clears (granuleBase g) granuleSize a = true := by
  simp only [clears, writable, Bool.and_eq_true, Bool.or_eq_true, decide_eq_true_eq]
  unfold granuleBase granuleSize
  omega

theorem not_clears_granule {g a : Nat} (h : a < 0x80000000 + g * 0x200000 ∨ 0x80000000 + (g + 1) * 0x200000 ≤ a) :
    clears (granuleBase g) granuleSize a = false := by
  simp only [clears, Bool.and_eq_false_iff, decide_eq_false_iff_not]
  unfold granuleBase granuleSize
  omega

end Sys2Proof.Machine
end

section
/-! SUPPORT. One tenant (R272 to R275): what a change, a record and a completion leave of the tenants, and what the shared
operations on a tenant do. -/

namespace Sys2Proof.Machine
open Sys2Proof

/-! ### Changes, records, completions -/

@[simp] theorem Blk.modT_tn_self (b : Blk) (k : Fin 8) (f : Tenant → Tenant) : (b.modT k f).tn k = f (b.tn k) :=
  vmod_get_self ..

@[simp] theorem Blk.modT_tn_ne (b : Blk) {j k : Fin 8} (f : Tenant → Tenant) (h : j ≠ k) : (b.modT k f).tn j = b.tn j :=
  vmod_get_ne _ _ _ _ h.symm

@[simp] theorem Blk.heal_tn (b : Blk) (l : List Store) (j : Fin 8) : (b.heal l).tn j = b.tn j := rfl

@[simp] theorem Blk.ev_tn (b : Blk) (src : BitVec 16) (code sev : Nat) (arg : Word) (tn : Byte) (pin : Bool) (fl : Nat) (j : Fin 8) :
    (b.ev src code sev arg tn pin fl).tn j = b.tn j :=
  congrArg (·.get j) (Blk.ev_tenants ..)

@[simp] theorem Blk.tev_tn (b : Blk) (k : Fin 8) (code sev arg : Nat) (pin : Bool) (j : Fin 8) :
    (b.tev k code sev arg pin).tn j = b.tn j := Blk.ev_tn ..

@[simp] theorem Blk.tev_time (b : Blk) (k : Fin 8) (code sev arg : Nat) (pin : Bool) :
    (b.tev k code sev arg pin).time = b.time := Blk.ev_time ..

theorem Blk.tev_lastRecord {a b : Blk} {k : Fin 8} (hevs : a.evs = b.evs) (hroom : Safety.room b (srcT k)) (code sev arg : Nat)
    (pin : Bool) :
    Safety.lastRecord (a.tev k code sev arg pin) =
      some (srcT k, BitVec.ofNat 16 code, BitVec.ofNat 3 sev, arg32 arg, BitVec.ofNat 8 k.val) :=
  Blk.ev_last_of_evs_eq hevs hroom ..

/-- Completions leave the tenants alone. -/
@[simp] theorem Blk.completeAll_tn (b : Blk) (l : List Due) (st : Nat) (n : Word) (p : List Byte) (j : Fin 8) :
    (b.completeAll l st n p).tn j = b.tn j :=
  foldl_keep (fun x : Blk => x.tn j) (fun x d => x.complete d st n p) (fun _ _ => rfl) l b

/-- A completion with `BUSY` is no authentication failure, so it records nothing (R258). -/
theorem Blk.completeErr_busy (b : Blk) (d : Due) :
    b.completeErr d (err stBusy 1 0) = b.complete d stBusy b.ebn (b.errBytes (err stBusy 1 0)) := by
  simp [Blk.completeErr, Blk.authEvent, err, stBusy, stAuth]

@[simp] theorem Blk.displaced_tn (b : Blk) (l : List Due) (j : Fin 8) : (b.displaced l).tn j = b.tn j :=
  foldl_keep (fun x : Blk => x.tn j) _ (fun x d => congrArg (·.tn j) (x.completeErr_busy d)) l b

@[simp] theorem Blk.displaced_evs (b : Blk) (l : List Due) : (b.displaced l).evs = b.evs :=
  foldl_keep (fun x : Blk => x.evs) _ (fun x d => congrArg (·.evs) (x.completeErr_busy d)) l b

@[simp] theorem Blk.tenantDone_tn_self (b : Blk) (k : Fin 8) (r : Bool) :
    (b.tenantDone k r).tn k = { b.tn k with due := (b.tn k).due.filter fun d => d.1 ≠ r } := by
  simp [Blk.tenantDone]

@[simp] theorem Blk.tenantDone_tn_ne (b : Blk) {j k : Fin 8} (r : Bool) (h : j ≠ k) : (b.tenantDone k r).tn j = b.tn j := by
  simp [Blk.tenantDone, h]

@[simp] theorem Blk.tenantDisplace_tn_self (b : Blk) (k : Fin 8) (r : Bool) :
    (b.tenantDisplace k r).tn k = { b.tn k with due := (b.tn k).due.filter fun d => d.1 ≠ r } := by
  simp [Blk.tenantDisplace]

@[simp] theorem Blk.tenantDisplace_evs (b : Blk) (k : Fin 8) (r : Bool) : (b.tenantDisplace k r).evs = b.evs := by
  simp [Blk.tenantDisplace]

/-! ### A shut-down ends (R272 step 4, R273) -/

/-- The granules that a shut-down zeroes: the tenant's own, and those that it gave up. -/
def Tenant.zeroed (x : Tenant) : List Nat := x.cfg.granules ++ x.extraZero

section
variable {b : Blk} {k : Fin 8}

theorem tenantShutdownComplete_stores (h : (b.tn k).state = .stopping ∨ (b.tn k).state = .resetting) :
    (tenantShutdownComplete k b).2 = (b.tn k).zeroed.map fun g => .clear (granuleBase g) granuleSize := by
  rcases h with h | h <;> simp [tenantShutdownComplete, h, Tenant.zeroed]

theorem tenantShutdownComplete_tn_of_stopping (h : (b.tn k).state = .stopping) :
    let x := (tenantShutdownComplete k b).1.tn k
    x.state = .stopped ∧ x.next = (if (b.tn k).pending.isSome then .start else .none) ∧ x.pending = none := by
  simp only [tenantShutdownComplete, h, Blk.tenantDone_tn_self]
  split <;> simp

theorem tenantShutdownComplete_tn_of_resetting (h : (b.tn k).state = .resetting) :
    let x := (tenantShutdownComplete k b).1.tn k
    x.state = .starting ∧ x.pending = none := by
  simp [tenantShutdownComplete, h, Blk.beginStart]

theorem tenantShutdownComplete_tn_ne {j : Fin 8} (hj : j ≠ k) : (tenantShutdownComplete k b).1.tn j = b.tn j := by
  cases hst : (b.tn k).state <;> simp only [tenantShutdownComplete, hst]
  case stopping => by_cases hc : (b.tn k).stopCause = 8 <;> simp [hc, hj]
  case resetting => simp [Blk.beginStart, hj]

end

/-- A shut-down ends: the granules read zero, and the tenant is stopped or starts again. -/
theorem runs_tenantShutdownComplete (k : Fin 8) (s : State) (hst : (s.blk.tn k).state = .stopping ∨ (s.blk.tn k).state = .resetting)
    (hgr : ∀ g ∈ (s.blk.tn k).cfg.granules ++ (s.blk.tn k).extraZero, g < 1024) : Safety.runs (.tenantShutdownComplete k) s fun t =>
    ((s.blk.tn k).state = .stopping → (t.blk.tn k).state = .stopped ∧ (t.blk.tn k).next = (if (s.blk.tn k).pending.isSome then .start else .none))
    ∧ ((s.blk.tn k).state = .resetting → (t.blk.tn k).state = .starting)
    ∧ (t.blk.tn k).pending = none
    ∧ (∀ g ∈ (s.blk.tn k).cfg.granules, ∀ a : Nat, 0x80000000 + g * 0x200000 ≤ a → a < 0x80000000 + (g + 1) * 0x200000 → Mem.read t.mem a = 0)
    ∧ (∀ a : Nat, (∀ g ∈ (s.blk.tn k).cfg.granules ++ (s.blk.tn k).extraZero, a < 0x80000000 + g * 0x200000 ∨ 0x80000000 + (g + 1) * 0x200000 ≤ a) →
        Mem.read t.mem a = Mem.read s.mem a)
    ∧ (∀ j : Fin 8, j ≠ k → t.blk.tn j = s.blk.tn j) := by
  refine ⟨s.onMem fun _ b => tenantShutdownComplete k b, rfl, fun h => ?_, fun h => ?_, ?_, fun g hg a hlo hhi => ?_, fun a hout => ?_,
    fun j hj => tenantShutdownComplete_tn_ne hj⟩
  · obtain ⟨hstate, hnext, -⟩ := tenantShutdownComplete_tn_of_stopping h
    exact ⟨hstate, hnext⟩
  · exact (tenantShutdownComplete_tn_of_resetting h).1
  · exact hst.elim (fun h => (tenantShutdownComplete_tn_of_stopping h).2.2) fun h => (tenantShutdownComplete_tn_of_resetting h).2
  · have hmem : g ∈ (s.blk.tn k).zeroed := List.mem_append_left _ hg
    rw [State.onMem_mem, tenantShutdownComplete_stores hst, Mem.read_stores_clears, if_pos]
    exact List.any_eq_true.2 ⟨g, hmem, clears_granule (hgr g hmem) hlo hhi⟩
  · rw [State.onMem_mem, tenantShutdownComplete_stores hst, Mem.read_stores_clears, if_neg]
    rw [List.any_eq_true]
    rintro ⟨g, hg, hin⟩
    exact absurd (hin.symm.trans (not_clears_granule (hout g hg))) (by decide)

/-! ### A start ends (R272 step 5) -/

section
variable {b : Blk} {k : Fin 8} {m : Mem} (hst : (b.tn k).state = .starting) (hnext : (b.tn k).runNext = false)
  (hslot : (b.tn k).trySlot = (b.comp (tenantComp k)).runB)
include hst hnext hslot

/-- The active image fits its measurement: the tenant runs from the next tick. -/
theorem tenantStartComplete_of_measured
    (hm : measured m (cTenant k.val) (b.tn k).trySlot ((b.comp (tenantComp k)).slot (b.tn k).trySlot) = true) :
    (tenantStartComplete k m b).1 = b.modT k fun y => { y with runNext := true } := by
  rw [hslot] at hm
  cases hdue : b.upd.due <;> simp [tenantStartComplete, hst, hnext, hslot, hm, hdue]

/-- The active image does not: the tenant is stopped, with a record, and who waits for it to run is told. -/
theorem tenantStartComplete_of_not_measured (hrep : (b.tn k).replacing = none)
    (hm : measured m (cTenant k.val) (b.tn k).trySlot ((b.comp (tenantComp k)).slot (b.tn k).trySlot) = false) :
    tenantStartComplete k m b =
      (((b.modT k fun y => { y with state := .stopped }).tev k 7 4 (b2n (b.tn k).trySlot) true).tenantDisplace k true, []) := by
  rw [hslot] at hm ⊢
  simp [tenantStartComplete, hst, hnext, hslot, hm, hrep]

end

theorem runs_tenantStartComplete (k : Fin 8) (s : State) (hst : (s.blk.tn k).state = .starting) (hnext : (s.blk.tn k).runNext = false)
    (hrep : (s.blk.tn k).replacing = none) :
    let c := s.blk.comp (tenantComp k)
    (s.blk.tn k).trySlot = c.runB → Safety.runs (.tenantStartComplete k) s fun t =>
      (measured s.mem (cTenant k.val) (s.blk.tn k).trySlot (c.slot (s.blk.tn k).trySlot) = true →
        (t.blk.tn k).runNext = true ∧ (t.blk.tn k).state = .starting)
      ∧ (measured s.mem (cTenant k.val) (s.blk.tn k).trySlot (c.slot (s.blk.tn k).trySlot) = false → (t.blk.tn k).state = .stopped ∧ t.mem = s.mem
        ∧ (Safety.room s.blk (srcT k) → Safety.lastRecord t.blk = some (srcT k, 7, 4, arg32 (b2n (s.blk.tn k).trySlot), BitVec.ofNat 8 k.val))) := by
  intro c hslot
  refine ⟨s.onMem (tenantStartComplete k), rfl, fun hm => ?_, fun hm => ?_⟩
  · have htn : ((s.onMem (tenantStartComplete k)).blk.tn k) = { s.blk.tn k with runNext := true } := by
      rw [State.onMem_blk, Blk.heal_tn, tenantStartComplete_of_measured hst hnext hslot hm, Blk.modT_tn_self]
    rw [htn]
    exact ⟨rfl, hst⟩
  · have h := tenantStartComplete_of_not_measured hst hnext hslot hrep hm
    rw [State.onMem_blk, State.onMem_mem, h]
    refine ⟨?_, rfl, fun hroom => ?_⟩
    · rw [Blk.heal_tn, Blk.tenantDisplace_tn_self]
      simp
    · rw [Safety.lastRecord_congr (Blk.heal_evs ..), Safety.lastRecord_congr (Blk.tenantDisplace_evs ..)]
      exact Blk.tev_lastRecord (by simp) hroom ..

/-! ### Windows and faults (R266, R274) -/

theorem mem_addOnce {α : Type} [DecidableEq α] (l : List α) (x : α) : x ∈ addOnce l x := by
  unfold addOnce
  split
  · assumption
  · exact List.mem_append_right l List.mem_cons_self

theorem runs_tenantWindow (k : Fin 8) (w : Fin 16) (win : Window) (s : State) (hwin : (s.blk.tn k).cfg.windows[w.val]? = some win)
    (hst : (s.blk.tn k).state = .running) :
    (Safety.runs (.tenantWindowStart k w) s fun t => win.vcpu ∈ (t.blk.tn k).vcpuIn ∧ t.blk = { s.blk with tenants := t.blk.tenants } ∧ t.mem = s.mem)
    ∧ (Safety.runs (.tenantWindowEnd k w) s fun t => win.vcpu ∉ (t.blk.tn k).vcpuIn ∧ t.blk = { s.blk with tenants := t.blk.tenants } ∧ t.mem = s.mem) := by
  have hstart : tenantWindowStart k w s.blk = s.blk.modT k fun y => { y with vcpuIn := addOnce y.vcpuIn win.vcpu } := by
    simp [tenantWindowStart, hst, hwin]
  have hend : tenantWindowEnd k w s.blk = s.blk.modT k fun y => { y with vcpuIn := y.vcpuIn.filter (· ≠ win.vcpu) } := by
    simp [tenantWindowEnd, hwin]
  exact ⟨runs_onBlk rfl hstart ⟨by simp [mem_addOnce], rfl, rfl⟩, runs_onBlk rfl hend ⟨by simp, rfl, rfl⟩⟩

theorem runs_guestException (k : Fin 8) (s : State) : Safety.runs (.guestException k) s fun t =>
    (t.blk.tn k).faults = (s.blk.tn k).faults + 1
    ∧ (∀ j : Fin 8, j ≠ k → t.blk.tn j = s.blk.tn j) ∧ t.blk = { s.blk with tenants := t.blk.tenants } ∧ t.mem = s.mem :=
  runs_onBlk rfl rfl ⟨congrArg Tenant.faults (Blk.modT_tn_self ..), fun _ hj => Blk.modT_tn_ne _ _ hj, rfl, rfl⟩

/-- A change of each tenant of a list by its number, told by the tenant. -/
theorem Blk.foldl_modT_tn (f : Tenant → Tenant) (l : List (Fin 8)) (hl : l.Nodup) (b : Blk) (k : Fin 8) :
    (l.foldl (fun b t => b.modT t f) b).tn k = if k ∈ l then f (b.tn k) else b.tn k := by
  induction l generalizing b with
  | nil => rfl
  | cons j l ih =>
    obtain ⟨hj, hl⟩ := List.nodup_cons.1 hl
    rw [List.foldl_cons, ih hl]
    by_cases hk : k = j
    · subst hk; simp [hj]
    · simp [hk]

theorem Blk.foldl_modT_eq (f : Tenant → Tenant) (l : List (Fin 8)) (b : Blk) :
    l.foldl (fun b t => b.modT t f) b = { b with tenants := (l.foldl (fun b t => b.modT t f) b).tenants } := by
  induction l generalizing b with
  | nil => rfl
  | cons j l ih => exact ih (b.modT j f)

theorem runs_faultCounterClear (s : State) : Safety.runs .faultCounterClear s fun t =>
    (∀ k : Fin 8, t.blk.tn k = { s.blk.tn k with faults := 0 }) ∧ t.blk = { s.blk with tenants := t.blk.tenants } ∧ t.mem = s.mem := by
  refine runs_onBlk rfl rfl ⟨fun k => ?_, Blk.foldl_modT_eq .., rfl⟩
  exact (Blk.foldl_modT_tn _ _ (List.nodup_finRange 8) s.blk k).trans (if_pos (List.mem_finRange k))

/-! ### Automatic resets (R53, R274, R275) -/

section
variable {b : Blk} {k : Fin 8} (hst : (b.tn k).state = .running) (hnext : (b.tn k).next = .none) (hres : (b.tn k).autoResets = [])
  (cause : Nat)
include hst hnext hres

/-- The first automatic reset, where the limit allows one. -/
theorem Blk.autoReset_first (hlim : 1 < (b.tn k).cfg.resetLimit) :
    b.autoReset k cause = b.modT k fun y => { y with autoResets := [b.time.dt], next := .reset cause } := by
  simp [Blk.autoReset, hst, hnext, hres, hlim]

/-- `RESET_LIMIT` of 1 gives the tenant up. -/
theorem Blk.autoReset_givenUp (hlim : (b.tn k).cfg.resetLimit = 1) :
    b.autoReset k cause =
      (b.modT k fun y => { y with autoResets := [], next := .stop cause, givenUp := true }).tev k 6 3 0 true := by
  simp [Blk.autoReset, hst, hnext, hres, hlim]

end

section
variable {k : Fin 8} {s : State} (hst : (s.blk.tn k).state = .running) (hnext : (s.blk.tn k).next = .none)
  (hres : (s.blk.tn k).autoResets = [])
include hst hnext hres

theorem runs_tenantAbort (hlim : 1 < (s.blk.tn k).cfg.resetLimit) :
    Safety.runs (.tenantAbort k) s fun t => (t.blk.tn k).next = .reset 4 ∧ (t.blk.tn k).autoResets = [s.blk.time.dt]
      ∧ t.blk = { s.blk with tenants := t.blk.tenants } ∧ t.mem = s.mem := by
  exact runs_onBlk rfl (Blk.autoReset_first hst hnext hres 4 hlim) ⟨by simp, by simp, rfl, rfl⟩

theorem runs_tenantAbort_givenUp (hlim : (s.blk.tn k).cfg.resetLimit = 1) :
    Safety.runs (.tenantAbort k) s fun t => (t.blk.tn k).next = .stop 4 ∧ (t.blk.tn k).givenUp = true
      ∧ (Safety.room s.blk (srcT k) → Safety.lastRecord t.blk = some (srcT k, 6, 3, 0, BitVec.ofNat 8 k.val)) ∧ t.mem = s.mem :=
  runs_onBlk rfl (Blk.autoReset_givenUp hst hnext hres 4 hlim)
    ⟨by simp, by simp, fun hroom => Blk.tev_lastRecord (by simp) hroom .., rfl⟩

theorem runs_tenantFaultLimit (hlim : 1 < (s.blk.tn k).cfg.resetLimit) (hfaults : (s.blk.tn k).cfg.faultLimit ≤ (s.blk.tn k).faults) :
    Safety.runs (.tenantFaultLimit k) s fun t => (t.blk.tn k).next = .reset 3
      ∧ (Safety.room s.blk (srcT k) → Safety.lastRecord t.blk = some (srcT k, 5, 3, arg32 (s.blk.tn k).faults, BitVec.ofNat 8 k.val))
      ∧ t.mem = s.mem := by
  have hreset : tenantFaultLimit k s.blk = (s.blk.tev k 5 3 (s.blk.tn k).faults).modT k fun y =>
      { y with autoResets := [s.blk.time.dt], next := .reset 3 } := by
    rw [tenantFaultLimit, if_neg (by simp [hst, hfaults]), Blk.autoReset_first (by simpa) (by simpa) (by simpa) 3 (by simpa),
      Blk.tev_time]
  exact runs_onBlk rfl hreset ⟨by simp, fun hroom => Blk.tev_lastRecord rfl hroom .., rfl⟩

theorem runs_tenantOverrunReset (hlim : 1 < (s.blk.tn k).cfg.resetLimit)
    (hovr : s.blk.breath.ovrLimit ≤ s.blk.breath.tovrConsec.get k) :
    Safety.runs (.tenantOverrunReset k) s fun t => (t.blk.tn k).next = .reset 2
      ∧ (Safety.room s.blk srcBre → Safety.lastRecord t.blk = some (srcBre, 0x13, 3, arg32 (s.blk.breath.tovrConsec.get k), BitVec.ofNat 8 k.val))
      ∧ t.mem = s.mem := by
  have hreset : tenantOverrunReset k s.blk =
      (s.blk.modT k fun y => { y with autoResets := [s.blk.time.dt], next := .reset 2 }).ev srcBre 0x13 3
        (arg32 (s.blk.breath.tovrConsec.get k)) (BitVec.ofNat 8 k.val) := by
    simp [tenantOverrunReset, hst, hnext, hovr, Blk.autoReset_first hst hnext hres 2 hlim]
  exact runs_onBlk rfl hreset ⟨by simp, fun hroom => Blk.ev_last_of_evs_eq (by simp) hroom .., rfl⟩

end

/-- Settles O38: each row of the tenant family that the clauses name. -/
theorem tenantsRunAndStop : Obligations.TenantsRunAndStop :=
  ⟨runs_tenantShutdownComplete, runs_tenantStartComplete, runs_tenantWindow, runs_guestException, runs_faultCounterClear,
    fun _ _ hst hnext hres => ⟨fun hlim => ⟨runs_tenantAbort hst hnext hres hlim, runs_tenantFaultLimit hst hnext hres hlim,
      runs_tenantOverrunReset hst hnext hres hlim⟩, runs_tenantAbort_givenUp hst hnext hres⟩⟩

end Sys2Proof.Machine
end

section
/-! SUPPORT. The register file at reset (R16): every register of the list is a closed field of `State.reset`. -/

namespace Sys2Proof.Machine
open Sys2Proof

/-- Settles O58: the list is finite and the state at reset is closed, so each read evaluates to its table's value. -/
theorem registersReadTheirResetValues : Obligations.RegistersReadTheirResetValues := by
  unfold Obligations.RegistersReadTheirResetValues
  decide +kernel

end Sys2Proof.Machine
end

section
/-! SUPPORT. A step with no command waiting: one nanosecond of the shell reference clock (R65). -/

namespace Sys2Proof.Machine
open Sys2Proof

/-- At rate correction 0 a nanosecond of the reference clock is one of device time, and leaves no fraction behind. -/
theorem TimeBase.tickNs_of_rateNow_zero {t : TimeBase} (h : t.rateNow = 0) :
    t.tickNs.dt = t.dt + 1 ∧ t.tickNs.dtFrac = t.dtFrac := by
  have hfrac := t.dtFrac.isLt
  have hrate : sint t.rateNow = 0 := by rw [h]; rfl
  have hwhole : ((t.dtFrac.toNat : Int) + 2 ^ 32 + sint t.rateNow) / 2 ^ 32 = 1 := by omega
  have hrest : ((t.dtFrac.toNat : Int) + 2 ^ 32 + sint t.rateNow) % 2 ^ 32 = t.dtFrac.toNat := by omega
  constructor
  · simp only [TimeBase.tickNs, TimeBase.pass, hwhole]
    rfl
  · simp only [TimeBase.tickNs, hrest, BitVec.ofInt_natCast, BitVec.ofNat_toNat, BitVec.setWidth_eq]

theorem step_of_no_pending {s : State} (h : s.pending = []) : step s = .next s.idle := by
  rw [step, h]

/-- Settles O2: the step of an empty queue is `State.idle`, which changes the time base alone. -/
theorem idleStepLetsTimePass : Obligations.IdleStepLetsTimePass :=
  fun s h => ⟨s.idle, step_of_no_pending h, h, rfl, rfl, TimeBase.tickNs_of_rateNow_zero, rfl⟩

end Sys2Proof.Machine
end

section
/-! SUPPORT. A command that may store, and what a captured record leaves of the sequencer. -/

namespace Sys2Proof.Machine
open Sys2Proof

/-- What a command does that may store, from the change that it computes. -/
theorem runs_onMem {c : Instr} {s : State} {f : Mem → Blk → BW} {x : BW} {P : State → Prop}
    (hexec : exec c s = .next (s.onMem f)) (hx : f s.mem s.blk = x)
    (hP : P { s with blk := x.1.heal x.2, mem := Mem.stores s.mem x.2 }) : Safety.runs c s P :=
  ⟨_, hexec, by subst hx; exact hP⟩

/-- No store heals no word. -/
@[simp] theorem Blk.heal_nil (b : Blk) : b.heal [] = b := by
  simp [Blk.heal]

/-- A captured record changes what waits for its grant and the counts of lost records alone. -/
theorem Blk.offer_evs (b : Blk) (p : PRec) :
    (b.offer p).evs = { b.evs with queue := (b.offer p).evs.queue, srcLost := (b.offer p).evs.srcLost } := by
  have hhand : ∃ q l, (b.handLost p.src).evs = { b.evs with queue := q, srcLost := l } := by
    unfold Blk.handLost
    split
    · split
      · exact ⟨_, _, rfl⟩
      · exact ⟨_, _, rfl⟩
    · exact ⟨_, _, rfl⟩
  obtain ⟨q, l, hhand⟩ := hhand
  unfold Blk.offer
  simp only
  split
  · simp [hhand]
  · simp [hhand]

theorem Blk.ev_evs (b : Blk) (src : BitVec 16) (code sev : Nat) (arg : Word) (tn : Byte) (pin : Bool) (fl : Nat) :
    (b.ev src code sev arg tn pin fl).evs =
      { b.evs with queue := (b.ev src code sev arg tn pin fl).evs.queue,
                   srcLost := (b.ev src code sev arg tn pin fl).evs.srcLost } := Blk.offer_evs ..

@[simp] theorem length_leBytes (n x : Nat) : (leBytes n x).length = n := by
  induction n generalizing x with
  | zero => rfl
  | succ n ih => rw [leBytes, List.length_cons, ih]

/-- A record is 32 bytes (R76). -/
@[simp] theorem Rec.length_bytes (r : Rec) : r.bytes.length = 32 := by
  simp [Rec.bytes]

end Sys2Proof.Machine
end

section
/-! SUPPORT. The log writer (R81 to R84): what writing a run of records does to the log's position, and where its stores lie. -/

namespace Sys2Proof.Machine
open Sys2Proof

/-! ### The pinned copy (R84) -/

/-- The pinned copy leaves the log's position and the writer's allowance alone. -/
theorem Blk.pinCopy_evs (b : Blk) (r : Rec) :
    (b.pinCopy r).1.evs =
      { b.evs with pinHeld := (b.pinCopy r).1.evs.pinHeld, pinWr := (b.pinCopy r).1.evs.pinWr,
                   pinChain := (b.pinCopy r).1.evs.pinChain, pinFullLogged := (b.pinCopy r).1.evs.pinFullLogged,
                   queue := (b.pinCopy r).1.evs.queue, srcLost := (b.pinCopy r).1.evs.srcLost } := by
  unfold Blk.pinCopy
  split
  · rfl
  · split
    · rfl
    · split
      · rfl
      · dsimp only
        rw [Blk.ev_evs]
        rfl

/-! ### Where the stores lie -/

section
variable {a : Nat} (ha : ¬ (0x0C000000 ≤ a ∧ a < 0x0C47C000))
include ha

/-- A pinned copy lies in the pinned log. -/
theorem Blk.pinCopy_not_hits (b : Blk) (r : Rec) : (b.pinCopy r).2.any (Store.hits a) = false := by
  have hslot : b.evs.pinWr % pinSlots < 15360 := Nat.mod_lt _ (by decide)
  have hplace : Store.hits a (.put (pinBase + b.evs.pinWr % pinSlots * 32) r.bytes) = false := by
    simp only [Store.hits, Rec.length_bytes, pinBase, decide_eq_false_iff_not]
    omega
  unfold Blk.pinCopy
  split
  · rfl
  · split
    · simpa using hplace
    · split <;> rfl

/-- A ring write lies in the event log, in the checkpoints and in the pinned log. -/
theorem Blk.ringWrite_not_hits (b : Blk) (r : Rec) (old : List Byte) : (b.ringWrite r old).2.any (Store.hits a) = false := by
  have hslot : b.evs.logWr % logSlots < 131072 := Nat.mod_lt _ (by decide)
  have hplace : Store.hits a (.put (logBase + b.evs.logWr % logSlots * 32) r.bytes) = false := by
    simp only [Store.hits, Rec.length_bytes, logBase, decide_eq_false_iff_not]
    omega
  have hckpt : ∀ l : List Byte, l.length = 128 → Store.hits a (.put (ckptBase + (b.evs.logWr / 1024 % 128) * 128) l) = false := by
    intro l hl
    simp only [Store.hits, hl, ckptBase, decide_eq_false_iff_not]
    omega
  simp only [Blk.ringWrite, List.cons_append, List.any_cons, List.any_append, hplace, Blk.pinCopy_not_hits ha, Bool.false_or,
    Bool.or_false]
  split
  · simp [hckpt, digestBytes]
  · rfl

theorem Blk.drain_not_hits (m : Mem) (n : Nat) (b : Blk) : (Blk.drain m n b).2.any (Store.hits a) = false := by
  induction n generalizing b with
  | zero => rfl
  | succ n ih =>
    rw [Blk.drain]
    split
    · rfl
    · simp only [List.any_append, Blk.ringWrite_not_hits ha, ih, Bool.or_false]

end

/-! ### What writing a run of records does -/

/-- From `e` the log writer has taken the records `rs` off the front of the log queue and written them in order, which led to `t`. -/
structure Evs.Wrote (e : Evs) (rs : List Rec) (t : Evs) : Prop where
  queue : e.logQ = rs ++ t.logQ
  total : t.logTotal = e.logTotal + rs.length
  place : t.logWr % logSlots = (e.logWr + rs.length) % logSlots
  chain : t.chain = rs.foldl (fun c r => chainStep c r.bytes) e.chain
  newestSeq : t.newestSeq = (rs.getLast?.map (·.seq)).getD e.newestSeq
  newestDt : t.newestDt = (rs.getLast?.map (·.p.dt)).getD e.newestDt
  thisSec : t.logThisSec = e.logThisSec
  second : t.logSecond = e.logSecond

theorem Evs.Wrote.nil (e : Evs) : e.Wrote [] e := ⟨rfl, rfl, rfl, rfl, rfl, rfl, rfl, rfl⟩

/-- One record written, and then others. -/
theorem Evs.Wrote.cons {e e' t : Evs} {r : Rec} {rs : List Rec} (h1 : e.Wrote [r] e') (h2 : e'.Wrote rs t) :
    e.Wrote (r :: rs) t where
  queue := by rw [h1.queue, h2.queue]; rfl
  total := by rw [h2.total, h1.total]; simp only [List.length_cons, List.length_nil]; omega
  place := by
    rw [h2.place, Nat.add_mod, h1.place, ← Nat.add_mod]
    simp only [List.length_cons, List.length_nil]
    congr 1; omega
  chain := by rw [h2.chain, h1.chain]; rfl
  newestSeq := by rw [h2.newestSeq, h1.newestSeq, List.getLast?_cons (a := r) (l := rs)]; cases rs.getLast? <;> rfl
  newestDt := by rw [h2.newestDt, h1.newestDt, List.getLast?_cons (a := r) (l := rs)]; cases rs.getLast? <;> rfl
  thisSec := h2.thisSec.trans h1.thisSec
  second := h2.second.trans h1.second

/-- A ring write of the record at the front of the log queue writes that record. -/
theorem Blk.ringWrite_wrote {b : Blk} {r : Rec} {rest : List Rec} (h : b.evs.logQ = r :: rest) (old : List Byte) :
    b.evs.Wrote [r] ((b.onEvs fun e => { e with logQ := rest }).ringWrite r old).1.evs := by
  simp only [Blk.ringWrite]
  rw [Blk.pinCopy_evs]
  exact ⟨h, rfl, Nat.mod_mod _ _, rfl, rfl, rfl, rfl, rfl⟩

theorem Blk.drain_wrote (m : Mem) (n : Nat) (b : Blk) (hn : n ≤ b.evs.logQ.length) :
    b.evs.Wrote (b.evs.logQ.take n) (Blk.drain m n b).1.evs := by
  induction n generalizing b with
  | zero => exact Evs.Wrote.nil _
  | succ n ih =>
    cases hq : b.evs.logQ with
    | nil => rw [hq] at hn; exact absurd hn (by simp)
    | cons r rest =>
      have hone := Blk.ringWrite_wrote hq (Mem.readBytes m (logBase + b.evs.logWr * 32) 32)
      have hrest : ((b.onEvs fun e => { e with logQ := rest }).ringWrite r
          (Mem.readBytes m (logBase + b.evs.logWr * 32) 32)).1.evs.logQ = rest := by
        have h := hone.queue
        rw [hq] at h
        exact (List.cons.inj h).2.symm
      have hmore := ih _ (by rw [hrest]; rw [hq] at hn; exact Nat.le_of_succ_le_succ hn)
      rw [hrest] at hmore
      simp only [Blk.drain, hq]
      exact hone.cons hmore

/-! ### The rows of the log -/

theorem runs_logWrite (s : State) : Safety.runs .logWrite s fun t =>
    let n := min s.blk.logBudget s.blk.evs.logQ.length
    t.blk.evs.logQ = s.blk.evs.logQ.drop n ∧ t.blk.evs.logTotal = s.blk.evs.logTotal + n
    ∧ t.blk.evs.logWr % logSlots = (s.blk.evs.logWr + n) % logSlots
    ∧ t.blk.evs.chain = (s.blk.evs.logQ.take n).foldl (fun c r => chainStep c r.bytes) s.blk.evs.chain
    ∧ (∀ r : Rec, (s.blk.evs.logQ.take n).getLast? = some r → t.blk.evs.newestSeq = r.seq ∧ t.blk.evs.newestDt = r.p.dt)
    ∧ t.blk.evs.logThisSec = (if s.blk.second = s.blk.evs.logSecond then s.blk.evs.logThisSec else 0) + n
    ∧ t.blk.evs.logSecond = s.blk.second := by
  refine runs_onMem rfl rfl ?_
  have hn : min s.blk.logBudget s.blk.evs.logQ.length ≤ s.blk.evs.logQ.length := Nat.min_le_right ..
  simp only [Blk.heal_evs, logWrite]
  generalize min s.blk.logBudget s.blk.evs.logQ.length = n at hn ⊢
  obtain ⟨hqueue, htotal, hplace, hchain, hseq, hdt, hsec, hsecond⟩ := Blk.drain_wrote s.mem n
    (s.blk.onEvs fun e => { e with logThisSec := (if s.blk.second = e.logSecond then e.logThisSec else 0) + n,
                                   logSecond := s.blk.second }) hn
  simp only [Blk.onEvs_evs, List.length_take_of_le hn] at hqueue htotal hplace hchain hseq hdt hsec hsecond
  refine ⟨?_, htotal, hplace, hchain, fun r hr => ?_, hsec, hsecond⟩
  · exact (List.append_cancel_left (hqueue.symm.trans (List.take_append_drop n _).symm))
  · rw [hseq, hdt, hr]
    exact ⟨rfl, rfl⟩

theorem runs_logWrite_mem_of_not_log (s : State) (a : Nat) (ha : ¬ (0x0C000000 ≤ a ∧ a < 0x0C47C000)) :
    Safety.runs .logWrite s fun t => Mem.read t.mem a = Mem.read s.mem a :=
  runs_onMem rfl rfl (Mem.read_stores_out _ (Blk.drain_not_hits ha ..) s.mem)

/-! ### Seals (R85) -/

theorem runs_sealPeriodExpiry_of_available (s : State) (h : s.blk.sec.husk = .available) :
    Safety.runs .sealPeriodExpiry s fun t =>
      let flags := if s.blk.evs.sealDeferred then 9 else 1
      t.mem = Mem.stores s.mem [.put (sealBase + s.blk.evs.sealCount % 2 * sealCopy) (sealBytes s.mem s.blk flags)]
      ∧ t.blk.evs.sealDeferred = false ∧ t.blk.evs.sealCount = s.blk.evs.sealCount + 1 ∧ t.blk.evs.lastSealDt = s.blk.time.dt
      ∧ t.blk.evs.prevSeal = Config.sha3 (sealBytes s.mem s.blk flags)
      ∧ (Safety.room s.blk srcSeq → Safety.lastRecord t.blk = some (srcSeq, 0x32, 0, arg32 flags, hw)) := by
  have hflags : s.blk.sealFlags 0 = if s.blk.evs.sealDeferred then 9 else 1 := by
    unfold Blk.sealFlags; split <;> rfl
  refine runs_onMem rfl (if_neg (by simp [Blk.keysReady, h])) ?_
  simp only [Blk.heal_evs, Safety.lastRecord_congr (Blk.heal_evs _ _), hflags, true_and]
  refine ⟨?_, ?_, ?_, ?_, fun hroom => Blk.ev_last _ srcSeq 0x32 0 _ hw false 0 hroom⟩ <;> rw [Blk.ev_evs] <;> rfl

theorem runs_sealPeriodExpiry_of_not_available (s : State) (h : s.blk.sec.husk ≠ .available) :
    Safety.runs .sealPeriodExpiry s fun t =>
      t.mem = s.mem ∧ t.blk = { s.blk with evs := { s.blk.evs with sealDeferred := true } } :=
  runs_onMem rfl (if_pos (by simp [Blk.keysReady, h])) ⟨rfl, Blk.heal_nil _⟩

/-- Settles O8: the writer's run is an induction on its allowance, and a seal is stored or deferred as the keys stand. -/
theorem logWriterAndSeals : Obligations.LogWriterAndSeals :=
  ⟨runs_logWrite, runs_logWrite_mem_of_not_log,
    fun s => ⟨runs_sealPeriodExpiry_of_available s, runs_sealPeriodExpiry_of_not_available s⟩⟩

end Sys2Proof.Machine
end

section
/-! SUPPORT. One view (R78 to R80, R92): what a record that reaches it does to it, and what a change of it leaves alone. -/

namespace Sys2Proof.Machine
open Sys2Proof

/-- What a record that reaches a view does to it: the ring takes it, or it counts as lost (R80, R92). -/
def View.receive (inReset : Bool) (w : View) : View :=
  if w.size = 0 then w
  else if w.free = 0 ∨ inReset then { w with lost := satInc w.lost 0xFFFFFFFF }
  else { w with wr := (w.wr + 1) % 2 ^ w.size }

/-- One view changed. -/
def Blk.onView (b : Blk) (v : Fin 9) (f : View → View) : Blk :=
  b.onEvs fun e => { e with views := vmod e.views v f }

@[simp] theorem View.receive_filter (inReset : Bool) (w : View) : (w.receive inReset).filter = w.filter := by
  unfold View.receive; split <;> [rfl; split <;> rfl]

@[simp] theorem View.receive_rd (inReset : Bool) (w : View) : (w.receive inReset).rd = w.rd := by
  unfold View.receive; split <;> [rfl; split <;> rfl]

theorem View.receive_of_free {w : View} (hsize : w.size ≠ 0) (hfree : 0 < w.free) :
    w.receive false = { w with wr := (w.wr + 1) % 2 ^ w.size } := by
  simp [View.receive, hsize, Nat.ne_of_gt hfree]

theorem View.receive_of_full {w : View} (inReset : Bool) (hsize : w.size ≠ 0) (hfree : w.free = 0) :
    w.receive inReset = { w with lost := satInc w.lost 0xFFFFFFFF } := by
  simp [View.receive, hsize, hfree]

section
variable (b : Blk) (f : View → View)

@[simp] theorem Blk.onView_get_self (v : Fin 9) : (b.onView v f).evs.views.get v = f (b.evs.views.get v) := vmod_get_self ..

theorem Blk.onView_get_ne {v w : Fin 9} (h : w ≠ v) : (b.onView v f).evs.views.get w = b.evs.views.get w :=
  vmod_get_ne _ _ _ _ h.symm

@[simp] theorem Blk.onView_viewInReset (v w : Fin 9) : (b.onView v f).viewInReset w = b.viewInReset w := rfl

end

/-- Whether a record passes a filter depends on the filter, the owners of the channels, the gather lists and the CAN controllers
alone (R78). -/
theorem Blk.passes_congr {a b : Blk} {v : Fin 9} {p : PRec} (hfilter : (a.evs.views.get v).filter = (b.evs.views.get v).filter)
    (hchans : a.chans = b.chans) (hcfg : a.cfg = b.cfg) (hcans : a.cans = b.cans) : a.passes v p = b.passes v p := by
  unfold Blk.passes Blk.ch Blk.inputGranted Blk.gatherOf Blk.canOwned
  rw [hfilter, hchans, hcfg, hcans]

/-- A change of a view that keeps its filter keeps which records pass. -/
theorem Blk.onView_passes (b : Blk) (v w : Fin 9) (p : PRec) {f : View → View} (hf : ∀ x, (f x).filter = x.filter) :
    (b.onView v f).passes w p = b.passes w p := by
  refine Blk.passes_congr ?_ rfl rfl rfl
  by_cases hw : w = v
  · subst hw; rw [Blk.onView_get_self, hf]
  · rw [Blk.onView_get_ne b f hw]

/-- The block after a record has reached a view. -/
theorem Blk.toView_fst (b : Blk) (v : Fin 9) (r : Rec) : (b.toView v r).1 = b.onView v (View.receive (b.viewInReset v)) := by
  unfold Blk.toView Blk.onView View.receive
  simp only
  by_cases hsize : (b.evs.views.get v).size = 0
  · rw [if_pos hsize, Blk.onEvs, vmod_id _ _ _ (by simp [hsize])]
  · by_cases hlost : (b.evs.views.get v).free = 0 ∨ b.viewInReset v = true <;> simp [Blk.onEvs, vmod, hsize, hlost]

/-- A ring with a free slot takes the record into the slot at the write position, which moves on (R78). -/
theorem Blk.toView_of_free {b : Blk} {v : Fin 9} (hsize : (b.evs.views.get v).size ≠ 0)
    (hfree : 0 < (b.evs.views.get v).free) (hreset : b.viewInReset v = false) (r : Rec) :
    b.toView v r = (b.onView v fun w => { w with wr := (w.wr + 1) % 2 ^ w.size },
      [.put ((b.evs.views.get v).base.toNat + (b.evs.views.get v).wr * 32) r.bytes]) := by
  simp [Blk.toView, Blk.onView, hsize, Nat.ne_of_gt hfree, hreset]

end Sys2Proof.Machine
end

section
/-! SUPPORT. The log queue, the grant and the delivery of a record (R72, R78, R81). -/

namespace Sys2Proof.Machine
open Sys2Proof

/-! ### The log queue (R81) -/

/-- A record offered to the log queue changes the queue and the counts of what it lost alone. -/
theorem Blk.toLog_eq (b : Blk) (r : Rec) :
    b.toLog r = { b with evs := { b.evs with logQ := (b.toLog r).evs.logQ, logLost := (b.toLog r).evs.logLost,
                                             logLostNow := (b.toLog r).evs.logLostNow } } := by
  unfold Blk.toLog
  split
  · by_cases hroom : b.evs.logRoom r.p.pinned 1 = true <;> simp [Blk.onEvs, hroom]
  · rfl

@[simp] theorem Blk.toLog_queue (b : Blk) (r : Rec) : (b.toLog r).evs.queue = b.evs.queue := by rw [Blk.toLog_eq]
@[simp] theorem Blk.toLog_nextSeq (b : Blk) (r : Rec) : (b.toLog r).evs.nextSeq = b.evs.nextSeq := by rw [Blk.toLog_eq]
@[simp] theorem Blk.toLog_views (b : Blk) (r : Rec) : (b.toLog r).evs.views = b.evs.views := by rw [Blk.toLog_eq]
@[simp] theorem Blk.toLog_viewInReset (b : Blk) (r : Rec) (v : Fin 9) : (b.toLog r).viewInReset v = b.viewInReset v := by
  rw [Blk.toLog_eq]; rfl

/-- A part of the log queue with two places free has one free. -/
theorem Evs.logRoom_one_of_two {e : Evs} {pinned : Bool} (h : e.logRoom pinned 2 = true) : e.logRoom pinned 1 = true := by
  simp only [Evs.logRoom, decide_eq_true_eq] at h ⊢
  omega

section
variable {b : Blk} {r : Rec}

theorem Blk.toLog_of_room (h : b.evs.logSev ≤ r.p.sev.toNat ∨ r.p.pinned = true) (hroom : b.evs.logRoom r.p.pinned 1 = true) :
    b.toLog r = b.onEvs fun e => { e with logQ := e.logQ ++ [r] } := by
  simp [Blk.toLog, Blk.onEvs, h, hroom]

theorem Blk.toLog_of_below (h : ¬ (b.evs.logSev ≤ r.p.sev.toNat ∨ r.p.pinned = true)) : b.toLog r = b := if_neg h

end

/-! ### The grant (R72, R75) -/

/-- A write of the SEQ counter, which is not guarded, changes NVM alone. -/
theorem Blk.counterPut_seq_eq (b : Blk) (x : BitVec 64) :
    b.counterPut ctrSeq x = { b with nvm := (b.counterPut ctrSeq x).nvm } := by
  have hfree : ctrSeq ∉ guardedCtrs := by decide
  unfold Blk.counterPut
  rw [if_neg hfree]
  split <;> rfl

/-- Taking a SEQ gives the next one, and changes its count, its high-water mark, the time base's anchor and NVM alone. -/
theorem Blk.takeSeq_eq (b : Blk) :
    b.takeSeq = (b.evs.nextSeq,
      { b with evs := { b.evs with nextSeq := b.evs.nextSeq + 1, highWater := b.takeSeq.2.evs.highWater },
               time := b.takeSeq.2.time, nvm := b.takeSeq.2.nvm }) := by
  unfold Blk.takeSeq
  simp only
  split
  · rw [Blk.counterPut_seq_eq]; rfl
  · rfl

theorem Blk.grantRec_fst (b : Blk) (p : PRec) : (b.grantRec p).1 = Safety.granted b p := by
  rw [Blk.grantRec, Blk.takeSeq_eq]; rfl

/-- A grant advances SEQ, and besides changes only what taking a SEQ does and the count of grants. -/
theorem Blk.grantRec_snd (b : Blk) (p : PRec) :
    (b.grantRec p).2 =
      { b with evs := { b.evs with nextSeq := b.evs.nextSeq + 1, highWater := (b.grantRec p).2.evs.highWater,
                                   grants := (b.grantRec p).2.evs.grants, grantsNow := (b.grantRec p).2.evs.grantsNow,
                                   grantSec := (b.grantRec p).2.evs.grantSec },
               time := (b.grantRec p).2.time, nvm := (b.grantRec p).2.nvm } := by
  rw [Blk.grantRec, Blk.takeSeq_eq]
  simp only [Evs.countGrant, Blk.onEvs]
  split <;> rfl

section
variable (b : Blk) (p : PRec)

@[simp] theorem Blk.grantRec_nextSeq : (b.grantRec p).2.evs.nextSeq = b.evs.nextSeq + 1 := by rw [Blk.grantRec_snd]
@[simp] theorem Blk.grantRec_queue : (b.grantRec p).2.evs.queue = b.evs.queue := by rw [Blk.grantRec_snd]
@[simp] theorem Blk.grantRec_views : (b.grantRec p).2.evs.views = b.evs.views := by rw [Blk.grantRec_snd]
@[simp] theorem Blk.grantRec_logQ : (b.grantRec p).2.evs.logQ = b.evs.logQ := by rw [Blk.grantRec_snd]
@[simp] theorem Blk.grantRec_logSev : (b.grantRec p).2.evs.logSev = b.evs.logSev := by rw [Blk.grantRec_snd]
@[simp] theorem Blk.grantRec_logRoom (pinned : Bool) (n : Nat) :
    (b.grantRec p).2.evs.logRoom pinned n = b.evs.logRoom pinned n := by rw [Blk.grantRec_snd]; rfl
@[simp] theorem Blk.grantRec_viewInReset (v : Fin 9) : (b.grantRec p).2.viewInReset v = b.viewInReset v := by
  rw [Blk.grantRec_snd]; rfl
@[simp] theorem Blk.grantRec_passes (v : Fin 9) (q : PRec) : (b.grantRec p).2.passes v q = b.passes v q := by
  rw [Blk.grantRec_snd]; exact Blk.passes_congr rfl rfl rfl rfl

end

/-! ### Due records of lost events (R80, R81) -/

section
variable {b : Blk}

theorem Blk.logLostRec_of_none (h : b.evs.logLostNow = 0) : b.logLostRec = b := if_pos (.inl h)

/-- The log's record of R81: the count starts again, and the record of the lost ones enters the log queue. -/
theorem Blk.logLostRec_of_room (hlost : 0 < b.evs.logLostNow) (hroom : b.evs.logRoom false 2 = true) (hsev : b.evs.logSev ≤ 2)
    {p : PRec} (hp : p = b.lostRec srcSeq hw b.evs.logLostNow) :
    b.logLostRec = ((b.grantRec p).2.onEvs fun e => { e with logLostNow := 0 }).onEvs fun e =>
      { e with logQ := e.logQ ++ [Safety.granted b p] } := by
  subst hp
  have hone : b.evs.logRoom false 1 = true := Evs.logRoom_one_of_two hroom
  rw [← Blk.grantRec_fst, ← Blk.toLog_of_room]
  · exact if_neg (by simp [Nat.ne_of_gt hlost, hroom])
  · rw [Blk.grantRec_fst, Blk.onEvs_evs, Blk.grantRec_logSev]
    exact .inl hsev
  · rw [Blk.grantRec_fst]
    exact (Blk.grantRec_logRoom b _ false 1).trans hone

theorem Blk.viewLost_of_none {v : Fin 9} (h : (b.evs.views.get v).lost = 0) : b.viewLost v = (b, []) := if_pos (.inr (.inl h))

theorem Blk.dueLost_of_nothingLost (h : Safety.nothingLost b) : b.dueLost = (b, []) := by
  obtain ⟨hlog, hviews⟩ := h
  have hfold : ∀ l : List (Fin 9), l.foldl (fun x v => BW.andThen x (·.viewLost v)) (b, []) = (b, []) := by
    intro l
    induction l with
    | nil => rfl
    | cons v l ih =>
      rw [List.foldl_cons]
      simpa [BW.andThen, Blk.viewLost_of_none (hviews v)] using ih
  rw [Blk.dueLost, Blk.logLostRec_of_none hlog, hfold]

end

/-! ### Delivery (R72, R78, R80) -/

/-- One view's turn in the delivery of a record. -/
def Blk.deliverTurn (r : Rec) (x : BW) (v : Fin 9) : BW := if x.1.passes v r.p then x.andThen (·.toView v r) else x

theorem Blk.deliver_eq_foldl (b : Blk) (r : Rec) : b.deliver r = (upTo 9).foldl (Blk.deliverTurn r) (b.toLog r, []) := rfl

/-- The block after one view's turn. -/
theorem Blk.deliverTurn_fst (r : Rec) (x : BW) (v : Fin 9) :
    (Blk.deliverTurn r x v).1 =
      if x.1.passes v r.p = true then x.1.onView v (View.receive (x.1.viewInReset v)) else x.1 := by
  unfold Blk.deliverTurn
  split
  · exact Blk.toView_fst ..
  · rfl

/-- What a record does to each view after the turns of different views: it reaches those whose turn came and whose filter it
passes, and the turns change nothing but the views. -/
theorem Blk.foldl_deliverTurn (r : Rec) (l : List (Fin 9)) (hl : l.Nodup) (x : BW) :
    (∀ v, (l.foldl (Blk.deliverTurn r) x).1.evs.views.get v =
      if v ∈ l ∧ x.1.passes v r.p = true then (x.1.evs.views.get v).receive (x.1.viewInReset v) else x.1.evs.views.get v)
    ∧ (l.foldl (Blk.deliverTurn r) x).1 =
        { x.1 with evs := { x.1.evs with views := (l.foldl (Blk.deliverTurn r) x).1.evs.views } } := by
  induction l generalizing x with
  | nil => exact ⟨fun v => (if_neg (by simp)).symm, rfl⟩
  | cons w l ih =>
    obtain ⟨hw, hl⟩ := List.nodup_cons.1 hl
    obtain ⟨hviews, hrest⟩ := ih hl (Blk.deliverTurn r x w)
    rw [List.foldl_cons]
    by_cases hpass : x.1.passes w r.p = true
    · rw [Blk.deliverTurn_fst, if_pos hpass] at hviews hrest
      refine ⟨fun v => ?_, hrest⟩
      rw [hviews, Blk.onView_passes _ _ _ _ (by simp), Blk.onView_viewInReset]
      by_cases hv : v = w
      · subst hv; simp [hw, hpass]
      · simp [hv, Blk.onView_get_ne x.1 _ hv]
    · rw [Blk.deliverTurn_fst, if_neg hpass] at hviews hrest
      refine ⟨fun v => ?_, hrest⟩
      rw [hviews]
      by_cases hv : v = w
      · subst hv; simp [hw, hpass]
      · simp [hv]

/-- A delivery offers the record to the log queue, and to each view whose filter it passes. -/
theorem Blk.deliver_fst (b : Blk) (r : Rec) :
    (∀ v, (b.deliver r).1.evs.views.get v =
      if b.passes v r.p = true then (b.evs.views.get v).receive (b.viewInReset v) else b.evs.views.get v)
    ∧ (b.deliver r).1 = { b.toLog r with evs := { (b.toLog r).evs with views := (b.deliver r).1.evs.views } } := by
  obtain ⟨hviews, hrest⟩ := Blk.foldl_deliverTurn r (upTo 9) (List.nodup_finRange 9) (b.toLog r, [])
  rw [← Blk.deliver_eq_foldl] at hviews hrest
  refine ⟨fun v => ?_, hrest⟩
  have hpass : (b.toLog r).passes v r.p = b.passes v r.p := by
    rw [Blk.toLog_eq]; exact Blk.passes_congr rfl rfl rfl rfl
  have hmem : v ∈ upTo 9 := List.mem_finRange v
  simp only [hviews, hpass, hmem, true_and, Blk.toLog_views, Blk.toLog_viewInReset]

end Sys2Proof.Machine
end

section
/-! SUPPORT. The rows of the sequencer and of the views (R72, R74, R78, R80, R81, R92). -/

namespace Sys2Proof.Machine
open Sys2Proof

/-! ### EVENT_GRANT -/

section
variable {b : Blk} {p : PRec} {rest : List PRec} (hres : b.evs.resumed = true) (hq : b.evs.queue = p :: rest)
  (hlost : Safety.nothingLost b)
include hres hq hlost

/-- With nothing lost, a grant takes the head record off the queue, gives it its SEQ and delivers it. -/
theorem eventGrant_fst :
    (eventGrant b).1 =
      (((b.onEvs fun e => { e with queue := rest }).grantRec p).2.deliver (Safety.granted b p)).1 := by
  have hdue : (b.onEvs fun e => { e with queue := rest }).dueLost = (b.onEvs fun e => { e with queue := rest }, []) :=
    Blk.dueLost_of_nothingLost hlost
  simp only [eventGrant, hres, hq, Blk.grantOne, hdue, BW.andThen, Bool.true_eq_false, if_false]
  rw [Blk.grantRec_fst]
  rfl

theorem eventGrant_view (v : Fin 9) : (eventGrant b).1.evs.views.get v =
    if b.passes v p = true then (b.evs.views.get v).receive (b.viewInReset v) else b.evs.views.get v := by
  have hpass : (b.onEvs fun e => { e with queue := rest }).passes v (Safety.granted b p).p = b.passes v p :=
    Blk.passes_congr rfl rfl rfl rfl
  rw [eventGrant_fst hres hq hlost, (Blk.deliver_fst _ _).1, Blk.grantRec_passes, hpass, Blk.grantRec_views,
    Blk.grantRec_viewInReset]
  rfl

/-- Besides the views, a grant leaves the sequencer as the offer to the log queue does. -/
theorem eventGrant_evs : (eventGrant b).1.evs =
    { (((b.onEvs fun e => { e with queue := rest }).grantRec p).2.toLog (Safety.granted b p)).evs with
      views := (eventGrant b).1.evs.views } := by
  rw [eventGrant_fst hres hq hlost]
  exact congrArg Blk.evs (Blk.deliver_fst _ _).2

end

/-- A grant gives the head record its SEQ and offers it to the log queue, and to each view whose filter it passes. -/
theorem runs_eventGrant (p : PRec) (rest : List PRec) (s : State) (hres : s.blk.evs.resumed = true)
    (hq : s.blk.evs.queue = p :: rest) (hlost : Safety.nothingLost s.blk) :
    Safety.runs .eventGrant s fun t =>
      t.blk.evs.queue = rest ∧ t.blk.evs.nextSeq = s.blk.evs.nextSeq + 1
      ∧ ((s.blk.evs.logSev ≤ p.sev.toNat ∨ p.pinned = true) → s.blk.evs.logRoom p.pinned 1 = true →
          t.blk.evs.logQ = s.blk.evs.logQ ++ [Safety.granted s.blk p])
      ∧ (¬ (s.blk.evs.logSev ≤ p.sev.toNat ∨ p.pinned = true) → t.blk.evs.logQ = s.blk.evs.logQ)
      ∧ (∀ v : Fin 9, (s.blk.evs.views.get v).size ≠ 0 → s.blk.passes v p = true → s.blk.viewInReset v = false →
          (0 < (s.blk.evs.views.get v).free →
            (t.blk.evs.views.get v).wr = ((s.blk.evs.views.get v).wr + 1) % 2 ^ (s.blk.evs.views.get v).size
            ∧ (t.blk.evs.views.get v).lost = 0)
          ∧ ((s.blk.evs.views.get v).free = 0 →
            (t.blk.evs.views.get v).wr = (s.blk.evs.views.get v).wr ∧ (t.blk.evs.views.get v).lost = 1))
      ∧ (∀ v : Fin 9, s.blk.passes v p = false → t.blk.evs.views.get v = s.blk.evs.views.get v)
      ∧ (∀ v : Fin 9, (t.blk.evs.views.get v).rd = (s.blk.evs.views.get v).rd) := by
  refine runs_onMem rfl rfl ?_
  simp only [Blk.heal_evs]
  have hview := eventGrant_view hres hq hlost
  have hevs := eventGrant_evs hres hq hlost
  refine ⟨?_, ?_, fun hsev hroom => ?_, fun hsev => ?_, fun v hsize hpass hreset => ⟨fun hfree => ?_, fun hfull => ?_⟩,
    fun v hpass => ?_, fun v => ?_⟩
  · rw [hevs]; simp
  · rw [hevs]; simp
  · rw [hevs, Blk.toLog_of_room (by rwa [Blk.grantRec_logSev]) (by rwa [Blk.grantRec_logRoom])]; simp
  · rw [hevs, Blk.toLog_of_below (by rwa [Blk.grantRec_logSev])]; simp
  · rw [hview, if_pos hpass, hreset, View.receive_of_free hsize hfree]
    exact ⟨rfl, hlost.2 v⟩
  · rw [hview, if_pos hpass, View.receive_of_full _ hsize hfull]
    exact ⟨rfl, by rw [hlost.2 v]; rfl⟩
  · rw [hview, if_neg (by simp [hpass])]
  · rw [hview]; split <;> simp

/-! ### EVENTS_LOST -/

/-- The view record of R80: the count starts again, and the record of the lost ones goes to the log queue and into the ring. -/
theorem Blk.viewLost_of_room {b : Blk} {v : Fin 9} (hsize : (b.evs.views.get v).size ≠ 0) (hlost : 0 < (b.evs.views.get v).lost)
    (hfree : 2 ≤ (b.evs.views.get v).free) (hreset : b.viewInReset v = false) {p : PRec}
    (hp : p = b.lostRec srcSeq (idByte (viewOwner v)) (b.evs.views.get v).lost) :
    b.viewLost v =
      ((((b.grantRec p).2.onView v fun w => { w with lost := 0 }).toLog (Safety.granted b p)).onView v fun w =>
          { w with wr := (w.wr + 1) % 2 ^ w.size },
        [.put ((b.evs.views.get v).base.toNat + (b.evs.views.get v).wr * 32) (Safety.granted b p).bytes]) := by
  have hview : ((((b.grantRec p).2.onView v fun w => { w with lost := 0 }).toLog (Safety.granted b p)).evs.views.get v) =
      { b.evs.views.get v with lost := 0 } := by simp
  have hrecord : b.viewLost v = (((b.grantRec p).2.onView v fun w => { w with lost := 0 }).toLog (b.grantRec p).1).toView v
      (b.grantRec p).1 := by
    subst hp
    exact if_neg (by simp [hsize, Nat.ne_of_gt hlost, Nat.not_lt.2 hfree, hreset])
  rw [hrecord, Blk.grantRec_fst, Blk.toView_of_free, hview]
  · rwa [hview]
  · rw [hview]
    exact Nat.lt_of_lt_of_le Nat.two_pos hfree
  · simpa using hreset

section
variable {b : Blk} (h : b.evs.resumed = true)
include h

theorem eventsLost_view (v : Fin 9) : eventsLost (.view v) b = b.viewLost v := if_neg (by simp [h])

theorem eventsLost_log : eventsLost .log b = (b.logLostRec, []) := if_neg (by simp [h])

theorem eventsLost_source (src : BitVec 16) : eventsLost (.source src) b = (b.handLost src, []) := if_neg (by simp [h])

end

theorem runs_eventsLost_view (v : Fin 9) (s : State) (hres : s.blk.evs.resumed = true) (hsize : (s.blk.evs.views.get v).size ≠ 0)
    (hlost : 0 < (s.blk.evs.views.get v).lost) (hfree : 2 ≤ (s.blk.evs.views.get v).free) (hreset : s.blk.viewInReset v = false) :
    Safety.runs (.eventsLost (.view v)) s fun t =>
      (t.blk.evs.views.get v).lost = 0
      ∧ (t.blk.evs.views.get v).wr = ((s.blk.evs.views.get v).wr + 1) % 2 ^ (s.blk.evs.views.get v).size
      ∧ t.mem = Mem.stores s.mem [.put ((s.blk.evs.views.get v).base.toNat + (s.blk.evs.views.get v).wr * 32)
          (Safety.granted s.blk (s.blk.lostRec srcSeq (idByte (viewOwner v)) (s.blk.evs.views.get v).lost)).bytes]
      ∧ ∀ w : Fin 9, w ≠ v → t.blk.evs.views.get w = s.blk.evs.views.get w := by
  refine runs_onMem rfl ((eventsLost_view hres v).trans (Blk.viewLost_of_room hsize hlost hfree hreset rfl)) ?_
  exact ⟨by simp, by simp, rfl, fun w hw => by simp [Blk.onView_get_ne _ _ hw]⟩

theorem runs_eventsLost_log (s : State) (hres : s.blk.evs.resumed = true) (hlost : 0 < s.blk.evs.logLostNow)
    (hroom : s.blk.evs.logRoom false 2 = true) (hsev : s.blk.evs.logSev ≤ 2) :
    Safety.runs (.eventsLost .log) s fun t =>
      t.mem = s.mem ∧ t.blk.evs.logLostNow = 0 ∧ t.blk.evs.views = s.blk.evs.views
      ∧ t.blk.evs.logQ = s.blk.evs.logQ ++ [Safety.granted s.blk (s.blk.lostRec srcSeq hw s.blk.evs.logLostNow)] := by
  refine runs_onMem rfl ((eventsLost_log hres).trans (congrArg (·, []) (Blk.logLostRec_of_room hlost hroom hsev rfl)))
    ⟨rfl, rfl, ?_, ?_⟩
  · simp
  · simp

theorem findKey_filter_ne {κ α : Type} [DecidableEq κ] (l : List (κ × α)) (k : κ) :
    findKey (l.filter fun p => p.1 ≠ k) k = none := by
  simp [findKey, List.find?_eq_none]

theorem Blk.handLost_of_room {b : Blk} {src : BitVec 16} {n : Nat} (hkey : findKey b.evs.srcLost src = some n)
    (hroom : b.waiting src < shellBuffer) :
    b.handLost src = b.onEvs fun e =>
      { e with queue := e.queue ++ [b.lostRec src hw n], srcLost := e.srcLost.filter fun p => p.1 ≠ src } := by
  simp [Blk.handLost, hkey, hroom]

theorem runs_eventsLost_source (src : BitVec 16) (n : Nat) (s : State) (hres : s.blk.evs.resumed = true)
    (hkey : findKey s.blk.evs.srcLost src = some n) (hroom : s.blk.waiting src < shellBuffer) :
    Safety.runs (.eventsLost (.source src)) s fun t =>
      t.mem = s.mem ∧ t.blk.evs.queue = s.blk.evs.queue ++ [s.blk.lostRec src hw n]
      ∧ findKey t.blk.evs.srcLost src = none ∧ t.blk = { s.blk with evs := t.blk.evs } := by
  refine runs_onMem rfl ((eventsLost_source hres src).trans (congrArg (·, []) (Blk.handLost_of_room hkey hroom))) ?_
  rw [Blk.heal_nil]
  exact ⟨rfl, rfl, findKey_filter_ne .., rfl⟩

/-! ### EVS_VIEW_RD (R92) -/

theorem viewOf_viewOwner (v : Fin 9) : viewOf (viewOwner v) = some v := by
  revert v; decide

theorem viewOwner_ne_chanter (v : Fin 9) : viewOwner v ≠ .chanter := by
  revert v; decide

/-- An initiator that owns no view has none. -/
theorem viewOf_of_no_view {i : Initiator} (h : ∀ v : Fin 9, i ≠ viewOwner v) : viewOf i = none := by
  cases i with
  | tenant n =>
    have howner : viewOwner ⟨n.val, by omega⟩ = .tenant n := dif_pos n.isLt
    exact absurd howner.symm (h _)
  | safety => exact absurd rfl (h 8)
  | _ => rfl

theorem evsViewRdWrite_eq {i : Initiator} {v : Fin 9} {named : Option (Fin 9)} (idx : BitVec 16) {b : Blk}
    (h : i = viewOwner v ∨ (i = .chanter ∧ named = some v)) (hsize : (b.evs.views.get v).size ≠ 0) :
    evsViewRdWrite i named idx b = b.onView v fun w => { w with rd := idx.toNat % 2 ^ w.size } := by
  have htarget : (if i = .chanter then named else viewOf i) = some v := by
    rcases h with rfl | ⟨rfl, rfl⟩
    · rw [if_neg (viewOwner_ne_chanter v), viewOf_viewOwner]
    · rfl
  simp only [evsViewRdWrite, htarget]
  exact if_neg hsize

theorem runs_evsViewRdWrite (i : Initiator) (v : Fin 9) (named : Option (Fin 9)) (idx : BitVec 16) (s : State)
    (h : i = viewOwner v ∨ (i = .chanter ∧ named = some v)) (hsize : (s.blk.evs.views.get v).size ≠ 0) :
    Safety.runs (.evsViewRdWrite i named idx) s fun t =>
      (t.blk.evs.views.get v).rd = idx.toNat % 2 ^ (s.blk.evs.views.get v).size
      ∧ (t.blk.evs.views.get v).wr = (s.blk.evs.views.get v).wr ∧ (t.blk.evs.views.get v).lost = (s.blk.evs.views.get v).lost
      ∧ (∀ w : Fin 9, w ≠ v → t.blk.evs.views.get w = s.blk.evs.views.get w)
      ∧ t.blk = { s.blk with evs := { s.blk.evs with views := t.blk.evs.views } } ∧ t.mem = s.mem :=
  runs_onBlk rfl (evsViewRdWrite_eq idx h hsize)
    ⟨by simp, by simp, by simp, fun _ hw => Blk.onView_get_ne _ _ hw, rfl, rfl⟩

theorem runs_evsViewRdWrite_of_no_view (i : Initiator) (named : Option (Fin 9)) (idx : BitVec 16) (s : State)
    (h : ∀ v : Fin 9, i ≠ viewOwner v) (hi : i ≠ .chanter) : Safety.runs (.evsViewRdWrite i named idx) s fun t => t = s := by
  have hnone : evsViewRdWrite i named idx s.blk = s.blk := by
    rw [evsViewRdWrite, if_neg hi, viewOf_of_no_view h]
  exact runs_onBlk rfl hnone rfl

/-- Settles O12: each row of the sequencer and of the views, by what it delivers, counts and moves. -/
theorem grantsDeliverOrLoseRecords : Obligations.GrantsDeliverOrLoseRecords :=
  ⟨runs_eventGrant, runs_eventsLost_view, runs_eventsLost_log, runs_eventsLost_source, runs_evsViewRdWrite,
    runs_evsViewRdWrite_of_no_view⟩

end Sys2Proof.Machine
end

section
/-! SUPPORT. Folds over different units: what the turn of one unit leaves, and the channels of a kernel. -/

namespace Sys2Proof.Machine
open Sys2Proof

/-- What no turn of a fold over these units changes, the fold does not change. -/
theorem foldl_keep_of_mem {α β γ : Type} (view : α → γ) (f : α → β → α) (l : List β) (a : α)
    (h : ∀ x ∈ l, ∀ a, view (f a x) = view a) : view (l.foldl f a) = view a :=
  List.foldlRecOn (motive := fun a' => view a' = view a) l f rfl fun a' ha x hx => (h x hx a').trans ha

/-- Where the turns of other units leave a view alone, a fold over different units leaves what the unit's own turn does, taken
at some state of the view before the fold. -/
theorem foldl_own_turn {α β κ γ : Type} (key : β → κ) (view : α → γ) (f : α → β → α) {l : List β} {x : β} (a : α)
    (hl : (l.map key).Nodup) (hx : x ∈ l) (hother : ∀ y a, key y ≠ key x → view (f a y) = view a) :
    ∃ a', view a' = view a ∧ view (l.foldl f a) = view (f a' x) := by
  obtain ⟨l₁, l₂, rfl⟩ := List.append_of_mem hx
  rw [List.map_append, List.map_cons, List.nodup_append] at hl
  obtain ⟨-, hl₂, hdisj⟩ := hl
  have hbefore : ∀ y ∈ l₁, ∀ a, view (f a y) = view a := fun y hy a =>
    hother y a (hdisj _ (List.mem_map_of_mem hy) _ List.mem_cons_self)
  have hafter : ∀ y ∈ l₂, ∀ a, view (f a y) = view a := fun y hy a =>
    hother y a fun h => (List.nodup_cons.1 hl₂).1 (h ▸ List.mem_map_of_mem hy)
  refine ⟨l₁.foldl f a, foldl_keep_of_mem view f l₁ a hbefore, ?_⟩
  rw [List.foldl_append, List.foldl_cons, foldl_keep_of_mem view f l₂ _ hafter]

/-! ### The channels of a kernel (R13) -/

theorem kOf_chanOf (k : Fin 4) (n : Fin 10) : kOf (chanOf k n) = k := by
  apply Fin.ext
  show (10 * k.val + n.val) / 10 = k.val
  omega

theorem chanOf_nOf {k : Fin 4} {c : Fin 40} (h : kOf c = k) : chanOf k (nOf c) = c := by
  subst h
  apply Fin.ext
  show 10 * (c.val / 10) + c.val % 10 = c.val
  omega

theorem chanOf_injective (k : Fin 4) : Function.Injective (chanOf k) := by
  intro m n h
  have hval : 10 * k.val + m.val = 10 * k.val + n.val := congrArg Fin.val h
  exact Fin.ext (by omega)

@[simp] theorem mem_chansOf {k : Fin 4} {c : Fin 40} : c ∈ chansOf k ↔ kOf c = k := by
  refine ⟨fun h => ?_, fun h => List.mem_map.2 ⟨nOf c, List.mem_finRange _, chanOf_nOf h⟩⟩
  obtain ⟨n, -, rfl⟩ := List.mem_map.1 h
  exact kOf_chanOf k n

theorem nodup_chansOf (k : Fin 4) : (chansOf k).Nodup := (List.nodup_finRange 10).map (chanOf_injective k)

/-- A channel that follows no other leads itself. -/
theorem Blk.lead_of_not_follower {b : Blk} {c : Fin 40} (h : b.isFollower c = false) : b.lead c = c :=
  if_neg (by simpa [Blk.isFollower] using h)

theorem Blk.isFollower_congr {a b : Blk} {c : Fin 40} (h : (a.ch c).paired = (b.ch c).paired) :
    a.isFollower c = b.isFollower c := by
  rw [Blk.isFollower, h]; rfl

/-- One change of each channel of a list without repeats. -/
theorem foldl_modCh_ch {l : List (Fin 40)} (hl : l.Nodup) (f : Channel → Channel) (b : Blk) {c : Fin 40} (hc : c ∈ l) :
    ((l.foldl (fun b d => b.modCh d f) b).ch c) = f (b.ch c) := by
  obtain ⟨a, ha, hfold⟩ := foldl_own_turn id (Blk.ch · c) (fun b d => b.modCh d f) b ((List.map_id l).symm ▸ hl) hc
    fun d a hd => Blk.modCh_ch_ne a d c f hd
  rw [hfold, Blk.modCh_ch, ha]

end Sys2Proof.Machine
end

section
/-! SUPPORT. What the operations of one channel leave alone (R135 to R139, R153): all but the working state of that channel and the
records of its kernel. -/

namespace Sys2Proof.Machine
open Sys2Proof

/-! ### Frames -/

/-- A kernel without the records that it holds (R74). -/
def Kernel.unlogged (kn : Kernel) : Kernel := { kn with buf := [], bufLost := 0 }

/-- A channel without what turning on and off works on: its state, its window, its pause, its limit timer and its output. What
stays is its settings, its counters and latches, its actions and its measurements. -/
def Channel.kept (ch : Channel) : Channel :=
  { ch with
    prot := .off, cause := .none, thermTrip := false, winOpen := false, winStart := 0, winLen := 0, winForce := false,
    winFrozen := none, stretch := 0, quickOff := false, quickUsed := 0, burstLeft := 0, limRun := none, limAcc := 0,
    limSeen := false, pauseRun := false, pauseStart := 0, pauseLen := 0, deferred := false, deferredLogged := false,
    wearWait := false, supWait := false, shutdownActive := false, cleanFrom := none, cleanAcc := 0, carrierStart := 0,
    effDuty := 0, ramping := false, switches := 0, protSticky := 0 }

/-- A field outside the working state is the same where all that is kept is. -/
theorem Channel.eq_of_kept {γ : Type} (g : Channel → γ) {x y : Channel} (h : x.kept = y.kept)
    (hg : ∀ ch : Channel, g ch.kept = g ch := by exact fun _ => rfl) : g x = g y :=
  (hg x).symm.trans ((congrArg g h).trans (hg y))

/-- `t` is `b` with changes of the channels in `S` that `g` does not see, and changes of the kernels that `h` does not see. -/
structure Blk.Frame {γ δ : Type} (S : Set (Fin 40)) (g : Channel → γ) (h : Kernel → δ) (b t : Blk) : Prop where
  blk : t = { b with chans := t.chans, kernels := t.kernels }
  ch : ∀ d, d ∉ S → t.ch d = b.ch d
  kept : ∀ d, g (t.ch d) = g (b.ch d)
  kn : ∀ k, h (t.kn k) = h (b.kn k)

/-- `t` is `b` after work on channel `l`: its working state, and records of kernels. -/
abbrev Blk.Works (l : Fin 40) (b t : Blk) : Prop := Blk.Frame {l} Channel.kept Kernel.unlogged b t

namespace Blk.Frame
variable {γ γ' δ δ' : Type} {S T : Set (Fin 40)} {g : Channel → γ} {h : Kernel → δ} {b t u : Blk}

theorem refl (S : Set (Fin 40)) (g : Channel → γ) (h : Kernel → δ) (b : Blk) : Blk.Frame S g h b b :=
  ⟨rfl, fun _ _ => rfl, fun _ => rfl, fun _ => rfl⟩

theorem trans (h₁ : Blk.Frame S g h b t) (h₂ : Blk.Frame S g h t u) : Blk.Frame S g h b u where
  blk := h₂.blk.trans (congrArg (fun x : Blk => { x with chans := u.chans, kernels := u.kernels }) h₁.blk)
  ch d hd := (h₂.ch d hd).trans (h₁.ch d hd)
  kept d := (h₂.kept d).trans (h₁.kept d)
  kn k := (h₂.kn k).trans (h₁.kn k)

/-- A frame for more channels, and for what can be told from what it keeps. -/
theorem weaken (hf : Blk.Frame S g h b t) (hS : S ⊆ T) (φ : γ → γ') (ψ : δ → δ') :
    Blk.Frame T (fun ch => φ (g ch)) (fun kn => ψ (h kn)) b t where
  blk := hf.blk
  ch d hd := hf.ch d fun hm => hd (hS hm)
  kept d := congrArg φ (hf.kept d)
  kn k := congrArg ψ (hf.kn k)

/-- A fold whose turns are each framed. -/
theorem foldl {β : Type} (f : Blk → β → Blk) (l : List β) (b : Blk) (hf : ∀ x ∈ l, ∀ b, Blk.Frame S g h b (f b x)) :
    Blk.Frame S g h b (l.foldl f b) :=
  List.foldlRecOn (motive := fun a => Blk.Frame S g h b a) l f (refl S g h b) fun a ha x hx => ha.trans (hf x hx a)

theorem modCh (hf : Blk.Frame S g h b t) {c : Fin 40} (hc : c ∈ S) {f : Channel → Channel}
    (hg : g (f (t.ch c)) = g (t.ch c)) : Blk.Frame S g h b (t.modCh c f) :=
  hf.trans
    { blk := rfl
      ch := fun d hd => Blk.modCh_ch_ne t c d f fun e => hd (e ▸ hc)
      kept := fun d => by
        by_cases hd : c = d
        · subst hd; rwa [Blk.modCh_ch]
        · rw [Blk.modCh_ch_ne t c d f hd]
      kn := fun _ => rfl }

/-- Two changes of a channel that `g` does not tell apart. -/
theorem of_modCh (b : Blk) {c : Fin 40} {f f' : Channel → Channel} (hg : g (f' (b.ch c)) = g (f (b.ch c))) :
    Blk.Frame {c} g h (b.modCh c f) (b.modCh c f') where
  blk := rfl
  ch d hd := by
    have hne : c ≠ d := fun e => hd e.symm
    rw [Blk.modCh_ch_ne _ _ _ _ hne, Blk.modCh_ch_ne _ _ _ _ hne]
  kept d := by
    by_cases hd : c = d
    · subst hd; rwa [Blk.modCh_ch, Blk.modCh_ch]
    · rw [Blk.modCh_ch_ne _ _ _ _ hd, Blk.modCh_ch_ne _ _ _ _ hd]
  kn _ := rfl

theorem modK (hf : Blk.Frame S g h b t) (k : Fin 4) {f : Kernel → Kernel} (hh : h (f (t.kn k)) = h (t.kn k)) :
    Blk.Frame S g h b (t.modK k f) :=
  hf.trans
    { blk := rfl
      ch := fun _ _ => rfl
      kept := fun _ => rfl
      kn := fun j => by
        by_cases hj : k = j
        · subst hj; rwa [Blk.modK_kn]
        · rw [Blk.modK_kn_ne t k j f hj] }

theorem kev {ψ : Kernel → δ} (hf : Blk.Frame S g (fun kn => ψ kn.unlogged) b t) (k : Fin 4) (src : BitVec 16)
    (code sev : Nat) (arg : Word) (tn : Byte) (pin : Bool) (fl : Nat) :
    Blk.Frame S g (fun kn => ψ kn.unlogged) b (t.kev k src code sev arg tn pin fl) :=
  hf.trans
    { blk := rfl
      ch := fun _ _ => rfl
      kept := fun _ => rfl
      kn := fun j => by rw [Blk.kev_kn]; rfl }

end Blk.Frame

/-! ### Work on one channel -/

@[simp] theorem Channel.enter_prot (ch : Channel) (p : Prot) (now : BitVec 64) : (ch.enter p now).prot = p := by
  unfold Channel.enter; split <;> rfl

@[simp] theorem Channel.enter_kept (ch : Channel) (p : Prot) (now : BitVec 64) : (ch.enter p now).kept = ch.kept := by
  unfold Channel.enter; split <;> rfl

@[simp] theorem Channel.startOutput_kept (ch : Channel) : ch.startOutput.kept = ch.kept := by
  unfold Channel.startOutput; split <;> rfl

@[simp] theorem Channel.retarget_kept (ch : Channel) (old : ShadowSet) : (ch.retarget old).kept = ch.kept := by
  unfold Channel.retarget; dsimp only
  repeat' split
  all_goals rfl

@[simp] theorem Channel.shutDown_kept (ch : Channel) (now : BitVec 64) : (ch.shutDown now).kept = ch.kept := by
  have hshut : ({ ch.enter .shuttingDown now with shutdownActive := true, quickOff := false, limRun := none, limAcc := 0 } :
      Channel).kept = ch.kept := (Channel.enter_kept ch .shuttingDown now :)
  unfold Channel.shutDown; dsimp only
  split <;> exact hshut

namespace Blk.Works
variable {l : Fin 40} {b t u : Blk}

theorem refl (l : Fin 40) (b : Blk) : b.Works l b := Blk.Frame.refl ..

theorem modCh (hw : b.Works l t) {f : Channel → Channel} (hf : (f (t.ch l)).kept = (t.ch l).kept) : b.Works l (t.modCh l f) :=
  Blk.Frame.modCh hw rfl hf

theorem enter (hw : b.Works l t) (p : Prot) : b.Works l (t.enter l p) := hw.modCh (Channel.enter_kept ..)

theorem chev (hw : b.Works l t) (code sev : Nat) (arg : Word) (pin : Bool) : b.Works l (t.chev l code sev arg pin) :=
  Blk.Frame.kev (ψ := id) hw ..

theorem ite {p : Prop} [Decidable p] (ht : b.Works l t) (hu : b.Works l u) : b.Works l (if p then t else u) := by
  split
  · exact ht
  · exact hu

end Blk.Works

theorem Blk.works_closeWindow (b : Blk) (l : Fin 40) (exhausted : Bool) : b.Works l (b.closeWindow l exhausted) := by
  have hclosed : b.Works l (b.modCh l fun ch => { ch with winOpen := false, winFrozen := none, quickUsed := 0 }) :=
    (Blk.Works.refl l b).modCh rfl
  unfold Blk.closeWindow
  exact .ite (.refl l b) (.ite (.ite hclosed (hclosed.chev ..)) (.chev (.ite hclosed (hclosed.chev ..)) ..))

theorem Blk.works_defer (b : Blk) (l : Fin 40) : b.Works l (b.defer l) := by
  have hmod {f : Channel → Channel} (hf : (f (b.ch l)).kept = (b.ch l).kept) : b.Works l (b.modCh l f) :=
    (Blk.Works.refl l b).modCh hf
  unfold Blk.defer
  exact .ite (hmod rfl) ((hmod rfl).chev ..)

theorem Blk.works_restart (b : Blk) (l : Fin 40) : b.Works l (b.restart l) := by
  refine (Blk.Works.refl l b).modCh ?_
  dsimp only
  rw [Channel.startOutput_kept]
  split <;> exact (Channel.enter_kept (b.ch l) _ _ :)

theorem Blk.works_settle (b : Blk) (l : Fin 40) : b.Works l (b.settle l) := by
  have henter (p : Prot) : b.Works l (b.enter l p) := (Blk.Works.refl l b).enter p
  unfold Blk.settle
  refine .ite (.refl l b) (.ite (henter _) (.ite ((henter _).modCh rfl) (.ite (henter _) (.ite ((henter _).modCh rfl)
    (.ite ((henter _).modCh rfl) (.ite (henter _) (.ite ?_ (.ite (.ite (.ite ?_ ?_) (henter _)) (b.works_restart l)))))))))
  · exact (henter _).trans (Blk.works_defer ..)
  · exact (henter _).modCh rfl
  · exact ((henter _).modCh rfl).chev ..

theorem Blk.works_turnOn (b : Blk) (l : Fin 40) : b.Works l (b.turnOn l) := by
  unfold Blk.turnOn
  refine .ite ((Blk.Works.refl l b).enter _) (.ite ?_ (.ite (b.works_defer l) ?_))
  · exact (((Blk.Works.refl l b).enter _).modCh rfl).trans (Blk.works_settle ..)
  · exact ((Blk.Works.refl l b).modCh rfl).trans (Blk.works_restart ..)

/-- A set that applies to a channel is its applied set from then on; the rest is work on the channel. -/
theorem Blk.works_applySet (b : Blk) (l : Fin 40) (ns : ShadowSet) :
    Blk.Works l (b.modCh l fun ch => { ch with applied := ns, everApplied := true }) (b.applySet l ns) := by
  unfold Blk.applySet
  extract_lets old wasPwm isPwm rephase b1 ch
  have hset : Blk.Works l (b.modCh l fun ch => { ch with applied := ns, everApplied := true }) b1 := Blk.Frame.of_modCh b rfl
  have hon : Blk.Works l _ (if ns.wantsOn then b1.modCh l fun ch => ch.retarget old
      else (b1.closeWindow l false).modCh l fun ch => ch.shutDown b.time.dt) :=
    .ite (hset.modCh (Channel.retarget_kept ..))
      (.modCh (hset.trans (b1.works_closeWindow l false)) (Channel.shutDown_kept ..))
  cases ch.prot
  case off => exact .ite (hset.trans (b1.works_turnOn l)) (hset.modCh rfl)
  case on | inrush | limiting => exact hon
  case shuttingDown => exact .ite (((hset.enter _).modCh rfl).chev ..) hset
  case pendingOn => exact .ite hset (.ite (hset.enter _) ((hset.enter _).modCh rfl))
  case pause | thermal | latched => exact hset.trans (b1.works_settle l)

end Sys2Proof.Machine
end

section
/-! SUPPORT. Latches and faults of a channel (R117, R137, R138, R147): what they do to the channel, and what they spare of the
others. -/

namespace Sys2Proof.Machine
open Sys2Proof

/-! ### Latches (R138) -/

/-- A notification changes the mailboxes alone (R240). -/
theorem Blk.notify_eq (b : Blk) (op : Nat) (p : List Byte) (c : Initiator → Bool) :
    b.notify op p c = { b with mboxes := (b.notify op p c).mboxes } := by
  have hrest : ({ b.notify op p c with mboxes := b.mboxes } : Blk) = b := by
    refine forAll_keep (fun x : Blk => { x with mboxes := b.mboxes }) _ (fun a m => ?_) b
    dsimp only
    split <;> rfl
  exact congrArg (fun x : Blk => { x with mboxes := (b.notify op p c).mboxes }) hrest

/-- The channel that a latch leaves. -/
def Channel.latched (ch : Channel) (retry therm arc : Bool) (now : BitVec 64) : Channel :=
  { ch.enter .latched now with
    retryLatch := ch.retryLatch || retry, thermLatch := ch.thermLatch || therm, arcLatch := ch.arcLatch || arc,
    cause := if arc then .arc else .none, pauseRun := false, protSticky := orBits ch.protSticky 8 }

/-- What a latch does before it tells the mailboxes: the channel is latched, the store of its kernel is to be written, and a
record is captured. -/
def Blk.latchLogged (b : Blk) (l : Fin 40) (retry therm arc : Bool) : Blk :=
  ((b.modCh l (·.latched retry therm arc b.time.dt)).protDirty l).chev l 0x47 3
    (arg32 (b2n retry + 2 * b2n therm + 4 * b2n arc)) (pin := true)

theorem Blk.latch_eq (b : Blk) (l : Fin 40) (retry therm arc : Bool) :
    b.latch l retry therm arc = { b.latchLogged l retry therm arc with mboxes := (b.latch l retry therm arc).mboxes } := by
  have hlatch : b.latch l retry therm arc = (b.latchLogged l retry therm arc).notify 0x0480
      [BitVec.ofNat 8 l.val, BitVec.ofNat 8 (b2n retry + 2 * b2n therm + 4 * b2n arc), 0, 0]
      (fun i => i = (b.ch l).owner || (i.id < 8 && (b.ch l).roGrant.toNat.testBit i.id)
        || (i = .safety && (b.ch l).roGrant.toNat.testBit 8)) := by
    unfold Blk.latch Blk.latchLogged
    rfl
  rw [hlatch]
  exact Blk.notify_eq ..

@[simp] theorem Blk.latch_ch (b : Blk) (l : Fin 40) (retry therm arc : Bool) (d : Fin 40) :
    (b.latch l retry therm arc).ch d = (b.modCh l (·.latched retry therm arc b.time.dt)).ch d := by
  rw [Blk.latch_eq]; rfl

/-- A channel without its working state and its latches. -/
def Channel.unlatched (ch : Channel) : Channel := { ch.kept with retryLatch := false, thermLatch := false, arcLatch := false }

/-- A field outside the working state and the latches is the same where all else is. -/
theorem Channel.eq_of_unlatched {γ : Type} (g : Channel → γ) {x y : Channel} (h : x.unlatched = y.unlatched)
    (hg : ∀ ch : Channel, g ch.unlatched = g ch := by exact fun _ => rfl) : g x = g y :=
  (hg x).symm.trans ((congrArg g h).trans (hg y))

/-- A channel without what the stretch of its window moves (R147). -/
def Channel.unstretched (ch : Channel) : Channel := { ch with stretch := 0, protSticky := 0 }

/-- A kernel without the records that it holds and the mark of its protection store. -/
def Kernel.unmarked (kn : Kernel) : Kernel := { kn.unlogged with protDirty := false }

theorem Channel.kept_latched (ch : Channel) (retry therm arc : Bool) (now : BitVec 64) :
    (ch.latched retry therm arc now).kept =
      { ch.kept with retryLatch := ch.retryLatch || retry, thermLatch := ch.thermLatch || therm,
                     arcLatch := ch.arcLatch || arc } := by
  unfold Channel.latched Channel.enter
  split <;> rfl

@[simp] theorem Channel.prot_latched (ch : Channel) (retry therm arc : Bool) (now : BitVec 64) :
    (ch.latched retry therm arc now).prot = .latched := Channel.enter_prot ..

/-! ### What a fault spares -/

/-- `t` is `b` after a fault of channel `l`: of the other channels only the stretch of a window has changed (R147), of the kernels
only the records and the mark of their store, of the rest only the mailboxes. -/
structure Blk.Spares (l : Fin 40) (b t : Blk) : Prop where
  blk : t = { b with chans := t.chans, kernels := t.kernels, mboxes := t.mboxes }
  ch : ∀ d, d ≠ l → (t.ch d).unstretched = (b.ch d).unstretched
  kn : ∀ k, (t.kn k).unmarked = (b.kn k).unmarked

namespace Blk.Spares
variable {l : Fin 40} {b t u : Blk}

theorem trans (h₁ : b.Spares l t) (h₂ : t.Spares l u) : b.Spares l u where
  blk := h₂.blk.trans
    (congrArg (fun x : Blk => { x with chans := u.chans, kernels := u.kernels, mboxes := u.mboxes }) h₁.blk)
  ch d hd := (h₂.ch d hd).trans (h₁.ch d hd)
  kn k := (h₂.kn k).trans (h₁.kn k)

theorem refl (l : Fin 40) (b : Blk) : b.Spares l b := ⟨rfl, fun _ _ => rfl, fun _ => rfl⟩

theorem of_frame {γ : Type} {g : Channel → γ} (hf : Blk.Frame {l} g Kernel.unlogged b t) : b.Spares l t where
  blk := by rw [hf.blk]
  ch d hd := congrArg Channel.unstretched (hf.ch d hd)
  kn k := congrArg (fun kn : Kernel => { kn with protDirty := false }) (hf.kn k)

theorem modCh (hs : b.Spares l t) (f : Channel → Channel) : b.Spares l (t.modCh l f) :=
  hs.trans
    { blk := rfl
      ch := fun d hd => congrArg Channel.unstretched (Blk.modCh_ch_ne t l d f hd.symm)
      kn := fun _ => rfl }

theorem works (hs : b.Spares l t) (hw : t.Works l u) : b.Spares l u := hs.trans (of_frame hw)

theorem chev (hs : b.Spares l t) (code sev : Nat) (arg : Word) (pin : Bool) : b.Spares l (t.chev l code sev arg pin) :=
  hs.works ((Blk.Works.refl l t).chev ..)

theorem protDirty (hs : b.Spares l t) : b.Spares l (t.protDirty l) :=
  hs.trans
    { blk := rfl
      ch := fun _ _ => rfl
      kn := fun k => by
        by_cases hk : kOf l = k
        · subst hk; rw [Blk.protDirty, Blk.modK_kn]; rfl
        · rw [Blk.protDirty, Blk.modK_kn_ne _ _ _ _ hk] }

end Blk.Spares

theorem Blk.spares_latch (b : Blk) (l : Fin 40) (retry therm arc : Bool) : b.Spares l (b.latch l retry therm arc) := by
  have hlogged : b.Spares l (b.latchLogged l retry therm arc) := (((Blk.Spares.refl l b).modCh _).protDirty).chev ..
  refine hlogged.trans ?_
  rw [Blk.latch_eq]
  exact ⟨rfl, fun _ _ => rfl, fun _ => rfl⟩

/-! ### Faults (R137, R138) -/

/-- What a counted fault leads to: the channel no longer conducts, and besides its working state only its latches have changed. -/
theorem Blk.decideFault_ch (b : Blk) (l : Fin 40) (thermal : Bool) :
    ((b.decideFault l thermal).ch l).unlatched = (b.ch l).unlatched ∧ ((b.decideFault l thermal).ch l).conducting = false := by
  unfold Blk.decideFault
  dsimp only
  split
  · rw [Blk.latch_ch, Blk.modCh_ch]
    refine ⟨?_, by simp [Channel.conducting]⟩
    rw [Channel.unlatched, Channel.kept_latched]; rfl
  · show (((b.modCh l _).ch l).unlatched) = _ ∧ (((b.modCh l _).ch l).conducting) = false
    rw [Blk.modCh_ch]
    refine ⟨?_, by cases thermal <;> simp [Channel.conducting]⟩
    exact congrArg (fun ch : Channel => { ch with retryLatch := false, thermLatch := false, arcLatch := false })
      (Channel.enter_kept (b.ch l) _ _ :)

theorem Blk.spares_decideFault (b : Blk) (l : Fin 40) (thermal : Bool) : b.Spares l (b.decideFault l thermal) := by
  unfold Blk.decideFault
  dsimp only
  split
  · exact b.spares_latch ..
  · exact (((Blk.Spares.refl l b).modCh _).protDirty).chev ..

/-- A stretch moves a window's end, and marks the channel (R147). -/
theorem Channel.unstretched_stretchBy (ch : Channel) (t0 now : BitVec 64) : (ch.stretchBy t0 now).unstretched = ch.unstretched := by
  unfold Channel.stretchBy
  dsimp only
  repeat' split
  all_goals rfl

theorem Blk.Spares.stretchBy {l c : Fin 40} {b t : Blk} (hs : b.Spares l t) (t0 now : BitVec 64) :
    b.Spares l (t.modCh c (·.stretchBy t0 now)) := by
  refine hs.trans ⟨rfl, fun d _ => ?_, fun _ => rfl⟩
  by_cases hd : c = d
  · subst hd; rw [Blk.modCh_ch, Channel.unstretched_stretchBy]
  · rw [Blk.modCh_ch_ne t c d _ hd]

/-- The end of a limiting interval of `l` stretches windows of its neighbours; `l` itself is as it was (R147). -/
theorem Blk.stretchNeighbours_spares (b : Blk) (l : Fin 40) :
    b.Spares l (b.stretchNeighbours l) ∧ (b.stretchNeighbours l).ch l = b.ch l := by
  have hself : b.Spares l b ∧ b.ch l = b.ch l := ⟨.refl l b, rfl⟩
  unfold Blk.stretchNeighbours
  dsimp only
  split
  · refine List.foldlRecOn (motive := fun a => b.Spares l a ∧ a.ch l = b.ch l) _ _ hself fun a ha c _ => ?_
    obtain ⟨hspares, hch⟩ := ha
    split
    · exact ⟨hspares, hch⟩
    · rename_i hne
      exact ⟨hspares.stretchBy .., (Blk.modCh_ch_ne a c l _ fun h => hne (.inl h)).trans hch⟩
  · exact hself

section
variable (b : Blk) (l : Fin 40) (cause : Cause) (thermal : Bool) (seen : Nat) {record : Blk → Channel → Blk}
  (hrecord : ∀ a ch, Blk.Works l a (record a ch))
include hrecord

theorem Blk.spares_fault : b.Spares l (b.fault l cause thermal seen record) := by
  have hoff := (b.stretchNeighbours_spares l).1.modCh (t := b.stretchNeighbours l) fun ch =>
    { ch.outputOff with
      faultCount := satInc ch.faultCount 31, thermCount := if thermal then satInc ch.thermCount 15 else ch.thermCount,
      cause := cause, thermTrip := ch.thermTrip || thermal, unstored := true, cleanFrom := none, cleanAcc := 0,
      protSticky := orBits ch.protSticky seen }
  exact ((hoff.works (hrecord ..)).works (Blk.works_closeWindow ..)).trans (Blk.spares_decideFault ..)

/-- One fault: the counters rise, the counts wait to be stored, and the channel no longer conducts (R137, R138). -/
theorem Blk.fault_ch :
    ((b.fault l cause thermal seen record).ch l).unlatched =
        ({ b.ch l with
            faultCount := satInc (b.ch l).faultCount 31,
            thermCount := if thermal then satInc (b.ch l).thermCount 15 else (b.ch l).thermCount, unstored := true } :
          Channel).unlatched
    ∧ ((b.fault l cause thermal seen record).ch l).conducting = false := by
  unfold Blk.fault
  extract_lets exhausted b1 b2 b3
  obtain ⟨hdecided, hoff⟩ := (b3.closeWindow l exhausted).decideFault_ch l thermal
  refine ⟨hdecided.trans ?_, hoff⟩
  have hwork : ((b3.closeWindow l exhausted).ch l).kept = (b2.ch l).kept :=
    ((hrecord b2 (b2.ch l)).trans (b3.works_closeWindow l exhausted)).kept l
  have hb1 : b1.ch l = b.ch l := (b.stretchNeighbours_spares l).2
  rw [Channel.unlatched, hwork, Blk.modCh_ch, hb1]
  rfl

end

/-! ### Arcs (R117) -/

/-- An arc that turns a channel off latches it with the arc latch, and counts nothing. -/
theorem Blk.arcTrip_ch (b : Blk) (l : Fin 40) :
    ((b.arcTrip l).ch l).unlatched = ({ b.ch l with unstored := true } : Channel).unlatched ∧ ((b.arcTrip l).ch l).prot = .latched
    ∧ ((b.arcTrip l).ch l).arcLatch = true ∧ ∀ d, d ≠ l → (b.arcTrip l).ch d = b.ch d := by
  have hclosed := (b.modCh l fun ch => { ch.outputOff with unstored := true }).works_closeWindow l false
  unfold Blk.arcTrip
  simp only [Blk.latch_ch]
  refine ⟨?_, ?_, ?_, fun d hd => ?_⟩
  · rw [Blk.modCh_ch, Channel.unlatched, Channel.kept_latched, hclosed.kept l, Blk.modCh_ch]; rfl
  · rw [Blk.modCh_ch, Channel.prot_latched]
  · rw [Blk.modCh_ch, Channel.latched]; exact Bool.or_true _
  · rw [Blk.modCh_ch_ne _ _ _ _ hd.symm, hclosed.ch d hd, Blk.modCh_ch_ne _ _ _ _ hd.symm]

theorem Blk.spares_arcTrip (b : Blk) (l : Fin 40) : b.Spares l (b.arcTrip l) :=
  (((Blk.Spares.refl l b).modCh _).works (Blk.works_closeWindow ..)).trans (Blk.spares_latch ..)

end Sys2Proof.Machine
end

section
/-! SUPPORT. Shut-downs, carrier periods and the shortest pulse (R98, R99, R102). -/

namespace Sys2Proof.Machine
open Sys2Proof

/-- Two changes of one channel are one change. -/
theorem Blk.modCh_modCh (b : Blk) (c : Fin 40) (f f' : Channel → Channel) :
    (b.modCh c f).modCh c f' = b.modCh c fun ch => f' (f ch) := by
  have hvmod : vmod (vmod b.chans c f) c f' = vmod b.chans c fun ch => f' (f ch) := by
    rw [vmod, vmod_get_self, vmod, Vector.set_set, vmod]
  exact congrArg (fun v => { b with chans := v }) hvmod

/-- What a change of one channel does depends on that channel alone. -/
theorem Blk.modCh_congr {b : Blk} {c : Fin 40} {f f' : Channel → Channel} (h : f (b.ch c) = f' (b.ch c)) :
    b.modCh c f = b.modCh c f' :=
  congrArg (fun ch => { b with chans := b.chans.set c.val ch c.isLt }) h

/-! ### Shut-downs (R102) -/

/-- The channel that the end of a shut-down leaves: a shut-down ends in OFF, and a pending request waits for the tick. -/
def Channel.shutDownDone (ch : Channel) (now : BitVec 64) : Channel :=
  if ch.prot = .shuttingDown then
    { ({ ch with shutdownActive := false, effDuty := 0 } : Channel).enter .off now with cause := .none }
  else { ch with shutdownActive := false, effDuty := 0 }

theorem shutdownComplete_eq {b : Blk} {c : Fin 40} (hactive : (b.ch (b.lead c)).shutdownActive = true)
    (hramp : (b.ch (b.lead c)).ramping = false) :
    shutdownComplete c b = b.modCh (b.lead c) (·.shutDownDone b.time.dt) := by
  unfold shutdownComplete Blk.enter
  extract_lets l ch
  rw [if_neg (by simp [ch, l, hactive, hramp])]
  by_cases hp : ch.prot = .shuttingDown
  · rw [if_pos hp, Blk.modCh_modCh, Blk.modCh_modCh]
    exact Blk.modCh_congr (if_pos hp).symm
  · rw [if_neg hp]
    exact Blk.modCh_congr (if_neg hp).symm

theorem Channel.shutDownDone_shutdownActive (ch : Channel) (now : BitVec 64) :
    (ch.shutDownDone now).shutdownActive = false := by
  unfold Channel.shutDownDone Channel.enter
  split
  · split <;> rfl
  · rfl

theorem Channel.shutDownDone_prot (ch : Channel) (now : BitVec 64) :
    (ch.shutDownDone now).prot = if ch.prot = .shuttingDown then .off else ch.prot := by
  unfold Channel.shutDownDone
  split
  · exact Channel.enter_prot ..
  · rfl

/-- After a shut-down the output conducts in the conducting states alone, and there but for a quick turn-off. -/
theorem Channel.shutDownDone_conducting (ch : Channel) (now : BitVec 64) :
    (ch.shutDownDone now).conducting = (match ch.prot with | .on | .inrush | .limiting => !ch.quickOff | _ => false) := by
  unfold Channel.conducting
  rw [Channel.shutDownDone_shutdownActive, Channel.shutDownDone_prot]
  cases h : ch.prot <;> simp [Channel.shutDownDone, h]

theorem runs_shutdownComplete (c : Fin 40) (s : State) (hactive : (s.blk.ch (s.blk.lead c)).shutdownActive = true)
    (hramp : (s.blk.ch (s.blk.lead c)).ramping = false) : Safety.runs (.shutdownComplete c) s fun t =>
      (t.blk.ch (s.blk.lead c)).shutdownActive = false ∧ (t.blk.ch (s.blk.lead c)).conducting =
        (match (s.blk.ch (s.blk.lead c)).prot with
          | .on | .inrush | .limiting => !(s.blk.ch (s.blk.lead c)).quickOff | _ => false)
      ∧ ((s.blk.ch (s.blk.lead c)).prot = .shuttingDown → (t.blk.ch (s.blk.lead c)).prot = .off)
      ∧ ((s.blk.ch (s.blk.lead c)).prot = .pendingOn → (t.blk.ch (s.blk.lead c)).prot = .pendingOn)
      ∧ (∀ d : Fin 40, d ≠ s.blk.lead c → t.blk.ch d = s.blk.ch d) ∧ t.blk = { s.blk with chans := t.blk.chans } ∧ t.mem = s.mem := by
  refine runs_onBlk rfl (shutdownComplete_eq hactive hramp)
    ⟨?_, ?_, fun hp => ?_, fun hp => ?_, fun d hd => Blk.modCh_ch_ne _ _ _ _ hd.symm, rfl, rfl⟩
  · rw [Blk.modCh_ch, Channel.shutDownDone_shutdownActive]
  · rw [Blk.modCh_ch, Channel.shutDownDone_conducting]
  · rw [Blk.modCh_ch, Channel.shutDownDone_prot, if_pos hp]
  · rw [Blk.modCh_ch, Channel.shutDownDone_prot, hp]; rfl

/-! ### Carrier periods (R98, R134) -/

/-- A channel at the start of a carrier period, before R99: the ramp steps, or the commanded duty is in effect (R98). -/
def Channel.periodStart (ch : Channel) : Channel :=
  (if ch.ramping then ch.rampStep else { ch with effDuty := ch.applied.target }).limPeriod

/-- Whether R99 forms another duty than the commanded one. -/
def Channel.clampsDuty (ch : Channel) : Bool := decide (ch.applied.clampDuty ch.applied.target ≠ ch.applied.target)

theorem Channel.limPeriod_eq (ch : Channel) :
    ch.limPeriod = { ch with limAcc := ch.limPeriod.limAcc, limSeen := ch.limPeriod.limSeen } := by
  unfold Channel.limPeriod; split <;> rfl

theorem Channel.periodStart_of_not_ramping {ch : Channel} (h : ch.ramping = false) :
    ch.periodStart.effDuty = (ch.applied.target : Rat) ∧ ch.periodStart.applied = ch.applied ∧ ch.periodStart.prot = ch.prot := by
  rw [Channel.periodStart, if_neg (Bool.not_eq_true _ ▸ h), Channel.limPeriod_eq]
  exact ⟨rfl, rfl, rfl⟩

/-- A period start without a ramp leaves the commanded duty in effect and the mark of R99 set where another duty is formed; besides
it counts and records the clamp. -/
theorem carrierPeriodStart_frame {b : Blk} {c : Fin 40} (hlead : b.isFollower c = false) (hon : (b.ch c).conducting = true)
    (hpwm : cmdMode (b.ch c).applied.cmd = 2) (hramp : (b.ch c).ramping = false) :
    Blk.Frame {c} (fun ch => (ch.effDuty, ch.applied, ch.prot, ch.dutyClamp)) Kernel.unlogged
      (b.modCh c fun ch => { ch.periodStart with dutyClamp := ch.clampsDuty }) (carrierPeriodStart c b) := by
  obtain ⟨hduty, happlied, -⟩ := Channel.periodStart_of_not_ramping hramp
  unfold carrierPeriodStart
  extract_lets ch b1 ch1 eff onCarrier clamped cmd atCmd log b2
  have hch : ch1 = (b.ch c).periodStart := Blk.modCh_ch ..
  have hclamped : clamped = (b.ch c).clampsDuty := by
    simp [clamped, onCarrier, eff, hch, happlied, hduty, hpwm, Channel.clampsDuty]
  have hb2 : Blk.Frame {c} (fun ch => (ch.effDuty, ch.applied, ch.prot, ch.dutyClamp)) Kernel.unlogged
      (b.modCh c fun ch => { ch.periodStart with dutyClamp := ch.clampsDuty }) b2 := by
    rw [show b2 = b.modCh c _ from Blk.modCh_modCh ..]
    exact .of_modCh b (congrArg (fun x => (_, _, _, x)) hclamped)
  rw [if_neg (by simp [ch, hlead, hon, hpwm])]
  split
  · exact .kev (ψ := id) hb2 ..
  · exact hb2

theorem runs_carrierPeriodStart (c : Fin 40) (s : State) (hlead : s.blk.isFollower c = false)
    (hon : (s.blk.ch c).conducting = true) (hpwm : cmdMode (s.blk.ch c).applied.cmd = 2) (hramp : (s.blk.ch c).ramping = false) :
    Safety.runs (.carrierPeriodStart c) s fun t =>
      (t.blk.ch c).effDuty = ((s.blk.ch c).applied.target : Rat)
      ∧ (t.blk.ch c).dutyClamp = decide ((s.blk.ch c).applied.clampDuty (s.blk.ch c).applied.target ≠ (s.blk.ch c).applied.target)
      ∧ (t.blk.ch c).prot = (s.blk.ch c).prot ∧ (t.blk.ch c).applied = (s.blk.ch c).applied
      ∧ (∀ d : Fin 40, d ≠ c → t.blk.ch d = s.blk.ch d)
      ∧ t.blk = { s.blk with chans := t.blk.chans, kernels := t.blk.kernels } ∧ t.mem = s.mem := by
  obtain ⟨hduty, happlied, hprot⟩ := Channel.periodStart_of_not_ramping hramp
  have hframe := carrierPeriodStart_frame hlead hon hpwm hramp
  have hch := hframe.kept c
  rw [Blk.modCh_ch] at hch
  simp only [Prod.mk.injEq] at hch
  obtain ⟨heff, happ, hstate, hclamp⟩ := hch
  exact runs_onBlk rfl rfl ⟨heff.trans hduty, hclamp, hstate.trans hprot, happ.trans happlied,
    fun d hd => (hframe.ch d hd).trans (Blk.modCh_ch_ne _ _ _ _ hd.symm), hframe.blk, rfl⟩

/-! ### The shortest pulse (R99) -/

section
variable {sh : ShadowSet} {d : Rat}

theorem ShadowSet.periodNs_pos (hfreq : 0 < sh.freq) : 0 < sh.periodNs := by
  have hfreq' : (0 : Rat) < sh.freq := by exact_mod_cast hfreq
  rw [ShadowSet.periodNs, if_neg hfreq.ne']
  positivity

theorem ShadowSet.clampDuty_cases (hfreq : 0 < sh.freq) (hpulse : (sh.minPulse : Rat) ≤ sh.periodNs / 2) :
    let on := d / 1000 * sh.periodNs
    let off := sh.periodNs - on
    (on < sh.minPulse / 2 → sh.clampDuty d = 0)
    ∧ (sh.minPulse / 2 ≤ on → on < sh.minPulse → sh.clampDuty d / 1000 * sh.periodNs = sh.minPulse)
    ∧ (off < sh.minPulse / 2 → sh.clampDuty d = 1000)
    ∧ (sh.minPulse / 2 ≤ off → off < sh.minPulse → (1000 - sh.clampDuty d) / 1000 * sh.periodNs = sh.minPulse)
    ∧ (sh.minPulse ≤ on → sh.minPulse ≤ off → sh.clampDuty d = d) := by
  intro on off
  have hper : 0 < sh.periodNs := ShadowSet.periodNs_pos hfreq
  have hmin : (0 : Rat) ≤ sh.minPulse := Nat.cast_nonneg _
  have hsum : on + off = sh.periodNs := add_sub_cancel _ _
  have hratio : (sh.minPulse : Rat) / sh.periodNs ≤ 1 / 2 := by rw [div_le_iff₀ hper]; linarith
  have hpulse' : (sh.minPulse : Rat) / sh.periodNs * 1000 / 1000 * sh.periodNs = sh.minPulse := by
    field_simp
  have hclamp : sh.clampDuty d = if on < sh.minPulse / 2 then 0
      else if on < sh.minPulse then min 1000 (sh.minPulse / sh.periodNs * 1000)
      else if off < sh.minPulse / 2 then 1000
      else if off < sh.minPulse then max 0 (1000 - sh.minPulse / sh.periodNs * 1000) else d := rfl
  refine ⟨fun h => ?_, fun h1 h2 => ?_, fun h => ?_, fun h1 h2 => ?_, fun h1 h2 => ?_⟩
  · rw [hclamp, if_pos h]
  · rw [hclamp, if_neg (not_lt.2 h1), if_pos h2, min_eq_right (by linarith), hpulse']
  · rw [hclamp, if_neg (by linarith), if_neg (by linarith), if_pos h]
  · rw [hclamp, if_neg (by linarith), if_neg (by linarith), if_neg (by linarith), if_pos h2, max_eq_right (by linarith),
      sub_sub_cancel, hpulse']
  · rw [hclamp, if_neg (by linarith), if_neg (by linarith), if_neg (by linarith), if_neg (by linarith)]

end

/-- Settles O19: the end of a shut-down, a period start, and the five cases of R99. -/
theorem shutDownsCarriersAndPulses : Obligations.ShutDownsCarriersAndPulses :=
  ⟨runs_shutdownComplete, runs_carrierPeriodStart, fun _ _ hfreq _ _ hpulse => ShadowSet.clampDuty_cases hfreq hpulse⟩

end Sys2Proof.Machine
end

section
/-! SUPPORT. Energy and the wire model (R105, R111, R114, R128). -/

namespace Sys2Proof.Machine
open Sys2Proof

/-! ### Energy (R105, R128) -/

/-- A millisecond of on time changes the on time alone. -/
theorem Channel.onTimeStep_eq (ch : Channel) :
    ch.onTimeStep = { ch with onTime := ch.onTimeStep.onTime, onTimeNs := ch.onTimeStep.onTimeNs } := by
  unfold Channel.onTimeStep
  generalize ch.onTimeNs + 1000000 = n
  dsimp only
  by_cases h : n ≥ 1000000000
  · simp only [if_pos h]
  · simp only [if_neg h]

/-- One channel's millisecond of energy and on time (R103, R105). -/
def Channel.accumulate (e : Int) (runs : Bool) (ch : Channel) : Channel :=
  let c1 := if e > 0 then { ch with energy := ch.energy + BitVec.ofInt 64 e } else ch
  if runs then c1.onTimeStep else c1

/-- Only a positive product is added. -/
theorem Channel.accumulate_energy (e : Int) (runs : Bool) (ch : Channel) :
    (ch.accumulate e runs).energy = ch.energy + BitVec.ofNat 64 e.toNat ∧ (ch.accumulate e runs).prot = ch.prot := by
  have hadded : (if e > 0 then { ch with energy := ch.energy + BitVec.ofInt 64 e } else ch : Channel) =
      { ch with energy := ch.energy + BitVec.ofNat 64 e.toNat } := by
    split
    · rename_i hpos
      rw [← BitVec.ofInt_natCast, Int.toNat_of_nonneg hpos.le]
    · rename_i hneg
      rw [Int.toNat_of_nonpos (not_lt.1 hneg)]
      simp
  unfold Channel.accumulate
  dsimp only
  rw [hadded]
  split
  · rw [Channel.onTimeStep_eq]
    exact ⟨rfl, rfl⟩
  · exact ⟨rfl, rfl⟩

/-- One channel's turn in the accumulation. -/
def Blk.accumulate (mJ : List Int) (b : Blk) (c : Fin 40) : Blk :=
  b.modCh c (·.accumulate (mJ.getD (c.val % 10) 0) (b.ch (b.lead c)).onTimeRuns)

theorem runs_energyAccumulate (k : Fin 4) (mJ : List Int) (s : State) (h : s.blk.kernelRuns k = true) :
    Safety.runs (.energyAccumulate k mJ) s fun t =>
      (∀ c ∈ chansOf k, (t.blk.ch c).energy = (s.blk.ch c).energy + BitVec.ofNat 64 (mJ.getD (c.val % 10) 0).toNat
        ∧ (t.blk.ch c).prot = (s.blk.ch c).prot)
      ∧ (∀ c : Fin 40, c ∉ chansOf k → t.blk.ch c = s.blk.ch c)
      ∧ t.blk = { s.blk with chans := t.blk.chans } ∧ t.mem = s.mem := by
  have hfold : energyAccumulate k mJ s.blk = (chansOf k).foldl (Blk.accumulate mJ) s.blk := if_neg (by simp [h])
  refine runs_onBlk rfl hfold ⟨fun c hc => ?_, fun c hc => ?_, ?_, rfl⟩
  · obtain ⟨b, hb, hturn⟩ := foldl_own_turn id (Blk.ch · c) (Blk.accumulate mJ) s.blk
      ((List.map_id _).symm ▸ nodup_chansOf k) hc fun d a hd => Blk.modCh_ch_ne a d c _ hd
    obtain ⟨henergy, hprot⟩ := Channel.accumulate_energy (mJ.getD (c.val % 10) 0) (b.ch (b.lead c)).onTimeRuns (b.ch c)
    have hown : (b.accumulate mJ c).ch c = (b.ch c).accumulate (mJ.getD (c.val % 10) 0) (b.ch (b.lead c)).onTimeRuns :=
      Blk.modCh_ch ..
    dsimp only at hb hturn ⊢
    rw [hturn, hown, henergy, hprot, hb]
    exact ⟨rfl, rfl⟩
  · exact foldl_keep_of_mem (Blk.ch · c) (Blk.accumulate mJ) _ _ fun d hd a =>
      Blk.modCh_ch_ne a d c _ fun e => hc (e ▸ hd)
  · exact List.foldlRecOn (motive := fun a : Blk => a = { s.blk with chans := a.chans }) _ _ rfl fun a ha c _ =>
      congrArg (fun b : Blk => { b with chans := (a.accumulate mJ c).chans }) ha

/-- R128: the low half is answered; the high half is latched for the initiator and the channel. -/
theorem chEnergyLoRead_eq {b : Blk} {i : Initiator} {c : Fin 40} (hchan : b.hasChan c = true) (hreach : b.reaches i c = true)
    (hopen : b.windowOpen (kOf c) = true) :
    chEnergyLoRead i c b = (b.modCh c fun ch =>
      { ch with energyLatch := setKey ch.energyLatch i (BitVec.ofNat 32 ((b.ch c).energy.toNat / 2 ^ 32)) }).answer
        ((b.ch c).energy.toNat % 2 ^ 32) := by
  rw [chEnergyLoRead, if_neg (by simp [hchan]), if_neg (by simp [hreach]), if_neg (by simp [hopen])]

theorem runs_chEnergyLoRead (i : Initiator) (c : Fin 40) (s : State) (hchan : s.blk.hasChan c = true)
    (hreach : s.blk.reaches i c = true) (hopen : s.blk.windowOpen (kOf c) = true) :
    Safety.runs (.chEnergyLoRead i c) s fun t =>
      t.blk.reply = { data := ((s.blk.ch c).energy.truncate 32 : BitVec 32).zeroExtend 64, fault := false, isolated := false }
      ∧ findKey (t.blk.ch c).energyLatch i = some (BitVec.ofNat 32 ((s.blk.ch c).energy.toNat / 2 ^ 32))
      ∧ (∀ j : Initiator, j ≠ i → findKey (t.blk.ch c).energyLatch j = findKey (s.blk.ch c).energyLatch j)
      ∧ (∀ d : Fin 40, d ≠ c → t.blk.ch d = s.blk.ch d)
      ∧ t.blk.ch c = { s.blk.ch c with energyLatch := (t.blk.ch c).energyLatch }
      ∧ t.blk = { s.blk with chans := t.blk.chans, reply := t.blk.reply } ∧ t.mem = s.mem := by
  have hch : (chEnergyLoRead i c s.blk).ch c = { s.blk.ch c with
      energyLatch := setKey (s.blk.ch c).energyLatch i (BitVec.ofNat 32 ((s.blk.ch c).energy.toNat / 2 ^ 32)) } := by
    rw [chEnergyLoRead_eq hchan hreach hopen]
    exact Blk.modCh_ch ..
  refine runs_onBlk rfl rfl ⟨?_, ?_, fun j hj => ?_, fun d hd => ?_, ?_, ?_, rfl⟩
  · rw [chEnergyLoRead_eq hchan hreach hopen]
    refine congrArg (fun x => Reply.mk x false false) (BitVec.eq_of_toNat_eq ?_)
    simp
  · rw [hch]; exact findKey_setKey_self ..
  · rw [hch]; exact findKey_setKey_ne _ _ hj
  · rw [chEnergyLoRead_eq hchan hreach hopen]
    exact Blk.modCh_ch_ne _ _ _ _ hd.symm
  · rw [hch]
  · rw [chEnergyLoRead_eq hchan hreach hopen]; rfl

end Sys2Proof.Machine
end

section
/-! SUPPORT. The wire model (R111 to R114): one channel's turn in a step of the model, and what the turns of the others leave. -/

namespace Sys2Proof.Machine
open Sys2Proof

/-- What one millisecond of the wire model makes of a channel (R111, R114): `ch` before it and `t` after it. -/
def Channel.wireStepped (tamb : Rat) (i2 : Nat) (ch t : Channel) : Prop :=
  let p : Rat := (i2 : Rat) / 1000000 * ((bits ch.wmRho 16 0 : Rat) / 1000000) * (1 + 393 / 100000 * (tamb + ch.th1 + ch.th2 - 20))
  let th1 := max 0 (ch.th1 + (p * ((bits ch.wmRth 15 0 : Rat) / 1000) - ch.th1) * (1 / 1000) / ((bits ch.wmTau 15 0 : Rat) / 10))
  let th2 := max 0 (ch.th2 + (p * ((bits ch.wmRth 31 16 : Rat) / 1000) - ch.th2) * (1 / 1000) / (bits ch.wmTau 31 16 : Rat))
  t.th1 = th1 ∧ t.th2 = th2 ∧ t.tc = tamb + th1 + th2
  ∧ ((bits ch.wmLim 7 0 : Rat) ≤ tamb + th1 + th2 → ch.conducting = true →
      t.conducting = false ∧ t.wireBlock = true ∧ t.faultCount = satInc ch.faultCount 31 ∧ t.thermCount = satInc ch.thermCount 15)
  ∧ (tamb + th1 + th2 < (bits ch.wmLim 7 0 : Rat) → ch.wireBlock = false → t.prot = ch.prot ∧ t.faultCount = ch.faultCount)

/-- No field that the model reads or sets is moved by the stretch of a window. -/
theorem Channel.wireStepped_unstretched {tamb : Rat} {i2 : Nat} {ch t ch' t' : Channel} (hch : ch.unstretched = ch'.unstretched)
    (ht : t.unstretched = t'.unstretched) (h : Channel.wireStepped tamb i2 ch t) : Channel.wireStepped tamb i2 ch' t' := by
  have h' : Channel.wireStepped tamb i2 ch.unstretched t.unstretched := h
  rw [hch, ht] at h'
  exact h'

theorem Blk.ambient_congr {a b : Blk} {c : Fin 40} (hctrl : (a.ch c).wmCtrl = (b.ch c).wmCtrl)
    (htemp : (a.kn (kOf c)).ktemp = (b.kn (kOf c)).ktemp) (hais : (a.kn (kOf c)).ais = (b.kn (kOf c)).ais) :
    a.ambient c = b.ambient c := by
  simp only [Blk.ambient, hctrl, htemp, hais]

/-! ### What the model does at a temperature (R114) -/

/-- What the model makes of a channel at the conductor temperature that it stands at (R114): `ch` before it and `t` after it. -/
def Channel.wireJudged (ch t : Channel) : Prop :=
  t.th1 = ch.th1 ∧ t.th2 = ch.th2 ∧ t.tc = ch.tc
  ∧ ((bits ch.wmLim 7 0 : Rat) ≤ ch.tc → ch.conducting = true →
      t.conducting = false ∧ t.wireBlock = true ∧ t.faultCount = satInc ch.faultCount 31 ∧ t.thermCount = satInc ch.thermCount 15)
  ∧ (ch.tc < (bits ch.wmLim 7 0 : Rat) → ch.wireBlock = false → t.prot = ch.prot ∧ t.faultCount = ch.faultCount)

/-- At TMAX a conducting channel trips; a cooled wire lets it settle; else only the warning moves. The other channels are spared. -/
theorem Blk.wireJudge_spec (b : Blk) (c : Fin 40) :
    b.Spares c (b.wireJudge c) ∧ (b.ch c).wireJudged ((b.wireJudge c).ch c) := by
  unfold Blk.wireJudge
  extract_lets ch tmax hyst warn b1 b2
  obtain ⟨hspares, w, hch⟩ : b.Spares c b1 ∧ ∃ w, b1.ch c = { b.ch c with wireWarn := w } := by
    have hmod (w : Bool) : b.Spares c (b.modCh c fun ch => { ch with wireWarn := w })
        ∧ (b.modCh c fun ch => { ch with wireWarn := w }).ch c = { b.ch c with wireWarn := w } :=
      ⟨(Blk.Spares.refl c b).modCh _, Blk.modCh_ch ..⟩
    unfold b1
    split
    · exact ⟨(hmod true).1.chev .., true, (hmod true).2⟩
    · split
      · exact ⟨(hmod false).1, false, (hmod false).2⟩
      · exact ⟨.refl c b, (b.ch c).wireWarn, rfl⟩
  by_cases htrip : tmax ≤ ch.tc ∧ ch.conducting = true
  · rw [if_pos htrip]
    have hrecord (a : Blk) (x : Channel) : Blk.Works c a (a.chev c 3 3 x.tcArg (pin := true)) := (Blk.Works.refl c a).chev ..
    have hb2 : b2.ch c = { b.ch c with wireWarn := w, wireBlock := true, sticky := orBits (b.ch c).sticky 2 } := by
      unfold b2
      rw [Blk.modCh_ch, hch]
    obtain ⟨hcounts, hoff⟩ := Blk.fault_ch b2 c .wire true 4 hrecord
    rw [hb2] at hcounts
    exact ⟨(hspares.modCh _).trans (Blk.spares_fault _ _ _ _ _ hrecord), (Channel.eq_of_unlatched Channel.th1 hcounts :),
      (Channel.eq_of_unlatched Channel.th2 hcounts :), (Channel.eq_of_unlatched Channel.tc hcounts :),
      fun _ _ => ⟨hoff, (Channel.eq_of_unlatched Channel.wireBlock hcounts :), (Channel.eq_of_unlatched Channel.faultCount hcounts :),
        (Channel.eq_of_unlatched Channel.thermCount hcounts :)⟩,
      fun hcool => absurd htrip.1 (not_le.2 hcool)⟩
  · rw [if_neg htrip]
    have hhot (h₁ : tmax ≤ ch.tc) (h₂ : ch.conducting = true) {P : Prop} : P := absurd ⟨h₁, h₂⟩ htrip
    by_cases hfree : ch.wireBlock = true ∧ ch.tc ≤ tmax - hyst
    · rw [if_pos hfree]
      have hkept := (Blk.works_settle ((b1.modCh c fun ch => { ch with wireBlock := false }).chev c 4 1 ch.tcArg) c).kept c
      rw [show ((b1.modCh c fun ch => { ch with wireBlock := false }).chev c 4 1 ch.tcArg).ch c = _ from Blk.modCh_ch .., hch]
        at hkept
      exact ⟨((hspares.modCh _).chev ..).works (Blk.works_settle ..), (Channel.eq_of_kept Channel.th1 hkept :),
        (Channel.eq_of_kept Channel.th2 hkept :), (Channel.eq_of_kept Channel.tc hkept :), fun h₁ h₂ => hhot h₁ h₂, fun _ hblock => absurd (hblock.symm.trans hfree.1) (by simp)⟩
    · rw [if_neg hfree, hch]
      exact ⟨hspares, rfl, rfl, rfl, fun h₁ h₂ => hhot h₁ h₂, fun _ _ => ⟨rfl, rfl⟩⟩

/-! ### A step of the model (R111) -/

/-- One channel's turn in a step of the model outside SLEEP. -/
def Blk.wireTurn (i2 : List Nat) (b : Blk) (c : Fin 40) : Blk :=
  if b.isFollower c ∨ (b.ch c).wmEn = false then b
  else (b.modCh c fun ch => ch.wireStep (b.ambient c) (i2.getD (c.val % 10) 0) (1 / 1000)).wireJudge c

theorem wireModelStep_eq {k : Fin 4} {b : Blk} (i2 : List Nat) (hruns : b.kernelRuns k = true) (hawake : b.rcc.mode ≠ .sleep) :
    wireModelStep k i2 b = (chansOf k).foldl (Blk.wireTurn i2) b := by
  simp only [wireModelStep, hruns, hawake, Bool.true_eq_false, if_false, decide_false, Bool.false_eq_true, false_and, or_false]
  rfl

theorem Blk.spares_wireTurn (i2 : List Nat) (b : Blk) (c : Fin 40) : b.Spares c (b.wireTurn i2 c) := by
  unfold Blk.wireTurn
  split
  · exact .refl c b
  · exact ((Blk.Spares.refl c b).modCh _).trans (Blk.wireJudge_spec ..).1

theorem Blk.wireTurn_ch {b : Blk} {c : Fin 40} (i2 : List Nat) (hlead : b.isFollower c = false) (hen : (b.ch c).wmEn = true) :
    Channel.wireStepped (b.ambient c) (i2.getD (c.val % 10) 0) (b.ch c) ((b.wireTurn i2 c).ch c) := by
  have hjudged := ((b.modCh c fun ch => ch.wireStep (b.ambient c) (i2.getD (c.val % 10) 0) (1 / 1000)).wireJudge_spec c).2
  rw [Blk.modCh_ch] at hjudged
  rw [Blk.wireTurn, if_neg (by simp [hlead, hen])]
  exact hjudged

theorem runs_wireModelStep (k : Fin 4) (i2 : List Nat) (c : Fin 40) (s : State) (hruns : s.blk.kernelRuns k = true)
    (hk : kOf c = k) (hlead : s.blk.isFollower c = false) (hen : (s.blk.ch c).wmEn = true) (hawake : s.blk.rcc.mode ≠ .sleep) :
    Safety.runs (.wireModelStep k i2) s fun t =>
      Channel.wireStepped (s.blk.ambient c) (i2.getD (c.val % 10) 0) (s.blk.ch c) (t.blk.ch c) ∧ t.mem = s.mem := by
  obtain ⟨b, hb, hturn⟩ := foldl_own_turn id
    (fun b : Blk => ((b.ch c).unstretched, (b.kn (kOf c)).unmarked))
    (Blk.wireTurn i2) s.blk ((List.map_id _).symm ▸ nodup_chansOf k) (mem_chansOf.2 hk) fun d a hd =>
      Prod.ext ((a.spares_wireTurn i2 d).ch c (Ne.symm hd)) ((a.spares_wireTurn i2 d).kn (kOf c))
  obtain ⟨hch, hkn⟩ := Prod.mk.inj hb
  obtain ⟨hown, -⟩ := Prod.mk.inj hturn
  have hctrl : (b.ch c).wmCtrl = (s.blk.ch c).wmCtrl := (congrArg Channel.wmCtrl hch :)
  have hstepped := Blk.wireTurn_ch (b := b) (c := c) i2 ((Blk.isFollower_congr (congrArg Channel.paired hch :)).trans hlead)
    (by rw [Channel.wmEn, hctrl]; exact hen)
  rw [Blk.ambient_congr hctrl (congrArg Kernel.ktemp hkn :) (congrArg Kernel.ais hkn :)] at hstepped
  refine runs_onBlk rfl (wireModelStep_eq i2 hruns hawake) ?_
  dsimp only
  exact ⟨Channel.wireStepped_unstretched hch hown.symm hstepped, rfl⟩

/-- Settles O20: one channel's turn in the wire model and in the energy, and the latch of a read. -/
theorem wireModelAndEnergy : Obligations.WireModelAndEnergy := by
  refine ⟨fun k i2 c s hruns hk hlead hen hawake _ => ?_, runs_energyAccumulate, runs_chEnergyLoRead⟩
  obtain ⟨t, ht, ⟨hth1, hth2, htc, htrip, hcool⟩, hmem⟩ := runs_wireModelStep k i2 c s hruns hk hlead hen hawake
  exact ⟨t, ht, hth1, hth2, htc, htrip, hcool, hmem⟩

end Sys2Proof.Machine
end

section
/-! SUPPORT. Arcs, open loads, mean currents and pairs (R94, R106, R116, R117, R121). -/

namespace Sys2Proof.Machine
open Sys2Proof

/-! ### One record of one channel -/

/-- A change of a channel that its kernel records: the channel, the record and the rest (R74). -/
theorem Blk.modCh_chev_spec (b : Blk) (c : Fin 40) (f : Channel → Channel) (code sev : Nat) (arg : Word) (pin : Bool) :
    ((b.modCh c f).chev c code sev arg pin).ch c = f (b.ch c)
    ∧ (Safety.kernelRoom b (kOf c) 1 → Safety.lastKernelRecord ((b.modCh c f).chev c code sev arg pin) (kOf c) =
        some (srcCh c, BitVec.ofNat 16 code, BitVec.ofNat 3 sev, arg, hw))
    ∧ (∀ d : Fin 40, d ≠ c → ((b.modCh c f).chev c code sev arg pin).ch d = b.ch d)
    ∧ (b.modCh c f).chev c code sev arg pin = { b with
        chans := ((b.modCh c f).chev c code sev arg pin).chans, kernels := ((b.modCh c f).chev c code sev arg pin).kernels } :=
  ⟨Blk.modCh_ch .., fun hroom => Blk.kev_last (b.modCh c f) (kOf c) (srcCh c) code sev arg hw pin 0 hroom,
    fun d hd => Blk.modCh_ch_ne b c d f hd.symm, rfl⟩

/-! ### Open loads and pairs (R106, R121) -/

theorem runs_openLoad_on (c : Fin 40) (mean : BitVec 16) (s : State) (huse : s.blk.inUse c = true)
    (hclosed : (s.blk.ch c).openLoad = false) (hthr : bits (s.blk.ch c).openLoadCfg 15 0 ≠ 0)
    (hon : (s.blk.ch (s.blk.lead c)).conducting = true) (hlow : mean.toNat < bits (s.blk.ch c).openLoadCfg 15 0) :
    Safety.runs (.openLoad c false mean) s fun t =>
      t.blk.ch c = { s.blk.ch c with openLoad := true, sticky := orBits (s.blk.ch c).sticky 4 }
      ∧ (Safety.kernelRoom s.blk (kOf c) 1 → Safety.lastKernelRecord t.blk (kOf c) = some (srcCh c, 5, 2, arg32 mean.toNat, hw))
      ∧ (∀ d : Fin 40, d ≠ c → t.blk.ch d = s.blk.ch d)
      ∧ t.blk = { s.blk with chans := t.blk.chans, kernels := t.blk.kernels } ∧ t.mem = s.mem := by
  have hopen : openLoad c false mean s.blk =
      (s.blk.modCh c fun ch => { ch with openLoad := true, sticky := orBits ch.sticky 4 }).chev c 5 2 (arg32 mean.toNat) := by
    unfold openLoad
    rw [if_neg (by simp [huse, hclosed, hthr, hon, hlow])]
    rfl
  obtain ⟨hch, hrec, hother, hblk⟩ := s.blk.modCh_chev_spec c
    (fun ch => { ch with openLoad := true, sticky := orBits ch.sticky 4 }) 5 2 (arg32 mean.toNat) false
  exact runs_onBlk rfl hopen ⟨hch, hrec, hother, hblk, rfl⟩

theorem runs_openLoadClear (c : Fin 40) (s : State) : Safety.runs (.openLoadClear c) s fun t =>
    t.blk.ch c = { s.blk.ch c with openLoad := false } ∧ (∀ d : Fin 40, d ≠ c → t.blk.ch d = s.blk.ch d)
    ∧ t.blk = { s.blk with chans := t.blk.chans } ∧ t.mem = s.mem :=
  runs_onBlk rfl rfl ⟨Blk.modCh_ch .., fun _ hd => Blk.modCh_ch_ne _ _ _ _ hd.symm, rfl, rfl⟩

theorem runs_pairMismatch (c : Fin 40) (x y : BitVec 16) (s : State) (hpair : (s.blk.ch (s.blk.lead c)).paired = true)
    (hon : (s.blk.ch (s.blk.lead c)).conducting = true)
    (hdiff : 3 * (x.toNat + y.toNat) < 20 * (max x.toNat y.toNat - min x.toNat y.toNat)) :
    Safety.runs (.pairMismatch c x y) s fun t =>
      t.blk.ch (s.blk.lead c) = { s.blk.ch (s.blk.lead c) with sticky := orBits (s.blk.ch (s.blk.lead c)).sticky 0x40 }
      ∧ (Safety.kernelRoom s.blk (kOf (s.blk.lead c)) 1 → Safety.lastKernelRecord t.blk (kOf (s.blk.lead c)) =
          some (srcCh (s.blk.lead c), 8, 3, arg32 (x.toNat + y.toNat * 65536), hw))
      ∧ (∀ d : Fin 40, d ≠ s.blk.lead c → t.blk.ch d = s.blk.ch d)
      ∧ t.blk = { s.blk with chans := t.blk.chans, kernels := t.blk.kernels } ∧ t.mem = s.mem := by
  obtain ⟨hch, hrec, hother, hblk⟩ := s.blk.modCh_chev_spec (s.blk.lead c)
    (fun ch => { ch with sticky := orBits ch.sticky 0x40 }) 8 3 (arg32 (x.toNat + y.toNat * 65536)) true
  exact runs_onBlk rfl (if_neg (by simp [hpair, hon, hdiff])) ⟨hch, hrec, hother, hblk, rfl⟩

/-! ### Mean currents (R94) -/

theorem runs_currentMeanUpdate (k : Fin 4) (mean : BitVec 32) (s : State) (hruns : s.blk.kernelRuns k = true) :
    Safety.runs (.currentMeanUpdate k mean) s fun t =>
      (t.blk.kn k).iMean10 = mean
      ∧ (60000 < mean.toNat → (s.blk.kn k).curHigh = false → Safety.kernelRoom s.blk k 1 →
          Safety.lastKernelRecord t.blk k = some (srcK k, 4, 2, mean, hw))
      ∧ (mean.toNat ≤ 60000 ∨ (s.blk.kn k).curHigh = true → (t.blk.kn k).buf = (s.blk.kn k).buf)
      ∧ (t.blk.kn k).curHigh = (decide (60000 < mean.toNat) || ((s.blk.kn k).curHigh && decide (57000 ≤ mean.toNat)))
      ∧ t.blk = { s.blk with kernels := t.blk.kernels } ∧ t.mem = s.mem := by
  have hupdate : currentMeanUpdate k mean s.blk =
      let b := s.blk.modK k fun kn => { kn with
        iMean10 := mean, curHigh := if mean.toNat > 60000 then true else if mean.toNat < 57000 then false else kn.curHigh }
      if mean.toNat > 60000 ∧ (s.blk.kn k).curHigh = false then b.kev k (srcK k) 4 2 mean else b := if_neg (by simp [hruns])
  have hhigh : (if mean.toNat > 60000 then true else if mean.toNat < 57000 then false else (s.blk.kn k).curHigh) =
      (decide (60000 < mean.toNat) || ((s.blk.kn k).curHigh && decide (57000 ≤ mean.toNat))) := by
    split
    · simp [*]
    · split
      · simp; omega
      · cases (s.blk.kn k).curHigh <;> simp <;> omega
  refine runs_onBlk rfl hupdate ?_
  dsimp only
  split
  · rename_i hrecords
    obtain ⟨habove, hnew⟩ := hrecords
    refine ⟨?_, fun _ _ hroom => ?_, fun hquiet => ?_, ?_, rfl, rfl⟩
    · rw [Blk.kev_kn, Blk.modK_kn]
    · exact Blk.kev_last _ _ _ _ _ _ _ _ _ (by rwa [Safety.kernelRoom, Blk.modK_kn])
    · exact absurd hquiet (by simp [hnew, Nat.not_le.2 habove])
    · rw [Blk.kev_kn, Blk.modK_kn]; exact hhigh
  · rename_i hsilent
    refine ⟨?_, fun habove hnew => absurd ⟨habove, hnew⟩ hsilent, fun _ => ?_, ?_, rfl, rfl⟩
    · rw [Blk.modK_kn]
    · rw [Blk.modK_kn]
    · rw [Blk.modK_kn]; exact hhigh

/-! ### Arcs (R116, R117) -/

/-- Whether a frame of a channel is judged (R116). -/
def Blk.judgesFrame (b : Blk) (c : Fin 40) : Bool :=
  decide ((b.ch c).prot ≠ .inrush ∧ (b.ch c).prot ≠ .limiting ∧ (b.ch c).ramping = false ∧ b.rcc.mode ≠ .standby
    ∧ b.rcc.mode ≠ .sleep)

/-- The last 100 frames of a channel once a new one has entered. -/
def Blk.arcWindow (b : Blk) (c : Fin 40) (iDc : Nat) (bands : List Nat) : List (Bool × Nat) :=
  ((b.judgesFrame c && (b.ch c).arcLike iDc bands, iDc) :: (b.ch c).arcWin).take 100

/-- Whether a window decides an arc (R117). -/
def Channel.arcDecided (ch : Channel) (win : List (Bool × Nat)) : Bool :=
  decide (bits ch.arcCtrl 14 8 ≤ (win.filter (·.1)).length ∧ bits ch.arcImin 15 0 * win.length ≤ (win.map (·.2)).foldl (· + ·) 0)

/-- What a frame leaves: it enters the window, and an arc is seen; a record follows, and with `ACTION` = 1 the trip. -/
theorem arcFrame_cases {b : Blk} {c : Fin 40} (iDc : BitVec 16) (bands : List Nat) (hfull : b.full = true)
    (hlead : b.isFollower c = false) (hen : bit (b.ch c).arcCtrl 0 = true) :
    ∃ b2 : Blk, Blk.Frame {c} (fun ch => (ch.prot, ch.conducting, ch.arcLatch, ch.faultCount, ch.thermCount)) Kernel.unlogged b b2
      ∧ (b2.ch c).arcWin = b.arcWindow c iDc.toNat bands
      ∧ ((b.ch c).arcDecided (b.arcWindow c iDc.toNat bands) = true → (b2.ch c).arcSeen = true)
      ∧ arcFrame c iDc bands b =
        if (b.ch c).arcDecided (b.arcWindow c iDc.toNat bands) = true ∧ bit (b.ch c).arcCtrl 1 = true ∧ (b.ch c).conducting = true
        then b2.arcTrip c else b2 := by
  have hhas : b.hasChan c = true := by
    have hvariant : b.variant = .nz840 := of_decide_eq_true hfull
    simp [Blk.hasChan, Blk.hasKernel, hvariant]
  unfold arcFrame
  extract_lets ch judged like base win count sum arc quiet b1 b2
  have hwin : win = b.arcWindow c iDc.toNat bands := rfl
  have harc : arc = ch.arcDecided win := (Bool.decide_and ..).symm
  rw [if_neg (by simp [ch, hfull, hhas, hlead, hen]), ← hwin, ← harc]
  have hb1 : Blk.Frame {c} (fun ch => (ch.prot, ch.conducting, ch.arcLatch, ch.faultCount, ch.thermCount)) Kernel.unlogged b b1 :=
    (Blk.Frame.refl {c} _ _ b).modCh (Set.mem_singleton c) rfl
  have hch : (b1.ch c).arcWin = win ∧ (arc = true → (b1.ch c).arcSeen = true) := by
    unfold b1
    rw [Blk.modCh_ch]
    exact ⟨rfl, fun h => by simp [h]⟩
  by_cases h : arc = false
  · exact ⟨b1, hb1, hch.1, hch.2, by simp [h]⟩
  · rw [Bool.not_eq_false] at h
    refine ⟨b2, ?_, ?_, ?_, by simp [h, ch]⟩
    · unfold b2
      split
      · exact hb1
      · exact .kev (ψ := id) hb1 ..
    · unfold b2; split <;> exact hch.1
    · unfold b2; split <;> exact hch.2

theorem runs_arcFrame (c : Fin 40) (iDc : BitVec 16) (bands : List Nat) (s : State) (hfull : s.blk.full = true)
    (hlead : s.blk.isFollower c = false) (hen : bit (s.blk.ch c).arcCtrl 0 = true) :
    Safety.runs (.arcFrame c iDc bands) s fun t =>
      let ch := s.blk.ch c
      let win := s.blk.arcWindow c iDc.toNat bands
      let arc := ch.arcDecided win
      (t.blk.ch c).arcWin = win ∧ (arc = true → (t.blk.ch c).arcSeen = true)
      ∧ (arc = true → bit ch.arcCtrl 1 = true → ch.conducting = true →
          (t.blk.ch c).prot = .latched ∧ (t.blk.ch c).arcLatch = true ∧ (t.blk.ch c).faultCount = ch.faultCount
          ∧ (t.blk.ch c).thermCount = ch.thermCount)
      ∧ ((arc = false ∨ bit ch.arcCtrl 1 = false) → (t.blk.ch c).prot = ch.prot ∧ (t.blk.ch c).arcLatch = ch.arcLatch)
      ∧ (∀ d : Fin 40, d ≠ c → t.blk.ch d = s.blk.ch d)
      ∧ t.blk = { s.blk with chans := t.blk.chans, kernels := t.blk.kernels, mboxes := t.blk.mboxes } ∧ t.mem = s.mem := by
  obtain ⟨b2, hframe, hwin, hseen, heq⟩ := arcFrame_cases iDc bands hfull hlead hen
  have hsame := hframe.kept c
  simp only [Prod.mk.injEq] at hsame
  obtain ⟨hprot, -, harc, hfault, htherm⟩ := hsame
  refine runs_onBlk rfl heq ?_
  dsimp only
  split
  · rename_i htrip
    obtain ⟨hrest, hlatched, hlatch, hother⟩ := b2.arcTrip_ch c
    exact ⟨(Channel.eq_of_unlatched Channel.arcWin hrest).trans hwin, fun h => (Channel.eq_of_unlatched Channel.arcSeen hrest).trans (hseen h),
      fun _ _ _ => ⟨hlatched, hlatch, (Channel.eq_of_unlatched Channel.faultCount hrest).trans hfault,
        (Channel.eq_of_unlatched Channel.thermCount hrest).trans htherm⟩,
      fun hno => absurd hno (by simp [htrip]), fun d hd => (hother d hd).trans (hframe.ch d hd),
      ((Blk.Spares.of_frame hframe).trans (b2.spares_arcTrip c)).blk, rfl⟩
  · rename_i hkeep
    exact ⟨hwin, hseen, fun h₁ h₂ h₃ => absurd ⟨h₁, h₂, h₃⟩ hkeep, fun _ => ⟨hprot, harc⟩, hframe.ch,
      (Blk.Spares.of_frame hframe).blk, rfl⟩

/-- Settles O21: a frame of the arc detector, and each watched measurement. -/
theorem arcsAndMeasurements : Obligations.ArcsAndMeasurements :=
  ⟨runs_arcFrame, runs_openLoad_on, runs_openLoadClear, runs_currentMeanUpdate, runs_pairMismatch⟩

end Sys2Proof.Machine
end

section
/-! SUPPORT. Fallback states and held latch clears (R122 to R124, R141, R142), and the SENSE outputs (R110). -/

namespace Sys2Proof.Machine
open Sys2Proof

/-! ### A channel takes its fallback state (R123, R124) -/

/-- A channel that has taken its fallback state, before its fallback set applies. -/
def Channel.fallenBack (ch : Channel) : Channel :=
  { ch.saveLast with fallbackOn := true, coreHold := false, isoHold := false, unverHold := false, safeOn := false,
                     sticky := orBits ch.sticky 0x10 }

theorem Channel.saveLast_eq (ch : Channel) : ch.saveLast = { ch with lastApplied := ch.saveLast.lastApplied } := by
  unfold Channel.saveLast; split <;> rfl

/-- What a fallback leaves of a channel: sleep ranks above the fallback set. -/
def Channel.afterFallback (ch : Channel) : Channel :=
  if ch.sleepOn then ch.fallenBack
  else { ch.fallenBack with applied := ch.saveLast.fallbackSet, everApplied := true }

theorem Channel.afterFallback_of_asleep {ch : Channel} (h : ch.sleepOn = true) : ch.afterFallback = ch.fallenBack := if_pos h

theorem Channel.afterFallback_of_awake {ch : Channel} (h : ch.sleepOn = false) :
    ch.afterFallback = { ch.fallenBack with applied := ch.saveLast.fallbackSet, everApplied := true } := if_neg (by simp [h])

theorem Channel.fallenBack_sleepOn (ch : Channel) : ch.fallenBack.sleepOn = ch.sleepOn := by
  rw [Channel.fallenBack, Channel.saveLast_eq]

/-- The counters and latches that the protection store keeps of a channel (R155). -/
def Channel.counted (ch : Channel) : Nat × Nat × Bool × Bool × Bool :=
  (ch.faultCount, ch.thermCount, ch.retryLatch, ch.thermLatch, ch.arcLatch)

/-- A fallback ends every hold and leaves the counters and latches alone. -/
theorem Channel.afterFallback_spec (ch : Channel) :
    ch.afterFallback.fallbackOn = true ∧ ch.afterFallback.isoHold = false ∧ ch.afterFallback.coreHold = false
    ∧ ch.afterFallback.counted = ch.counted := by
  have hfallen : ch.fallenBack.fallbackOn = true ∧ ch.fallenBack.isoHold = false ∧ ch.fallenBack.coreHold = false
      ∧ ch.fallenBack.counted = ch.counted := by
    rw [Channel.fallenBack, Channel.saveLast_eq]
    exact ⟨rfl, rfl, rfl, rfl⟩
  unfold Channel.afterFallback
  split <;> exact hfallen

theorem Blk.works_toFallback (b : Blk) (c : Fin 40) : Blk.Works c (b.modCh c Channel.afterFallback) (b.toFallback c) := by
  unfold Blk.toFallback
  extract_lets b1 ch
  have hch : ch = (b.ch c).fallenBack := Blk.modCh_ch ..
  have hasleep : ch.sleepOn = (b.ch c).sleepOn := by rw [hch, Channel.fallenBack_sleepOn]
  rw [hasleep]
  split
  · rename_i h
    exact .of_modCh b (congrArg Channel.kept (Channel.afterFallback_of_asleep h).symm)
  · rename_i h
    have hset : Blk.Works c (b.modCh c Channel.afterFallback)
        (b1.modCh c fun x => { x with applied := ch.fallbackSet, everApplied := true }) := by
      rw [show b1.modCh c _ = b.modCh c _ from Blk.modCh_modCh ..]
      refine .of_modCh b (congrArg Channel.kept ?_)
      rw [Channel.afterFallback_of_awake (by simpa using h), hch]
      rfl
    exact hset.trans (b1.works_applySet c ch.fallbackSet)

theorem Blk.toFallback_frame (b : Blk) (c : Fin 40) :
    Blk.Frame {c} Channel.counted Kernel.unlogged b (b.toFallback c) :=
  ((Blk.Frame.refl {c} _ _ b).modCh (Set.mem_singleton c) (Channel.afterFallback_spec _).2.2.2).trans
    ((b.works_toFallback c).weaken subset_rfl Channel.counted id)

/-! ### Fallback for channels of a kernel (R122) -/

/-- The channels that a trigger takes to fallback: those that lead or are single and are not in fallback. -/
def Blk.fallsBack (b : Blk) (c : Fin 40) : Bool := b.isLead c && !(b.ch c).fallbackOn

section
variable (b : Blk) (k : Fin 4) (cs : List (Fin 40)) (cause : Nat)

/-- A trigger takes the channels that it concerns to fallback, and is recorded; or every one of them was there. -/
theorem Blk.fallback_cases :
    (b.fallback k cs cause = b ∧ ∀ c ∈ cs, (b.ch (b.lead c)).fallbackOn = true)
    ∨ ∃ arg, b.fallback k cs cause = ((cs.filter b.fallsBack).foldl Blk.toFallback b).kev k (srcK k) 2 3 arg hw (pin := true) := by
  have hleads : (cs.filter (fun c => b.isLead c)).filter (fun c => !(b.ch c).fallbackOn) = cs.filter b.fallsBack := by
    rw [List.filter_filter]
    exact List.filter_congr fun c _ => Bool.and_comm ..
  unfold Blk.fallback
  rw [hleads]
  dsimp only
  split
  · rename_i hidle
    refine .inl ⟨rfl, fun c hc => ?_⟩
    rcases hidle with hnone | hall
    · rw [List.isEmpty_iff.1 hnone] at hc
      exact absurd hc List.not_mem_nil
    · exact List.all_eq_true.1 hall c hc
  · exact .inr ⟨_, rfl⟩

theorem Blk.fallback_frame : Blk.Frame {c | c ∈ cs} Channel.counted Kernel.unlogged b (b.fallback k cs cause) := by
  rcases b.fallback_cases k cs cause with ⟨hsame, -⟩ | ⟨arg, hfall⟩
  · rw [hsame]; exact .refl ..
  · rw [hfall]
    refine .kev (ψ := id) (.foldl _ _ _ fun c hc a => ?_) ..
    exact (a.toFallback_frame c).weaken (Set.singleton_subset_iff.2 (List.mem_of_mem_filter hc)) id id

end

section
variable {b : Blk} {cs : List (Fin 40)} {c : Fin 40} (k : Fin 4) (cause : Nat)

/-- A channel of the trigger that was not in fallback takes its fallback state. -/
theorem Blk.fallback_ch_of_falls (hcs : cs.Nodup) (hc : c ∈ cs) (hlead : b.isFollower c = false) (hout : (b.ch c).fallbackOn = false) :
    ((b.fallback k cs cause).ch c).kept = ((b.ch c).afterFallback).kept := by
  rcases b.fallback_cases k cs cause with ⟨-, hall⟩ | ⟨arg, hfall⟩
  · have hon := hall c hc
    rw [Blk.lead_of_not_follower hlead, hout] at hon
    exact absurd hon (by decide)
  · obtain ⟨a, ha, hturn⟩ := foldl_own_turn id (Blk.ch · c) Blk.toFallback b (l := cs.filter b.fallsBack)
      ((List.map_id _).symm ▸ hcs.filter _)
      (List.mem_filter.2 ⟨hc, by simp [Blk.fallsBack, Blk.isLead, hlead, hout]⟩)
      fun d a hd => (a.toFallback_frame d).ch c fun h => hd h.symm
    have hkept := (a.works_toFallback c).kept c
    rw [Blk.modCh_ch] at hkept
    rw [hfall]
    show (((cs.filter b.fallsBack).foldl Blk.toFallback b).ch c).kept = _
    rw [hturn, hkept, ha]

/-- A channel in fallback stays as it is. -/
theorem Blk.fallback_ch_of_on (hon : (b.ch c).fallbackOn = true) : (b.fallback k cs cause).ch c = b.ch c := by
  rcases b.fallback_cases k cs cause with ⟨hsame, -⟩ | ⟨arg, hfall⟩
  · rw [hsame]
  · rw [hfall]
    refine foldl_keep_of_mem (Blk.ch · c) Blk.toFallback _ _ fun d hd a => ?_
    refine (a.toFallback_frame d).ch c fun h => ?_
    obtain rfl : c = d := h
    simpa [Blk.fallsBack, hon] using (List.mem_filter.1 hd).2

/-- After a trigger every channel of it that leads or is single is in fallback. -/
theorem Blk.fallback_fallbackOn (hcs : cs.Nodup) (hc : c ∈ cs) (hlead : b.isFollower c = false) :
    ((b.fallback k cs cause).ch c).fallbackOn = true := by
  cases hon : (b.ch c).fallbackOn with
  | true => rw [Blk.fallback_ch_of_on k cause hon, hon]
  | false =>
    exact (Channel.eq_of_kept Channel.fallbackOn (Blk.fallback_ch_of_falls k cause hcs hc hlead hon)).trans
      (Channel.afterFallback_spec _).1

end

/-! ### Holds (R122) -/

theorem runs_holdExpiry_isolation (k : Fin 4) (s : State) (hstart : (s.blk.kn k).isoHoldStart ≠ none)
    (hheld : ∃ c ∈ chansOf k, (s.blk.ch (s.blk.lead c)).isoHold = true) :
    Safety.runs (.holdExpiry k false) s fun t =>
      (∀ c ∈ chansOf k, s.blk.isFollower c = false → (t.blk.ch c).fallbackOn = true)
      ∧ (∀ c ∈ chansOf k, s.blk.isFollower c = false → (s.blk.ch c).fallbackOn = false →
          (t.blk.ch c).isoHold = false ∧ (t.blk.ch c).coreHold = false
          ∧ ((s.blk.ch c).sleepOn = false → (t.blk.ch c).applied = (s.blk.ch c).saveLast.fallbackSet))
      ∧ (∀ c : Fin 40, c ∉ chansOf k → t.blk.ch c = s.blk.ch c)
      ∧ t.blk = { s.blk with chans := t.blk.chans, kernels := t.blk.kernels } ∧ t.mem = s.mem := by
  have hexpiry : holdExpiry k false s.blk = s.blk.fallback k (chansOf k) 1 := by
    have hany : ¬ ((s.blk.kn k).isoHoldStart.isNone = true ∨ (chansOf k).all (fun c => !(s.blk.ch (s.blk.lead c)).isoHold) = true) := by
      obtain ⟨c, hc, hiso⟩ := hheld
      rintro (hnone | hall)
      · exact hstart (Option.isNone_iff_eq_none.1 hnone)
      · simpa [hiso] using List.all_eq_true.1 hall c hc
    unfold holdExpiry
    simp only [Bool.false_eq_true, if_false]
    exact if_neg hany
  have hframe := s.blk.fallback_frame k (chansOf k) 1
  refine runs_onBlk rfl hexpiry ⟨fun c hc hlead => Blk.fallback_fallbackOn k 1 (nodup_chansOf k) hc hlead,
    fun c hc hlead hout => ?_, hframe.ch, hframe.blk, rfl⟩
  have hkept := Blk.fallback_ch_of_falls k 1 (nodup_chansOf k) hc hlead hout
  obtain ⟨-, hiso, hcore, -⟩ := (s.blk.ch c).afterFallback_spec
  refine ⟨(Channel.eq_of_kept Channel.isoHold hkept).trans hiso, (Channel.eq_of_kept Channel.coreHold hkept).trans hcore,
    fun hawake => (Channel.eq_of_kept Channel.applied hkept).trans ?_⟩
  rw [Channel.afterFallback_of_awake hawake]

theorem runs_holdExpiry_coreReset (k : Fin 4) (s : State) (hstart : (s.blk.kn k).coreHoldStart ≠ none) :
    Safety.runs (.holdExpiry k true) s fun t =>
      (∀ c ∈ chansOf k, s.blk.isFollower c = false → (s.blk.ch c).coreHold = true → (t.blk.ch c).fallbackOn = true)
      ∧ (∀ c : Fin 40, c ∉ chansOf k → t.blk.ch c = s.blk.ch c)
      ∧ t.blk = { s.blk with chans := t.blk.chans, kernels := t.blk.kernels } ∧ t.mem = s.mem := by
  have hexpiry : holdExpiry k true s.blk =
      s.blk.fallback k ((chansOf k).filter fun c => (s.blk.ch (s.blk.lead c)).coreHold) 2 := by
    unfold holdExpiry
    simp only [if_true]
    exact if_neg (by simpa using hstart)
  have hframe := s.blk.fallback_frame k ((chansOf k).filter fun c => (s.blk.ch (s.blk.lead c)).coreHold) 2
  refine runs_onBlk rfl hexpiry ⟨fun c hc hlead hcore => ?_,
    fun c hc => hframe.ch c fun h => hc (List.mem_of_mem_filter h), hframe.blk, rfl⟩
  refine Blk.fallback_fallbackOn k 2 ((nodup_chansOf k).filter _) (List.mem_filter.2 ⟨hc, ?_⟩) hlead
  rw [Blk.lead_of_not_follower hlead]
  exact hcore

/-! ### SENSE outputs (R110) -/

theorem runs_senseDriveStart (n : Fin 4) (c : Fin 40) (s : State) (hnext : s.blk.senseNext.get n = some c) :
    Safety.runs (.senseDriveStart n) s fun t =>
      t.blk.senseDrive.get n = some c ∧ t.blk.senseNext.get n = none
      ∧ (∀ m : Fin 4, m ≠ n → t.blk.senseDrive.get m = s.blk.senseDrive.get m ∧ t.blk.senseNext.get m = s.blk.senseNext.get m)
      ∧ (Safety.kernelRoom s.blk (kOf c) 1 →
          Safety.lastKernelRecord t.blk (kOf c) = some (srcK (kOf c), 9, 1, arg32 (n.val + c.val * 256), hw))
      ∧ t.blk = { s.blk with senseDrive := t.blk.senseDrive, senseNext := t.blk.senseNext, kernels := t.blk.kernels } ∧ t.mem = s.mem := by
  have hdrive : senseDriveStart n s.blk =
      ({ s.blk with senseDrive := vmod s.blk.senseDrive n (fun _ => some c), senseNext := vmod s.blk.senseNext n (fun _ => none) } :
        Blk).kev (kOf c) (srcK (kOf c)) 9 1 (arg32 (n.val + c.val * 256)) := by
    unfold senseDriveStart
    rw [hnext]
  exact runs_onBlk rfl hdrive ⟨vmod_get_self .., vmod_get_self ..,
    fun m hm => ⟨vmod_get_ne _ _ _ _ hm.symm, vmod_get_ne _ _ _ _ hm.symm⟩, fun hroom => Blk.kev_last _ _ _ _ _ _ _ _ _ hroom,
    rfl, rfl⟩

/-! ### Writes in the guard (R51 to R54) -/

/-- A bit of a word that has been set. -/
theorem testBit_orBits (w : Word) {i : Nat} (h : i < 32) : (orBits w (2 ^ i)).toNat.testBit i = true := by
  have hbit : (BitVec.ofNat 32 (2 ^ i)).getLsbD i = true := by
    rw [BitVec.getLsbD_ofNat, Nat.testBit_two_pow_self, decide_eq_true h]; rfl
  show (orBits w (2 ^ i)).getLsbD i = true
  rw [orBits, BitVec.getLsbD_or, hbit, Bool.or_true]

/-- An overrun marks the outcome of the breath, and leaves the channels and the notes of late writers alone (R52 to R54). -/
def Blk.Overran (i : Nat) (b t : Blk) : Prop :=
  t.chans = b.chans ∧ t.breath.lateBy = b.breath.lateBy ∧ t.breath.outcome.toNat.testBit i = true

theorem Blk.tenantOverrun_overran (b : Blk) (n : Fin 8) : b.Overran n.val (b.tenantOverrun n) := by
  unfold Blk.tenantOverrun
  split
  · exact ⟨rfl, rfl, ‹_›⟩
  · simp only [Blk.Overran, Blk.ev_chans, Blk.ev_breath]
    exact ⟨rfl, rfl, testBit_orBits _ (by omega)⟩

theorem Blk.safetyOverrun_overran (b : Blk) (why : Nat) : b.Overran 16 (b.safetyOverrun why) := by
  unfold Blk.safetyOverrun
  split
  · exact ⟨rfl, rfl, ‹_›⟩
  · simp only [Blk.Overran, Blk.ev_chans, Blk.ev_breath]
    exact ⟨rfl, rfl, testBit_orBits _ (i := 16) (by decide)⟩

theorem Blk.chanterOverrun_overran (b : Blk) : b.Overran 24 b.chanterOverrun := by
  unfold Blk.chanterOverrun
  split
  · exact ⟨rfl, rfl, ‹_›⟩
  · simp only [Blk.Overran, Blk.ev_chans, Blk.ev_breath]
    exact ⟨rfl, rfl, testBit_orBits _ (i := 24) (by decide)⟩

/-- R51: a staging write in the guard leaves the channels alone; its writer is late and has overrun the breath. -/
theorem Blk.stageLate_spec (b : Blk) (i : Initiator) (addr : Word) :
    (b.stageLate i addr).chans = b.chans ∧ i ∈ (b.stageLate i addr).breath.lateBy
    ∧ (∀ n : Fin 8, i = .tenant n → (b.stageLate i addr).breath.outcome.toNat.testBit n.val = true)
    ∧ (i = .safety → (b.stageLate i addr).breath.outcome.toNat.testBit 16 = true)
    ∧ (i = .chanter → (b.stageLate i addr).breath.outcome.toNat.testBit 24 = true) := by
  unfold Blk.stageLate
  extract_lets b1
  have hb1 : b1.chans = b.chans ∧ i ∈ b1.breath.lateBy := by
    unfold b1
    split
    · exact ⟨rfl, ‹_›⟩
    · rw [Blk.ev_chans, Blk.ev_breath]
      exact ⟨rfl, List.mem_cons_self⟩
  obtain ⟨hchans, hlate⟩ := hb1
  cases i
  case tenant n =>
    obtain ⟨hch, hby, hbit⟩ := b1.tenantOverrun_overran n
    exact ⟨hch.trans hchans, hby ▸ hlate, fun m hm => by cases hm; exact hbit, fun h => (nomatch h), fun h => (nomatch h)⟩
  case safety =>
    obtain ⟨hch, hby, hbit⟩ := b1.safetyOverrun_overran 2
    exact ⟨hch.trans hchans, hby ▸ hlate, fun _ h => (nomatch h), fun _ => hbit, fun h => (nomatch h)⟩
  case chanter =>
    obtain ⟨hch, hby, hbit⟩ := b1.chanterOverrun_overran
    exact ⟨hch.trans hchans, hby ▸ hlate, fun _ h => (nomatch h), fun h => (nomatch h), fun _ => hbit⟩
  all_goals exact ⟨hchans, hlate, fun _ h => (nomatch h), fun h => (nomatch h), fun h => (nomatch h)⟩

/-! ### Held latch clears (R141, R142) -/

/-- A refused access is one refusal (R17). -/
theorem Blk.denied_eq_refusal (b : Blk) (i : Initiator) (a : Word) :
    b.denied i a = b.refusal i b.breath.denied (fun r => { r with denied := i :: r.denied }) srcSys 2 a := rfl

theorem Blk.denied_spec (b : Blk) (i : Initiator) (a : Word) :
    (b.denied i a).chans = b.chans ∧ (b.denied i a).reply = { data := 0, fault := true, isolated := false }
    ∧ i ∈ (b.denied i a).breath.denied := by
  rw [Blk.denied_eq_refusal]
  refine ⟨by rw [Blk.refusal_eq], Blk.refusal_reply .., ?_⟩
  rw [Blk.refusal_breath]
  split
  · assumption
  · exact List.mem_cons_self

/-- The write of a latch clear, by who writes it, to which channel and when (R17, R51, R141, R142). -/
theorem clearIsHeld_of_protClear {cmd : Initiator → Fin 40 → Instr} {m : Nat}
    (hexec : ∀ i c s, exec (cmd i c) s = .next (s.onBlk (protClear i c m))) : Safety.clearIsHeld cmd (BitVec.ofNat 3 m) := by
  intro i c s hchan
  have hreaches (hreach : s.blk.reaches i c = true) (hopen : s.blk.windowOpen (kOf c) = true) :
      protClear i c m s.blk = s.blk.holdClear i c m := by
    rw [protClear, if_neg (by simp [hchan]), if_neg (by simp [hreach]), if_neg (by simp [hopen])]
  refine ⟨fun hreach hopen hlead hearly => ?_, fun hreach hopen hfollow => ?_, fun hreach hopen hlead hguard => ?_, fun hreach => ?_⟩
  · have hheld : s.blk.holdClear i c m =
        s.blk.modCh c fun ch => { ch with clearBits := ch.clearBits ||| BitVec.ofNat 3 m, clearBy := some i } := by
      rw [Blk.holdClear, if_neg (by simp [hlead]), if_neg (by simp [hearly])]
    exact runs_onBlk (hexec i c s) ((hreaches hreach hopen).trans hheld)
      ⟨Blk.modCh_ch .., fun d hd => Blk.modCh_ch_ne _ _ _ _ hd.symm, rfl, rfl⟩
  · exact runs_onBlk (hexec i c s) ((hreaches hreach hopen).trans (if_pos hfollow)) rfl
  · have hlate : s.blk.holdClear i c m = s.blk.stageLate i (arg32 (pageBase c + 0x140)) := by
      rw [Blk.holdClear, if_neg (by simp [hlead]), if_pos hguard]
    obtain ⟨hchans, hby, htenant, hsafety, hchanter⟩ := s.blk.stageLate_spec i (arg32 (pageBase c + 0x140))
    exact runs_onBlk (hexec i c s) ((hreaches hreach hopen).trans hlate) ⟨hchans, hby, htenant, hsafety, hchanter, rfl⟩
  · have hdenied : protClear i c m s.blk = s.blk.denied i (arg32 (pageBase c + 0x140)) := by
      rw [protClear, if_neg (by simp [hchan]), if_pos hreach]
    obtain ⟨hchans, hreply, hnoted⟩ := s.blk.denied_spec i (arg32 (pageBase c + 0x140))
    exact runs_onBlk (hexec i c s) hdenied ⟨hchans, rfl, hreply, hnoted⟩

/-- Settles O22: each hold ends in the fallback of its channels, and the three latch clears are one write. -/
theorem holdsAndLatchClears : Obligations.HoldsAndLatchClears :=
  ⟨runs_holdExpiry_isolation, runs_holdExpiry_coreReset, runs_senseDriveStart,
    clearIsHeld_of_protClear (m := 1) fun _ _ _ => rfl, clearIsHeld_of_protClear (m := 2) fun _ _ _ => rfl,
    clearIsHeld_of_protClear (m := 4) fun _ _ _ => rfl⟩

end Sys2Proof.Machine
end

section
/-! SUPPORT. The protection store (R155, R156) and the power-up of a kernel (R122). -/

namespace Sys2Proof.Machine
open Sys2Proof

/-! ### A write of the store -/

/-- A field outside the records of a kernel is the same where all the rest is. -/
theorem Kernel.eq_of_unlogged {γ : Type} (g : Kernel → γ) {x y : Kernel} (h : x.unlogged = y.unlogged)
    (hg : ∀ kn : Kernel, g kn.unlogged = g kn := by exact fun _ => rfl) : g x = g y :=
  (hg x).symm.trans ((congrArg g h).trans (hg y))

theorem Blk.kev_unlogged (b : Blk) (k : Fin 4) (src : BitVec 16) (code sev : Nat) (arg : Word) (tn : Byte) (pin : Bool) (fl : Nat)
    (j : Fin 4) : ((b.kev k src code sev arg tn pin fl).kn j).unlogged = (b.kn j).unlogged := by
  rw [Blk.kev_kn]; rfl

theorem Blk.kev_ch (b : Blk) (k : Fin 4) (src : BitVec 16) (code sev : Nat) (arg : Word) (tn : Byte) (pin : Bool) (fl : Nat)
    (c : Fin 40) : (b.kev k src code sev arg tn pin fl).ch c = b.ch c := rfl

/-- A kernel that has written the record `r` of its protection store (R155). -/
def Kernel.written (kn : Kernel) (r : ProtRec) : Kernel :=
  { kn with
    protRing := vmod kn.protRing ⟨(kn.protGen + 1) % 16, Nat.mod_lt _ (by decide)⟩ (fun _ => some r),
    protGen := kn.protGen + 1, protSlot := (kn.protGen + 1) % 16, allowance := kn.allowance - 1, protDirty := false }

/-- A channel whose changes the store holds: nothing of it waits for a write. -/
def Channel.storedNow (ch : Channel) : Channel := { ch with unstored := false, wearWait := false }

/-- The write itself, before the restarts that waited for it. -/
def Blk.written (b : Blk) (k : Fin 4) : Blk :=
  (chansOf k).foldl (fun b c => b.modCh c Channel.storedNow)
    (b.modK k fun kn => kn.written (b.protRec k (kn.protGen + 1) kn.allowance))

theorem Blk.written_ch (b : Blk) {k : Fin 4} {c : Fin 40} (hc : c ∈ chansOf k) : (b.written k).ch c = (b.ch c).storedNow :=
  foldl_modCh_ch (nodup_chansOf k) Channel.storedNow _ hc

theorem Blk.written_kn (b : Blk) (k : Fin 4) :
    (b.written k).kn k = (b.kn k).written (b.protRec k ((b.kn k).protGen + 1) (b.kn k).allowance) := by
  have hkeep (b' : Blk) : ((chansOf k).foldl (fun b c => b.modCh c Channel.storedNow) b').kn k = b'.kn k :=
    foldl_keep_of_mem (Blk.kn · k) _ _ b' fun _ _ _ => rfl
  rw [Blk.written, hkeep, Blk.modK_kn]

/-- R155, R156: with a change, an allowance and power the kernel writes, and the restarts that waited follow. -/
theorem Blk.protWrite_frame (b : Blk) (k : Fin 4) (hdirty : (b.kn k).protDirty = true) (hallow : 0 < (b.kn k).allowance)
    (hpower : (b.kn k).powered = true) :
    Blk.Frame {c | c ∈ chansOf k} Channel.kept Kernel.unlogged (b.written k) (b.protWrite k) := by
  have hwrite : b.protWrite k =
      (chansOf k).foldl (fun b c => if b.isFollower c then b else b.settle c) (b.written k) := by
    unfold Blk.protWrite
    exact if_neg (by simp [hdirty, hpower, Nat.pos_iff_ne_zero.1 hallow])
  rw [hwrite]
  refine .foldl _ _ _ fun c hc a => ?_
  have hturn : a.Works c (if a.isFollower c then a else a.settle c) := .ite (.refl c a) (a.works_settle c)
  exact hturn.weaken (Set.singleton_subset_iff.2 hc) id id

theorem runs_protStoreWrite (k : Fin 4) (s : State) (hdirty : (s.blk.kn k).protDirty = true) (hallow : 0 < (s.blk.kn k).allowance)
    (hpower : (s.blk.kn k).powered = true) :
    Safety.runs (.protStoreWrite k) s fun t =>
      (t.blk.kn k).protGen = (s.blk.kn k).protGen + 1 ∧ (t.blk.kn k).allowance + 1 = (s.blk.kn k).allowance
      ∧ (t.blk.kn k).protDirty = false
      ∧ (∀ i : Fin 16, i.val = ((s.blk.kn k).protGen + 1) % 16 →
          (t.blk.kn k).protRing.get i = some (s.blk.protRec k ((s.blk.kn k).protGen + 1) (s.blk.kn k).allowance))
      ∧ (∀ i : Fin 16, i.val ≠ ((s.blk.kn k).protGen + 1) % 16 → (t.blk.kn k).protRing.get i = (s.blk.kn k).protRing.get i)
      ∧ (∀ c ∈ chansOf k, (t.blk.ch c).unstored = false ∧ (t.blk.ch c).faultCount = (s.blk.ch c).faultCount)
      ∧ t.mem = s.mem := by
  refine runs_onBlk (b := s.blk.protWrite k) rfl rfl ?_
  have hframe := s.blk.protWrite_frame k hdirty hallow hpower
  generalize s.blk.protWrite k = t at hframe ⊢
  have hkn := (hframe.kn k).trans (congrArg Kernel.unlogged (s.blk.written_kn k))
  have hring : (t.kn k).protRing = _ := Kernel.eq_of_unlogged Kernel.protRing hkn
  dsimp only [State.onBlk_blk]
  refine ⟨Kernel.eq_of_unlogged Kernel.protGen hkn, ?_, Kernel.eq_of_unlogged Kernel.protDirty hkn, fun i hi => ?_,
    fun i hi => ?_, fun c hc => ?_, rfl⟩
  · have hleft : (t.kn k).allowance = (s.blk.kn k).allowance - 1 := Kernel.eq_of_unlogged Kernel.allowance hkn
    omega
  · rw [hring, show i = ⟨_, Nat.mod_lt _ (by decide)⟩ from Fin.ext hi]
    exact vmod_get_self ..
  · rw [hring]
    exact vmod_get_ne _ _ _ _ fun h => hi (congrArg Fin.val h).symm
  · have hch := (hframe.kept c).trans (congrArg Channel.kept (s.blk.written_ch hc))
    exact ⟨Channel.eq_of_kept Channel.unstored hch, (Channel.eq_of_kept Channel.faultCount hch :)⟩

theorem runs_allowanceGain (k : Fin 4) (s : State) (hruns : s.blk.kernelRuns k = true) :
    Safety.runs (.allowanceGain k) s fun t =>
      t.blk.kn k = { s.blk.kn k with allowance := satInc (s.blk.kn k).allowance 3600 }
      ∧ (∀ j : Fin 4, j ≠ k → t.blk.kn j = s.blk.kn j) ∧ t.blk = { s.blk with kernels := t.blk.kernels } ∧ t.mem = s.mem :=
  runs_onBlk rfl (if_pos hruns) ⟨Blk.modK_kn .., fun _ hj => Blk.modK_kn_ne _ _ _ _ hj.symm, rfl, rfl⟩

/-! ### What the store restores (R156) -/

/-- Different units stay different when each is paired with what the store holds of it. -/
theorem nodup_map_snd_zip {α β : Type} (xs : List α) {ys : List β} (hys : ys.Nodup) : ((xs.zip ys).map Prod.snd).Nodup := by
  rw [List.zip_eq_zip_take_min, List.map_snd_zip (by simp)]
  exact hys.sublist (List.take_sublist ..)

theorem getElem?_chansOf (k : Fin 4) (n : Fin 10) : (chansOf k)[n.val]? = some (chanOf k n) := by
  rw [chansOf, List.getElem?_map, upTo, List.getElem?_eq_getElem (by simp), List.getElem_finRange]
  rfl

section
variable (b : Blk) (p : (Nat × Nat × Bool × Bool × Bool) × Fin 40)

/-- A channel with the counters and latches of a record. -/
def Channel.restored (ch : Channel) (x : Nat × Nat × Bool × Bool × Bool) : Channel :=
  { ch with faultCount := x.1, thermCount := x.2.1, retryLatch := x.2.2.1, thermLatch := x.2.2.2.1, arcLatch := x.2.2.2.2,
            unstored := false, pauseRun := false, cleanFrom := none, cleanAcc := 0 }

/-- One channel takes its part of a record; a latch holds it off, a fault count makes it pause. -/
def Blk.restoreChan : Blk :=
  let c := p.2
  let (f, t, lr, lt, la) := p.1
  let b1 := b.modCh c fun ch => ch.restored (f, t, lr, lt, la)
  if b.isFollower c then b1
  else if lr ∨ lt ∨ la then b1.enter c .latched
  else if f > 0 then
    let len := (b1.ch c).pauseMs f
    let b2 := (b1.enter c .pause).modCh c fun ch =>
      { ch with pauseRun := true, pauseStart := b.time.dt, pauseLen := len, winForce := true }
    b2.chev c 0x4C 2 (arg32 (f + min len 0xFFFF * 65536))
  else b1

theorem Blk.works_restoreChan : Blk.Works p.2 (b.modCh p.2 fun ch => ch.restored p.1) (b.restoreChan p) := by
  have hset : Blk.Works p.2 _ (b.modCh p.2 fun ch => ch.restored p.1) := .refl ..
  unfold Blk.restoreChan
  exact .ite hset (.ite (hset.enter _) (.ite (((hset.enter _).modCh rfl).chev ..) hset))

theorem Blk.restoreChan_counted : ((b.restoreChan p).ch p.2).counted = p.1 := by
  have hkept := (b.works_restoreChan p).kept p.2
  rw [Blk.modCh_ch] at hkept
  exact Channel.eq_of_kept Channel.counted hkept

theorem Blk.restoreChan_frame : Blk.Frame {p.2} Channel.paired Kernel.unlogged b (b.restoreChan p) :=
  ((Blk.Frame.refl ..).modCh (Set.mem_singleton _) rfl).trans
    ((b.works_restoreChan p).weaken subset_rfl Channel.paired id)

end

/-- A channel without counts and latches. -/
def Channel.zeroed (ch : Channel) : Channel :=
  { ch with faultCount := 0, thermCount := 0, retryLatch := false, thermLatch := false, arcLatch := false,
            pauseRun := false, unstored := false }

theorem Blk.protRestore_none {b : Blk} {k : Fin 4} (h : (b.kn k).newestProt = none) :
    b.protRestore k =
      ((chansOf k).foldl (fun b c => b.modCh c Channel.zeroed) (b.modK k fun kn => { kn with allowance := 0, protDirty := false })).kev
        k (srcK k) 0x49 4 0 hw (pin := true) := by
  unfold Blk.protRestore
  rw [h]
  rfl

/-- The restore of a record: the kernel's part, then each channel's. -/
theorem Blk.protRestore_some {b : Blk} {k : Fin 4} {r : ProtRec} (h : (b.kn k).newestProt = some r) :
    b.protRestore k = (r.chans.zip (chansOf k)).foldl Blk.restoreChan
      (b.modK k fun kn => { kn with allowance := r.allowance, protGen := r.gen, protSlot := r.gen % 16, protDirty := false }) := by
  unfold Blk.protRestore
  rw [h]
  rfl

section
variable (b : Blk) (k : Fin 4)

theorem Blk.clearChannels_frame : Blk.Frame {c | c ∈ chansOf k} Channel.paired id b (b.clearChannels k) :=
  .foldl _ _ _ fun _ hc a => (Blk.Frame.refl _ _ _ a).modCh hc rfl

/-- The restore of the fallback states (R123) leaves the pairs and the protection store alone. -/
theorem Blk.fbRestore_frame :
    Blk.Frame {c | c ∈ chansOf k} Channel.paired (fun kn => (kn.powered, kn.protRing)) b (b.fbRestore k) := by
  unfold Blk.fbRestore
  split
  · exact (Blk.Frame.modK (.refl ..) k rfl).trans
      (.foldl _ _ _ fun p hp a => (Blk.Frame.refl _ _ _ a).modCh (List.of_mem_zip hp).2 rfl)
  · exact .kev (ψ := fun kn => (kn.powered, kn.protRing))
      (.foldl _ _ _ fun c hc a => (Blk.Frame.refl _ _ _ a).modCh hc rfl) ..

theorem Blk.protRestore_frame : Blk.Frame {c | c ∈ chansOf k} Channel.paired Kernel.powered b (b.protRestore k) := by
  have hk (f : Kernel → Kernel) (hf : (f (b.kn k)).powered = (b.kn k).powered) :
      Blk.Frame {c | c ∈ chansOf k} Channel.paired Kernel.powered b (b.modK k f) := (Blk.Frame.refl ..).modK k hf
  cases hbest : (b.kn k).newestProt with
  | none =>
    rw [Blk.protRestore_none hbest]
    exact .kev (ψ := Kernel.powered)
      ((hk _ rfl).trans (.foldl _ _ _ fun _ hc a => (Blk.Frame.refl _ _ _ a).modCh hc rfl)) ..
  | some r =>
    rw [Blk.protRestore_some hbest]
    refine (hk _ rfl).trans (.foldl _ _ _ fun p hp a => ?_)
    exact (a.restoreChan_frame p).weaken (Set.singleton_subset_iff.2 (List.of_mem_zip hp).2) id Kernel.powered

/-- Without a record every counter, every latch and the allowance start at 0. -/
theorem Blk.protRestore_of_none (hbest : (b.kn k).newestProt = none) :
    ((b.protRestore k).kn k).allowance = 0
    ∧ ∀ c ∈ chansOf k, ((b.protRestore k).ch c).counted = (0, 0, false, false, false) := by
  rw [Blk.protRestore_none hbest]
  have hzero (b' : Blk) :
      (((chansOf k).foldl (fun b c => b.modCh c Channel.zeroed) b').kn k).unlogged = (b'.kn k).unlogged :=
    foldl_keep_of_mem (fun b : Blk => (b.kn k).unlogged) _ _ b' fun _ _ _ => rfl
  have hkn := (Blk.kev_unlogged _ k (srcK k) 0x49 4 0 hw true 0 k).trans
    (hzero (b.modK k fun kn => { kn with allowance := 0, protDirty := false }))
  rw [Blk.modK_kn] at hkn
  refine ⟨Kernel.eq_of_unlogged Kernel.allowance hkn, fun c hc => ?_⟩
  rw [Blk.kev_ch, foldl_modCh_ch (nodup_chansOf k) Channel.zeroed _ hc]
  rfl

/-- A record gives the kernel its allowance and each of its channels its own part. -/
theorem Blk.protRestore_of_some {r : ProtRec} (hbest : (b.kn k).newestProt = some r) :
    ((b.protRestore k).kn k).allowance = r.allowance ∧ ((b.protRestore k).kn k).protGen = r.gen
    ∧ ∀ (n : Fin 10) x, r.chans[n.val]? = some x → ((b.protRestore k).ch (chanOf k n)).counted = x := by
  rw [Blk.protRestore_some hbest]
  set b' := b.modK k fun kn =>
    { kn with allowance := r.allowance, protGen := r.gen, protSlot := r.gen % 16, protDirty := false } with hb'
  have hkn : (((r.chans.zip (chansOf k)).foldl Blk.restoreChan b').kn k).unlogged = (b'.kn k).unlogged :=
    foldl_keep_of_mem (fun b : Blk => (b.kn k).unlogged) _ _ _ fun p _ a => (a.restoreChan_frame p).kn k
  rw [hb', Blk.modK_kn] at hkn
  refine ⟨Kernel.eq_of_unlogged Kernel.allowance hkn, Kernel.eq_of_unlogged Kernel.protGen hkn, fun n x hx => ?_⟩
  have hmem : (x, chanOf k n) ∈ r.chans.zip (chansOf k) :=
    List.mem_of_getElem? (List.getElem?_zip_eq_some.2 ⟨hx, getElem?_chansOf k n⟩)
  obtain ⟨a, -, hturn⟩ := foldl_own_turn Prod.snd (fun b => ((b.ch (chanOf k n)).counted)) Blk.restoreChan b'
    (nodup_map_snd_zip r.chans (nodup_chansOf k)) hmem
    fun p a hp => congrArg Channel.counted ((a.restoreChan_frame p).ch _ fun h => hp h.symm)
  exact hturn.trans (a.restoreChan_counted (x, chanOf k n))

/-- The wire temperatures (R112) and the energy counters (R105) come back apart from the protection store. -/
theorem Blk.wireRestore_frame :
    Blk.Frame {c | c ∈ chansOf k} (fun ch => (ch.counted, ch.fallbackOn)) Kernel.unlogged b (b.wireRestore k) := by
  unfold Blk.wireRestore
  extract_lets b1 stored
  have hwires : Blk.Frame {c | c ∈ chansOf k} (fun ch => (ch.counted, ch.fallbackOn)) Kernel.unlogged b b1 := by
    refine .foldl _ _ _ fun c hc a => (Blk.Frame.refl _ _ _ a).modCh hc ?_
    repeat' split
    all_goals rfl
  split
  · exact .kev (ψ := id) hwires ..
  · exact hwires

theorem Blk.energyRestore_frame :
    Blk.Frame {c | c ∈ chansOf k} (fun ch => (ch.counted, ch.fallbackOn)) Kernel.unlogged b (b.energyRestore k) := by
  unfold Blk.energyRestore
  extract_lets b1
  have hcounters : Blk.Frame {c | c ∈ chansOf k} (fun ch => (ch.counted, ch.fallbackOn)) Kernel.unlogged b b1 :=
    .foldl _ _ _ fun c hc a => (Blk.Frame.refl _ _ _ a).modCh hc (by split <;> rfl)
  repeat' split
  · exact hcounters
  · exact .kev (ψ := id) hcounters ..
  · exact hcounters

end

/-! ### Power-up (R122, R156) -/

/-- The newest record is told by the ring alone. -/
theorem Kernel.newestProt_congr {x y : Kernel} (h : x.protRing = y.protRing) : x.newestProt = y.newestProt := by
  rw [Kernel.newestProt, h]; rfl

section
variable (b : Blk) (k : Fin 4)

/-- A kernel's channels after the start of its power-up: cleared, with their settings and what the protection store holds. -/
def Blk.restoredChans : Blk := ((b.clearChannels k).fbRestore k).protRestore k

theorem Blk.restoredChans_frame : Blk.Frame {c | c ∈ chansOf k} Channel.paired Kernel.powered b (b.restoredChans k) :=
  ((((b.clearChannels_frame k).weaken subset_rfl id Kernel.powered).trans
    (((b.clearChannels k).fbRestore_frame k).weaken subset_rfl id Prod.fst))).trans (Blk.protRestore_frame ..)

theorem Blk.newestProt_before_restore : (((b.clearChannels k).fbRestore k).kn k).newestProt = (b.kn k).newestProt := by
  refine Kernel.newestProt_congr ?_
  exact (congrArg Prod.snd (((b.clearChannels k).fbRestore_frame k).kn k)).trans
    (congrArg Kernel.protRing ((b.clearChannels_frame k).kn k))

theorem Blk.restoredChans_of_none (hbest : (b.kn k).newestProt = none) :
    ((b.restoredChans k).kn k).allowance = 0
    ∧ ∀ c ∈ chansOf k, ((b.restoredChans k).ch c).counted = (0, 0, false, false, false) :=
  Blk.protRestore_of_none _ k ((b.newestProt_before_restore k).trans hbest)

theorem Blk.restoredChans_of_some {r : ProtRec} (hbest : (b.kn k).newestProt = some r) :
    ((b.restoredChans k).kn k).allowance = r.allowance ∧ ((b.restoredChans k).kn k).protGen = r.gen
    ∧ ∀ (n : Fin 10) x, r.chans[n.val]? = some x → ((b.restoredChans k).ch (chanOf k n)).counted = x :=
  Blk.protRestore_of_some _ k ((b.newestProt_before_restore k).trans hbest)

/-- What follows the fallback at a power-up: the wires and the energy counters come back, and a reversed supply is recorded. -/
def Blk.restoredRest (known : Bool) (rev : Option (BitVec 48)) : Blk :=
  let b4 := ((if known then b.wireRestore k else b).modK k fun kn => { kn with wireWait := !known }).energyRestore k
  match rev with
  | some t => b4.kev k (srcK k) 0x48 4 (arg32 (min (t.toNat / 32768) 0xFFFFFFFF)) hw (pin := true)
  | none => b4

theorem Blk.restoredRest_frame (known : Bool) (rev : Option (BitVec 48)) :
    Blk.Frame {c | c ∈ chansOf k} (fun ch => (ch.counted, ch.fallbackOn)) (fun kn => (kn.powered, kn.allowance, kn.protGen))
      b (b.restoredRest k known rev) := by
  have hwires : Blk.Frame {c | c ∈ chansOf k} (fun ch => (ch.counted, ch.fallbackOn)) Kernel.unlogged b
      (if known then b.wireRestore k else b) := by
    split
    · exact b.wireRestore_frame k
    · exact .refl ..
  unfold Blk.restoredRest
  extract_lets b4
  have hb4 : Blk.Frame {c | c ∈ chansOf k} (fun ch => (ch.counted, ch.fallbackOn))
      (fun kn => (kn.powered, kn.allowance, kn.protGen)) b b4 :=
    ((hwires.weaken subset_rfl id fun kn => (kn.powered, kn.allowance, kn.protGen)).modK k rfl).trans
      ((Blk.energyRestore_frame _ k).weaken subset_rfl id fun kn => (kn.powered, kn.allowance, kn.protGen))
  cases rev with
  | none => exact hb4
  | some t => exact .kev (ψ := fun kn => (kn.powered, kn.allowance, kn.protGen)) hb4 ..

end

/-- A kernel that has just got its supply. -/
def Kernel.poweredUp (kn : Kernel) : Kernel :=
  { kn with powered := true, configId := 0, ctrlReset := false, reversed := none, ground := false, under := false, surge := false,
            overtemp := false, groundGood := false, underGood := false, surgeOver := false, overtempGood := false,
            buf := [], bufLost := 0, storedRecs := 0, heartbeat := 0, wdHold := false, isoHoldStart := none,
            coreHoldStart := none, gotCommit := false, commitBits := 0, swapFlag := false, confirmed := none,
            supplySticky := 0, kept := [], unconfirmed := [],
            sems := Vector.replicate 8 .free, peaks := Vector.replicate 10 0, vbatMin := 0xFFFF, vbatMax := 0 }

/-- R122, R156: at its power-up a kernel restores its channels, takes their fallback states and restores the rest. -/
theorem kernelPowerUp_eq (k : Fin 4) (b : Blk) (hin : b.hasKernel k = true) (hoff : (b.kn k).powered = false) :
    kernelPowerUp k b =
      ((((b.modK k Kernel.poweredUp).restoredChans k).fallback k (chansOf k) 7).restoredRest k b.cfg.active.isSome
        (b.kn k).reversed) :=
  if_neg (by simp [hin, hoff])

theorem runs_kernelPowerUp (k : Fin 4) (s : State) (hin : s.blk.hasKernel k = true) (hoff : (s.blk.kn k).powered = false) :
    Safety.runs (.kernelPowerUp k) s fun t =>
      (t.blk.kn k).powered = true ∧ t.mem = s.mem
      ∧ (∀ c ∈ chansOf k, s.blk.isFollower c = false → (t.blk.ch c).fallbackOn = true)
      ∧ ((s.blk.kn k).newestProt = none → (t.blk.kn k).allowance = 0 ∧
          ∀ c ∈ chansOf k, (t.blk.ch c).faultCount = 0 ∧ (t.blk.ch c).thermCount = 0 ∧ (t.blk.ch c).anyLatch = false)
      ∧ (∀ r : ProtRec, (s.blk.kn k).newestProt = some r → (t.blk.kn k).allowance = r.allowance ∧ (t.blk.kn k).protGen = r.gen ∧
          ∀ (n : Fin 10) (x : Nat × Nat × Bool × Bool × Bool), r.chans[n.val]? = some x →
            (t.blk.ch (chanOf k n)).faultCount = x.1 ∧ (t.blk.ch (chanOf k n)).thermCount = x.2.1
            ∧ (t.blk.ch (chanOf k n)).retryLatch = x.2.2.1 ∧ (t.blk.ch (chanOf k n)).thermLatch = x.2.2.2.1
            ∧ (t.blk.ch (chanOf k n)).arcLatch = x.2.2.2.2)
      ∧ (∀ c : Fin 40, c ∉ chansOf k → t.blk.ch c = s.blk.ch c)
      ∧ t.blk = { s.blk with chans := t.blk.chans, kernels := t.blk.kernels } := by
  refine runs_onBlk rfl (kernelPowerUp_eq k s.blk hin hoff) ?_
  dsimp only
  have hkernel : (s.blk.modK k Kernel.poweredUp).kn k = (s.blk.kn k).poweredUp := Blk.modK_kn ..
  have hbest : ((s.blk.modK k Kernel.poweredUp).kn k).newestProt = (s.blk.kn k).newestProt := by
    rw [hkernel]; exact Kernel.newestProt_congr rfl
  have hup := (Blk.Frame.refl {c | c ∈ chansOf k} Channel.paired (fun _ => ()) s.blk).modK k (f := Kernel.poweredUp) rfl
  have hpowered := congrArg Kernel.powered hkernel
  generalize s.blk.modK k Kernel.poweredUp = b1 at hbest hup hpowered ⊢
  have hrestored := b1.restoredChans_frame k
  have hnone := b1.restoredChans_of_none k
  have hsome (r : ProtRec) := b1.restoredChans_of_some k (r := r)
  generalize b1.restoredChans k = b2 at hrestored hnone hsome ⊢
  have hon (c : Fin 40) (hc : c ∈ chansOf k) (hlead : s.blk.isFollower c = false) :
      ((b2.fallback k (chansOf k) 7).ch c).fallbackOn = true :=
    Blk.fallback_fallbackOn k 7 (nodup_chansOf k) hc
      ((Blk.isFollower_congr ((hrestored.kept c).trans (hup.kept c))).trans hlead)
  have hfall := b2.fallback_frame k (chansOf k) 7
  have hrest := (b2.fallback k (chansOf k) 7).restoredRest_frame k s.blk.cfg.active.isSome (s.blk.kn k).reversed
  generalize (b2.fallback k (chansOf k) 7).restoredRest k s.blk.cfg.active.isSome (s.blk.kn k).reversed = t at hrest ⊢
  generalize b2.fallback k (chansOf k) 7 = b3 at hon hfall hrest
  have hcounted (c : Fin 40) : (t.ch c).counted = (b2.ch c).counted :=
    (congrArg Prod.fst (hrest.kept c) :).trans (hfall.kept c)
  have hkn := (hrest.kn k).trans (Kernel.eq_of_unlogged (fun kn => (kn.powered, kn.allowance, kn.protGen)) (hfall.kn k))
  simp only [Prod.mk.injEq] at hkn
  obtain ⟨hpow, hallow, hgen⟩ := hkn
  have hall : Blk.Frame {c | c ∈ chansOf k} (fun _ => ()) (fun _ => ()) s.blk t :=
    (hup.weaken subset_rfl (fun _ => ()) id).trans <| (hrestored.weaken subset_rfl (fun _ => ()) fun _ => ()).trans <|
      (hfall.weaken subset_rfl (fun _ => ()) fun _ => ()).trans (hrest.weaken subset_rfl (fun _ => ()) fun _ => ())
  refine ⟨hpow.trans ((hrestored.kn k).trans hpowered), rfl, fun c hc hlead => ?_, fun hno => ?_, fun r hr => ?_, hall.ch, hall.blk⟩
  · exact (congrArg Prod.snd (hrest.kept c) :).trans (hon c hc hlead)
  · obtain ⟨hzero, hcounts⟩ := hnone (hbest.trans hno)
    refine ⟨hallow.trans hzero, fun c hc => ?_⟩
    have hch := (hcounted c).trans (hcounts c hc)
    simp only [Channel.counted, Prod.mk.injEq] at hch
    obtain ⟨hfault, htherm, hretry, hhot, harc⟩ := hch
    exact ⟨hfault, htherm, by simp [Channel.anyLatch, hretry, hhot, harc]⟩
  · obtain ⟨hleft, hnewest, hcounts⟩ := hsome r (hbest.trans hr)
    refine ⟨hallow.trans hleft, hgen.trans hnewest, fun n x hx => ?_⟩
    obtain ⟨fault, therm, retry, hot, arc⟩ := x
    simpa only [Channel.counted, Prod.mk.injEq] using (hcounted (chanOf k n)).trans (hcounts n _ hx)

/-- Settles O18: the write of the store, its allowance, and the power-up, which takes all from the newest record. -/
theorem protectionStoreSurvivesPower : Obligations.ProtectionStoreSurvivesPower :=
  ⟨runs_protStoreWrite, runs_allowanceGain, runs_kernelPowerUp⟩

end Sys2Proof.Machine
end

section
/-! SUPPORT. Posted and acknowledged writes to a channel's command, and fences (R178 to R189). -/

namespace Sys2Proof.Machine
open Sys2Proof

/-! ### The first register of a channel page in its kernel's window (R20, R178) -/

theorem toNat_arg32 {n : Nat} (h : n < 2 ^ 32) : (arg32 n).toNat = n := by
  rw [arg32, BitVec.toNat_ofNat, Nat.mod_eq_of_lt h]

theorem pageBase_eq (c : Fin 40) : pageBase c = 0x50000000 + c.val / 10 * 0x1000000 + 0x10000 + c.val % 10 * 0x1000 := rfl

/-- The number of a page, from the offset where it begins. -/
theorem chanOf_pageStart (c : Fin 40) {off : Nat} (hoff : off = 0x10000 + c.val % 10 * 0x1000) :
    chanOf (kOf c) ⟨(off - 0x10000) / 0x1000 % 10, Nat.mod_lt _ (by decide)⟩ = c := by
  apply Fin.ext
  show 10 * (c.val / 10) + (off - 0x10000) / 0x1000 % 10 = c.val
  omega

theorem Blk.mayWrite_pageStart (b : Blk) (i : Initiator) (c : Fin 40) {off : Nat}
    (hoff : off % 0xE00000 = 0x10000 + c.val % 10 * 0x1000) : b.mayWrite i (kOf c) off = b.reaches i c := by
  unfold Blk.mayWrite
  dsimp only
  rw [if_neg (by omega), chanOf_pageStart c hoff]

theorem winPart_pageStart (c : Fin 40) {off : Nat} (hoff : off = 0x10000 + c.val % 10 * 0x1000) : ∃ n, winPart off = .page n := by
  have hlow : ¬ off < 0x10000 := by omega
  have hpage : off < 0x1A000 := by omega
  exact ⟨_, (if_neg hlow).trans (if_pos hpage)⟩

theorem winPart_alias {off : Nat} (h : 0xE00000 ≤ off) : winPart off = .alias_ := by
  unfold winPart
  rw [if_neg (by omega), if_neg (by omega), if_neg (by omega), if_neg (by omega), if_neg (by omega)]

/-- The number of the window in which the page of a channel lies. -/
theorem window_number {a k n : Nat} (ha : a = 0x50E10000 + k * 0x1000000 + n * 0x1000) (hk : k < 4) (hn : n < 10) :
    (a - 0x50000000) / 0x1000000 % 4 = k := by
  omega

theorem winKernel_eq {a : Nat} {c : Fin 40} (h : (a - 0x50000000) / 0x1000000 % 4 = c.val / 10) : winKernel a = kOf c :=
  Fin.ext h

theorem inWindow_of_bounds {a : Nat} (hlow : 0x50000000 ≤ a) (hhigh : a < 0x54000000) : inWindow a = true := by
  rw [inWindow, decide_eq_true hlow, decide_eq_true hhigh]; rfl

section
variable (c : Fin 40)

/-- The second address of a channel's command register, through which writes are acknowledged (R20, R178). -/
def cmdAlias : Nat := pageBase c + 0xE00000

/-- That address as the kernel, the page and the part of the window that it names. -/
theorem cmdAlias_eq : cmdAlias c = 0x50E10000 + c.val / 10 * 0x1000000 + c.val % 10 * 0x1000 := by
  rw [cmdAlias, pageBase_eq]; omega

theorem inWindow_cmdAlias : inWindow (cmdAlias c) = true := by
  have heq := cmdAlias_eq c
  exact inWindow_of_bounds (by omega) (by omega)

theorem toNat_cmdAlias : (arg32 (cmdAlias c)).toNat = cmdAlias c := by
  have heq := cmdAlias_eq c
  exact toNat_arg32 (by omega)

theorem winKernel_cmdAlias : winKernel (cmdAlias c) = kOf c :=
  winKernel_eq (window_number (cmdAlias_eq c) (by omega) (by omega))

theorem offset_cmdAlias : cmdAlias c % 0x1000000 = 0xE00000 + (0x10000 + c.val % 10 * 0x1000) := by
  have heq := cmdAlias_eq c
  omega

theorem winPart_cmdAlias : winPart (cmdAlias c % 0x1000000) = .alias_ := by
  have hoff := offset_cmdAlias c
  exact winPart_alias (by omega)

theorem winPart_behind_cmdAlias : ∃ n, winPart (cmdAlias c % 0x1000000 - 0xE00000) = .page n := by
  have hoff := offset_cmdAlias c
  exact winPart_pageStart c (by omega)

theorem mayWrite_cmdAlias (b : Blk) (i : Initiator) :
    b.mayWrite i (kOf c) (cmdAlias c % 0x1000000) = b.reaches i c := by
  have hoff := offset_cmdAlias c
  exact b.mayWrite_pageStart i c (by omega)

theorem aligned_cmdAlias : aligned (cmdAlias c) 2 = true := by
  have heq := cmdAlias_eq c
  exact decide_eq_true (show cmdAlias c % 4 = 0 by omega)

end

/-! ### A write that arrives at a channel's command (R96, R179) -/

/-- The bytes of a word, added up, are the word. -/
theorem sum_bytes {n : Nat} (h : n < 2 ^ 32) :
    n / 256 ^ 0 % 256 * 256 ^ 0 + n / 256 ^ 1 % 256 * 256 ^ 1 + n / 256 ^ 2 % 256 * 256 ^ 2
      + n / 256 ^ 3 % 256 * 256 ^ 3 = n := by
  omega

theorem foldl_four (f : Nat → Nat) : ((List.range 4).map f).foldl (· + ·) 0 = f 0 + f 1 + f 2 + f 3 := by
  simp [List.range_succ]

/-- A write of all four bytes leaves nothing of the old word. -/
theorem mergeBe_all (old new : Word) : mergeBe old new 15 = new := by
  have hall : ∀ j ∈ List.range 4, Nat.testBit 15 j = true := by decide
  unfold mergeBe
  rw [List.map_congr_left fun j hj => by rw [if_pos (hall j hj)], foldl_four, sum_bytes new.isLt, BitVec.ofNat_toNat,
    BitVec.setWidth_eq]

/-- A channel whose command register has been written (R96). -/
def Channel.commanded (ch : Channel) (w : Word) : Channel :=
  { ch with shadow := { ch.shadow with cmd := w &&& 0x03FF0003 }, staged := true }

theorem ShadowSet.put_cmd (sh : ShadowSet) (w : Word) : sh.put 0 w 15 = { sh with cmd := w &&& 0x03FF0003 } := by
  rw [ShadowSet.put, if_pos rfl, mergeBe_all]

theorem Blk.arrive_command {b : Blk} (i : Initiator) {c : Fin 40} {addr : Nat} (data : BitVec 64) {be : Byte}
    (hoff : (addr - winBase (kOf c)) % 0x1000000 % 0xE00000 = 0x10000 + c.val % 10 * 0x1000) (hbe : be = 0x0F)
    (hlead : b.isFollower c = false) (hearly : b.inGuard = false) :
    b.arrive i (kOf c) addr data be = b.modCh c fun ch => ch.commanded (data.truncate 32) := by
  have halign : (addr - winBase (kOf c)) % 0x1000000 % 0xE00000 / 8 * 8 = 0x10000 + c.val % 10 * 0x1000 := by omega
  have hstart : (0x10000 + c.val % 10 * 0x1000) % 0x1000 = 0 := by omega
  have hlow (w : Word) : b.arrive32 i (kOf c) (0x10000 + c.val % 10 * 0x1000) w 15 = b.modCh c fun ch => ch.commanded w := by
    unfold Blk.arrive32
    rw [if_neg (by decide), if_neg (by omega)]
    dsimp only
    rw [chanOf_pageStart c rfl, hstart, Blk.pageWrite, if_pos (by decide), if_neg (by simp [hlead]), if_neg (by simp [hearly])]
    exact Blk.modCh_congr (by rw [ShadowSet.put_cmd]; rfl)
  subst hbe
  unfold Blk.arrive
  rw [halign]
  exact (if_pos rfl).trans (hlow _)

/-- A word on the low lane of its aligned 64 bits (R179). -/
theorem laneData_low (addr : Nat) (data : BitVec 64) (h : addr % 8 = 0) :
    (laneData addr 2 data).1.truncate 32 = data.truncate 32 ∧ (laneData addr 2 data).2 = 0x0F := by
  unfold laneData
  rw [h]
  refine ⟨BitVec.eq_of_toNat_eq ?_, rfl⟩
  have hwidth : (256 : Nat) ^ 2 ^ (2 : Fin 4).val = 2 ^ 32 := by decide
  simp only [BitVec.truncate, BitVec.toNat_setWidth, BitVec.toNat_ofNat, hwidth]
  omega

/-! ### The head of a kernel's posted writes (R183, R189) -/

section
variable {b : Blk} {k : Fin 4}

/-- A joined kernel with power takes what the link brings. -/
theorem Blk.blockReason_of_joined (hjoined : (b.bridges.get k).state = .joined) (hpower : (b.kn k).powered = true) :
    b.blockReason k = none := by
  rw [Blk.blockReason, hjoined]
  exact if_pos hpower

/-- The block once the only posted write of a kernel has left the link. -/
def Blk.linkEmptied (b : Blk) (k : Fin 4) : Blk := (b.modBr k fun x => { x with posted := [] }).admitPosted k

theorem Blk.linkEmptied_bridge (b : Blk) (k : Fin 4) :
    (b.linkEmptied k).bridges.get k = { b.bridges.get k with posted := [] } := by
  have hleft : (b.modBr k fun x => { x with posted := [] }).bridges.get k = { b.bridges.get k with posted := [] } :=
    vmod_get_self ..
  unfold Blk.linkEmptied Blk.admitPosted
  rw [Blk.modBr_bridges, vmod_get_self, hleft]
  rfl

/-- A write that its initiator may make arrives at its kernel. -/
theorem Blk.deliverHead_arrives {p : Posted} (hposted : (b.bridges.get k).posted = [p]) (hopen : b.blockReason k = none)
    (hmay : b.mayWrite p.init k (p.addr.toNat % 0x1000000) = true) :
    b.deliverHead k none = ((b.linkEmptied k).arrive p.init k p.addr.toNat p.data p.be, []) := by
  unfold Blk.deliverHead
  rw [hposted, hopen]
  exact if_pos hmay

/-- A write that met a link fault twice fails. -/
theorem Blk.deliverHead_linkFault {p : Posted} (hposted : (b.bridges.get k).posted = [p]) (hopen : b.blockReason k = none) :
    b.deliverHead k (some .link) = ((b.linkEmptied k).linkFail k).failWrite k p 3 := by
  unfold Blk.deliverHead
  rw [hposted, hopen]
  rfl

/-- A write whose page has changed hands fails. -/
theorem Blk.deliverHead_ownerChanged {p : Posted} (hposted : (b.bridges.get k).posted = [p]) (hopen : b.blockReason k = none)
    (hmay : b.mayWrite p.init k (p.addr.toNat % 0x1000000) = false) :
    b.deliverHead k none = (b.linkEmptied k).failWrite k p 4 := by
  unfold Blk.deliverHead
  rw [hposted, hopen]
  exact if_neg (by simp [hmay])

end

/-! ### A failed posted write (R187, R188) -/

/-- What the summary of an initiator tells of its failed writes (R184). -/
def InitSlot.failure (x : InitSlot) : Bool × Nat × Nat := (x.pwFail, x.reason, x.count)

/-- `t` tells the same of failed writes as `b`, and its channels, bridges and notes of the breath are the same. -/
structure Blk.SameFailures (b t : Blk) : Prop where
  slots : ∀ n, (t.slots.get n).failure = (b.slots.get n).failure
  chans : t.chans = b.chans
  bridges : t.bridges = b.bridges
  breath : t.breath = b.breath

theorem Blk.deliver_sameFailures (b : Blk) (r : Rec) : b.SameFailures (b.deliver r).1 := by
  rw [(b.deliver_fst r).2, Blk.toLog_eq]
  exact ⟨fun _ => rfl, rfl, rfl, rfl⟩

/-- A failure put into the fault queue of its owner, or counted there as dropped (R188). -/
def Blk.toFaultQueue (b : Blk) (own : Fin 10) (k : Fin 4) (m : Msg) : Blk :=
  match (b.slots.get own).faultQ with
  | none => b
  | some q =>
    let x := b.queues.get q
    if b.queueShut x then b.dropMsg q 1
    else if x.enabled = false ∨ x.maxPods < x.pods + 1 ∨ x.freeReserve + b.sharedFree < 1 then
      ((b.dropMsg q 1).modQ q fun x =>
          { x with sticky := orBits x.sticky 0x10, dropsBreath := x.dropsBreath + 1 }).modSlot own fun s =>
        { s with lostF := true, lost := satInc s.lost 0xFFFFFFFF, lostBreath := s.lostBreath + 1, lostAt := k }
    else (b.modQ q fun x => { x with msgs := x.msgs ++ [m] }).noteLow

/-- The fault queue changes nothing of what the summary tells. -/
theorem Blk.toFaultQueue_sameFailures (b : Blk) (own : Fin 10) (k : Fin 4) (m : Msg) :
    b.SameFailures (b.toFaultQueue own k m) := by
  unfold Blk.toFaultQueue
  split
  · exact ⟨fun _ => rfl, rfl, rfl, rfl⟩
  · dsimp only
    split
    · exact ⟨fun _ => rfl, rfl, rfl, rfl⟩
    · split
      · refine ⟨fun n => ?_, rfl, rfl, rfl⟩
        by_cases hn : own = n
        · subst hn
          exact (congrArg InitSlot.failure (vmod_get_self ..) :)
        · exact (congrArg InitSlot.failure (vmod_get_ne _ _ _ _ hn) :)
      · exact ⟨fun _ => rfl, rfl, rfl, rfl⟩

section
variable {b : Blk} {k : Fin 4} {p : Posted} {n : Fin 10}

/-- The failure counted at the boundary and told in the summary of its writer, before its record goes out. -/
def Blk.failureCounted (b : Blk) (k : Fin 4) (p : Posted) (n : Fin 10) (reason : Nat) : Blk :=
  ((b.grantRec (b.capture (srcBr k) 4 2 p.addr (idByte p.init) 0 false)).2.modBr k
    fun x => { x with pwDrop := satInc x.pwDrop 0xFFFFFFFF }).modSlot n
      fun s => { s with pwFail := true, reason := reason, count := satInc s.count 0xFFFF }

/-- What fails for a writer of the present epoch: the failure is counted and told, and PW_FAIL once a breath goes out. -/
theorem Blk.failWrite_eq (reason : Nat) (hslot : slotOf p.init = some n) (hepoch : (b.slots.get n).epoch = p.epoch) :
    ∃ m r, b.failWrite k p reason =
      if p.init ∈ ((b.failureCounted k p n reason).toFaultQueue n k m).breath.pwFailed then
        ((b.failureCounted k p n reason).toFaultQueue n k m, [])
      else (((b.failureCounted k p n reason).toFaultQueue n k m).onBre
        fun x => { x with pwFailed := p.init :: x.pwFailed }).deliver r := by
  unfold Blk.failWrite
  rw [hslot]
  simp only [hepoch, decide_true, if_true]
  exact ⟨_, _, rfl⟩

theorem Blk.failureCounted_spec (b : Blk) (k : Fin 4) (p : Posted) (n : Fin 10) (reason : Nat) :
    ((b.failureCounted k p n reason).slots.get n).failure = (true, reason, satInc (b.slots.get n).count 0xFFFF)
    ∧ (b.failureCounted k p n reason).bridges.get k = { b.bridges.get k with pwDrop := satInc (b.bridges.get k).pwDrop 0xFFFFFFFF }
    ∧ (b.failureCounted k p n reason).chans = b.chans := by
  unfold Blk.failureCounted
  rw [Blk.grantRec_snd]
  exact ⟨(congrArg InitSlot.failure (vmod_get_self ..) :), vmod_get_self .., rfl⟩

/-- R187 to R189: the writer's summary, the count of the boundary and PW_FAIL show the failure; the channels stay. -/
theorem Blk.failWrite_spec (reason : Nat) (hslot : slotOf p.init = some n) (hepoch : (b.slots.get n).epoch = p.epoch) :
    ((b.failWrite k p reason).1.slots.get n).failure = (true, reason, satInc (b.slots.get n).count 0xFFFF)
    ∧ (b.failWrite k p reason).1.bridges.get k = { b.bridges.get k with pwDrop := satInc (b.bridges.get k).pwDrop 0xFFFFFFFF }
    ∧ p.init ∈ (b.failWrite k p reason).1.breath.pwFailed ∧ (b.failWrite k p reason).1.chans = b.chans := by
  obtain ⟨m, r, hfail⟩ := Blk.failWrite_eq (k := k) reason hslot hepoch
  obtain ⟨hslots, hbridge, hchans⟩ := b.failureCounted_spec k p n reason
  have hqueue := (b.failureCounted k p n reason).toFaultQueue_sameFailures n k m
  rw [hfail]
  generalize (b.failureCounted k p n reason).toFaultQueue n k m = q at hqueue ⊢
  have hq : (q.slots.get n).failure = _ := (hqueue.slots n).trans hslots
  have hqb : q.bridges.get k = _ := (congrArg (Vector.get · k) hqueue.bridges).trans hbridge
  split
  · exact ⟨hq, hqb, ‹_›, hqueue.chans.trans hchans⟩
  · have hout := (q.onBre fun x => { x with pwFailed := p.init :: x.pwFailed }).deliver_sameFailures r
    refine ⟨(hout.slots n).trans hq, (congrArg (Vector.get · k) hout.bridges).trans hqb, ?_,
      hout.chans.trans (hqueue.chans.trans hchans)⟩
    rw [hout.breath]
    exact List.mem_cons_self

end

/-! ### The clauses of O26 -/

theorem runs_postedWriteDelivered_arrives (k : Fin 4) (c : Fin 40) (p : Posted) (s : State) (hk : kOf c = k)
    (hposted : (s.blk.bridges.get k).posted = [p]) (hjoined : (s.blk.bridges.get k).state = .joined)
    (hpower : (s.blk.kn k).powered = true) (hreach : s.blk.reaches p.init c = true) (haddr : p.addr = arg32 (pageBase c))
    (hbe : p.be = 0x0F) (hlead : s.blk.isFollower c = false) (hearly : s.blk.inGuard = false) :
    Safety.runs (.postedWriteDelivered k none) s fun t =>
      (t.blk.ch c).shadow = { (s.blk.ch c).shadow with cmd := (p.data.truncate 32) &&& 0x03FF0003 } ∧ (t.blk.ch c).staged = true
      ∧ (t.blk.ch c).applied = (s.blk.ch c).applied ∧ (t.blk.bridges.get k).posted = []
      ∧ (∀ d : Fin 40, d ≠ c → t.blk.ch d = s.blk.ch d)
      ∧ t.blk = { s.blk with bridges := t.blk.bridges, chans := t.blk.chans } ∧ t.mem = s.mem := by
  subst hk
  have hbase := pageBase_eq c
  have haddr' : p.addr.toNat = pageBase c := by rw [haddr, toNat_arg32 (by omega)]
  have hwin : pageBase c - winBase (kOf c) = 0x10000 + c.val % 10 * 0x1000 := by rw [pageBase]; omega
  have hmay : s.blk.mayWrite p.init (kOf c) (p.addr.toNat % 0x1000000) = true := by
    rw [haddr', Blk.mayWrite_pageStart _ _ c (by omega), hreach]
  have harrive := Blk.arrive_command (b := s.blk.linkEmptied (kOf c)) p.init (c := c) p.data (be := p.be)
    (addr := p.addr.toNat) (by rw [haddr', hwin]; omega) hbe hlead hearly
  have hdeliver := Blk.deliverHead_arrives hposted (Blk.blockReason_of_joined hjoined hpower) hmay
  rw [harrive] at hdeliver
  refine runs_onMem rfl hdeliver ?_
  dsimp only
  rw [Blk.heal_nil, Blk.modCh_ch]
  exact ⟨rfl, rfl, rfl, congrArg Bridge.posted (Blk.linkEmptied_bridge ..), fun d hd => Blk.modCh_ch_ne _ _ _ _ hd.symm, rfl, rfl⟩

theorem runs_postedWriteDelivered_fails (k : Fin 4) (p : Posted) (n : Fin 10) (fault : Option LinkFault) (s : State)
    (hposted : (s.blk.bridges.get k).posted = [p]) (hslot : slotOf p.init = some n)
    (hjoined : (s.blk.bridges.get k).state = .joined) (hpower : (s.blk.kn k).powered = true)
    (hepoch : (s.blk.slots.get n).epoch = p.epoch)
    (hcause : fault = some .link ∨ (fault = none ∧ s.blk.mayWrite p.init k (p.addr.toNat % 0x1000000) = false)) :
    Safety.runs (.postedWriteDelivered k fault) s fun t =>
      (t.blk.slots.get n).pwFail = true ∧ (t.blk.slots.get n).reason = (if fault = none then 4 else 3)
      ∧ (t.blk.slots.get n).count = satInc (s.blk.slots.get n).count 0xFFFF
      ∧ (t.blk.bridges.get k).pwDrop = satInc (s.blk.bridges.get k).pwDrop 0xFFFFFFFF
      ∧ p.init ∈ t.blk.breath.pwFailed ∧ t.blk.chans = s.blk.chans ∧ (t.blk.bridges.get k).posted = [] := by
  have hopen := Blk.blockReason_of_joined hjoined hpower
  have hleft := s.blk.linkEmptied_bridge k
  obtain ⟨b1, hdeliver, hslots, hchans, hposted1, hdrop⟩ : ∃ b1 : Blk,
      s.blk.deliverHead k fault = b1.failWrite k p (if fault = none then 4 else 3)
      ∧ b1.slots = s.blk.slots ∧ b1.chans = s.blk.chans ∧ (b1.bridges.get k).posted = []
      ∧ (b1.bridges.get k).pwDrop = (s.blk.bridges.get k).pwDrop := by
    rcases hcause with rfl | ⟨rfl, hmay⟩
    · have hbridge : ((s.blk.linkEmptied k).linkFail k).bridges.get k = _ := vmod_get_self ..
      rw [hleft] at hbridge
      exact ⟨_, Blk.deliverHead_linkFault hposted hopen, rfl, rfl, (congrArg Bridge.posted hbridge :),
        (congrArg Bridge.pwDrop hbridge :)⟩
    · exact ⟨_, Blk.deliverHead_ownerChanged hposted hopen hmay, rfl, rfl, (congrArg Bridge.posted hleft :),
        (congrArg Bridge.pwDrop hleft :)⟩
  obtain ⟨hfail, hbridge, hnoted, hkept⟩ := Blk.failWrite_spec (b := b1) (k := k) (if fault = none then 4 else 3) hslot
    (hslots.symm ▸ hepoch)
  rw [hslots] at hfail
  obtain ⟨hpw, hreason, hcount⟩ : _ ∧ _ ∧ _ := by simpa only [InitSlot.failure, Prod.mk.injEq] using hfail
  refine runs_onMem rfl hdeliver ⟨hpw, hreason, hcount, ?_, hnoted, hkept.trans hchans, ?_⟩
  · exact (congrArg Bridge.pwDrop hbridge).trans (by rw [hdrop])
  · exact (congrArg Bridge.posted hbridge).trans hposted1

/-- With no write ahead of it nothing settles before an ordered access (R181). -/
theorem Blk.settleLink_of_empty {b : Blk} {k : Fin 4} (h : (b.bridges.get k).posted = []) : b.settleLink k = (b, []) := by
  rw [Blk.settleLink, h]; rfl

/-- R178, R189: an aligned acknowledged write through the upper part of a window by who may write there, with the link empty. -/
theorem acknowledgedWrite_alias {i : Initiator} {addr : Word} {k : Fin 4} {n : Fin 10} {b : Blk} (width : Fin 4) (data : BitVec 64)
    (hin : inWindow addr.toNat = true) (hk : winKernel addr.toNat = k) (halias : winPart (addr.toNat % 0x1000000) = .alias_)
    (hpage : winPart (addr.toNat % 0x1000000 - 0xE00000) = .page n) (haligned : aligned addr.toNat width = true)
    (hkernel : b.hasKernel k = true) (hmay : b.mayWrite i k (addr.toNat % 0x1000000) = true)
    (hempty : (b.bridges.get k).posted = []) :
    acknowledgedWrite i addr width data none b =
      (if (b.blockReason k).isSome then b.isolatedAccess
       else (b.arrive i k addr.toNat (laneData addr.toNat width data).1 (laneData addr.toNat width data).2).answer 0, []) := by
  simp only [acknowledgedWrite, hin, hk, halias, hpage, hmay, haligned, hkernel, Blk.settleLink_of_empty hempty, BW.map,
    ne_eq, not_true_eq_false, reduceCtorEq, Bool.true_eq_false, or_self, if_false, Option.isSome_none, Bool.false_eq_true]

theorem acknowledgedWrite_cmdAlias {i : Initiator} {c : Fin 40} (data : BitVec 64) {b : Blk} (hchan : b.hasChan c = true)
    (hreach : b.reaches i c = true) (hempty : (b.bridges.get (kOf c)).posted = []) :
    acknowledgedWrite i (arg32 (cmdAlias c)) 2 data none b =
      (if (b.blockReason (kOf c)).isSome then b.isolatedAccess
       else (b.arrive i (kOf c) (cmdAlias c) (laneData (cmdAlias c) 2 data).1 (laneData (cmdAlias c) 2 data).2).answer 0, []) := by
  obtain ⟨n, hpage⟩ := winPart_behind_cmdAlias c
  have hwrite := acknowledgedWrite_alias (i := i) (addr := arg32 (cmdAlias c)) (k := kOf c) (n := n) (b := b) 2 data
  rw [toNat_cmdAlias] at hwrite
  exact hwrite (inWindow_cmdAlias c) (winKernel_cmdAlias c) (winPart_cmdAlias c) hpage (aligned_cmdAlias c) hchan
    ((mayWrite_cmdAlias c b i).trans hreach) hempty

theorem runs_acknowledgedWrite_arrives (i : Initiator) (c : Fin 40) (data : BitVec 64) (s : State) (hchan : s.blk.hasChan c = true)
    (hreach : s.blk.reaches i c = true) (hempty : (s.blk.bridges.get (kOf c)).posted = [])
    (hopen : s.blk.windowOpen (kOf c) = true) (hlead : s.blk.isFollower c = false) (hearly : s.blk.inGuard = false) :
    Safety.runs (.acknowledgedWrite i (arg32 (pageBase c + 0xE00000)) 2 data none) s fun t =>
      (t.blk.ch c).shadow = { (s.blk.ch c).shadow with cmd := (data.truncate 32) &&& 0x03FF0003 }
      ∧ t.blk.reply = { data := 0, fault := false, isolated := false } ∧ (∀ d : Fin 40, d ≠ c → t.blk.ch d = s.blk.ch d)
      ∧ t.blk = { s.blk with chans := t.blk.chans, reply := t.blk.reply } ∧ t.mem = s.mem := by
  have heq := cmdAlias_eq c
  obtain ⟨hjoined, hpower⟩ := Bool.and_eq_true_iff.1 hopen
  have hfree : (s.blk.blockReason (kOf c)).isSome = false := by
    rw [Blk.blockReason_of_joined (of_decide_eq_true hjoined) hpower]; rfl
  obtain ⟨hword, hbytes⟩ := laneData_low (cmdAlias c) data (by omega)
  have hwin : (cmdAlias c - winBase (kOf c)) % 0x1000000 % 0xE00000 = 0x10000 + c.val % 10 * 0x1000 := by
    rw [cmdAlias, pageBase]; omega
  have hwrite := acknowledgedWrite_cmdAlias data hchan hreach hempty
  rw [hfree, if_neg (by decide), Blk.arrive_command i _ hwin hbytes hlead hearly, hword] at hwrite
  refine runs_onMem rfl hwrite ?_
  dsimp only
  rw [Blk.heal_nil]
  exact ⟨(congrArg Channel.shadow (Blk.modCh_ch ..) :), rfl, fun d hd => Blk.modCh_ch_ne _ _ _ _ hd.symm, rfl, rfl⟩

theorem runs_acknowledgedWrite_isolated (i : Initiator) (c : Fin 40) (data : BitVec 64) (s : State)
    (hchan : s.blk.hasChan c = true) (hreach : s.blk.reaches i c = true) (hempty : (s.blk.bridges.get (kOf c)).posted = [])
    (hisolated : (s.blk.bridges.get (kOf c)).state = .isolated) :
    Safety.runs (.acknowledgedWrite i (arg32 (pageBase c + 0xE00000)) 2 data none) s fun t =>
      t.blk = { s.blk with reply := { data := 0, fault := true, isolated := true } } ∧ t.mem = s.mem := by
  have hblocked : (s.blk.blockReason (kOf c)).isSome = true := by rw [Blk.blockReason, hisolated]; rfl
  have hwrite := acknowledgedWrite_cmdAlias data hchan hreach hempty
  rw [hblocked, if_pos rfl] at hwrite
  exact runs_onMem rfl hwrite ⟨Blk.heal_nil _, rfl⟩

/-- R184: a fence read of an initiator that may write there answers its summary, or waits for its posted writes. -/
theorem fenceRead_cmdAlias {i : Initiator} {n : Fin 10} {c : Fin 40} {b : Blk} (hchan : b.hasChan c = true)
    (hslot : slotOf i = some n) (hreach : b.reaches i c = true) :
    fenceRead i (arg32 (cmdAlias c)) b =
      if b.outstanding i = 0 then b.answer (b.slots.get n).summary else b.modSlot n fun s => { s with fence := true } := by
  obtain ⟨m, hpage⟩ := winPart_behind_cmdAlias c
  have hkernel : b.hasKernel (kOf c) = true := hchan
  unfold fenceRead
  rw [toNat_cmdAlias]
  dsimp only
  rw [winKernel_cmdAlias, inWindow_cmdAlias, winPart_cmdAlias, hpage, mayWrite_cmdAlias, hreach, hkernel, hslot,
    if_neg (by decide), if_neg (by decide)]
  exact if_neg (by decide)

theorem runs_fenceRead (i : Initiator) (n : Fin 10) (c : Fin 40) (s : State) (hchan : s.blk.hasChan c = true)
    (hslot : slotOf i = some n) (hreach : s.blk.reaches i c = true) :
    (s.blk.outstanding i = 0 → Safety.runs (.fenceRead i (arg32 (pageBase c + 0xE00000))) s fun t =>
      t.blk = { s.blk with reply := { data := BitVec.ofNat 64 (s.blk.slots.get n).summary, fault := false, isolated := false } }
      ∧ t.mem = s.mem) ∧
    (s.blk.outstanding i ≠ 0 → Safety.runs (.fenceRead i (arg32 (pageBase c + 0xE00000))) s fun t =>
      (t.blk.slots.get n).fence = true ∧ t.blk = { s.blk with slots := t.blk.slots } ∧ t.mem = s.mem) := by
  have hread := fenceRead_cmdAlias hchan hslot hreach
  refine ⟨fun hnone => runs_onBlk rfl (hread.trans (if_pos hnone)) ⟨rfl, rfl⟩, fun hsome =>
    runs_onBlk rfl (hread.trans (if_neg hsome)) ⟨?_, rfl, rfl⟩⟩
  exact (congrArg InitSlot.fence (vmod_get_self ..) :)

theorem runs_fenceComplete (i : Initiator) (n : Fin 10) (s : State) (hslot : slotOf i = some n)
    (hfence : (s.blk.slots.get n).fence = true) (hnone : s.blk.outstanding i = 0) :
    Safety.runs (.fenceComplete i) s fun t =>
      t.blk.reply = { data := BitVec.ofNat 64 (s.blk.slots.get n).summary, fault := false, isolated := false }
      ∧ t.blk.slots.get n = { s.blk.slots.get n with fence := false }
      ∧ t.blk = { s.blk with slots := t.blk.slots, reply := t.blk.reply } ∧ t.mem = s.mem := by
  have hcomplete : fenceComplete i s.blk =
      (s.blk.modSlot n fun x => { x with fence := false }).answer (s.blk.slots.get n).summary := by
    unfold fenceComplete
    rw [hslot]
    exact if_neg (by simp [hfence, hnone])
  exact runs_onBlk rfl hcomplete ⟨rfl, vmod_get_self .., rfl, rfl⟩

/-- Settles O26: posted writes that arrive or fail, acknowledged writes, and fences. -/
theorem writesAndFencesCrossTheBridge : Obligations.WritesAndFencesCrossTheBridge :=
  ⟨runs_postedWriteDelivered_arrives, runs_postedWriteDelivered_fails, runs_acknowledgedWrite_arrives,
    runs_acknowledgedWrite_isolated, runs_fenceRead, runs_fenceComplete⟩

end Sys2Proof.Machine
end

section
/-! SUPPORT. One fault of a channel (R133, R134, R137, R138, R143), its current limiting (R132) and its inrush window (R136). -/

namespace Sys2Proof.Machine
open Sys2Proof

/-! ### States and windows -/

/-- Entering a state touches the state and the clean timer alone (R140). -/
theorem Channel.enter_eq (ch : Channel) (p : Prot) (now : BitVec 64) :
    ch.enter p now =
      { ch with prot := p, cleanFrom := (ch.enter p now).cleanFrom, cleanAcc := (ch.enter p now).cleanAcc } := by
  unfold Channel.enter; split <;> rfl

/-- The end of a window (R136): the window is closed, and besides it only its freeze and its quick retries are forgotten. -/
theorem Blk.closeWindow_ch (b : Blk) (l : Fin 40) (exhausted : Bool) :
    (b.closeWindow l exhausted).ch l =
      { b.ch l with winOpen := false, winFrozen := ((b.closeWindow l exhausted).ch l).winFrozen,
                    quickUsed := ((b.closeWindow l exhausted).ch l).quickUsed } := by
  have hclosed (t : Blk)
      (ht : t.chans = (b.modCh l fun ch => { ch with winOpen := false, winFrozen := none, quickUsed := 0 }).chans) :
      t.ch l = { b.ch l with winOpen := false, winFrozen := (t.ch l).winFrozen, quickUsed := (t.ch l).quickUsed } := by
    have hch : t.ch l = { b.ch l with winOpen := false, winFrozen := none, quickUsed := 0 } := by
      rw [Blk.ch, ht]; exact Blk.modCh_ch ..
    rw [hch]
  unfold Blk.closeWindow
  dsimp only
  split
  · rename_i hshut
    exact hshut ▸ rfl
  · refine hclosed _ ?_
    repeat' split
    all_goals rfl

/-! ### The decision after a fault (R138) -/

/-- Whether the counted faults of a channel set its retry latch. -/
def Channel.retryDue (ch : Channel) : Bool := decide (ch.latchAfter ≤ ch.faultCount)

/-- Whether the counted thermal events of a channel set its thermal latch after a fault. -/
def Channel.thermDue (ch : Channel) (thermal : Bool) : Bool := thermal && decide (ch.thermAfter ≤ ch.thermCount)

/-- The channel in the pause that its fault count gives it. -/
def Channel.paused (ch : Channel) (thermal : Bool) (now : BitVec 64) : Channel :=
  { ch.enter (if thermal then .thermal else .pause) now with
    pauseRun := true, pauseStart := now, pauseLen := ch.pauseMs ch.faultCount }

/-- The channel that the decision of R138 leaves. -/
def Channel.decided (ch : Channel) (thermal : Bool) (now : BitVec 64) : Channel :=
  if (ch.retryDue || ch.thermDue thermal) = true then ch.latched ch.retryDue (ch.thermDue thermal) false now
  else ch.paused thermal now

theorem Blk.decideFault_eq_decided (b : Blk) (l : Fin 40) (thermal : Bool) :
    (b.decideFault l thermal).ch l = (b.ch l).decided thermal b.time.dt := by
  have hcond : ((b.ch l).retryDue = true ∨ (b.ch l).thermDue thermal = true) ↔
      ((b.ch l).retryDue || (b.ch l).thermDue thermal) = true := by simp
  unfold Blk.decideFault Channel.decided
  extract_lets ch r t p b1
  have hr : r = ch.retryDue := rfl
  have ht : t = ch.thermDue thermal := rfl
  rw [hr, ht]
  by_cases hdue : (ch.retryDue || ch.thermDue thermal) = true
  · rw [if_pos (hcond.2 hdue), if_pos hdue, Blk.latch_ch, Blk.modCh_ch]
  · rw [if_neg (fun h => hdue (hcond.1 h)), if_neg hdue]
    exact Blk.modCh_ch ..

/-- Either way the store of the channel's kernel is to be written (R155). -/
theorem Blk.decideFault_protDirty (b : Blk) (l : Fin 40) (thermal : Bool) :
    ((b.decideFault l thermal).kn (kOf l)).protDirty = true := by
  have hdirty (a : Blk) (code : Nat) (arg : Word) (pin : Bool) (sev : Nat) :
      (((a.protDirty l).chev l code sev arg pin).kn (kOf l)).protDirty = true := by
    rw [Blk.chev, Blk.kev_kn, Blk.protDirty, Blk.modK_kn]
  unfold Blk.decideFault
  dsimp only
  split
  · rw [Blk.latch_eq]
    exact hdirty ..
  · exact hdirty ..

/-! ### One fault (R137) -/

/-- The channel that a fault turns off, with its counters raised, before the decision of R138. -/
def Channel.tripped (ch : Channel) (cause : Cause) (thermal : Bool) (seen : Nat) : Channel :=
  { ch.outputOff with
    faultCount := satInc ch.faultCount 31, thermCount := if thermal then satInc ch.thermCount 15 else ch.thermCount,
    cause := cause, thermTrip := ch.thermTrip || thermal, unstored := true, cleanFrom := none, cleanAcc := 0,
    protSticky := orBits ch.protSticky seen }

section
variable (b : Blk) (l : Fin 40) (cause : Cause) (thermal : Bool) (seen : Nat) {record : Blk → Channel → Blk}
  (hrecord : ∀ a ch, Blk.Works l a (record a ch) ∧ (record a ch).ch l = a.ch l)
include hrecord

/-- A fault turns the channel off and counts, closes its window, and decides. -/
theorem Blk.fault_eq_decided : ∃ frozen used, (b.fault l cause thermal seen record).ch l =
    Channel.decided { (b.ch l).tripped cause thermal seen with winOpen := false, winFrozen := frozen, quickUsed := used }
      thermal b.time.dt := by
  unfold Blk.fault
  extract_lets exhausted b1 b2 b3
  obtain ⟨hspares, hb1⟩ := b.stretchNeighbours_spares l
  obtain ⟨hworks, hb3⟩ := hrecord b2 (b2.ch l)
  have hb2 : b2.ch l = (b.ch l).tripped cause thermal seen := (Blk.modCh_ch ..).trans (congrArg (·.tripped cause thermal seen) hb1)
  have htime : (b3.closeWindow l exhausted).time = b.time :=
    (congrArg Blk.time (hworks.trans (b3.works_closeWindow l exhausted)).blk).trans (congrArg Blk.time hspares.blk :)
  refine ⟨((b3.closeWindow l exhausted).ch l).winFrozen, ((b3.closeWindow l exhausted).ch l).quickUsed, ?_⟩
  rw [Blk.decideFault_eq_decided, Blk.closeWindow_ch, hb3, hb2, htime]

theorem Safety.faulted_fault : Safety.faulted b (b.fault l cause thermal seen record) l cause thermal := by
  have hspares := b.spares_fault l cause thermal seen fun a ch => (hrecord a ch).1
  obtain ⟨-, hoff⟩ := b.fault_ch l cause thermal seen fun a ch => (hrecord a ch).1
  have hdirty : ((b.fault l cause thermal seen record).kn (kOf l)).protDirty = true := Blk.decideFault_protDirty ..
  obtain ⟨frozen, used, hch⟩ := b.fault_eq_decided l cause thermal seen hrecord
  generalize b.fault l cause thermal seen record = t at hspares hoff hdirty hch ⊢
  have hother (d : Fin 40) (hd : d ≠ l) :
      t.ch d = { b.ch d with stretch := (t.ch d).stretch, protSticky := (t.ch d).protSticky } :=
    congrArg (fun ch : Channel => { ch with stretch := (t.ch d).stretch, protSticky := (t.ch d).protSticky }) (hspares.ch d hd)
  generalize hx : ({ (b.ch l).tripped cause thermal seen with winOpen := false, winFrozen := frozen, quickUsed := used } :
    Channel) = x at hch
  have hr : decide ((b.ch l).latchAfter ≤ satInc (b.ch l).faultCount 31) = x.retryDue := by subst hx; rfl
  have ht : (thermal && decide ((b.ch l).thermAfter ≤
      if thermal then satInc (b.ch l).thermCount 15 else (b.ch l).thermCount)) = x.thermDue thermal := by subst hx; rfl
  unfold Safety.faulted
  dsimp only
  rw [hr, ht]
  by_cases hdue : (x.retryDue || x.thermDue thermal) = true
  · have hlatched : t.ch l = x.latched x.retryDue (x.thermDue thermal) false b.time.dt := hch.trans (if_pos hdue)
    rw [Channel.latched, Channel.enter_eq] at hlatched
    rw [hlatched] at hoff ⊢
    subst hx
    exact ⟨rfl, rfl, hoff, rfl, rfl, hdirty, fun _ => ⟨rfl, rfl, rfl, rfl⟩, fun h => absurd (hdue.symm.trans h) (by decide),
      Bool.or_false _, rfl, hother, hspares.blk⟩
  · have hpaused : t.ch l = x.paused thermal b.time.dt := hch.trans (if_neg hdue)
    rw [Channel.paused, Channel.enter_eq] at hpaused
    rw [hpaused] at hoff ⊢
    subst hx
    exact ⟨rfl, rfl, hoff, rfl, rfl, hdirty, fun h => absurd h hdue, fun _ => ⟨rfl, rfl, rfl, rfl, rfl, rfl, rfl⟩,
      rfl, rfl, hother, hspares.blk⟩

end

/-- A fault whose record names the channel `c` of the report (R160). -/
theorem Safety.faulted_fault_chev (b : Blk) (l c : Fin 40) (cause : Cause) (thermal : Bool) (seen code sev : Nat)
    (arg : Channel → Word) :
    Safety.faulted b (b.fault l cause thermal seen fun a ch => a.chev c code sev (arg ch)) l cause thermal :=
  Safety.faulted_fault b l cause thermal seen fun a _ => ⟨Blk.Frame.kev (ψ := id) (Blk.Works.refl l a) .., rfl⟩

/-- A command that is a fault recorded for the channel `d` of the report. -/
theorem runs_fault {i : Instr} {s : State} {f : Blk → Blk} {l d : Fin 40} {cause : Cause} {thermal : Bool} {seen code sev : Nat}
    {arg : Channel → Word} (hexec : exec i s = .next (s.onBlk f))
    (hfault : f s.blk = s.blk.fault l cause thermal seen fun a ch => a.chev d code sev (arg ch)) :
    Safety.runs i s fun t => t.mem = s.mem ∧ Safety.faulted s.blk t.blk l cause thermal :=
  runs_onBlk hexec hfault ⟨rfl, Safety.faulted_fault_chev s.blk l d cause thermal seen code sev arg⟩

/-! ### Hard shorts and trips (R133, R134, R143) -/

theorem runs_hardShort_fault (c : Fin 40) (critB : Bool) (peak : BitVec 16) (s : State) (hruns : s.blk.kernelRuns (kOf c) = true)
    (hon : (s.blk.ch (s.blk.lead c)).conducting = true) (hcrit : critB = true → (s.blk.ch (s.blk.lead c)).prot = .limiting)
    (hcounts : ¬ ((s.blk.ch (s.blk.lead c)).winOpen = true ∧ 0 < (s.blk.ch (s.blk.lead c)).burstLeft
        ∧ ((s.blk.ch (s.blk.lead c)).prot = .inrush ∨ (s.blk.ch (s.blk.lead c)).prot = .limiting))) :
    Safety.runs (.hardShort c critB peak) s fun t => t.mem = s.mem ∧
      Safety.faulted s.blk t.blk (s.blk.lead c) (if critB then .shortB else .shortA) false := by
  have hshort : hardShort c critB peak s.blk =
      s.blk.fault (s.blk.lead c) (if critB then .shortB else .shortA) false 1 fun b ch =>
        b.chev c 0x40 3 (arg32 (b2n critB + 2 * b2n (s.blk.ch (s.blk.lead c)).winOpen + ch.faultCount * 256 + peak.toNat * 65536)) := by
    unfold hardShort
    dsimp only
    rw [if_neg (by simpa [hruns, hon] using hcrit), if_neg hcounts]
  exact runs_fault rfl hshort

theorem runs_overcurrentTrip (c : Fin 40) (mean : BitVec 16) (s : State) (hlim : (s.blk.ch (s.blk.lead c)).prot = .limiting)
    (hshut : (s.blk.ch (s.blk.lead c)).winOpen = false) :
    Safety.runs (.overcurrentTrip c mean) s fun t =>
      t.mem = s.mem ∧ Safety.faulted s.blk t.blk (s.blk.lead c) .limitTime false := by
  have htrip : overcurrentTrip c mean s.blk = s.blk.fault (s.blk.lead c) .limitTime false 2 fun b ch =>
      b.chev c 0x41 3 (arg32 (ch.faultCount * 256 + mean.toNat * 65536)) := if_neg (by simp [hlim, hshut])
  exact runs_fault rfl htrip

/-- What a fault does to a channel does not turn on whether its junction blocks it. -/
theorem Safety.faulted_of_tjBlock {b t : Blk} {l : Fin 40} {cause : Cause} {thermal : Bool}
    (h : Safety.faulted (b.modCh l fun ch => { ch with tjBlock := true }) t l cause thermal) :
    Safety.faulted b t l cause thermal := by
  unfold Safety.faulted at h ⊢
  rw [Blk.modCh_ch] at h
  obtain ⟨hfault, htherm, hoff, hwin, hstore, hdirty, hlatched, hpaused, harc, happl, hother, hblk⟩ := h
  exact ⟨hfault, htherm, hoff, hwin, hstore, hdirty, hlatched, hpaused, harc, happl,
    fun d hd => by rw [hother d hd, Blk.modCh_ch_ne _ _ _ _ hd.symm], hblk⟩

theorem runs_thermalTrip (c : Fin 40) (tj : BitVec 16) (s : State) (hon : (s.blk.ch (s.blk.lead c)).conducting = true) :
    Safety.runs (.thermalTrip c tj) s fun t => t.mem = s.mem ∧ Safety.faulted s.blk t.blk (s.blk.lead c) .junction true
      ∧ (t.blk.ch (s.blk.lead c)).tjBlock = true := by
  have htrip : thermalTrip c tj s.blk =
      (s.blk.modCh (s.blk.lead c) fun ch => { ch with tjBlock := true }).fault (s.blk.lead c) .junction true 4 fun b ch =>
        b.chev c 0x45 3 (arg32 (tj.toNat + ch.faultCount * 65536 + ch.thermCount * 16777216)) := if_neg (by simp [hon])
  refine runs_onBlk rfl htrip ⟨rfl, Safety.faulted_of_tjBlock ?_, ?_⟩
  · dsimp only
    exact Safety.faulted_fault_chev _ _ _ _ _ _ _ _ _
  · obtain ⟨hrest, -⟩ := Blk.fault_ch (s.blk.modCh (s.blk.lead c) fun ch => { ch with tjBlock := true }) (s.blk.lead c) .junction
      true 4 (record := fun b ch => b.chev c 0x45 3 (arg32 (tj.toNat + ch.faultCount * 65536 + ch.thermCount * 16777216)))
      fun a _ => Blk.Frame.kev (ψ := id) (Blk.Works.refl (s.blk.lead c) a) ..
    rw [Blk.modCh_ch] at hrest
    exact Channel.eq_of_unlatched Channel.tjBlock hrest

/-! ### Current limiting (R132) -/

theorem runs_limitingEntry (c : Fin 40) (s : State)
    (hp : (s.blk.ch (s.blk.lead c)).prot = .on ∨ (s.blk.ch (s.blk.lead c)).prot = .inrush)
    (hquick : (s.blk.ch (s.blk.lead c)).quickOff = false) : Safety.runs (.limitingEntry c) s fun t =>
      (t.blk.ch (s.blk.lead c)).prot = .limiting ∧ (t.blk.ch (s.blk.lead c)).conducting = true
      ∧ (t.blk.ch (s.blk.lead c)).limRun = (if (s.blk.ch (s.blk.lead c)).winOpen then none else some s.blk.time.dt)
      ∧ (∀ d : Fin 40, d ≠ s.blk.lead c → t.blk.ch d = s.blk.ch d) ∧ t.blk = { s.blk with chans := t.blk.chans } ∧ t.mem = s.mem := by
  refine runs_onBlk rfl (if_pos ⟨hp, hquick⟩) ⟨?_, ?_, ?_, fun d hd => Blk.modCh_ch_ne _ _ _ _ hd.symm, rfl, rfl⟩ <;>
    rw [Blk.modCh_ch, Channel.enter_eq]
  simp [Channel.conducting, hquick]

theorem runs_limitingExit (c : Fin 40) (s : State) (hlim : (s.blk.ch (s.blk.lead c)).prot = .limiting) :
    Safety.runs (.limitingExit c) s fun t =>
      (t.blk.ch (s.blk.lead c)).prot = (if (s.blk.ch (s.blk.lead c)).winOpen then .inrush else .on)
      ∧ (t.blk.ch (s.blk.lead c)).limRun = none
      ∧ (cmdMode (s.blk.ch (s.blk.lead c)).applied.cmd ≠ 2 → (s.blk.ch (s.blk.lead c)).ramping = false →
          (t.blk.ch (s.blk.lead c)).limAcc = 0)
      ∧ (∀ d : Fin 40, d ≠ s.blk.lead c → t.blk.ch d = s.blk.ch d) ∧ t.blk = { s.blk with chans := t.blk.chans } ∧ t.mem = s.mem := by
  refine runs_onBlk rfl (if_pos hlim) ⟨?_, ?_, fun hstatic hramp => ?_, fun d hd => Blk.modCh_ch_ne _ _ _ _ hd.symm, rfl, rfl⟩ <;>
    rw [Blk.modCh_ch]
  · exact Channel.enter_prot ..
  · exact if_neg (by simp [Channel.sumsLimit, hstatic, hramp])

/-! ### Inrush windows (R136) -/

/-- A stretch of windows touches the channels alone. -/
theorem Blk.stretchNeighbours_eq (b : Blk) (l : Fin 40) :
    b.stretchNeighbours l = { b with chans := (b.stretchNeighbours l).chans } := by
  unfold Blk.stretchNeighbours
  dsimp only
  split
  · refine List.foldlRecOn (motive := fun a : Blk => a = { b with chans := a.chans }) _ _ rfl fun a ha c _ => ?_
    split
    · exact ha
    · exact congrArg (fun x : Blk => x.modCh c (·.stretchBy (b.ch l).limStart a.time.dt)) ha
  · rfl

theorem runs_hardShort_quickRetry (c : Fin 40) (critB : Bool) (peak : BitVec 16) (s : State)
    (hruns : s.blk.kernelRuns (kOf c) = true) (hon : (s.blk.ch (s.blk.lead c)).conducting = true)
    (hcrit : critB = true → (s.blk.ch (s.blk.lead c)).prot = .limiting)
    (hopen : (s.blk.ch (s.blk.lead c)).winOpen = true) (hburst : 0 < (s.blk.ch (s.blk.lead c)).burstLeft)
    (hp : (s.blk.ch (s.blk.lead c)).prot = .inrush ∨ (s.blk.ch (s.blk.lead c)).prot = .limiting) :
    Safety.runs (.hardShort c critB peak) s fun t =>
      (t.blk.ch (s.blk.lead c)).prot = .inrush ∧ (t.blk.ch (s.blk.lead c)).quickOff = true ∧ (t.blk.ch (s.blk.lead c)).conducting = false
      ∧ (t.blk.ch (s.blk.lead c)).burstLeft + 1 = (s.blk.ch (s.blk.lead c)).burstLeft ∧ (t.blk.ch (s.blk.lead c)).winOpen = true
      ∧ (t.blk.ch (s.blk.lead c)).faultCount = (s.blk.ch (s.blk.lead c)).faultCount
      ∧ t.blk = { s.blk with chans := t.blk.chans } ∧ t.mem = s.mem := by
  have hshort : hardShort c critB peak s.blk = (s.blk.stretchNeighbours (s.blk.lead c)).modCh (s.blk.lead c) fun ch =>
      { ch.enter .inrush s.blk.time.dt with
        quickOff := true, burstLeft := ch.burstLeft - 1, quickUsed := ch.quickUsed + 1,
        cause := if critB then Cause.shortB else Cause.shortA, limRun := none, protSticky := orBits ch.protSticky 1 } := by
    unfold hardShort
    dsimp only
    rw [if_neg (by simpa [hruns, hon] using hcrit), if_pos ⟨hopen, hburst, hp⟩]
  obtain ⟨-, hsame⟩ := s.blk.stretchNeighbours_spares (s.blk.lead c)
  refine runs_onBlk rfl hshort ⟨?_, ?_, ?_, ?_, ?_, ?_,
    congrArg (fun x : Blk => x.modCh _ _) (s.blk.stretchNeighbours_eq (s.blk.lead c)), rfl⟩ <;>
    rw [Blk.modCh_ch, hsame, Channel.enter_eq]
  · simp [Channel.conducting]
  · exact Nat.succ_pred_eq_of_pos hburst
  · exact hopen

theorem runs_quickRetryOn (c : Fin 40) (s : State) (hquick : (s.blk.ch (s.blk.lead c)).quickOff = true)
    (hp : (s.blk.ch (s.blk.lead c)).prot = .inrush) (hsurge : (s.blk.kn (kOf (s.blk.lead c))).surge = false) :
    Safety.runs (.quickRetryOn c) s fun t =>
      t.blk.ch (s.blk.lead c) = { s.blk.ch (s.blk.lead c) with quickOff := false }
      ∧ (∀ d : Fin 40, d ≠ s.blk.lead c → t.blk.ch d = s.blk.ch d) ∧ t.blk = { s.blk with chans := t.blk.chans } ∧ t.mem = s.mem := by
  have hturnOn : quickRetryOn c s.blk = s.blk.modCh (s.blk.lead c) fun ch => { ch with quickOff := false } := by
    unfold quickRetryOn
    dsimp only
    rw [if_neg (by simp [hquick, hp]), if_neg (by simp [hsurge])]
  exact runs_onBlk rfl hturnOn ⟨Blk.modCh_ch .., fun _ hd => Blk.modCh_ch_ne _ _ _ _ hd.symm, rfl, rfl⟩

theorem runs_inrushWindowEnd (c : Fin 40) (s : State) (hopen : (s.blk.ch (s.blk.lead c)).winOpen = true)
    (hthawed : (s.blk.ch (s.blk.lead c)).winFrozen = none) :
    Safety.runs (.inrushWindowEnd c) s fun t => (t.blk.ch (s.blk.lead c)).winOpen = false
      ∧ ((s.blk.ch (s.blk.lead c)).prot = .inrush → (t.blk.ch (s.blk.lead c)).prot = .on)
      ∧ ((s.blk.ch (s.blk.lead c)).prot = .limiting → (t.blk.ch (s.blk.lead c)).prot = .limiting ∧ (t.blk.ch (s.blk.lead c)).limAcc = 0
          ∧ (t.blk.ch (s.blk.lead c)).limRun = some s.blk.time.dt)
      ∧ (∀ d : Fin 40, d ≠ s.blk.lead c → t.blk.ch d = s.blk.ch d)
      ∧ t.blk = { s.blk with chans := t.blk.chans, kernels := t.blk.kernels } ∧ t.mem = s.mem := by
  have hend : inrushWindowEnd c s.blk =
      let b := s.blk.closeWindow (s.blk.lead c) false
      match (s.blk.ch (s.blk.lead c)).prot with
      | .limiting => b.modCh (s.blk.lead c) fun ch => { ch with limAcc := 0, limRun := some s.blk.time.dt }
      | .inrush => b.enter (s.blk.lead c) .on
      | _ => b := if_neg (by simp [hopen, hthawed])
  have hch := s.blk.closeWindow_ch (s.blk.lead c) false
  have hworks := s.blk.works_closeWindow (s.blk.lead c) false
  have hshut : ((s.blk.closeWindow (s.blk.lead c) false).ch (s.blk.lead c)).winOpen = false := congrArg Channel.winOpen hch
  refine runs_onBlk rfl hend ?_
  generalize s.blk.closeWindow (s.blk.lead c) false = b at hch hworks hshut ⊢
  dsimp only
  split
  case h_1 hp =>
    have hlim := hworks.modCh (f := fun ch => { ch with limAcc := 0, limRun := some s.blk.time.dt }) rfl
    refine ⟨?_, fun h => absurd (h.symm.trans hp) (by decide), fun _ => ⟨?_, ?_, ?_⟩, hlim.ch, hlim.blk, rfl⟩ <;>
      rw [Blk.modCh_ch]
    · exact hshut
    · exact (congrArg Channel.prot hch).trans hp
  case h_2 hp =>
    have hon := hworks.enter .on
    refine ⟨?_, fun _ => ?_, fun h => absurd (h.symm.trans hp) (by decide), hon.ch, hon.blk, rfl⟩ <;>
      rw [Blk.enter, Blk.modCh_ch, Channel.enter_eq]
    exact hshut
  case h_3 hnotLim hnotInrush =>
    exact ⟨hshut, fun h => absurd h hnotInrush, fun h => absurd h hnotLim, hworks.ch, hworks.blk, rfl⟩

/-- Settles O15: the three faults, limiting, the quick retry, and the end of a window. -/
theorem faultsRetriesAndLimits : Obligations.FaultsRetriesAndLimits :=
  ⟨runs_hardShort_fault, runs_overcurrentTrip, runs_thermalTrip, runs_limitingEntry, runs_limitingExit,
    runs_hardShort_quickRetry, runs_quickRetryOn, runs_inrushWindowEnd⟩

end Sys2Proof.Machine
end

section
/-! SUPPORT. Supply faults of a kernel and their ends (R144, R148 to R150), and kernels without power (R149, R151). -/

namespace Sys2Proof.Machine
open Sys2Proof

/-! ### Room for records (R74) -/

/-- The records that a kernel has to hand over: those that it holds, and the one of those that it lost. -/
def Kernel.due (kn : Kernel) : Nat := kn.buf.length + if kn.bufLost = 0 then 0 else 1

theorem Kernel.due_le (kn : Kernel) : kn.due ≤ kn.buf.length + 1 := by
  unfold Kernel.due; split <;> omega

/-- A record adds one at most, also where it goes behind the record of the lost ones. -/
theorem Blk.kev_due_le (b : Blk) (k : Fin 4) (src : BitVec 16) (code sev : Nat) (arg : Word) (tn : Byte) (pin : Bool) (fl : Nat)
    (j : Fin 4) : ((b.kev k src code sev arg tn pin fl).kn j).due ≤ (b.kn j).due + 1 := by
  unfold Blk.kev
  by_cases hj : k = j
  · subst hj
    rw [Blk.modK_kn]
    split
    · rename_i hlost
      simp only [Bool.and_eq_true, decide_eq_true_eq] at hlost
      simp [Kernel.due, Nat.pos_iff_ne_zero.1 hlost.1]
    · split
      · rename_i hroom
        simp only [Bool.and_eq_true, decide_eq_true_eq] at hroom
        simp [Kernel.due, hroom.1]
      · exact (Kernel.due_le _).trans (Nat.succ_le_succ (Nat.le_add_right ..))
  · rw [Blk.modK_kn_ne _ _ _ _ hj]
    exact Nat.le_succ _

/-- The end of a window adds the records of its quick retries and of its stretch at most. -/
theorem Blk.closeWindow_due_le (b : Blk) (l : Fin 40) (exhausted : Bool) (k : Fin 4) :
    ((b.closeWindow l exhausted).kn k).due ≤ (b.kn k).due + 2 := by
  have hchev (a : Blk) (code sev : Nat) (arg : Word) : ((a.chev l code sev arg).kn k).due ≤ (a.kn k).due + 1 := Blk.kev_due_le ..
  unfold Blk.closeWindow
  extract_lets ch b1 b2
  have hb1 : b1.kn k = b.kn k := rfl
  have hb2 : (b2.kn k).due ≤ (b.kn k).due + 1 := by
    unfold b2
    split
    · rw [hb1]; exact Nat.le_succ _
    · exact hb1 ▸ hchev ..
  split
  · exact Nat.le_add_right ..
  · split
    · exact hb2.trans (Nat.le_succ _)
    · exact (hchev ..).trans (Nat.succ_le_succ hb2)

/-- A measure that each turn of a fold raises by `n` at most. -/
theorem foldl_measure_le {α β : Type} (m : α → Nat) (f : α → β → α) (n : Nat) (h : ∀ a x, m (f a x) ≤ m a + n) :
    ∀ (l : List β) (a : α), m (l.foldl f a) ≤ m a + n * l.length
  | [], a => Nat.le_add_right ..
  | x :: l, a => by
    have hturn := h a x
    have hrest := foldl_measure_le m f n h l (f a x)
    rw [List.foldl_cons, List.length_cons, Nat.mul_succ]
    omega

/-- A fold over the channels of a kernel leaves each of them as its own turn does, where no turn touches another channel. -/
theorem foldl_chansOf_ch (f : Blk → Fin 40 → Blk) (b : Blk) {k : Fin 4} {c : Fin 40} (hc : c ∈ chansOf k)
    (hother : ∀ d a, d ≠ c → (f a d).ch c = a.ch c) :
    ∃ a : Blk, a.ch c = b.ch c ∧ ((chansOf k).foldl f b).ch c = (f a c).ch c :=
  foldl_own_turn id (Blk.ch · c) f b (by simpa using nodup_chansOf k) hc hother

/-! ### A supply fault at one channel (R144, R148, R149) -/

/-- What a supply fault does to one channel of its kernel. -/
def Blk.supplyTurn (thermal : Bool) (b : Blk) (c : Fin 40) : Blk :=
  let ch := b.ch c
  if b.isFollower c ∨ ch.prot = .latched then b
  else
    let on := ch.conducting || ch.wantsOn
    let b1 := if ch.conducting ∨ ch.prot = .inrush ∨ ch.prot = .on ∨ ch.prot = .limiting then
        (b.modCh c Channel.outputOff).closeWindow c false else b
    let b2 := if thermal then b1 else b1.protSeen c 7
    if on = false then b2
    else if ¬ thermal ∧ ch.prot = .thermal then b2
    else (b2.enter c (if thermal then .thermal else .pause)).modCh c fun ch =>
      { ch with supWait := true, winForce := true, shutdownActive := false }

theorem Blk.supplyOff_eq_foldl (b : Blk) (k : Fin 4) (thermal : Bool) :
    b.supplyOff k thermal = (chansOf k).foldl (Blk.supplyTurn thermal) b := rfl

section
variable (thermal : Bool) (b : Blk) (c : Fin 40)

theorem Blk.works_supplyTurn : b.Works c (b.supplyTurn thermal c) := by
  unfold Blk.supplyTurn
  extract_lets ch on b1 b2
  have hb1 : b.Works c b1 := .ite (((Blk.Works.refl c b).modCh rfl).trans (Blk.works_closeWindow ..)) (.refl c b)
  have hb2 : b.Works c b2 := .ite hb1 (hb1.modCh rfl)
  exact .ite (.refl c b) (.ite hb2 (.ite hb2 ((hb2.enter _).modCh rfl)))

theorem Blk.supplyTurn_due_le (k : Fin 4) : ((b.supplyTurn thermal c).kn k).due ≤ (b.kn k).due + 2 := by
  unfold Blk.supplyTurn
  extract_lets ch on b1 b2
  have hb1 : (b1.kn k).due ≤ (b.kn k).due + 2 := by
    unfold b1
    split
    · exact Blk.closeWindow_due_le ..
    · exact Nat.le_add_right ..
  have hb2 : b2.kn k = b1.kn k := by
    unfold b2; split <;> rfl
  rw [← hb2] at hb1
  repeat' split
  · exact Nat.le_add_right ..
  all_goals exact hb1

variable {thermal b c}

theorem Blk.supplyTurn_of_latched (hp : (b.ch c).prot = .latched) : b.supplyTurn thermal c = b := if_pos (.inr hp)

/-- A channel that is on, or commanded on, waits for the supply; in THERMAL only kernel overtemperature has it wait. -/
theorem Blk.supplyTurn_waits (hlead : b.isFollower c = false) (hp : (b.ch c).prot ≠ .latched)
    (hon : ((b.ch c).conducting || (b.ch c).wantsOn) = true) (hcool : thermal = false → (b.ch c).prot ≠ .thermal) :
    ((b.supplyTurn thermal c).ch c).prot = (if thermal then .thermal else .pause) ∧ ((b.supplyTurn thermal c).ch c).supWait = true
    ∧ ((b.supplyTurn thermal c).ch c).conducting = false := by
  unfold Blk.supplyTurn
  extract_lets ch on b1 b2
  have hcool' : ¬ (¬ thermal = true ∧ ch.prot = .thermal) := fun ⟨hthermal, hin⟩ => hcool (by simpa using hthermal) hin
  rw [if_neg (by simp [ch, hlead, hp]), if_neg (by simp [on, ch, hon]), if_neg hcool', Blk.modCh_ch, Blk.enter, Blk.modCh_ch,
    Channel.enter_eq]
  exact ⟨rfl, rfl, by cases thermal <;> rfl⟩

theorem Blk.supplyTurn_of_off (hlead : b.isFollower c = false) (hp : (b.ch c).prot = .off) (hoff : (b.ch c).wantsOn = false) :
    ((b.supplyTurn thermal c).ch c).prot = .off := by
  have hdark : (b.ch c).conducting = false := by simp [Channel.conducting, hp]
  unfold Blk.supplyTurn
  extract_lets ch on b1 b2
  have hb1 : b1 = b := if_neg (by simp [ch, hdark, hp])
  have hb2 : (b2.ch c).prot = .off := by
    unfold b2
    rw [hb1]
    split
    · exact hp
    · rw [Blk.protSeen, Blk.modCh_ch]; exact hp
  rw [if_neg (by simp [ch, hlead, hp]), if_pos (by simp [on, ch, hdark, hoff])]
  exact hb2

end

/-! ### A supply fault at every channel of a kernel -/

section
variable (b : Blk) (k : Fin 4) (thermal : Bool)

theorem Blk.supplyOff_frame : Blk.Frame {c | c ∈ chansOf k} Channel.kept Kernel.unlogged b (b.supplyOff k thermal) :=
  .foldl _ _ _ fun c hc a => (a.works_supplyTurn thermal c).weaken (Set.singleton_subset_iff.2 hc) id id

theorem Blk.supplyOff_due_le (j : Fin 4) : ((b.supplyOff k thermal).kn j).due ≤ (b.kn j).due + 20 := by
  have hfold := foldl_measure_le (fun b : Blk => (b.kn j).due) _ 2 (fun a c => a.supplyTurn_due_le thermal c j) (chansOf k) b
  have hten : (chansOf k).length = 10 := by simp [chansOf, upTo]
  rw [hten] at hfold
  exact hfold

theorem Safety.supplyWaits_supplyOff :
    Safety.supplyWaits b (b.supplyOff k thermal) k (if thermal then .thermal else .pause) := by
  intro c hc
  have hkept := (b.supplyOff_frame k thermal).kept c
  obtain ⟨a, ha, hturn⟩ := foldl_chansOf_ch (Blk.supplyTurn thermal) b hc fun d a hd =>
    (a.works_supplyTurn thermal d).ch c fun h => hd (Set.mem_singleton_iff.1 h).symm
  rw [← Blk.supplyOff_eq_foldl] at hturn
  have hfollow : a.isFollower c = b.isFollower c := Blk.isFollower_congr (congrArg Channel.paired ha)
  refine ⟨Channel.eq_of_kept Channel.faultCount hkept, Channel.eq_of_kept Channel.thermCount hkept,
    Channel.eq_of_kept Channel.applied hkept, fun _ hp => ?_, fun hlead hp hon hcool => ?_, fun hlead hp hoff => ?_⟩
  · rw [hturn, Blk.supplyTurn_of_latched (ha ▸ hp), ha]
  · rw [hturn]
    exact Blk.supplyTurn_waits (hfollow.trans hlead) (ha ▸ hp) (ha ▸ hon) fun hthermal => ha ▸ hcool (by simp [hthermal])
  · rw [hturn]
    exact Blk.supplyTurn_of_off (hfollow.trans hlead) (ha ▸ hp) (ha ▸ hoff)

end

/-- What a supply fault does to the channels depends on the channels alone. -/
theorem Safety.supplyWaits_congr {s s' t t' : Blk} {k : Fin 4} {p : Prot} (hs : s.chans = s'.chans) (ht : t.chans = t'.chans)
    (h : Safety.supplyWaits s t k p) : Safety.supplyWaits s' t' k p := by
  unfold Safety.supplyWaits Blk.isFollower Blk.ch at h ⊢
  rwa [hs, ht] at h

/-- A command that is a supply fault: the kernel is marked, its channels wait, and a record is captured, for which there is room
where each channel may end a window before. -/
theorem runs_supplyFault {i : Instr} {s : State} {f : Blk → Blk} {k : Fin 4} {mark : Kernel → Kernel} {thermal : Bool}
    {code sev : Nat} {arg : Word} {pin : Bool} (hexec : exec i s = .next (s.onBlk f))
    (hfault : f s.blk = ((s.blk.modK k mark).supplyOff k thermal).kev k (srcK k) code sev arg hw pin)
    (hmark : (mark (s.blk.kn k)).buf = (s.blk.kn k).buf) :
    Safety.runs i s fun t => Safety.supplyWaits s.blk t.blk k (if thermal then .thermal else .pause)
      ∧ (t.blk.kn k).unlogged = (mark (s.blk.kn k)).unlogged
      ∧ (Safety.kernelRoom s.blk k 24 →
          Safety.lastKernelRecord t.blk k = some (srcK k, BitVec.ofNat 16 code, BitVec.ofNat 3 sev, arg, hw))
      ∧ t.blk = { s.blk with chans := t.blk.chans, kernels := t.blk.kernels } ∧ t.mem = s.mem := by
  have hframe := (s.blk.modK k mark).supplyOff_frame k thermal
  have hwaits := Safety.supplyWaits_supplyOff (s.blk.modK k mark) k thermal
  have hdue := (s.blk.modK k mark).supplyOff_due_le k thermal k
  refine runs_onBlk hexec hfault ?_
  generalize (s.blk.modK k mark).supplyOff k thermal = t at hframe hwaits hdue ⊢
  refine ⟨Safety.supplyWaits_congr rfl rfl hwaits, ?_, fun hroom => Blk.kev_last _ _ _ _ _ _ _ _ _ ?_, ?_, rfl⟩
  · exact (Blk.kev_unlogged ..).trans ((hframe.kn k).trans (congrArg Kernel.unlogged (Blk.modK_kn ..)))
  · have hbefore := Kernel.due_le ((s.blk.modK k mark).kn k)
    rw [Blk.modK_kn, hmark] at hbefore
    rw [Blk.modK_kn] at hdue
    have hafter : (t.kn k).buf.length ≤ (t.kn k).due := Nat.le_add_right ..
    unfold Safety.kernelRoom at hroom ⊢
    omega
  · exact (Blk.Frame.kev (ψ := id) hframe k (srcK k) code sev arg hw pin 0).blk

theorem runs_kernelOvertemp (k : Fin 4) (ktemp : BitVec 16) (s : State) (hruns : s.blk.kernelRuns k = true)
    (hcool : (s.blk.kn k).overtemp = false) :
    Safety.runs (.kernelOvertemp k ktemp) s fun t => Safety.supplyWaits s.blk t.blk k .thermal ∧ (t.blk.kn k).overtemp = true
      ∧ (t.blk.kn k).kflagsChg = true ∧ bit (t.blk.kn k).supplySticky 3 = true
      ∧ (Safety.kernelRoom s.blk k 24 → Safety.lastKernelRecord t.blk k = some (srcK k, 0x46, 4, arg32 ktemp.toNat, hw))
      ∧ t.blk = { s.blk with chans := t.blk.chans, kernels := t.blk.kernels } ∧ t.mem = s.mem := by
  have hfault : kernelOvertemp k ktemp s.blk = ((s.blk.modK k fun kn =>
      { kn with overtemp := true, overtempGood := false, ktemp := ktemp, kflagsChg := true,
                supplySticky := orBits kn.supplySticky 8 }).supplyOff k true).kev k (srcK k) 0x46 4 (arg32 ktemp.toNat) hw true :=
    if_neg (by simp [hruns, hcool])
  obtain ⟨t, ht, hwaits, hkn, hrest⟩ := runs_supplyFault (i := .kernelOvertemp k ktemp) rfl hfault rfl
  refine ⟨t, ht, hwaits, Kernel.eq_of_unlogged Kernel.overtemp hkn, Kernel.eq_of_unlogged Kernel.kflagsChg hkn, ?_, hrest⟩
  rw [Kernel.eq_of_unlogged Kernel.supplySticky hkn]
  exact testBit_orBits _ (i := 3) (by decide)

theorem runs_groundLost (k : Fin 4) (s : State) (hruns : s.blk.kernelRuns k = true) (hgood : (s.blk.kn k).ground = false) :
    Safety.runs (.groundLost k) s fun t => Safety.supplyWaits s.blk t.blk k .pause ∧ (t.blk.kn k).ground = true
      ∧ bit (t.blk.kn k).supplySticky 0 = true
      ∧ (Safety.kernelRoom s.blk k 24 →
          Safety.lastKernelRecord t.blk k = some (srcK k, 0x40, 4, arg32 (s.blk.conductMask k), hw))
      ∧ t.blk = { s.blk with chans := t.blk.chans, kernels := t.blk.kernels } ∧ t.mem = s.mem := by
  have hfault : groundLost k s.blk = ((s.blk.modK k fun kn =>
      { kn with ground := true, groundGood := false, kflagsChg := true,
                supplySticky := orBits kn.supplySticky 1 }).supplyOff k false).kev k (srcK k) 0x40 4
        (arg32 (s.blk.conductMask k)) hw true := if_neg (by simp [hruns, hgood])
  obtain ⟨t, ht, hwaits, hkn, hrest⟩ := runs_supplyFault (i := .groundLost k) rfl hfault rfl
  refine ⟨t, ht, hwaits, Kernel.eq_of_unlogged Kernel.ground hkn, ?_, hrest⟩
  rw [Kernel.eq_of_unlogged Kernel.supplySticky hkn]
  exact testBit_orBits _ (i := 0) (by decide)

theorem runs_undervoltage (k : Fin 4) (lowest : BitVec 16) (s : State) (hruns : s.blk.kernelRuns k = true)
    (hgood : (s.blk.kn k).under = false) :
    Safety.runs (.undervoltage k lowest) s fun t => Safety.supplyWaits s.blk t.blk k .pause ∧ (t.blk.kn k).under = true
      ∧ bit (t.blk.kn k).supplySticky 1 = true
      ∧ (Safety.kernelRoom s.blk k 24 → Safety.lastKernelRecord t.blk k = some (srcK k, 0x42, 3, arg32 lowest.toNat, hw))
      ∧ t.blk = { s.blk with chans := t.blk.chans, kernels := t.blk.kernels } ∧ t.mem = s.mem := by
  have hfault : undervoltage k lowest s.blk = ((s.blk.modK k fun kn =>
      { kn with under := true, underGood := false, kvbat := lowest, kflagsChg := true,
                vbatMin := if lowest.toNat < kn.vbatMin.toNat then lowest else kn.vbatMin,
                supplySticky := orBits kn.supplySticky 2 }).supplyOff k false).kev k (srcK k) 0x42 3 (arg32 lowest.toNat) :=
    if_neg (by simp [hruns, hgood])
  obtain ⟨t, ht, hwaits, hkn, hrest⟩ := runs_supplyFault (i := .undervoltage k lowest) rfl hfault rfl
  refine ⟨t, ht, hwaits, Kernel.eq_of_unlogged Kernel.under hkn, ?_, hrest⟩
  rw [Kernel.eq_of_unlogged Kernel.supplySticky hkn]
  exact testBit_orBits _ (i := 1) (by decide)

/-! ### The ends of supply faults (R144, R148, R149) -/

/-- A command that marks one kernel and does nothing else. -/
theorem runs_modK {i : Instr} {s : State} {f : Blk → Blk} {k : Fin 4} {mark : Kernel → Kernel}
    (hexec : exec i s = .next (s.onBlk f)) (hmark : f s.blk = s.blk.modK k mark) :
    Safety.runs i s fun t => t.blk.kn k = mark (s.blk.kn k) ∧ (∀ j : Fin 4, j ≠ k → t.blk.kn j = s.blk.kn j)
      ∧ t.blk = { s.blk with kernels := t.blk.kernels } ∧ t.mem = s.mem :=
  runs_onBlk hexec hmark ⟨Blk.modK_kn .., fun _ hj => Blk.modK_kn_ne _ _ _ _ hj.symm, rfl, rfl⟩

theorem runs_kernelOvertempClear (k : Fin 4) (ktemp : BitVec 16) (s : State) (hhot : (s.blk.kn k).overtemp = true) :
    Safety.runs (.kernelOvertempClear k ktemp) s fun t =>
      t.blk.kn k = { s.blk.kn k with overtempGood := true, ktemp := ktemp } ∧ (∀ j : Fin 4, j ≠ k → t.blk.kn j = s.blk.kn j)
      ∧ t.blk = { s.blk with kernels := t.blk.kernels } ∧ t.mem = s.mem :=
  runs_modK (mark := fun kn => { kn with overtempGood := true, ktemp := ktemp }) rfl (if_pos hhot)

theorem runs_groundGood (k : Fin 4) (s : State) (hlost : (s.blk.kn k).ground = true) : Safety.runs (.groundGood k) s fun t =>
    t.blk.kn k = { s.blk.kn k with groundGood := true } ∧ (∀ j : Fin 4, j ≠ k → t.blk.kn j = s.blk.kn j)
    ∧ t.blk = { s.blk with kernels := t.blk.kernels } ∧ t.mem = s.mem :=
  runs_modK (mark := fun kn => { kn with groundGood := true }) rfl (if_pos hlost)

theorem runs_undervoltageClear (k : Fin 4) (s : State) (hlow : (s.blk.kn k).under = true) :
    Safety.runs (.undervoltageClear k) s fun t =>
      t.blk.kn k = { s.blk.kn k with underGood := true } ∧ (∀ j : Fin 4, j ≠ k → t.blk.kn j = s.blk.kn j)
      ∧ t.blk = { s.blk with kernels := t.blk.kernels } ∧ t.mem = s.mem :=
  runs_modK (mark := fun kn => { kn with underGood := true }) rfl (if_pos hlow)

/-! ### Surges (R150) -/

/-- The channels of a kernel at the start of a surge, in which none has logged a deferral. -/
def Blk.surgeStarts (b : Blk) (k : Fin 4) : Blk :=
  (chansOf k).foldl (fun b c => b.modCh c fun ch => { ch with deferredLogged := false }) b

theorem Blk.surgeStarts_frame (b : Blk) (k : Fin 4) :
    Blk.Frame {c | c ∈ chansOf k} (fun ch => { ch with deferredLogged := false }) id b (b.surgeStarts k) :=
  .foldl _ _ _ fun _ hc a => (Blk.Frame.refl _ _ _ a).modCh hc rfl

theorem Blk.surgeStarts_ch (b : Blk) (k : Fin 4) (c : Fin 40) :
    (b.surgeStarts k).ch c = { b.ch c with deferredLogged := ((b.surgeStarts k).ch c).deferredLogged } :=
  congrArg (fun ch : Channel => { ch with deferredLogged := ((b.surgeStarts k).ch c).deferredLogged }) ((b.surgeStarts_frame k).kept c)

/-- A kernel that has entered surge at a supply of `v`. -/
def Kernel.surged (kn : Kernel) (now : BitVec 64) (v : BitVec 16) : Kernel :=
  { kn with surge := true, surgeOver := false, surgeStart := now, surgePeak := v, kvbat := v, kflagsChg := true,
            supplySticky := orBits kn.supplySticky 4, vbatMax := if v.toNat > kn.vbatMax.toNat then v else kn.vbatMax }

theorem runs_surge (k : Fin 4) (v : BitVec 16) (s : State) (hruns : s.blk.kernelRuns k = true)
    (hcalm : (s.blk.kn k).surge = false) :
    Safety.runs (.surge k v) s fun t => (t.blk.kn k).surge = true ∧ (t.blk.kn k).surgeStart = s.blk.time.dt
      ∧ (∀ c : Fin 40, t.blk.ch c = { s.blk.ch c with deferredLogged := (t.blk.ch c).deferredLogged })
      ∧ (∀ c ∈ chansOf k, (t.blk.ch c).deferredLogged = false)
      ∧ (Safety.kernelRoom s.blk k 1 → Safety.lastKernelRecord t.blk k = some (srcK k, 0x44, 3, arg32 v.toNat, hw))
      ∧ t.blk = { s.blk with chans := t.blk.chans, kernels := t.blk.kernels } ∧ t.mem = s.mem := by
  have hsurge : surge k v s.blk = ((s.blk.modK k (·.surged s.blk.time.dt v)).surgeStarts k).kev k
      (srcK k) 0x44 3 (arg32 v.toNat) hw true := if_neg (by simp [hruns, hcalm])
  have hframe := (s.blk.modK k (·.surged s.blk.time.dt v)).surgeStarts_frame k
  have hch (c : Fin 40) := (s.blk.modK k (·.surged s.blk.time.dt v)).surgeStarts_ch k c
  have hnone : ∀ c ∈ chansOf k, (((s.blk.modK k (·.surged s.blk.time.dt v)).surgeStarts k).ch c).deferredLogged = false :=
    fun c hc => congrArg Channel.deferredLogged (foldl_modCh_ch (nodup_chansOf k) _ _ hc)
  simp only [Blk.modK_ch] at hch
  refine runs_onBlk rfl hsurge ?_
  generalize (s.blk.modK k (·.surged s.blk.time.dt v)).surgeStarts k = t at hframe hch hnone ⊢
  have hkn : t.kn k = (s.blk.kn k).surged s.blk.time.dt v := (hframe.kn k).trans (Blk.modK_kn ..)
  have hlogged := (hframe.weaken subset_rfl id Kernel.unlogged).kev (ψ := id) k (srcK k) 0x44 3 (arg32 v.toNat) hw true 0
  refine ⟨?_, ?_, hch, hnone, fun hroom => Blk.kev_last _ _ _ _ _ _ _ _ _ ?_, hlogged.blk, rfl⟩
  · rw [Blk.kev_kn, hkn]; rfl
  · rw [Blk.kev_kn, hkn]; rfl
  · rw [Safety.kernelRoom, hkn]; exact hroom

theorem runs_surgeClear (k : Fin 4) (peak : BitVec 16) (s : State) (hsurge : (s.blk.kn k).surge = true) :
    Safety.runs (.surgeClear k peak) s fun t =>
      (t.blk.kn k).surge = false ∧ (t.blk.kn k).surgeOver = true ∧ (t.blk.kn k).surgePeak = peak
      ∧ (Safety.kernelRoom s.blk k 1 → Safety.lastKernelRecord t.blk k = some (srcK k, 0x45, 2,
          arg32 (peak.toNat + min (s.blk.since (s.blk.kn k).surgeStart / 1000000) 0xFFFF * 65536), hw))
      ∧ t.blk = { s.blk with kernels := t.blk.kernels } ∧ t.mem = s.mem := by
  have hclear : surgeClear k peak s.blk = (s.blk.modK k fun kn =>
      { kn with surge := false, surgeOver := true, surgePeak := peak, kflagsChg := true }).kev k (srcK k) 0x45 2
        (arg32 (peak.toNat + min (s.blk.since (s.blk.kn k).surgeStart / 1000000) 0xFFFF * 65536)) := if_neg (by simp [hsurge])
  refine runs_onBlk rfl hclear ⟨?_, ?_, ?_, fun hroom => Blk.kev_last _ _ _ _ _ _ _ _ _ ?_, rfl, rfl⟩
  · rw [Blk.kev_kn, Blk.modK_kn]
  · rw [Blk.kev_kn, Blk.modK_kn]
  · rw [Blk.kev_kn, Blk.modK_kn]
  · rw [Safety.kernelRoom, Blk.modK_kn]
    exact hroom

/-! ### Kernels without power (R149, R151) -/

/-- A channel whose kernel has lost its power. -/
def Channel.unpowered (ch : Channel) (now : BitVec 64) : Channel :=
  { (ch.outputOff).enter .off now with winOpen := false, supWait := false, deferred := false }

/-- The channels of a kernel that has lost its power. -/
def Blk.unpower (b : Blk) (k : Fin 4) : Blk := (chansOf k).foldl (fun b c => b.modCh c (·.unpowered b.time.dt)) b

section
variable (b : Blk) (k : Fin 4)

theorem Blk.unpower_frame : Blk.Frame {c | c ∈ chansOf k} Channel.kept id b (b.unpower k) :=
  .foldl _ _ _ fun c hc a => (Blk.Frame.refl _ _ _ a).modCh hc (Channel.enter_kept (a.ch c).outputOff .off a.time.dt :)

theorem Blk.unpower_ch {c : Fin 40} (hc : c ∈ chansOf k) :
    ((b.unpower k).ch c).prot = .off ∧ ((b.unpower k).ch c).winOpen = false := by
  obtain ⟨a, -, hturn⟩ := foldl_chansOf_ch (fun b d => b.modCh d (·.unpowered b.time.dt)) b hc fun d a hd =>
    Blk.modCh_ch_ne a d c _ hd
  have hch : (b.unpower k).ch c = (a.ch c).unpowered a.time.dt := hturn.trans (Blk.modCh_ch ..)
  rw [hch]
  exact ⟨Channel.enter_prot .., rfl⟩

end

theorem runs_kernelControllerReset (k : Fin 4) (s : State) (hruns : s.blk.kernelRuns k = true) :
    Safety.runs (.kernelControllerReset k) s fun t =>
      (t.blk.kn k).powered = false ∧ (∀ c ∈ chansOf k, (t.blk.ch c).prot = .off ∧ (t.blk.ch c).winOpen = false)
      ∧ (∀ c : Fin 40, c ∉ chansOf k → t.blk.ch c = s.blk.ch c)
      ∧ t.blk = { s.blk with chans := t.blk.chans, kernels := t.blk.kernels } ∧ t.mem = s.mem := by
  have hreset : kernelControllerReset k s.blk =
      (s.blk.modK k fun kn => { kn with powered := false, ctrlReset := true, kflagsChg := true }).unpower k :=
    if_neg (by simp [hruns])
  have hframe := (s.blk.modK k fun kn => { kn with powered := false, ctrlReset := true, kflagsChg := true }).unpower_frame k
  refine runs_onBlk rfl hreset ⟨?_, fun c hc => Blk.unpower_ch _ k hc, hframe.ch, hframe.blk, rfl⟩
  exact (congrArg Kernel.powered (hframe.kn k)).trans (by rw [id, Blk.modK_kn])

/-! ### Reverse polarity (R151) -/

/-- A kernel of a reversed feed; one for each feed keeps the duration, while the always-on region has its supply. -/
def Kernel.reverse (kn : Kernel) (keeps : Prop) [Decidable keeps] (ticks : BitVec 48) : Kernel :=
  { kn with powered := false, reversed := if keeps then some ticks else kn.reversed }

/-- What reverse polarity does to one kernel of the feed. -/
def Blk.reverseTurn (ticks : BitVec 48) (b : Blk) (k : Fin 4) : Blk :=
  if b.hasKernel k = false then b
  else (b.modK k (·.reverse (decide (k.val % 2 = 0) ∧ b.rcc.vka) ticks)).unpower k

theorem reversePolarity_eq_foldl (feedB : Bool) (ticks : BitVec 48) (b : Blk) :
    reversePolarity feedB ticks b = (feedKernels feedB).foldl (Blk.reverseTurn ticks) b := rfl

/-- A kernel with its channels, and what of the module its reversal turns on. -/
def Blk.reversalView (k : Fin 4) (b : Blk) : Kernel × (Fin 10 → Channel) × Variant × Rcc :=
  (b.kn k, fun n => b.ch (chanOf k n), b.variant, b.rcc)

theorem Blk.ch_of_reversalView {a b : Blk} {k : Fin 4} (h : a.reversalView k = b.reversalView k) {c : Fin 40} (hc : c ∈ chansOf k) :
    a.ch c = b.ch c := by
  have hch := congrFun (congrArg (·.2.1) h) (nOf c)
  dsimp only [Blk.reversalView] at hch
  rwa [chanOf_nOf (mem_chansOf.1 hc)] at hch

section
variable (ticks : BitVec 48) (b : Blk) {k : Fin 4}

theorem Blk.reverseTurn_blk (j : Fin 4) :
    b.reverseTurn ticks j = { b with chans := (b.reverseTurn ticks j).chans, kernels := (b.reverseTurn ticks j).kernels } := by
  unfold Blk.reverseTurn
  split
  · rfl
  · exact (Blk.unpower_frame _ j).blk

theorem Blk.reverseTurn_reversalView {j : Fin 4} (h : j ≠ k) : (b.reverseTurn ticks j).reversalView k = b.reversalView k := by
  unfold Blk.reverseTurn
  split
  · rfl
  · have hframe := (b.modK j (·.reverse (decide (j.val % 2 = 0) ∧ b.rcc.vka) ticks)).unpower_frame j
    generalize (b.modK j (·.reverse (decide (j.val % 2 = 0) ∧ b.rcc.vka) ticks)).unpower j = t at hframe ⊢
    have hkn : t.kn k = b.kn k := (hframe.kn k).trans (Blk.modK_kn_ne _ _ _ _ h)
    have hch (n : Fin 10) : t.ch (chanOf k n) = b.ch (chanOf k n) :=
      hframe.ch _ fun hmem => h ((mem_chansOf.1 hmem).symm.trans (kOf_chanOf k n))
    have hvariant : t.variant = b.variant := (congrArg Blk.variant hframe.blk :)
    have hrcc : t.rcc = b.rcc := (congrArg Blk.rcc hframe.blk :)
    simp only [Blk.reversalView, hkn, hch, hvariant, hrcc]

variable {b}

theorem Blk.reverseTurn_self (hin : b.hasKernel k = true) :
    ((b.reverseTurn ticks k).kn k).powered = false
    ∧ (k.val % 2 = 0 → b.rcc.vka = true → ((b.reverseTurn ticks k).kn k).reversed = some ticks)
    ∧ ∀ c ∈ chansOf k, ((b.reverseTurn ticks k).ch c).prot = .off := by
  have hturn : b.reverseTurn ticks k = (b.modK k (·.reverse (decide (k.val % 2 = 0) ∧ b.rcc.vka) ticks)).unpower k :=
    if_neg (by simp [hin])
  have hkn : (b.reverseTurn ticks k).kn k = (b.kn k).reverse (decide (k.val % 2 = 0) ∧ b.rcc.vka) ticks := by
    rw [hturn]
    exact ((Blk.unpower_frame _ k).kn k).trans (Blk.modK_kn ..)
  rw [hkn]
  exact ⟨rfl, fun heven hvka => if_pos ⟨decide_eq_true heven, hvka⟩, fun c hc => hturn ▸ (Blk.unpower_ch _ k hc).1⟩

end

theorem nodup_feedKernels (feedB : Bool) : (feedKernels feedB).Nodup := by cases feedB <;> decide

theorem runs_reversePolarity (feedB : Bool) (ticks : BitVec 48) (s : State) : Safety.runs (.reversePolarity feedB ticks) s fun t =>
    (∀ k ∈ feedKernels feedB, s.blk.hasKernel k = true → (t.blk.kn k).powered = false
      ∧ ((k.val % 2 = 0) → s.blk.rcc.vka = true → (t.blk.kn k).reversed = some ticks)
      ∧ ∀ c ∈ chansOf k, (t.blk.ch c).prot = .off)
    ∧ (∀ k : Fin 4, k ∉ feedKernels feedB → t.blk.kn k = s.blk.kn k ∧ ∀ c ∈ chansOf k, t.blk.ch c = s.blk.ch c)
    ∧ t.blk = { s.blk with chans := t.blk.chans, kernels := t.blk.kernels } ∧ t.mem = s.mem := by
  refine runs_onBlk rfl (reversePolarity_eq_foldl feedB ticks s.blk) ⟨fun k hk hin => ?_, fun k hk => ?_, ?_, rfl⟩
  · obtain ⟨a, ha, hfold⟩ := foldl_own_turn id (Blk.reversalView k) (Blk.reverseTurn ticks) s.blk
      (by simpa using nodup_feedKernels feedB) hk fun j a hj => a.reverseTurn_reversalView ticks hj
    have hvariant : a.variant = s.blk.variant := congrArg (·.2.2.1) ha
    have hrcc : a.rcc = s.blk.rcc := congrArg (·.2.2.2) ha
    have hin' : a.hasKernel k = true := by rw [Blk.hasKernel, hvariant]; exact hin
    obtain ⟨hpower, hrev, hoff⟩ := Blk.reverseTurn_self ticks hin'
    have hkn : ((feedKernels feedB).foldl (Blk.reverseTurn ticks) s.blk).kn k = (a.reverseTurn ticks k).kn k := congrArg (·.1) hfold
    dsimp only
    rw [hkn]
    exact ⟨hpower, fun heven hvka => hrev heven (hrcc ▸ hvka), fun c hc => by
      rw [Blk.ch_of_reversalView hfold hc]; exact hoff c hc⟩
  · have hkeep := foldl_keep_of_mem (Blk.reversalView k) (Blk.reverseTurn ticks) (feedKernels feedB) s.blk fun j hj a =>
      a.reverseTurn_reversalView ticks fun h => hk (h ▸ hj)
    exact ⟨congrArg (·.1) hkeep, fun c hc => Blk.ch_of_reversalView hkeep hc⟩
  · refine List.foldlRecOn (motive := fun a : Blk => a = { s.blk with chans := a.chans, kernels := a.kernels }) _ _ rfl
      fun a ha j _ => ?_
    exact (a.reverseTurn_blk ticks j).trans (congrArg (fun x : Blk => { x with
      chans := (a.reverseTurn ticks j).chans, kernels := (a.reverseTurn ticks j).kernels }) ha)

/-- Settles O17: each supply fault, its end, and the loss of a kernel's power. -/
theorem supplyFaultsHoldChannelsOff : Obligations.SupplyFaultsHoldChannelsOff :=
  ⟨runs_kernelOvertemp, runs_kernelOvertempClear, runs_groundLost, runs_groundGood, runs_undervoltage, runs_undervoltageClear,
    runs_kernelControllerReset, runs_surge, runs_surgeClear, runs_reversePolarity⟩

end Sys2Proof.Machine
end

section
/-! SUPPORT. The motion sensor (R172, R173): what a record of it leaves, and what goes unrecorded. -/

namespace Sys2Proof.Machine
open Sys2Proof

/-- A command that changes nothing of the block changes nothing. -/
theorem runs_unchanged {i : Instr} {s : State} {f : Blk → Blk} (hexec : exec i s = .next (s.onBlk f)) (hsame : f s.blk = s.blk) :
    Safety.runs i s fun t => t = s := runs_onBlk hexec hsame rfl

/-- A command that changes the motion sensor, and its marks in K0, and has K0 record it. -/
theorem runs_motionRecord {i : Instr} {s : State} {f : Blk → Blk} {m : Motion} {a : Blk} {code sev : Nat} {arg : Word}
    (hexec : exec i s = .next (s.onBlk f)) (hf : f s.blk = a.kev 0 srcMotion code sev arg hw true)
    (ha : a = { s.blk with kernels := a.kernels, motion := m }) (hbuf : (a.kn 0).buf = (s.blk.kn 0).buf) :
    Safety.runs i s fun t =>
      t.blk.motion = m ∧ (t.blk.kn 0).diSticky = (a.kn 0).diSticky
      ∧ (Safety.kernelRoom s.blk 0 1 →
          Safety.lastKernelRecord t.blk 0 = some (srcMotion, BitVec.ofNat 16 code, BitVec.ofNat 3 sev, arg, hw))
      ∧ t.blk = { s.blk with kernels := t.blk.kernels, motion := t.blk.motion } ∧ t.mem = s.mem := by
  have hmotion : a.motion = m := (congrArg Blk.motion ha :)
  refine runs_onBlk hexec hf ⟨hmotion, by rw [Blk.kev_kn], fun hroom => Blk.kev_last _ _ _ _ _ _ _ _ _ ?_, ?_, rfl⟩
  · rw [Safety.kernelRoom, hbuf]
    exact hroom
  · rw [← hmotion] at ha
    exact congrArg (fun b : Blk => { b with kernels := (a.kev 0 srcMotion code sev arg hw true).kernels }) ha

/-! ### Seismic motion (R173) -/

theorem runs_seismic (rms : BitVec 16) (s : State) (hruns : s.blk.kernelRuns 0 = true) (hawake : s.blk.rcc.mode ≠ .sleep)
    (hcalm : s.blk.motion.seismicOn = false) (habove : s.blk.motion.seis * 10 < rms.toNat) :
    Safety.runs (.seismic rms) s fun t =>
      t.blk.motion = { s.blk.motion with seismicOn := true, seismicLow := s.blk.time.dt }
      ∧ (Safety.kernelRoom s.blk 0 1 → Safety.lastKernelRecord t.blk 0 = some (srcMotion, 0x10, 2, rms.zeroExtend 32, hw))
      ∧ t.blk = { s.blk with kernels := t.blk.kernels, motion := t.blk.motion } ∧ t.mem = s.mem := by
  have hrecorded : seismic rms s.blk = (s.blk.onMotion fun m =>
      { m with seismicOn := true, seismicLow := s.blk.time.dt }).kev 0 srcMotion 0x10 2 (rms.zeroExtend 32) hw true :=
    if_neg (by simp [hruns, hawake, hcalm, habove])
  obtain ⟨t, ht, hmotion, -, hrest⟩ := runs_motionRecord (i := .seismic rms) rfl hrecorded rfl rfl
  exact ⟨t, ht, hmotion, hrest⟩

/-- Motion that lasts, or is not above the threshold, goes unrecorded. -/
theorem runs_seismic_unrecorded (rms : BitVec 16) (s : State)
    (hquiet : s.blk.motion.seismicOn = true ∨ rms.toNat ≤ s.blk.motion.seis * 10) :
    Safety.runs (.seismic rms) s fun t => t = s :=
  runs_unchanged rfl (if_pos (.inr (.inr hquiet)))

/-! ### Shocks (R173) -/

/-- Whether less than a second has passed since the last recorded shock. -/
def Blk.shockRecent (b : Blk) : Bool :=
  match b.motion.shockDt with | some t => decide (b.since t < 1000000000) | none => false

theorem shock_eq (peak : BitVec 16) (b : Blk) :
    shock peak b =
      if b.kernelRuns 0 = false ∨ b.rcc.mode = .sleep ∨ peak.toNat * 10 ≤ b.motion.shockTh * 4096 ∨ b.shockRecent = true then b
      else ((b.onMotion fun m => { m with shockDt := some b.time.dt }).diSeen 0 24).kev 0 srcMotion 0x11 3
        (peak.zeroExtend 32) hw true := rfl

theorem Blk.shockRecent_eq_false {b : Blk}
    (h : ∀ t0 : BitVec 64, b.motion.shockDt = some t0 → 1000000000 ≤ b.since t0) : b.shockRecent = false := by
  unfold Blk.shockRecent
  cases hlast : b.motion.shockDt with
  | none => rfl
  | some t0 => exact decide_eq_false (Nat.not_lt.2 (h t0 hlast))

theorem Blk.shockRecent_eq_true {b : Blk} {t0 : BitVec 64} (hlast : b.motion.shockDt = some t0) (h : b.since t0 < 1000000000) :
    b.shockRecent = true := by
  unfold Blk.shockRecent
  rw [hlast]
  exact decide_eq_true h

theorem runs_shock (peak : BitVec 16) (s : State) (hruns : s.blk.kernelRuns 0 = true) (hawake : s.blk.rcc.mode ≠ .sleep)
    (habove : s.blk.motion.shockTh * 4096 < peak.toNat * 10)
    (hlast : ∀ t0 : BitVec 64, s.blk.motion.shockDt = some t0 → 1000000000 ≤ s.blk.since t0) :
    Safety.runs (.shock peak) s fun t =>
      t.blk.motion = { s.blk.motion with shockDt := some s.blk.time.dt } ∧ bit (t.blk.kn 0).diSticky 24 = true
      ∧ (Safety.kernelRoom s.blk 0 1 → Safety.lastKernelRecord t.blk 0 = some (srcMotion, 0x11, 3, peak.zeroExtend 32, hw))
      ∧ t.blk = { s.blk with kernels := t.blk.kernels, motion := t.blk.motion } ∧ t.mem = s.mem := by
  have hrecorded : shock peak s.blk = ((s.blk.onMotion fun m => { m with shockDt := some s.blk.time.dt }).diSeen 0 24).kev 0
      srcMotion 0x11 3 (peak.zeroExtend 32) hw true :=
    (shock_eq peak s.blk).trans (if_neg (by simp [hruns, hawake, habove, Blk.shockRecent_eq_false hlast]))
  obtain ⟨t, ht, hmotion, hsticky, hrest⟩ := runs_motionRecord (i := .shock peak)
    (m := { s.blk.motion with shockDt := some s.blk.time.dt }) rfl hrecorded rfl (by rw [Blk.diSeen, Blk.modK_kn]; rfl)
  refine ⟨t, ht, hmotion, ?_, hrest⟩
  rw [hsticky, Blk.diSeen, Blk.modK_kn]
  exact testBit_orBits _ (by decide)

theorem runs_shock_recent (peak : BitVec 16) (t0 : BitVec 64) (s : State) (hlast : s.blk.motion.shockDt = some t0)
    (hsoon : s.blk.since t0 < 1000000000) : Safety.runs (.shock peak) s fun t => t = s :=
  runs_unchanged rfl
    ((shock_eq peak s.blk).trans (if_pos (.inr (.inr (.inr (Blk.shockRecent_eq_true hlast hsoon))))))

/-! ### The sensor (R172, R173) -/

theorem runs_motionFault (s : State) (hruns : s.blk.kernelRuns 0 = true) (hsound : s.blk.motion.fault = false) :
    Safety.runs .motionFault s fun t =>
      t.blk.motion = { s.blk.motion with fault := true }
      ∧ (Safety.kernelRoom s.blk 0 1 → Safety.lastKernelRecord t.blk 0 = some (srcMotion, 0x12, 3, 0, hw))
      ∧ t.blk = { s.blk with kernels := t.blk.kernels, motion := t.blk.motion } ∧ t.mem = s.mem := by
  have hrecorded : motionFault s.blk =
      (s.blk.onMotion fun m => { m with fault := true }).kev 0 srcMotion 0x12 3 0 hw true := if_neg (by simp [hruns, hsound])
  obtain ⟨t, ht, hmotion, -, hrest⟩ := runs_motionRecord (i := .motionFault) rfl hrecorded rfl rfl
  exact ⟨t, ht, hmotion, hrest⟩

theorem runs_motionFault_again (s : State) (hfault : s.blk.motion.fault = true) : Safety.runs .motionFault s fun t => t = s :=
  runs_unchanged rfl (if_pos (.inr hfault))

theorem runs_motionReady (s : State) (hopen : (s.blk.bridges.get 0).state ≠ .service) : Safety.runs .motionReady s fun t =>
    t.blk = { s.blk with motion := { s.blk.motion with notReady := false } } ∧ t.mem = s.mem :=
  runs_onBlk rfl (if_neg hopen) ⟨rfl, rfl⟩

/-- Settles O24: seismic motion and a shock with what goes unrecorded, a fault of the sensor, and the end of its start. -/
theorem motionIsRecorded : Obligations.MotionIsRecorded :=
  ⟨runs_seismic, runs_seismic_unrecorded, runs_shock, runs_shock_recent, runs_motionFault, runs_motionFault_again,
    runs_motionReady⟩

end Sys2Proof.Machine
end

section
/-! SUPPORT. The digital inputs (R163 to R168): what an edge and the stuck timer do to one input. -/

namespace Sys2Proof.Machine
open Sys2Proof

/-! ### One input of a block (R13) -/

theorem diOf_nOfDi {k : Fin 4} {d : Fin 32} (h : kOfDi d = k) : diOf k (nOfDi d) = d := by
  subst h
  apply Fin.ext
  show 8 * (d.val / 8) + d.val % 8 = d.val
  omega

theorem diOf_injective (k : Fin 4) : Function.Injective (diOf k) := by
  intro m n h
  have hval : 8 * k.val + m.val = 8 * k.val + n.val := congrArg Fin.val h
  exact Fin.ext (by omega)

section
variable (b : Blk) (d : Fin 32)

@[simp] theorem Blk.modDi_di (f : Di → Di) : (b.modDi d f).di d = f (b.di d) := by
  rw [Blk.di, Blk.modDi, Blk.modK_kn, vmod_get_self]; rfl

theorem Blk.modDi_di_ne {e : Fin 32} (f : Di → Di) (h : e ≠ d) : (b.modDi d f).di e = b.di e := by
  unfold Blk.di Blk.modDi
  by_cases hk : kOfDi d = kOfDi e
  · have hn : nOfDi d ≠ nOfDi e := fun hn => h ((diOf_nOfDi hk.symm).symm.trans (hn ▸ diOf_nOfDi rfl))
    rw [← hk, Blk.modK_kn]
    exact vmod_get_ne _ _ _ _ hn
  · rw [Blk.modK_kn_ne _ _ _ _ hk]

theorem Blk.modDi_otherInputs (f : Di → Di) : Safety.otherInputs b (b.modDi d f) d := fun _ he => b.modDi_di_ne d f he

theorem Blk.modDi_di_congr {a b : Blk} {e : Fin 32} (h : a.di e = b.di e) (d : Fin 32) (f : Di → Di) :
    (a.modDi d f).di e = (b.modDi d f).di e := by
  by_cases he : e = d
  · subst he; rw [Blk.modDi_di, Blk.modDi_di, h]
  · rw [Blk.modDi_di_ne _ _ _ he, Blk.modDi_di_ne _ _ _ he, h]

/-- A change of a kernel that is none of its inputs. -/
theorem Blk.modK_di {k : Fin 4} {f : Kernel → Kernel} (h : (f (b.kn k)).dis = (b.kn k).dis) : (b.modK k f).di d = b.di d := by
  unfold Blk.di
  by_cases hk : k = kOfDi d
  · subst hk; rw [Blk.modK_kn, h]
  · rw [Blk.modK_kn_ne _ _ _ _ hk]

@[simp] theorem Blk.diSeen_di (k : Fin 4) (i : Nat) : (b.diSeen k i).di d = b.di d := b.modK_di d rfl

@[simp] theorem Blk.kev_di (k : Fin 4) (src : BitVec 16) (code sev : Nat) (arg : Word) (tn : Byte) (pin : Bool) (fl : Nat) :
    (b.kev k src code sev arg tn pin fl).di d = b.di d := by
  rw [Blk.di, Blk.kev_kn]; rfl

@[simp] theorem Blk.kevAt_di (k : Fin 4) (src : BitVec 16) (code sev : Nat) (arg : Word) (dt : BitVec 64) :
    (b.kevAt k src code sev arg dt).di d = b.di d := Blk.kev_di (b.onTb fun t => { t with dt := dt }) ..

/-- A step that is taken or not, and leaves the input alone where it is taken. -/
theorem Blk.ite_di {p : Prop} [Decidable p] {a b : Blk} {d : Fin 32} (h : a.di d = b.di d) :
    (if p then a else b).di d = b.di d := by
  split
  · exact h
  · rfl

end

/-! ### Edges (R163, R165) -/

/-- A command that changes one input and does nothing else. -/
theorem runs_modDi {i : Instr} {s : State} {f : Blk → Blk} {d : Fin 32} {g : Di → Di} (hexec : exec i s = .next (s.onBlk f))
    (hf : f s.blk = s.blk.modDi d g) :
    Safety.runs i s fun t => t.blk.di d = g (s.blk.di d) ∧ Safety.otherInputs s.blk t.blk d
      ∧ t.blk = { s.blk with kernels := t.blk.kernels } ∧ t.mem = s.mem :=
  runs_onBlk hexec hf ⟨Blk.modDi_di .., Blk.modDi_otherInputs _ _ _, rfl, rfl⟩

/-- An input after an edge to the level `high`, `off` µs into its window. -/
def Di.edged (x : Di) (high : Bool) (off : BitVec 16) (now : BitVec 64) : Di :=
  let act := high != x.activeLow
  { x with pin := high, active := act, edges := satInc x.edges 0xFFFF,
           firstEdge := if x.edges = 0 then off else x.firstEdge, lastEdge := off,
           lastEdgeDt := now, activations := if act then x.activations + 1 else x.activations,
           activeSince := if act then now else x.activeSince,
           cleaning := x.cleaning || (x.wet = 3 && !x.chatMask) }

section
variable {d : Fin 32} {high : Bool} {b : Blk} (off : BitVec 16) (hruns : b.kernelRuns (kOfDi d) = true)
  (hawake : b.rcc.mode ≠ .sleep)
include hruns hawake

theorem diEdge_of_edge (hedge : (high != (b.di d).activeLow) ≠ (b.di d).active) :
    diEdge d high off b = b.modDi d (·.edged high off b.time.dt) := by
  unfold diEdge
  rw [if_neg (by simp [hruns, hawake]), if_neg hedge]
  rfl

theorem diEdge_of_same (hsame : (high != (b.di d).activeLow) = (b.di d).active) :
    diEdge d high off b = b.modDi d fun x => { x with pin := high } := by
  unfold diEdge
  rw [if_neg (by simp [hruns, hawake]), if_pos hsame]

end

theorem runs_diEdge_edge (d : Fin 32) (high : Bool) (off : BitVec 16) (s : State) (hruns : s.blk.kernelRuns (kOfDi d) = true)
    (hawake : s.blk.rcc.mode ≠ .sleep) (hedge : (high != (s.blk.di d).activeLow) ≠ (s.blk.di d).active) :
    Safety.runs (.diEdge d high off) s fun t =>
      (t.blk.di d).active = (high != (s.blk.di d).activeLow) ∧ (t.blk.di d).pin = high
      ∧ (t.blk.di d).edges = satInc (s.blk.di d).edges 0xFFFF ∧ (t.blk.di d).lastEdge = off
      ∧ (t.blk.di d).firstEdge = (if (s.blk.di d).edges = 0 then off else (s.blk.di d).firstEdge)
      ∧ (t.blk.di d).lastEdgeDt = s.blk.time.dt ∧ (t.blk.di d).reported = (s.blk.di d).reported
      ∧ (t.blk.di d).activations = (s.blk.di d).activations + (if high != (s.blk.di d).activeLow then 1 else 0)
      ∧ Safety.otherInputs s.blk t.blk d ∧ t.blk = { s.blk with kernels := t.blk.kernels } ∧ t.mem = s.mem := by
  obtain ⟨t, ht, hdi, hother, hblk, hmem⟩ := runs_modDi (i := .diEdge d high off) rfl (diEdge_of_edge off hruns hawake hedge)
  have hactivations : (if high != (s.blk.di d).activeLow then (s.blk.di d).activations + 1 else (s.blk.di d).activations) =
      (s.blk.di d).activations + (if high != (s.blk.di d).activeLow then 1 else 0) := by
    split
    · rfl
    · exact (BitVec.add_zero _).symm
  refine ⟨t, ht, ?_⟩
  dsimp only
  rw [hdi]
  exact ⟨rfl, rfl, rfl, rfl, rfl, rfl, rfl, hactivations, hother, hblk, hmem⟩

theorem runs_diEdge_same (d : Fin 32) (high : Bool) (off : BitVec 16) (s : State)
    (hsame : (high != (s.blk.di d).activeLow) = (s.blk.di d).active) (hruns : s.blk.kernelRuns (kOfDi d) = true)
    (hawake : s.blk.rcc.mode ≠ .sleep) :
    Safety.runs (.diEdge d high off) s fun t =>
      t.blk.di d = { s.blk.di d with pin := high } ∧ Safety.otherInputs s.blk t.blk d
      ∧ t.blk = { s.blk with kernels := t.blk.kernels } ∧ t.mem = s.mem :=
  runs_modDi (g := fun x => { x with pin := high }) rfl (diEdge_of_same off hruns hawake hsame)

theorem runs_cleaningCurrentEnd (d : Fin 32) (s : State) : Safety.runs (.cleaningCurrentEnd d) s fun t =>
    t.blk.di d = { s.blk.di d with cleaning := false } ∧ Safety.otherInputs s.blk t.blk d
    ∧ t.blk = { s.blk with kernels := t.blk.kernels } ∧ t.mem = s.mem :=
  runs_modDi (g := fun x => { x with cleaning := false }) rfl rfl

/-! ### The stuck timer (R167, R168) -/

theorem runs_diStuck (d : Fin 32) (s : State) (hruns : s.blk.kernelRuns (kOfDi d) = true) (hwake : (s.blk.di d).wake = true)
    (hreported : (s.blk.di d).reported = true) (hfree : (s.blk.di d).stuck = false) :
    Safety.runs (.diStuck d) s fun t =>
      t.blk.di d = { s.blk.di d with stuck := true, stuckMask := true } ∧ (t.blk.di d).wakeSource = false
      ∧ bit (t.blk.kn (kOfDi d)).diSticky (8 + (nOfDi d).val) = true
      ∧ (Safety.kernelRoom s.blk (kOfDi d) 1 →
          Safety.lastKernelRecord t.blk (kOfDi d) = some (srcDi d, 4, 2, arg32 (s.blk.di d).stuckTime, hw))
      ∧ Safety.otherInputs s.blk t.blk d ∧ t.blk = { s.blk with kernels := t.blk.kernels } ∧ t.mem = s.mem := by
  have hstuck : diStuck d s.blk = ((s.blk.modDi d fun x => { x with stuck := true, stuckMask := true }).diSeen (kOfDi d)
      (8 + (nOfDi d).val)).kev (kOfDi d) (srcDi d) 4 2 (arg32 (s.blk.di d).stuckTime) :=
    if_neg (by simp [hruns, hwake, hreported, hfree])
  refine runs_onBlk rfl hstuck ⟨?_, ?_, ?_, fun hroom => Blk.kev_last _ _ _ _ _ _ _ _ _ ?_, fun e he => ?_, rfl, rfl⟩
  · rw [Blk.kev_di, Blk.diSeen_di, Blk.modDi_di]
  · rw [Blk.kev_di, Blk.diSeen_di, Blk.modDi_di]
    exact Bool.and_false _
  · rw [Blk.kev_kn, Blk.diSeen, Blk.modK_kn]
    exact testBit_orBits _ (by omega)
  · rw [Safety.kernelRoom, Blk.diSeen, Blk.modK_kn, Blk.modDi, Blk.modK_kn]
    exact hroom
  · rw [Blk.kev_di, Blk.diSeen_di, Blk.modDi_di_ne _ _ _ he]

theorem runs_diRearmed (d : Fin 32) (s : State) (hstuck : (s.blk.di d).stuck = true) (hreported : (s.blk.di d).reported = false) :
    Safety.runs (.diRearmed d) s fun t =>
      t.blk.di d = { s.blk.di d with stuck := false, stuckMask := false } ∧ Safety.otherInputs s.blk t.blk d
      ∧ t.blk = { s.blk with kernels := t.blk.kernels } ∧ t.mem = s.mem := by
  have hrearmed : diRearmed d s.blk = (s.blk.modDi d fun x => { x with stuck := false, stuckMask := false }).kev (kOfDi d) (srcDi d)
      5 1 (arg32 (min (((s.blk.di d).inactSince.toNat - (s.blk.di d).stuckSince.toNat) / 1000000000) 0xFFFFFFFF)) :=
    if_neg (by simp [hstuck, hreported])
  refine runs_onBlk rfl hrearmed ⟨?_, fun e he => ?_, rfl, rfl⟩
  · rw [Blk.kev_di, Blk.modDi_di]
  · rw [Blk.kev_di, Blk.modDi_di_ne _ _ _ he]

end Sys2Proof.Machine
end

section
/-! SUPPORT. The ends of a kernel's windows (R164 to R166), and the returns of its channels that they bring (R144, R148 to R150). -/

namespace Sys2Proof.Machine
open Sys2Proof

/-! ### The end of one input's window (R165, R166) -/

/-- What the end of its window makes of an input (R165, R166): `x` before it and `y` after it. -/
def Di.judgedAs (x y : Di) : Prop :=
  let chat := decide (x.edges > x.chatterEdges)
  y.reported = x.active ∧ y.latEdges = x.edges ∧ y.edges = 0 ∧ y.chatter = chat
  ∧ y.latFirst = (if x.edges = 0 then 0xFFFF else x.firstEdge) ∧ y.latLast = (if x.edges = 0 then 0xFFFF else x.lastEdge)
  ∧ (chat = true → y.chatMask = (x.chatMask || decide (2 ≤ x.chatRun)))
  ∧ (chat = false → y.chatMask = (x.chatMask && !decide (2 ≤ x.quietRun)))
  ∧ (chat = true → y.chatRun = min (x.chatRun + 1) 3 ∧ y.quietRun = 0)
  ∧ (chat = false → y.quietRun = min (x.quietRun + 1) 3 ∧ y.chatRun = 0)
  ∧ y.stuckMask = x.stuckMask ∧ y.activations = x.activations

/-- The end of a window judges the one input; the records beside it leave every input alone. -/
theorem Blk.diWindow_spec (b : Blk) (d : Fin 32) :
    ∃ g : Di → Di, (b.di d).judgedAs (g (b.di d)) ∧ ∀ e, (b.diWindow d).di e = (b.modDi d g).di e := by
  unfold Blk.diWindow
  extract_lets k x chat cr qr setM clrM changed b1 b2 b3
  refine ⟨?_, ?judged, fun e => ?keeps⟩
  case keeps =>
    have hb1 : b1.di e = b.di e := Blk.ite_di (by simp)
    have hb3 : b3.di e = b2.di e := Blk.ite_di (by simp)
    rw [Blk.ite_di (Blk.kev_di ..), hb3]
    exact Blk.modDi_di_congr hb1 d _
  case judged =>
    have hchatters (h : chat = true) : cr = x.chatRun + 1 ∧ qr = 0 := ⟨if_pos h, if_pos h⟩
    have hquiet (h : chat = false) : cr = 0 ∧ qr = x.quietRun + 1 := ⟨if_neg (by simp [h]), if_neg (by simp [h])⟩
    refine ⟨rfl, rfl, rfl, rfl, rfl, rfl, fun h => ?_, fun h => ?_, fun h => ?_, fun h => ?_, rfl, rfl⟩
    · obtain ⟨hcr, hqr⟩ := hchatters h
      cases hmask : x.chatMask <;> simp [setM, clrM, hcr, hqr, hmask, x]
    · obtain ⟨hcr, hqr⟩ := hquiet h
      cases hmask : x.chatMask <;> simp [setM, clrM, hcr, hqr, hmask, x]
    · exact ⟨congrArg (min · 3) (hchatters h).1, congrArg (min · 3) (hchatters h).2⟩
    · exact ⟨congrArg (min · 3) (hquiet h).2, congrArg (min · 3) (hquiet h).1⟩

/-! ### The end of a kernel's window for its inputs (R164, R170, R172) -/

theorem Blk.aiWindow_di (b : Blk) (k a : Fin 4) (m : AiMeas) (d : Fin 32) : (b.aiWindow k a m).di d = b.di d := by
  unfold Blk.aiWindow
  extract_lets x y raw b1 b2 b3 b4
  have hb1 : b1.di d = b.di d := b.modK_di d rfl
  have hb2 : b2.di d = b1.di d := Blk.ite_di (by simp)
  have hb3 : b3.di d = b2.di d := Blk.ite_di (by simp)
  have hb4 : b4.di d = b3.di d := Blk.ite_di (by simp)
  rw [Blk.ite_di (by simp), hb4, hb3, hb2, hb1]

theorem Blk.foldl_diWindow_di (b : Blk) {k : Fin 4} {d : Fin 32} (hk : kOfDi d = k) :
    (b.di d).judgedAs (((upTo 8).foldl (fun b n => b.diWindow (diOf k n)) b).di d) := by
  have hnodup : ((upTo 8).map (diOf k)).Nodup := (List.nodup_finRange 8).map (diOf_injective k)
  obtain ⟨a, ha, hturn⟩ := foldl_own_turn (x := nOfDi d) (diOf k) (Blk.di · d) (fun b n => b.diWindow (diOf k n)) b hnodup
    (List.mem_finRange _) fun n a hn => by
      obtain ⟨g, -, hother⟩ := a.diWindow_spec (diOf k n)
      rw [diOf_nOfDi hk] at hn
      exact (hother d).trans (a.modDi_di_ne _ g hn.symm)
  obtain ⟨g, hjudged, hown⟩ := a.diWindow_spec d
  rw [hturn, diOf_nOfDi hk, hown, Blk.modDi_di, ← ha]
  exact hjudged

/-- What a kernel senses: its inputs and its own temperature and supply. -/
def Kernel.sensed (kn : Kernel) : Vector Di 8 × BitVec 16 × BitVec 16 := (kn.dis, kn.ktemp, kn.kvbat)

theorem Blk.inputWindow_sensed (b : Blk) {k : Fin 4} {d : Fin 32} (m : KernelMeas) (hk : kOfDi d = k) (hawake : b.rcc.mode ≠ .sleep) :
    (b.di d).judgedAs ((b.inputWindow k m).di d) ∧ ((b.inputWindow k m).kn k).ktemp = m.ktemp
    ∧ ((b.inputWindow k m).kn k).kvbat = m.kvbat := by
  unfold Blk.inputWindow
  extract_lets asleep b1 b2 b3
  have hb1 : b1 = (upTo 8).foldl (fun b n => b.diWindow (diOf k n)) b := by
    simp [b1, asleep, hawake]
  have hb2 : b2.di d = b1.di d := by
    refine foldl_keep (Blk.di · d) _ (fun a n => ?_) _ b1
    split
    · exact Blk.aiWindow_di ..
    · rfl
  have hb3 : b3.di d = b2.di d := by
    unfold b3; split <;> rfl
  refine ⟨?_, by rw [Blk.modK_kn], by rw [Blk.modK_kn]⟩
  rw [b3.modK_di d rfl, hb3, hb2, hb1]
  exact b.foldl_diWindow_di hk

/-! ### Returns after supply faults (R144, R148 to R150) -/

theorem Blk.works_carryOut (b : Blk) (l : Fin 40) : b.Works l (b.carryOut l) := by
  unfold Blk.carryOut
  exact .ite ((((Blk.Works.refl l b).enter _).chev ..).trans (Blk.works_turnOn ..)) (.refl l b)

theorem Blk.works_undefer (b : Blk) (l : Fin 40) : b.Works l (b.undefer l) := by
  unfold Blk.undefer
  extract_lets ch b1
  have hb1 : b.Works l b1 := (Blk.Works.refl l b).modCh rfl
  refine .ite hb1 (.ite (hb1.modCh rfl) ?_)
  cases ch.prot
  case off => exact .ite (hb1.trans (b1.works_turnOn l)) hb1
  case pause | thermal => exact hb1.trans (b1.works_settle l)
  all_goals exact hb1

/-- A kernel without the supply faults that hold its channels off (R144, R148 to R150). -/
def Kernel.unheld (kn : Kernel) : Kernel :=
  { kn with ground := false, groundGood := false, under := false, underGood := false, overtemp := false, overtempGood := false,
            surgeOver := false }

/-- `t` is `b` after returns of channels of kernel `k`: their working state, records and supply faults of kernels. -/
abbrev Blk.Returns (k : Fin 4) (b t : Blk) : Prop :=
  Blk.Frame {c | c ∈ chansOf k} Channel.kept (fun kn => kn.unlogged.unheld) b t

namespace Blk.Returns
variable {k : Fin 4} {b t u : Blk}

theorem works (hr : b.Returns k t) {c : Fin 40} (hc : c ∈ chansOf k) (hw : t.Works c u) : b.Returns k u :=
  hr.trans (hw.weaken (Set.singleton_subset_iff.2 hc) id Kernel.unheld)

theorem ite {p : Prop} [Decidable p] (ht : b.Returns k t) (hu : b.Returns k u) : b.Returns k (if p then t else u) := by
  split
  · exact ht
  · exact hu

/-- The channels that lead or are single, each with work of its own. -/
theorem leads (hr : b.Returns k t) {f : Blk → Fin 40 → Blk} (hf : ∀ a c, Blk.Works c a (f a c)) :
    b.Returns k ((chansOf k).foldl (fun b c => if b.isFollower c then b else f b c) t) :=
  hr.trans (.foldl _ _ _ fun c hc a => ite (.refl ..) (works (.refl ..) hc (hf a c)))

theorem supplyReturn (hr : b.Returns k t) : b.Returns k (t.supplyReturn k).2 := by
  unfold Blk.supplyReturn
  refine List.foldlRecOn (motive := fun acc : Nat × Blk => b.Returns k acc.2) _ _ hr fun acc hacc c hc => ?_
  have hsettled : b.Returns k ((acc.2.modCh c fun ch => { ch with supWait := false }).settle c) :=
    hacc.works hc (((Blk.Works.refl c acc.2).modCh rfl).trans (Blk.works_settle ..))
  dsimp only
  split
  · exact hacc
  · split <;> exact hsettled

/-- The end of one supply fault: its flags are cleared, its channels return, and the kernel records it. -/
theorem fault (hr : b.Returns k t) {clear : Kernel → Kernel} (hclear : (clear (t.kn k)).unlogged.unheld = (t.kn k).unlogged.unheld)
    (code sev : Nat) (arg : Word) : b.Returns k (((t.modK k clear).supplyReturn k).2.kev k (srcK k) code sev arg) :=
  Blk.Frame.kev (ψ := Kernel.unheld) (supplyReturn (Blk.Frame.modK hr k hclear)) k (srcK k) code sev arg hw false 0

end Blk.Returns

theorem Blk.returns_kernelReturns (b : Blk) (k : Fin 4) : b.Returns k (b.kernelReturns k) := by
  unfold Blk.kernelReturns
  extract_lets kn r1 b1 r2 b2 r3 b3 b4
  have hb1 : b.Returns k b1 := Blk.Returns.ite (Blk.Returns.fault (.refl ..) rfl ..) (.refl ..)
  have hb2 : b.Returns k b2 := Blk.Returns.ite (Blk.Returns.fault hb1 rfl ..) hb1
  have hb3 : b.Returns k b3 := Blk.Returns.ite (Blk.Returns.fault hb2 rfl ..) hb2
  have hb4 : b.Returns k b4 := Blk.Returns.ite (Blk.Returns.leads (Blk.Frame.modK hb3 k rfl) Blk.works_undefer) hb3
  exact Blk.Returns.ite (.refl ..) (hb4.leads Blk.works_carryOut)

theorem Blk.kernelReturns_sensed (b : Blk) (k j : Fin 4) : ((b.kernelReturns k).kn j).sensed = (b.kn j).sensed :=
  (congrArg Kernel.sensed ((b.returns_kernelReturns k).kn j) :)

/-! ### The command (R164, R493) -/

theorem kernelWindowEnd_sensed {k : Fin 4} {b : Blk} (m : KernelMeas) (hruns : b.kernelRuns k = true)
    (hfree : b.breath.running = false ∨ (b.bridges.get k).state ≠ .joined) (j : Fin 4) :
    ((kernelWindowEnd k m b).kn j).sensed = ((b.inputWindow k m).kn j).sensed := by
  have hown : ¬ (b.kernelRuns k = false ∨ (b.breath.running = true ∧ (b.bridges.get k).state = .joined)) := by
    simpa [hruns, imp_iff_not_or] using hfree
  rw [kernelWindowEnd, if_neg hown]
  refine (foldl_keep (fun a : Blk => (a.kn j).sensed) _ (fun a n => ?_) _ _).trans (Blk.kernelReturns_sensed _ k j)
  by_cases hj : k = j
  · subst hj; rw [Blk.modK_kn]; rfl
  · rw [Blk.modK_kn_ne _ _ _ _ hj]

theorem Blk.di_of_sensed {a b : Blk} {d : Fin 32} (h : (a.kn (kOfDi d)).sensed = (b.kn (kOfDi d)).sensed) : a.di d = b.di d :=
  congrArg (fun x : Vector Di 8 × BitVec 16 × BitVec 16 => x.1.get (nOfDi d)) h

theorem runs_kernelWindowEnd (k : Fin 4) (m : KernelMeas) (d : Fin 32) (s : State) (hruns : s.blk.kernelRuns k = true)
    (hk : kOfDi d = k) (hawake : s.blk.rcc.mode ≠ .sleep)
    (hfree : s.blk.breath.running = false ∨ (s.blk.bridges.get k).state ≠ .joined) :
    Safety.runs (.kernelWindowEnd k m) s fun t =>
      (s.blk.di d).judgedAs (t.blk.di d) ∧ (t.blk.kn k).ktemp = m.ktemp ∧ (t.blk.kn k).kvbat = m.kvbat ∧ t.mem = s.mem := by
  obtain ⟨hjudged, htemp, hvbat⟩ := s.blk.inputWindow_sensed m hk hawake
  have hsensed := kernelWindowEnd_sensed m hruns hfree k
  have hdi : (kernelWindowEnd k m s.blk).di d = (s.blk.inputWindow k m).di d := Blk.di_of_sensed (hk ▸ hsensed)
  refine runs_onBlk rfl rfl ⟨?_, ?_, ?_, rfl⟩
  · dsimp only
    rw [hdi]
    exact hjudged
  · exact (congrArg (·.2.1) hsensed).trans htemp
  · exact (congrArg (·.2.2) hsensed).trans hvbat

/-- Settles O23: an edge and its absence, the ends of cleaning and of a kernel's window, and the stuck timer. -/
theorem inputsAreCountedJudgedAndMasked : Obligations.InputsAreCountedJudgedAndMasked := by
  refine ⟨runs_diEdge_edge, runs_diEdge_same, runs_cleaningCurrentEnd, fun k m d s hruns hk hawake hfree => ?_, runs_diStuck,
    runs_diRearmed⟩
  obtain ⟨t, ht, ⟨hreported, hlatched, hzero, hchatter, hfirst, hlast, hmasked, hunmasked, hrun, hquiet, hstuck, hactivations⟩,
    hmeas⟩ := runs_kernelWindowEnd k m d s hruns hk hawake hfree
  exact ⟨t, ht, hreported, hlatched, hzero, hchatter, hfirst, hlast, hmasked, hunmasked, hrun, hquiet, hstuck, hactivations, hmeas⟩

end Sys2Proof.Machine
end

section
/-! SUPPORT. Destructive reads under the read-return guard (R191, R192, R205), and the Chanter's release of semaphores. -/

namespace Sys2Proof.Machine
open Sys2Proof

/-! ### The read-return guard (R191) -/

theorem findKey_filter_self {κ α : Type} [DecidableEq κ] (l : List (κ × α)) (k : κ) :
    findKey (l.filter fun p => p.1 ≠ k) k = none := by
  rw [findKey, List.find?_filter]
  simp

/-- A kernel that has returned a value and waits for its confirmation. -/
def Kernel.awaits (kn : Kernel) (r : KseReg) (v : Word) : Kernel := { kn with unconfirmed := setKey kn.unconfirmed r v }

/-- A kernel that returns the value it kept. -/
def Kernel.replay (kn : Kernel) (r : KseReg) (v : Word) : Kernel :=
  { kn with kept := kn.kept.filter (fun p => p.1 ≠ r), unconfirmed := setKey kn.unconfirmed r v }

section
variable {i : Instr} {s : State} {k : Fin 4} {r : KseReg} {f : Blk → BW} {act : Blk → Word × Blk}
  (hexec : exec i s = .next (s.onMem fun _ => f)) (hread : f s.blk = s.blk.destructive k r act)
  (hkernel : s.blk.hasKernel k = true) (hempty : (s.blk.bridges.get k).posted = []) (hopen : s.blk.windowOpen k = true)
  (hfree : findKey (s.blk.kn k).unconfirmed r = none)
include hexec hread hkernel hempty hopen hfree

/-- A first read acts as its register says, and the value that it returns waits for its confirmation. -/
theorem runs_destructive_first (hkept : findKey (s.blk.kn k).kept r = none) {v : Word} {b : Blk} (hact : act s.blk = (v, b)) :
    Safety.runs i s fun t =>
      t.blk.reply = { data := v.zeroExtend 64, fault := false, isolated := false } ∧ t.blk.kn k = (b.kn k).awaits r v
      ∧ t.blk = { b with kernels := t.blk.kernels, reply := t.blk.reply } ∧ t.mem = s.mem := by
  have hguard : s.blk.destructive k r act = ((b.modK k (·.awaits r v)).answer v.toNat, []) := by
    unfold Blk.destructive
    simp only [hkernel, Blk.settleLink_of_empty hempty, BW.map, hopen, hfree, hkept, hact, Bool.true_eq_false, if_false,
      Option.isSome_none, Bool.false_eq_true]
    rfl
  refine runs_onMem hexec (hread.trans hguard) ?_
  dsimp only
  rw [Blk.heal_nil]
  exact ⟨by rw [Blk.answer, BitVec.ofNat_toNat], Blk.modK_kn .., rfl, rfl⟩

/-- A first read of a quantity of 16 bits returns it and restarts it in its kernel (R205). -/
theorem runs_quantity_first (hkept : findKey (s.blk.kn k).kept r = none) {q : BitVec 16} {restart : Kernel → Kernel} {b : Blk}
    (hact : act s.blk = (q.zeroExtend 32, b.modK k restart)) (hsame : b.kn k = s.blk.kn k) :
    Safety.runs i s fun t =>
      t.blk.reply = { data := q.zeroExtend 64, fault := false, isolated := false }
      ∧ t.blk.kn k = (restart (s.blk.kn k)).awaits r (q.zeroExtend 32) ∧ t.mem = s.mem := by
  obtain ⟨t, ht, hreply, hkn, -, hmem⟩ := runs_destructive_first hexec hread hkernel hempty hopen hfree hkept hact
  rw [Blk.modK_kn, hsame] at hkn
  have hwide : (q.zeroExtend 32).zeroExtend 64 = q.zeroExtend 64 := BitVec.setWidth_setWidth (by decide)
  exact ⟨t, ht, hwide ▸ hreply, hkn, hmem⟩

/-- A value that was not delivered is returned again with `REPLAY`; the register does not act. -/
theorem runs_destructive_replayed {v : Word} (hkept : findKey (s.blk.kn k).kept r = some v) :
    Safety.runs i s fun t =>
      t.blk.reply = { data := (v ||| replayBit).zeroExtend 64, fault := false, isolated := false }
      ∧ t.blk.kn k = (s.blk.kn k).replay r v ∧ t.mem = s.mem := by
  have hguard : s.blk.destructive k r act =
      (((s.blk.modK k (·.replay r v)).modBr k fun x => { x with replays := satInc x.replays 0xFFFFFFFF }).answer
        (v ||| replayBit).toNat, []) := by
    unfold Blk.destructive
    simp only [hkernel, Blk.settleLink_of_empty hempty, BW.map, hopen, hfree, hkept, Bool.true_eq_false, if_false,
      Option.isSome_none, Bool.false_eq_true]
    rfl
  refine runs_onMem hexec (hread.trans hguard) ?_
  dsimp only
  rw [Blk.heal_nil]
  exact ⟨by rw [Blk.answer, BitVec.ofNat_toNat], Blk.modK_kn .., rfl⟩

end

/-- A kernel whose value was delivered, or was discarded on its way and is kept for a replay. -/
def Kernel.confirm (kn : Kernel) (r : KseReg) (v : Word) (delivered : Bool) : Kernel :=
  { kn with unconfirmed := kn.unconfirmed.filter (fun p => p.1 ≠ r), kept := if delivered then kn.kept else setKey kn.kept r v }

theorem runs_readReturnConfirm (k : Fin 4) (r : KseReg) (v : Word) (delivered : Bool) (s : State)
    (hwaits : findKey (s.blk.kn k).unconfirmed r = some v) :
    Safety.runs (.readReturnConfirm k r delivered) s fun t => findKey (t.blk.kn k).unconfirmed r = none
      ∧ (delivered = true → (t.blk.kn k).kept = (s.blk.kn k).kept) ∧ (delivered = false → findKey (t.blk.kn k).kept r = some v)
      ∧ t.blk = { s.blk with kernels := t.blk.kernels } ∧ t.mem = s.mem := by
  have hkn : (readReturnConfirm k r delivered s.blk).kn k = (s.blk.kn k).confirm r v delivered := by
    rw [readReturnConfirm, Blk.modK_kn, hwaits]
    cases delivered <;> rfl
  refine runs_onBlk (f := readReturnConfirm k r delivered) rfl rfl ?_
  dsimp only
  rw [hkn]
  refine ⟨findKey_filter_self .., fun hyes => ?_, fun hno => ?_, rfl, rfl⟩
  · subst hyes; rfl
  · subst hno; exact findKey_setKey_self ..

/-! ### Semaphores (R192) -/

/-- What a first read of a semaphore shows: `ACQUIRED`, `HELD_KERNEL` or `HELD_CHANTER`. -/
def Sem.shown : Sem → Word
  | .free => 1
  | .kernel => 2
  | .chanter => 4

/-- A semaphore that the Chanter has read: it takes a free one. -/
def Sem.taken : Sem → Sem
  | .free => .chanter
  | x => x

/-- The semaphores of a kernel once the Chanter has read one of them. -/
def Kernel.takes (kn : Kernel) (n : Fin 8) : Kernel := { kn with sems := vmod kn.sems n Sem.taken }

/-- A semaphore that is held stays as it is. -/
theorem Blk.modK_takes_of_held {b : Blk} {k : Fin 4} {n : Fin 8} (h : ((b.kn k).sems.get n).taken = (b.kn k).sems.get n) :
    (b.modK k fun kn => kn.takes n) = b := by
  have hsame : vmod b.kernels k (fun kn => kn.takes n) = b.kernels :=
    vmod_id _ _ _ (congrArg (fun l => { b.kn k with sems := l }) (vmod_id _ _ _ h))
  rw [Blk.modK, hsame]

theorem kseSemRead_eq (k : Fin 4) (n : Fin 8) (b : Blk) :
    kseSemRead k n b = b.destructive k (.sem n) fun b => (((b.kn k).sems.get n).shown, b.modK k fun kn => kn.takes n) := by
  refine congrArg (b.destructive k (.sem n)) (funext fun b => ?_)
  cases h : (b.kn k).sems.get n with
  | free =>
    have hfree : (b.kernels.get k).sems.get n = .free := h
    simp only [Sem.shown, Blk.modK, Kernel.takes, vmod, hfree, Sem.taken]
  | chanter => exact congrArg (Prod.mk _) (Blk.modK_takes_of_held (by rw [h]; rfl)).symm
  | kernel => exact congrArg (Prod.mk _) (Blk.modK_takes_of_held (by rw [h]; rfl)).symm

section
variable (k : Fin 4) (n : Fin 8) (s : State) (hkernel : s.blk.hasKernel k = true) (hempty : (s.blk.bridges.get k).posted = [])
  (hopen : s.blk.windowOpen k = true) (hfree : findKey (s.blk.kn k).unconfirmed (.sem n) = none)
include hkernel hempty hopen hfree

theorem runs_kseSemRead_first (hkept : findKey (s.blk.kn k).kept (.sem n) = none) :
    Safety.runs (.kseSemRead k n) s fun t =>
      let v : Word := ((s.blk.kn k).sems.get n).shown
      t.blk.reply = { data := v.zeroExtend 64, fault := false, isolated := false }
      ∧ (t.blk.kn k).sems.get n = ((s.blk.kn k).sems.get n).taken
      ∧ (∀ m : Fin 8, m ≠ n → (t.blk.kn k).sems.get m = (s.blk.kn k).sems.get m)
      ∧ findKey (t.blk.kn k).unconfirmed (.sem n) = some v
      ∧ t.blk = { s.blk with kernels := t.blk.kernels, reply := t.blk.reply } ∧ t.mem = s.mem := by
  obtain ⟨t, ht, hreply, hkn, hblk, hmem⟩ := runs_destructive_first (i := .kseSemRead k n) rfl (kseSemRead_eq k n s.blk) hkernel
    hempty hopen hfree hkept rfl
  rw [Blk.modK_kn] at hkn
  refine ⟨t, ht, hreply, ?_, fun m hm => ?_, ?_, hblk, hmem⟩ <;> rw [hkn]
  · exact vmod_get_self ..
  · exact vmod_get_ne _ _ _ _ hm.symm
  · exact findKey_setKey_self ..

theorem runs_kseSemRead_replayed {v : Word} (hkept : findKey (s.blk.kn k).kept (.sem n) = some v) :
    Safety.runs (.kseSemRead k n) s fun t =>
      t.blk.reply = { data := (v ||| 0x80000000).zeroExtend 64, fault := false, isolated := false }
      ∧ (t.blk.kn k).sems = (s.blk.kn k).sems ∧ findKey (t.blk.kn k).kept (.sem n) = none ∧ t.mem = s.mem := by
  obtain ⟨t, ht, hreply, hkn, hmem⟩ := runs_destructive_replayed (i := .kseSemRead k n) rfl (kseSemRead_eq k n s.blk) hkernel
    hempty hopen hfree hkept
  refine ⟨t, ht, hreply, ?_, ?_, hmem⟩ <;> rw [hkn]
  · rfl
  · exact findKey_filter_self ..

end

/-- The Chanter's release frees what it holds of the mask and nothing else. -/
theorem runs_kgSemRelWrite (k : Fin 4) (mask : Byte) (s : State) (hopen : s.blk.windowOpen k = true) :
    Safety.runs (.kgSemRelWrite k mask) s fun t =>
      (∀ n : Fin 8, (t.blk.kn k).sems.get n =
        if mask.toNat.testBit n.val = true ∧ (s.blk.kn k).sems.get n = .chanter then .free else (s.blk.kn k).sems.get n)
      ∧ t.blk = { s.blk with kernels := t.blk.kernels } ∧ t.mem = s.mem := by
  have hrelease : kgSemRelWrite k mask s.blk = s.blk.semRelease k mask.toNat := if_pos hopen
  refine runs_onBlk rfl hrelease ⟨fun n => ?_, rfl, rfl⟩
  dsimp only [Blk.semRelease]
  rw [Blk.modK_kn]
  refine (Vector.getElem_ofFn n.isLt).trans ?_
  simp only [Bool.and_eq_true, decide_eq_true_eq]

/-! ### Peaks and voltage extremes (R205) -/

section
variable (k : Fin 4) (s : State) (hkernel : s.blk.hasKernel k = true) (hempty : (s.blk.bridges.get k).posted = [])
  (hopen : s.blk.windowOpen k = true)
include hkernel hempty hopen

theorem runs_ksePeakRead (n : Fin 10) (hfree : findKey (s.blk.kn k).unconfirmed (.peak n) = none)
    (hkept : findKey (s.blk.kn k).kept (.peak n) = none) :
    Safety.runs (.ksePeakRead k n) s fun t =>
      t.blk.reply = { data := ((s.blk.kn k).peaks.get n).zeroExtend 64, fault := false, isolated := false }
      ∧ (∀ m : Fin 10, m ≠ n → (t.blk.kn k).peaks.get m = (s.blk.kn k).peaks.get m) ∧ t.mem = s.mem := by
  obtain ⟨t, ht, hreply, hkn, hmem⟩ := runs_quantity_first (i := .ksePeakRead k n) rfl rfl hkernel hempty hopen hfree hkept rfl rfl
  refine ⟨t, ht, hreply, fun m hm => ?_, hmem⟩
  rw [hkn]
  exact vmod_get_ne _ _ _ _ hm.symm

theorem runs_kseVbatMinRead (hfree : findKey (s.blk.kn k).unconfirmed .vbatMin = none)
    (hkept : findKey (s.blk.kn k).kept .vbatMin = none) :
    Safety.runs (.kseVbatMinRead k) s fun t =>
      t.blk.reply = { data := (s.blk.kn k).vbatMin.zeroExtend 64, fault := false, isolated := false }
      ∧ (t.blk.kn k).vbatMin = (s.blk.kn k).kvbat ∧ (t.blk.kn k).vbatMax = (s.blk.kn k).vbatMax ∧ t.mem = s.mem := by
  obtain ⟨t, ht, hreply, hkn, hmem⟩ := runs_quantity_first (i := .kseVbatMinRead k) rfl rfl hkernel hempty hopen hfree hkept rfl rfl
  exact ⟨t, ht, hreply, congrArg Kernel.vbatMin hkn, (congrArg Kernel.vbatMax hkn :), hmem⟩

theorem runs_kseVbatMaxRead (hfree : findKey (s.blk.kn k).unconfirmed .vbatMax = none)
    (hkept : findKey (s.blk.kn k).kept .vbatMax = none) :
    Safety.runs (.kseVbatMaxRead k) s fun t =>
      t.blk.reply = { data := (s.blk.kn k).vbatMax.zeroExtend 64, fault := false, isolated := false }
      ∧ (t.blk.kn k).vbatMax = (s.blk.kn k).kvbat ∧ (t.blk.kn k).vbatMin = (s.blk.kn k).vbatMin ∧ t.mem = s.mem := by
  obtain ⟨t, ht, hreply, hkn, hmem⟩ := runs_quantity_first (i := .kseVbatMaxRead k) rfl rfl hkernel hempty hopen hfree hkept rfl rfl
  exact ⟨t, ht, hreply, congrArg Kernel.vbatMax hkn, (congrArg Kernel.vbatMin hkn :), hmem⟩

end

/-- Settles O27: destructive reads, first and replayed, their confirmation, and the release of semaphores. -/
theorem destructiveReadsAreGuarded : Obligations.DestructiveReadsAreGuarded :=
  ⟨runs_kseSemRead_first, fun k n _ s hkernel hempty hopen hfree => runs_kseSemRead_replayed k n s hkernel hempty hopen hfree,
    fun k n s hkernel hempty hopen => runs_ksePeakRead k s hkernel hempty hopen n, runs_kseVbatMinRead, runs_kseVbatMaxRead,
    runs_readReturnConfirm, runs_kgSemRelWrite⟩

end Sys2Proof.Machine
end

section
/-! SUPPORT. A boundary that becomes ISOLATED (R199, R188, R191, R192), and one that becomes REJOINING (R200). -/

namespace Sys2Proof.Machine
open Sys2Proof

/-! ### What failing the writes of a boundary leaves (R187, R188) -/

/-- Two changes of one entry of a table are one change. -/
theorem vmod_vmod {α : Type} {n : Nat} (v : Vector α n) (i : Fin n) (f g : α → α) :
    vmod (vmod v i f) i g = vmod v i fun x => g (f x) := by
  rw [vmod, vmod_get_self, vmod, Vector.set_set, vmod]

/-- A boundary without its count of failed writes. -/
def Bridge.uncounted (x : Bridge) : Bridge := { x with pwDrop := 0 }

/-- What a failed write of boundary `k` does not reach: the channels, the kernels, the programs, and the boundaries but for the
count of failed writes of `k`. -/
def Blk.beyondLink (b : Blk) (k : Fin 4) : Vector Channel 40 × Vector Kernel 4 × Vector Bridge 4 × CfgSvc × DoubleReed × Vector Tenant 8 :=
  (b.chans, b.kernels, vmod b.bridges k Bridge.uncounted, b.cfg, b.dr, b.tenants)

theorem Blk.toFaultQueue_beyondLink (b : Blk) (own : Fin 10) (k j : Fin 4) (m : Msg) :
    (b.toFaultQueue own j m).beyondLink k = b.beyondLink k := by
  unfold Blk.toFaultQueue
  split
  · rfl
  · dsimp only
    split
    · rfl
    · split <;> rfl

theorem Blk.deliver_beyondLink (b : Blk) (r : Rec) (k : Fin 4) : (b.deliver r).1.beyondLink k = b.beyondLink k := by
  rw [(b.deliver_fst r).2, Blk.toLog_eq]; rfl

theorem Blk.grantRec_beyondLink (b : Blk) (p : PRec) (k : Fin 4) : (b.grantRec p).2.beyondLink k = b.beyondLink k := by
  rw [Blk.grantRec_snd]; rfl

/-- A change of the count of failed writes of a boundary. -/
theorem Blk.modBr_beyondLink (b : Blk) (k : Fin 4) {f : Bridge → Bridge} (hf : ∀ x, (f x).uncounted = x.uncounted) :
    (b.modBr k f).beyondLink k = b.beyondLink k := by
  have hcount : vmod (vmod b.bridges k f) k Bridge.uncounted = vmod b.bridges k Bridge.uncounted := by
    rw [vmod_vmod]
    exact congrArg (vmod b.bridges k) (funext hf)
  rw [Blk.beyondLink, Blk.modBr_bridges, hcount]
  rfl

theorem Blk.failWrite_beyondLink (b : Blk) (k : Fin 4) (p : Posted) (reason : Nat) :
    (b.failWrite k p reason).1.beyondLink k = b.beyondLink k := by
  unfold Blk.failWrite
  split
  · rfl
  · rename_i n _
    extract_lets cur own record
    split
    rename_i r b1 hgrant
    extract_lets bytes b2 b3 b4
    have hb1 : b1.beyondLink k = b.beyondLink k :=
      (congrArg (·.2.beyondLink k) hgrant).symm.trans (b.grantRec_beyondLink record k)
    have hb2 : b2.beyondLink k = b.beyondLink k := Eq.trans (b1.modBr_beyondLink k fun _ => rfl) hb1
    have hb3 : b3.beyondLink k = b.beyondLink k := by
      unfold b3
      split <;> exact hb2
    have hb4 : b4.beyondLink k = b.beyondLink k :=
      (b3.toFaultQueue_beyondLink own k k { words := wordsOf 8 bytes, seq := some r.seq }).trans hb3
    split
    · exact hb4
    · exact (Blk.deliver_beyondLink ..).trans hb4

/-- The writes on their way to a boundary that is cut fail, one after another, and none is left. -/
theorem Blk.failAll_beyondLink (b : Blk) (k : Fin 4) (reason : Nat) :
    (b.failAll k reason).1.beyondLink k = (b.modBr k fun x => { x with posted := [] }).beyondLink k :=
  foldl_keep (fun x : BW => x.1.beyondLink k) (fun x p => x.andThen (·.failWrite k p reason))
    (fun x p => x.1.failWrite_beyondLink k p reason) _ _

/-! ### Isolation (R199) -/

section
variable {s t u : Blk} {k : Fin 4} {cause : Nat}

/-- Whether a boundary has been isolated is a matter of what failed writes do not reach. -/
theorem Safety.isolated_congr (h : t.beyondLink k = u.beyondLink k) (hu : Safety.isolated s u k cause) :
    Safety.isolated s t k cause := by
  simp only [Blk.beyondLink, Prod.mk.injEq] at h
  obtain ⟨hchans, hkernels, hbridges, hcfg, hdr, htenants⟩ := h
  obtain ⟨hstate, hcause, hcount, hdt, hposted, hsems, hothers, hrest⟩ := hu
  have hbr : (t.bridges.get k).uncounted = (u.bridges.get k).uncounted := by
    simpa only [vmod_get_self] using congrArg (Vector.get · k) hbridges
  have hkn (j : Fin 4) : t.kn j = u.kn j := congrArg (Vector.get · j) hkernels
  refine ⟨(congrArg Bridge.state hbr :).trans hstate, (congrArg Bridge.cause hbr :).trans hcause,
    (congrArg Bridge.isoCount hbr :).trans hcount, (congrArg Bridge.isoDt hbr :).trans hdt,
    (congrArg Bridge.posted hbr :).trans hposted, hkn k ▸ hsems, fun j hj => ⟨?_, (hkn j).trans (hothers j hj).2⟩, ?_⟩
  · have hother : t.bridges.get j = u.bridges.get j := by
      simpa only [vmod_get_ne _ k j _ hj.symm] using congrArg (Vector.get · j) hbridges
    exact hother.trans (hothers j hj).1
  · rw [hchans, hcfg, hdr, htenants]
    exact hrest

end

/-- A boundary that is cut, with its cause and the instant. -/
def Bridge.cut (x : Bridge) (cause : Nat) (now : BitVec 64) : Bridge :=
  { x with state := .isolated, cause := BitVec.ofNat 8 (cause % 128), isoCount := satInc x.isoCount 0xFFFF,
           isoDt := now, isoSince := now, goodFrom := now, failedPolls := 0 }

/-- A kernel whose boundary is cut: the Chanter's semaphores are free, and every value that waits for its confirmation is kept
(R191, R192). -/
def Kernel.cut (kn : Kernel) : Kernel :=
  { kn with semBroken := kn.semBroken ||| BitVec.ofNat 8
              (((upTo 8).map fun s => if kn.sems.get s = .chanter then 2 ^ s.val else 0).foldl (· + ·) 0),
            sems := kn.sems.map fun s => if s = .chanter then .free else s,
            kept := kn.unconfirmed ++ kn.kept, unconfirmed := [], gotCommit := false }

/-- The readings that the monitors of a boundary take next (log entry 13). -/
def Bridge.read (x : Bridge) (c : Nat) : Bridge :=
  { x with monClk := Config.freeWord c &&& 0xFFFF, monGnd := Config.freeWord (c + 1),
           monVdd := Config.freeWord (c + 2), monTemp := Config.freeWord (c + 3) &&& 0x00FFFFFF }

theorem Blk.remonitor_eq (b : Blk) (k : Fin 4) :
    b.remonitor k = { b.modBr k (·.read b.freeCtr) with freeCtr := b.freeCtr + 4 } := rfl

/-- The block once a boundary is cut and recorded, before its waiting writes fail. -/
def Blk.cut (b : Blk) (k : Fin 4) (cause : Nat) : Blk :=
  (((b.modBr k (·.cut cause b.time.dt)).modK k Kernel.cut).remonitor k).ev (srcBr k) 1 4 (arg32 (cause % 128)) (pin := true)

theorem Kernel.cut_sems (kn : Kernel) (n : Fin 8) : kn.cut.sems.get n ≠ .chanter := by
  show (kn.sems.map fun s => if s = .chanter then .free else s).get n ≠ .chanter
  rw [Vector.get_map]
  split
  · decide
  · assumption

theorem Blk.cut_eq (b : Blk) (k : Fin 4) (cause : Nat) :
    b.cut k cause =
      { b with bridges := vmod (vmod b.bridges k (·.cut cause b.time.dt)) k (·.read b.freeCtr),
               kernels := vmod b.kernels k Kernel.cut, freeCtr := b.freeCtr + 4, evs := (b.cut k cause).evs } := Blk.ev_eq ..

/-- A boundary that is cut, once no write is on its way, has been isolated. -/
theorem Blk.cut_isolated (b : Blk) (k : Fin 4) (cause : Nat) :
    Safety.isolated b ((b.cut k cause).modBr k fun x => { x with posted := [] }) k cause := by
  rw [b.cut_eq k cause]
  unfold Safety.isolated Blk.kn
  rw [Blk.modBr_bridges, Blk.modBr_kernels, vmod_vmod, vmod_vmod, vmod_get_self, vmod_get_self]
  exact ⟨rfl, rfl, rfl, rfl, rfl, (b.kn k).cut_sems, fun j hj => ⟨vmod_get_ne _ _ _ _ hj.symm, vmod_get_ne _ _ _ _ hj.symm⟩,
    rfl, rfl, rfl, rfl⟩

section
variable {b : Blk} {k : Fin 4}

theorem Blk.isolate_eq (cause : Nat) (h : (b.bridges.get k).state = .joined ∨ (b.bridges.get k).state = .rejoining) :
    b.isolate k cause = (b.cut k cause).failAll k 1 := by
  unfold Blk.isolate
  rcases h with h | h <;> rw [h] <;> rfl

theorem Blk.isolate_isolated (cause : Nat) (h : (b.bridges.get k).state = .joined ∨ (b.bridges.get k).state = .rejoining) :
    Safety.isolated b (b.isolate k cause).1 k cause := by
  rw [Blk.isolate_eq cause h]
  exact Safety.isolated_congr (Blk.failAll_beyondLink ..) (b.cut_isolated k cause)

end

/-- R199: an excursion cuts a joined boundary, and a REJOINING one again. -/
theorem runs_boundaryExcursion (k : Fin 4) (cause : BitVec 7) (s : State)
    (h : (s.blk.bridges.get k).state = .joined ∨ (s.blk.bridges.get k).state = .rejoining) :
    Safety.runs (.boundaryExcursion k cause) s fun t => Safety.isolated s.blk t.blk k cause.toNat :=
  runs_onMem rfl rfl (Blk.isolate_isolated cause.toNat h)

/-! ### Rejoining (R200) -/

/-- The block once the limits of a boundary have held, before its record. -/
def Blk.regained (b : Blk) (k : Fin 4) : Blk := (b.modBr k fun x => { x with state := .rejoining }).remonitor k

theorem runs_boundaryRejoining (k : Fin 4) (s : State) (hisolated : (s.blk.bridges.get k).state = .isolated)
    (hpower : (s.blk.kn k).powered = true) :
    Safety.runs (.boundaryRejoining k) s fun t =>
      (t.blk.bridges.get k).state = .rejoining ∧ t.mem = s.mem
      ∧ ((s.blk.bridges.get k).everJoined = true → Safety.room s.blk (srcBr k) → Safety.lastRecord t.blk =
          some (srcBr k, 2, 2, arg32 (min (s.blk.since (s.blk.bridges.get k).isoSince / 1000000) 0xFFFFFFFF), hw))
      ∧ (∀ j : Fin 4, j ≠ k → t.blk.bridges.get j = s.blk.bridges.get j)
      ∧ t.blk = { s.blk with bridges := t.blk.bridges, evs := t.blk.evs, freeCtr := t.blk.freeCtr } := by
  have hrejoin : boundaryRejoining k s.blk =
      if (s.blk.bridges.get k).everJoined then
        (s.blk.regained k).ev (srcBr k) 2 2 (arg32 (min (s.blk.since (s.blk.bridges.get k).isoSince / 1000000) 0xFFFFFFFF))
      else s.blk.regained k := if_neg (by simp [hisolated, hpower])
  have hstate : ((s.blk.regained k).bridges.get k).state = .rejoining := by
    simp only [Blk.regained, Blk.remonitor_eq, Blk.modBr_bridges, vmod_get_self]
    rfl
  have hothers (j : Fin 4) (hj : j ≠ k) : (s.blk.regained k).bridges.get j = s.blk.bridges.get j := by
    simp only [Blk.regained, Blk.remonitor_eq, Blk.modBr_bridges, vmod_get_ne _ _ _ _ hj.symm]
  refine runs_onBlk rfl hrejoin ?_
  dsimp only
  split
  · rw [Blk.ev_bridges, Blk.ev_freeCtr]
    exact ⟨hstate, rfl, fun _ hroom => Blk.ev_last_of_evs_eq (a := s.blk.regained k) rfl hroom 2 2 _ hw false 0, hothers, Blk.ev_eq ..⟩
  · rename_i hfirst
    exact ⟨hstate, rfl, fun hever => absurd hever hfirst, hothers, rfl⟩

end Sys2Proof.Machine
end

section
/-! SUPPORT. Side-band polls and their watchdog (R193, R194), and retried blocks (R206). -/

namespace Sys2Proof.Machine
open Sys2Proof

/-! ### The side-band word (R193) -/

theorem b2n_le (x : Bool) : b2n x ≤ 1 := by cases x <;> decide

/-- A word made of five fields. -/
theorem toNat_mkWord_five (a b c d e : Nat) : (mkWord [a, b, c, d, e]).toNat = (a + b + c + d + e) % 2 ^ 32 := by
  simp [mkWord]

theorem fld_of_lt {v width : Nat} (lo : Nat) (h : v < 2 ^ width) : fld v width lo = v * 2 ^ lo := by
  rw [fld, Nat.mod_eq_of_lt h]

/-- The fields of the side-band word, which do not overlap, are told apart. -/
theorem sideband_fields {n f p r h : Nat} (hn : n ≤ 255) (hf : f ≤ 1) (hp : p ≤ 1) (hr : r ≤ 1) (hh : h < 256) :
    bits (mkWord [n, fld f 1 8, fld p 1 9, fld r 1 10, fld h 8 16]) 7 0 = n
    ∧ bits (mkWord [n, fld f 1 8, fld p 1 9, fld r 1 10, fld h 8 16]) 23 16 = h := by
  rw [bits, bits, toNat_mkWord_five, fld_of_lt 8 (by omega), fld_of_lt 9 (by omega), fld_of_lt 10 (by omega),
    fld_of_lt 16 (by omega)]
  omega

theorem Kernel.bits_sideband (kn : Kernel) :
    bits kn.sideband 7 0 = min kn.buf.length 255 ∧ bits kn.sideband 23 16 = kn.heartbeat.toNat :=
  sideband_fields (Nat.min_le_right ..) (b2n_le _) (b2n_le _) (b2n_le _) kn.heartbeat.isLt

/-! ### Answered polls (R193) -/

/-- A kernel that counts a poll it answers. -/
def Kernel.beat (kn : Kernel) : Kernel := { kn with heartbeat := kn.heartbeat + 1 }

/-- A kernel of a joined boundary that has answered a poll: its changes are told, and its watchdog is content. -/
def Kernel.answered (kn : Kernel) : Kernel := { kn.beat with kflagsChg := false, protChg := false, wdHold := false }

section
variable {b : Blk} {k : Fin 4}

/-- The block between the answer to a poll and the hand-over. -/
def Blk.pollAnswered (b : Blk) (k : Fin 4) : Blk :=
  ((b.modK k Kernel.beat).modBr k fun x => { x with poll := (b.kn k).beat.sideband, failedPolls := 0 }).modK k
    fun kn => { kn with kflagsChg := false, protChg := false, wdHold := false }

theorem Blk.pollAnswered_kernels (b : Blk) (k : Fin 4) : (b.pollAnswered k).kernels = vmod b.kernels k Kernel.answered :=
  vmod_vmod b.kernels k Kernel.beat fun kn => { kn with kflagsChg := false, protChg := false, wdHold := false }

theorem Blk.pollAnswered_eq (b : Blk) (k : Fin 4) :
    b.pollAnswered k = { b with bridges := (b.pollAnswered k).bridges, kernels := (b.pollAnswered k).kernels } := rfl

theorem sidebandPoll_answered (hkernel : b.hasKernel k = true) (hpower : (b.kn k).powered = true)
    (hjoined : (b.bridges.get k).state = .joined) : sidebandPoll k true b = ((b.pollAnswered k).handOver k, []) := by
  unfold sidebandPoll
  simp only [hkernel, hpower, hjoined, Bool.true_eq_false, if_false, Bool.and_self, if_true, true_or, Blk.modK_kn]
  rfl

/-- A kernel that has handed over `n` of its records. -/
def Kernel.handsOver (kn : Kernel) (n : Nat) : Kernel := { kn with buf := kn.buf.drop n, storedRecs := kn.storedRecs - n }

theorem Blk.handOver_eq (hlive : (b.bridges.get k).deliver = none) :
    ∃ n, b.handOver k = ((b.modK k (·.handsOver (min 8 (b.kn k).buf.length))).onEvs fun e =>
      { e with queue := e.queue ++ (b.kn k).buf.take (min 8 (b.kn k).buf.length) }).modBr k fun x =>
        { x with replays := satAdd x.replays n 0xFFFFFFFF } := by
  unfold Blk.handOver
  dsimp only
  rw [hlive]
  exact ⟨_, rfl⟩

/-- R193: up to eight records of a joined boundary go to the sequencer, the oldest first. -/
theorem Blk.handOver_spec (hlive : (b.bridges.get k).deliver = none) :
    (b.handOver k).kn k = { b.kn k with buf := (b.kn k).buf.drop 8, storedRecs := (b.kn k).storedRecs - min 8 (b.kn k).buf.length }
    ∧ (∃ n, (b.handOver k).bridges.get k = { b.bridges.get k with replays := n })
    ∧ (b.handOver k).evs.queue = b.evs.queue ++ (b.kn k).buf.take 8
    ∧ (∀ j : Fin 4, j ≠ k → (b.handOver k).bridges.get j = b.bridges.get j ∧ (b.handOver k).kn j = b.kn j)
    ∧ b.handOver k = { b with bridges := (b.handOver k).bridges, kernels := (b.handOver k).kernels, evs := (b.handOver k).evs } := by
  obtain ⟨n, hhand⟩ := b.handOver_eq hlive
  rw [← List.take_eq_take_min] at hhand
  rw [hhand, List.drop_eq_drop_min]
  exact ⟨vmod_get_self .., ⟨_, vmod_get_self ..⟩, rfl,
    fun j hj => ⟨vmod_get_ne _ _ _ _ hj.symm, vmod_get_ne _ _ _ _ hj.symm⟩, rfl⟩

end

theorem runs_sidebandPoll_answered (k : Fin 4) (s : State) (hkernel : s.blk.hasKernel k = true)
    (hpower : (s.blk.kn k).powered = true) (hjoined : (s.blk.bridges.get k).state = .joined)
    (hlive : (s.blk.bridges.get k).deliver = none) :
    Safety.runs (.sidebandPoll k true) s fun t =>
      (t.blk.kn k).heartbeat = (s.blk.kn k).heartbeat + 1 ∧ (t.blk.bridges.get k).failedPolls = 0
      ∧ (t.blk.kn k).buf = (s.blk.kn k).buf.drop 8 ∧ t.blk.evs.queue = s.blk.evs.queue ++ (s.blk.kn k).buf.take 8
      ∧ bits (t.blk.bridges.get k).poll 7 0 = min (s.blk.kn k).buf.length 255
      ∧ bits (t.blk.bridges.get k).poll 23 16 = ((s.blk.kn k).heartbeat + 1).toNat
      ∧ (t.blk.kn k).kflagsChg = false ∧ (t.blk.kn k).protChg = false ∧ (t.blk.bridges.get k).state = .joined
      ∧ (∀ j : Fin 4, j ≠ k → t.blk.bridges.get j = s.blk.bridges.get j ∧ t.blk.kn j = s.blk.kn j)
      ∧ t.blk = { s.blk with bridges := t.blk.bridges, kernels := t.blk.kernels, evs := t.blk.evs } ∧ t.mem = s.mem := by
  have hasked : (s.blk.pollAnswered k).bridges.get k =
      { s.blk.bridges.get k with poll := (s.blk.kn k).beat.sideband, failedPolls := 0 } := vmod_get_self ..
  have hanswered : (s.blk.pollAnswered k).kn k = (s.blk.kn k).answered := by
    rw [Blk.kn, Blk.pollAnswered_kernels]; exact vmod_get_self ..
  have hothers (j : Fin 4) (hj : j ≠ k) :
      (s.blk.pollAnswered k).bridges.get j = s.blk.bridges.get j ∧ (s.blk.pollAnswered k).kn j = s.blk.kn j := by
    rw [Blk.kn, Blk.pollAnswered_kernels]
    exact ⟨vmod_get_ne _ _ _ _ hj.symm, vmod_get_ne _ _ _ _ hj.symm⟩
  obtain ⟨hkn, ⟨n, hbridge⟩, hqueue, hkept, hblk⟩ := Blk.handOver_spec (b := s.blk.pollAnswered k) (k := k)
    (by rw [hasked]; exact hlive)
  rw [hanswered] at hkn hqueue
  rw [hasked] at hbridge
  obtain ⟨hpending, hbeat⟩ := (s.blk.kn k).beat.bits_sideband
  refine runs_onMem rfl (sidebandPoll_answered hkernel hpower hjoined) ?_
  dsimp only
  rw [Blk.heal_nil, hkn, hbridge]
  refine ⟨rfl, rfl, rfl, hqueue, hpending, hbeat, rfl, rfl, hjoined,
    fun j hj => ⟨(hkept j hj).1.trans (hothers j hj).1, (hkept j hj).2.trans (hothers j hj).2⟩, ?_, rfl⟩
  rw [Blk.pollAnswered_eq] at hblk
  exact hblk

/-! ### Failed polls (R193, R194) -/

section
variable {b : Blk} {k : Fin 4}

/-- The block after a poll of a joined boundary that failed: the records of a discarded hand-over are marked `REPLAY` (R191). -/
def Blk.pollMissed (b : Blk) (k : Fin 4) : Blk :=
  (b.modBr k fun x => { x with failedPolls := x.failedPolls + 1 }).modK k fun kn =>
    { kn with buf := (kn.buf.take 8).map (fun p => { p with flags := p.flags ||| 1 }) ++ kn.buf.drop 8 }

theorem sidebandPoll_missed (hkernel : b.hasKernel k = true) (hjoined : (b.bridges.get k).state = .joined) :
    sidebandPoll k false b =
      if (b.bridges.get k).failedPolls + 1 ≥ 2 then (b.pollMissed k).isolate k 64 else (b.pollMissed k, []) := by
  unfold sidebandPoll
  simp only [hkernel, hjoined, Bool.true_eq_false, if_false, Bool.false_and, Bool.false_eq_true, if_true]
  rfl

theorem Blk.pollMissed_bridge (b : Blk) (k : Fin 4) :
    (b.pollMissed k).bridges.get k = { b.bridges.get k with failedPolls := (b.bridges.get k).failedPolls + 1 } := vmod_get_self ..

end

theorem runs_sidebandPoll_missed (k : Fin 4) (s : State) (hkernel : s.blk.hasKernel k = true)
    (hjoined : (s.blk.bridges.get k).state = .joined) (hfirst : (s.blk.bridges.get k).failedPolls = 0) :
    Safety.runs (.sidebandPoll k false) s fun t => (t.blk.bridges.get k).state = .joined ∧ (t.blk.bridges.get k).failedPolls = 1
      ∧ (t.blk.kn k).buf.length = (s.blk.kn k).buf.length ∧ t.blk.evs = s.blk.evs ∧ t.mem = s.mem := by
  have hmissed := sidebandPoll_missed hkernel hjoined
  rw [if_neg (by omega)] at hmissed
  refine runs_onMem rfl hmissed ?_
  dsimp only
  rw [Blk.heal_nil, Blk.pollMissed_bridge, hfirst, Blk.pollMissed, Blk.modK_kn]
  refine ⟨hjoined, rfl, ?_, rfl, rfl⟩
  rw [List.length_append, List.length_map, ← List.length_append, List.take_append_drop]
  rfl

theorem runs_sidebandPoll_missedTwice (k : Fin 4) (s : State) (hkernel : s.blk.hasKernel k = true)
    (hjoined : (s.blk.bridges.get k).state = .joined) (hsecond : (s.blk.bridges.get k).failedPolls = 1) :
    Safety.runs (.sidebandPoll k false) s fun t =>
      (t.blk.bridges.get k).state = .isolated ∧ (t.blk.bridges.get k).cause = 64 := by
  have hmissed := sidebandPoll_missed hkernel hjoined
  rw [if_pos (by omega)] at hmissed
  have hstate : ((s.blk.pollMissed k).bridges.get k).state = .joined := by rw [Blk.pollMissed_bridge]; exact hjoined
  obtain ⟨hisolated, hcause, -⟩ := Blk.isolate_isolated 64 (.inl hstate)
  exact runs_onMem rfl hmissed ⟨hisolated, hcause⟩

/-! ### The watchdog of the polls (R194, R122) -/

/-- The isolation hold as it begins on one channel. -/
def Blk.holdTurn (b : Blk) (c : Fin 40) : Blk :=
  if b.isFollower c ∨ (b.ch c).fallbackOn then b else b.modCh c fun ch => { ch.saveLast with isoHold := true }

theorem Blk.holdTurn_frame (b : Blk) (c : Fin 40) : Blk.Frame {c} (fun ch => (ch.applied, ch.prot)) id b (b.holdTurn c) := by
  unfold Blk.holdTurn
  split
  · exact .refl ..
  · refine (Blk.Frame.refl {c} _ id b).modCh (Set.mem_singleton c) ?_
    rw [Channel.saveLast_eq]

section
variable {b : Blk} {k : Fin 4}

/-- The block once every channel of a kernel is held. -/
def Blk.held (b : Blk) (k : Fin 4) : Blk := (chansOf k).foldl Blk.holdTurn b

theorem Blk.held_frame (b : Blk) (k : Fin 4) :
    Blk.Frame {c | c ∈ chansOf k} (fun ch => (ch.applied, ch.prot)) id b (b.held k) :=
  .foldl _ _ _ fun c hc a => (a.holdTurn_frame c).weaken (Set.singleton_subset_iff.2 hc) id id

theorem Blk.held_isoHold {c : Fin 40} (hc : c ∈ chansOf k) (hlead : b.isFollower c = false) (hout : (b.ch c).fallbackOn = false) :
    ((b.held k).ch c).isoHold = true := by
  obtain ⟨a, ha, hturn⟩ := foldl_chansOf_ch Blk.holdTurn b hc fun d a hd => (a.holdTurn_frame d).ch c fun h => hd h.symm
  have hfollower : a.isFollower c = false := (Blk.isFollower_congr (congrArg Channel.paired ha)).trans hlead
  rw [Blk.held, hturn, Blk.holdTurn, if_neg (by simp [hfollower, ha, hout]), Blk.modCh_ch]

theorem Blk.startIsoHold_eq (hnone : (b.kn k).isoHoldStart = none) :
    b.startIsoHold k =
      ((b.held k).modK k fun kn => { kn with isoHoldStart := some b.time.dt }).kev k (srcK k) 1 2 1 := by
  unfold Blk.startIsoHold
  exact if_neg (by simp [hnone])

/-- R122: a hold that begins holds every channel of the kernel that leads or is single and is not in fallback, at the state that it
has; the kernel times the hold and records it. -/
theorem Blk.startIsoHold_spec (hnone : (b.kn k).isoHoldStart = none) :
    ((b.startIsoHold k).kn k).wdHold = (b.kn k).wdHold ∧ ((b.startIsoHold k).kn k).isoHoldStart = some b.time.dt
    ∧ (∀ c ∈ chansOf k, b.isFollower c = false → (b.ch c).fallbackOn = false → ((b.startIsoHold k).ch c).isoHold = true)
    ∧ (∀ c : Fin 40, ((b.startIsoHold k).ch c).applied = (b.ch c).applied ∧ ((b.startIsoHold k).ch c).prot = (b.ch c).prot)
    ∧ (Safety.kernelRoom b k 1 → Safety.lastKernelRecord (b.startIsoHold k) k = some (srcK k, 1, 2, 1, hw))
    ∧ b.startIsoHold k = { b with chans := (b.startIsoHold k).chans, kernels := (b.startIsoHold k).kernels } := by
  have hframe := b.held_frame k
  have hkn : (b.held k).kn k = b.kn k := hframe.kn k
  have hch (c : Fin 40) : (b.startIsoHold k).ch c = (b.held k).ch c := by
    rw [Blk.startIsoHold_eq hnone, Blk.ch, Blk.kev_chans, Blk.modK_chans, Blk.ch]
  refine ⟨?_, ?_, fun c hc hlead hout => ?_, fun c => ?_, fun hroom => ?_, ?_⟩
  · rw [Blk.startIsoHold_eq hnone, Blk.kev_kn, Blk.modK_kn, hkn]
  · rw [Blk.startIsoHold_eq hnone, Blk.kev_kn, Blk.modK_kn]
  · rw [hch]
    exact Blk.held_isoHold hc hlead hout
  · rw [hch]
    exact Prod.mk.inj (hframe.kept c)
  · rw [Blk.startIsoHold_eq hnone]
    refine Blk.kev_last _ _ _ _ _ _ _ _ _ ?_
    rw [Safety.kernelRoom, Blk.modK_kn, hkn]
    exact hroom
  · rw [Blk.startIsoHold_eq hnone, Blk.kev_eq, Blk.modK, hframe.blk]

end

theorem runs_pollWatchdogExpiry (k : Fin 4) (s : State) (hruns : s.blk.kernelRuns k = true)
    (hwatch : (s.blk.kn k).wdSuspended = false) (hfirst : (s.blk.kn k).wdHold = false)
    (hnone : (s.blk.kn k).isoHoldStart = none) :
    Safety.runs (.pollWatchdogExpiry k) s fun t =>
      (t.blk.kn k).wdHold = true ∧ (t.blk.kn k).isoHoldStart = some s.blk.time.dt
      ∧ (∀ c ∈ chansOf k, s.blk.isFollower c = false → (s.blk.ch c).fallbackOn = false → (t.blk.ch c).isoHold = true)
      ∧ (∀ c : Fin 40, (t.blk.ch c).applied = (s.blk.ch c).applied ∧ (t.blk.ch c).prot = (s.blk.ch c).prot)
      ∧ (Safety.kernelRoom s.blk k 1 → Safety.lastKernelRecord t.blk k = some (srcK k, 1, 2, 1, hw))
      ∧ t.blk = { s.blk with chans := t.blk.chans, kernels := t.blk.kernels } ∧ t.mem = s.mem := by
  have hbarks : pollWatchdogExpiry k s.blk = (s.blk.modK k fun kn => { kn with wdHold := true }).startIsoHold k :=
    if_neg (by simp [hruns, hwatch, hfirst])
  have hkn : (s.blk.modK k fun kn => { kn with wdHold := true }).kn k = { s.blk.kn k with wdHold := true } := Blk.modK_kn ..
  obtain ⟨hwd, hstart, hheld, hkept, hrecord, hblk⟩ := Blk.startIsoHold_spec
    (b := s.blk.modK k fun kn => { kn with wdHold := true }) (k := k) (by rw [hkn]; exact hnone)
  rw [hkn] at hwd
  refine runs_onBlk rfl hbarks ⟨hwd, hstart, hheld, hkept, fun hroom => hrecord ?_, hblk, rfl⟩
  rw [Safety.kernelRoom, hkn]
  exact hroom

/-! ### Retried blocks (R206) -/

/-- Whether the retries of a link are due for a record: none was made within the last second. -/
def Blk.retryDue (b : Blk) (k : Fin 4) : Bool :=
  match (b.bridges.get k).linkDt with
  | some t => decide (1000000000 ≤ b.since t)
  | none => true

/-- A boundary that has retried one block more. -/
def Bridge.retried (x : Bridge) (due : Bool) (now : BitVec 64) : Bridge :=
  { x with linkRetried := satInc x.linkRetried 0xFFFF, linkNew := if due then 0 else x.linkNew + 1,
           linkDt := if due then some now else x.linkDt }

theorem linkRetry_eq {b : Blk} {k : Fin 4} (hkernel : b.hasKernel k = true) :
    linkRetry k b =
      if b.retryDue k then
        (b.modBr k (·.retried (b.retryDue k) b.time.dt)).ev (srcBr k) 8 1 (arg32 ((b.bridges.get k).linkNew + 1))
      else b.modBr k (·.retried (b.retryDue k) b.time.dt) := if_neg (by simp [hkernel])

theorem runs_linkRetry (k : Fin 4) (s : State) (hkernel : s.blk.hasKernel k = true) :
    Safety.runs (.linkRetry k) s fun t =>
    (t.blk.bridges.get k).linkRetried = satInc (s.blk.bridges.get k).linkRetried 0xFFFF
    ∧ (∀ t0 : BitVec 64, (s.blk.bridges.get k).linkDt = some t0 → s.blk.since t0 < 1000000000 →
        t.blk.evs = s.blk.evs ∧ (t.blk.bridges.get k).linkNew = (s.blk.bridges.get k).linkNew + 1)
    ∧ ((s.blk.bridges.get k).linkDt = none → Safety.room s.blk (srcBr k) →
        Safety.lastRecord t.blk = some (srcBr k, 8, 1, arg32 ((s.blk.bridges.get k).linkNew + 1), hw))
    ∧ (∀ j : Fin 4, j ≠ k → t.blk.bridges.get j = s.blk.bridges.get j)
    ∧ t.blk = { s.blk with bridges := t.blk.bridges, evs := t.blk.evs } ∧ t.mem = s.mem := by
  have hbridge (due : Bool) : (s.blk.modBr k (·.retried due s.blk.time.dt)).bridges.get k =
      (s.blk.bridges.get k).retried due s.blk.time.dt := vmod_get_self ..
  have hothers (due : Bool) (j : Fin 4) (hj : j ≠ k) :
      (s.blk.modBr k (·.retried due s.blk.time.dt)).bridges.get j = s.blk.bridges.get j := vmod_get_ne _ _ _ _ hj.symm
  refine runs_onBlk rfl (linkRetry_eq hkernel) ?_
  dsimp only
  cases hdue : s.blk.retryDue k with
  | true =>
    rw [if_pos rfl, Blk.ev_bridges, hbridge]
    refine ⟨rfl, fun t0 hlast hsoon => ?_, fun _ hroom => ?_, hothers true,
      Blk.ev_eq .., rfl⟩
    · rw [Blk.retryDue, hlast, decide_eq_true_eq] at hdue
      omega
    · exact Blk.ev_last_of_evs_eq (a := s.blk.modBr k (·.retried true s.blk.time.dt)) rfl hroom 8 1 _ hw false 0
  | false =>
    rw [if_neg (by decide), hbridge]
    refine ⟨rfl, fun _ _ _ => ⟨rfl, rfl⟩, fun hnever => ?_, hothers false, rfl, rfl⟩
    rw [Blk.retryDue, hnever] at hdue
    exact Bool.noConfusion hdue

/-- Settles O25: excursions, rejoining, polls, their watchdog, and retried blocks. -/
theorem boundariesPollsAndRetries : Obligations.BoundariesPollsAndRetries :=
  ⟨runs_boundaryExcursion, runs_boundaryRejoining, runs_sidebandPoll_answered, runs_sidebandPoll_missed,
    runs_sidebandPoll_missedTwice, runs_pollWatchdogExpiry, runs_linkRetry⟩

end Sys2Proof.Machine
end

section
/-! SUPPORT. Pod queues (R207 to R217): what each operation on one queue puts in its place, and what it leaves of the block. -/

namespace Sys2Proof.Machine
open Sys2Proof

/-! ### One queue put in its place -/

/-- The queues of `t` are those of `b`, but for `y` at `q`. -/
def Blk.QueuePut (b t : Blk) (q : Fin 256) (y : Queue) : Prop := t.queues = vmod b.queues q fun _ => y

namespace Blk.QueuePut
variable {b t u : Blk} {q : Fin 256} {y : Queue}

theorem modQ (b : Blk) (q : Fin 256) (f : Queue → Queue) : b.QueuePut (b.modQ q f) q (f (b.queues.get q)) := rfl

theorem get (h : b.QueuePut t q y) : t.queues.get q = y := by rw [h, vmod_get_self]

theorem others (h : b.QueuePut t q y) : Safety.otherQueues b t q := fun p hp => by rw [h, vmod_get_ne _ _ _ _ hp.symm]

theorem of_queues_eq (h : b.QueuePut t q y) (hu : u.queues = t.queues) : b.QueuePut u q y := hu.trans h

/-- The later of two puts counts. -/
theorem trans {z : Queue} (h : b.QueuePut t q y) (h' : t.QueuePut u q z) : b.QueuePut u q z := by
  rw [Blk.QueuePut, h', h, vmod, vmod, vmod, Vector.set_set]

theorem then_modQ (h : b.QueuePut t q y) (f : Queue → Queue) : b.QueuePut (t.modQ q f) q (f y) := by
  have hput := h.trans (.modQ t q f)
  rwa [h.get] at hput

/-- An answer touches no queue. -/
theorem answer (h : b.QueuePut t q y) (v : Nat) : b.QueuePut (t.answer v) q y := h

end Blk.QueuePut

/-! ### Records, marks and flags of a queue (R220, R228) -/

section
variable (b : Blk) (q : Fin 256)

/-- R228: a record of a queue marks the queue, and goes to the sequencer. -/
theorem Blk.qev_eq (code sev : Nat) (arg : Word) (tenant : Nat) :
    ∃ n, b.qev q code sev arg tenant =
      { b with queues := vmod b.queues q (fun x => { x with logged := n }), evs := (b.qev q code sev arg tenant).evs } := by
  unfold Blk.qev
  split
  · exact ⟨(b.queues.get q).logged, by rw [vmod_id _ _ _ rfl]⟩
  · exact ⟨_, Blk.ev_eq ..⟩

theorem Blk.QueuePut.qev {b t : Blk} {q : Fin 256} {y : Queue} (h : b.QueuePut t q y) (code sev : Nat) (arg : Word) (tenant : Nat) :
    ∃ n, b.QueuePut (t.qev q code sev arg tenant) q { y with logged := n } := by
  obtain ⟨n, hqev⟩ := t.qev_eq q code sev arg tenant
  exact ⟨n, (h.then_modQ fun x => { x with logged := n }).of_queues_eq (by rw [hqev]; rfl)⟩

/-- R220: a rise of credit touches the mailboxes alone. -/
theorem Blk.creditRise_eq (b0 : Blk) :
    Blk.creditRise b0 b q = { b with mboxes := (Blk.creditRise b0 b q).mboxes } := by
  unfold Blk.creditRise
  split
  · dsimp only
    split <;> rfl
  · rfl

end

/-! ### Words of a message (R210 to R212) -/

/-- A queue whose open message is discarded. -/
def Queue.cleared (x : Queue) : Queue := { x with openMsg := none, aborted := false }

/-- A queue whose open message has one word more. -/
def Queue.appended (x : Queue) (w : Word) : Queue := { x with openMsg := some (x.openMsg.getD [] ++ [w]) }

/-- A pod stands ready for the next word: that of a hold set, the last one of the open message, a reserved or a shared one (R212). -/
def Blk.podReady (b : Blk) (x : Queue) : Prop :=
  x.gatedProd = true ∨ x.openLen % 16 ≠ 0 ∨ 0 < x.freeReserve ∨ 0 < b.sharedFree

/-- The block after a violation of its producer has aborted the message of a queue (R212, R274). -/
def Blk.violated (b : Blk) (q : Fin 256) (sticky code sev : Nat) (arg : Word) : Blk :=
  let b1 := (b.abortMsg q sticky).qev q code sev arg (b.queues.get q).producer
  if h : (b.queues.get q).producer < 8 then b1.fault1 (.tenant ⟨_, h⟩) else b1

section
variable {b : Blk} {q : Fin 256} (w : Word)

theorem Blk.appendWord_aborted (haborted : (b.queues.get q).aborted = true) : b.appendWord q w = b := if_pos haborted

theorem Blk.appendWord_tooLong (hlive : (b.queues.get q).aborted = false) (hlong : 1024 ≤ (b.queues.get q).openLen) :
    b.appendWord q w = b.violated q 8 3 2 0 :=
  (if_neg (by simp [hlive])).trans (if_pos hlong)

theorem Blk.podReady.not_poolEmpty {x : Queue} (h : b.podReady x) :
    ¬ (!x.gatedProd && decide (x.openLen % 16 = 0) && decide (x.freeReserve = 0) && decide (b.sharedFree = 0)) = true := by
  simp only [Bool.and_eq_true, Bool.not_eq_true', decide_eq_true_eq]
  rintro ⟨⟨⟨hfree, hfull⟩, hreserve⟩, hshared⟩
  rcases h with hgated | hpart | hres | hpool
  · exact Bool.noConfusion (hfree.symm.trans hgated)
  · exact hpart hfull
  all_goals omega

theorem Blk.appendWord_noCredit (hlive : (b.queues.get q).aborted = false) (hshort : (b.queues.get q).openLen < 1024)
    (hpod : b.podReady (b.queues.get q)) (hcredit : b.credit (b.queues.get q) = 0) :
    b.appendWord q w = b.violated q 2 1 2 (arg32 (b.queues.get q).openLen) :=
  (if_neg (by simp [hlive])).trans <| (if_neg (by omega)).trans <| (if_neg hpod.not_poolEmpty).trans (if_pos hcredit)

theorem Blk.appendWord_fits (hlive : (b.queues.get q).aborted = false) (hshort : (b.queues.get q).openLen < 1024)
    (hpod : b.podReady (b.queues.get q)) (hcredit : 0 < b.credit (b.queues.get q)) :
    b.appendWord q w = (b.modQ q (·.appended w)).noteLow :=
  (if_neg (by simp [hlive])).trans <| (if_neg (by omega)).trans <| (if_neg hpod.not_poolEmpty).trans (if_neg (by omega))

/-- R212: a violation leaves an aborted message without words, its sticky bit and at most a mark of its record. -/
theorem Blk.violated_put (b : Blk) (q : Fin 256) (sticky code sev : Nat) (arg : Word) :
    ∃ n, b.QueuePut (b.violated q sticky code sev arg) q
      { b.queues.get q with openMsg := some [], aborted := true, sticky := orBits (b.queues.get q).sticky sticky, logged := n } := by
  have habort : b.QueuePut (b.abortMsg q sticky) q
      { b.queues.get q with openMsg := some [], aborted := true, sticky := orBits (b.queues.get q).sticky sticky } := rfl
  obtain ⟨n, hmarked⟩ := habort.qev code sev arg (b.queues.get q).producer
  refine ⟨n, hmarked.of_queues_eq ?_⟩
  unfold Blk.violated
  dsimp only
  split
  · rw [Blk.fault1_eq]
  · rfl

/-- R274: a violation of a tenant is a fault of it. -/
theorem Blk.violated_faults (b : Blk) {q : Fin 256} (sticky code sev : Nat) (arg : Word) {n : Fin 8}
    (hproducer : (b.queues.get q).producer = n.val) :
    ((b.violated q sticky code sev arg).tenants.get n).faults = (b.tenants.get n).faults + 1 := by
  have htenant : (b.queues.get q).producer < 8 := by omega
  have hn : (⟨_, htenant⟩ : Fin 8) = n := Fin.ext hproducer
  obtain ⟨_, hqev⟩ := (b.abortMsg q sticky).qev_eq q code sev arg (b.queues.get q).producer
  unfold Blk.violated
  rw [dif_pos htenant, hn, Blk.fault1_faults, if_pos rfl, hqev]
  rfl

end

/-! ### The end of a message (R210, R212 to R214) -/

/-- The open message as it is closed: a request carries its producer's ID. -/
def Queue.message (x : Queue) : List Word :=
  if x.isRequest then stampId x.producer (x.openMsg.getD []) else x.openMsg.getD []

/-- The block after the open message of a queue has been discarded and counted. -/
def Blk.discarded (b : Blk) (q : Fin 256) : Blk := Blk.creditRise b ((b.modQ q Queue.cleared).dropMsg q 1) q

section
variable (b : Blk) (q : Fin 256)

theorem Blk.discarded_eq :
    b.discarded q = { b with queues := (b.discarded q).queues, mboxes := (b.discarded q).mboxes } := by
  unfold Blk.discarded
  rw [Blk.creditRise_eq]
  rfl

theorem Blk.discarded_put :
    b.QueuePut (b.discarded q) q { (b.queues.get q).cleared with drops := satAdd (b.queues.get q).drops 1 0xFFFFFFFF } := by
  refine ((Blk.QueuePut.modQ b q Queue.cleared).then_modQ
    fun x => { x with drops := satAdd x.drops 1 0xFFFFFFFF }).of_queues_eq ?_
  rw [Blk.discarded, Blk.creditRise_eq]
  rfl

/-- A message that enters a queue is its last, with the next SEQ. -/
theorem Blk.enqueue_put (ws : List Word) :
    b.QueuePut (b.enqueue q ws) q
      { b.queues.get q with msgs := (b.queues.get q).msgs ++ [{ words := ws, seq := some b.evs.nextSeq }] }
    ∧ (b.enqueue q ws).evs.nextSeq = b.evs.nextSeq + 1 := by
  unfold Blk.enqueue
  rw [Blk.takeSeq_eq]
  dsimp only
  split
  · split <;> exact ⟨rfl, rfl⟩
  · split <;> exact ⟨rfl, rfl⟩
  · exact ⟨rfl, rfl⟩

variable {b q}

theorem Blk.closeMsg_aborted (haborted : (b.queues.get q).aborted = true) : b.closeMsg q = b.discarded q := if_pos haborted

/-- R214: the close of a gated producer's message holds it. -/
theorem Blk.closeMsg_held (hlive : (b.queues.get q).aborted = false) (hopen : b.queueShut (b.queues.get q) = false)
    (hgated : (b.queues.get q).gatedProd = true) :
    b.closeMsg q = (b.modQ q Queue.cleared).modQ q fun x =>
      { x with held := x.held ++ [(b.nextStamp (b.queues.get q).producer, (b.queues.get q).message)],
               charged := x.charged + 16 * podsOf ((b.queues.get q).openMsg.getD []).length } :=
  (if_neg (by simp [hlive])).trans <| (if_neg (by simp [hopen])).trans (if_pos hgated)

theorem Blk.closeMsg_enters (hlive : (b.queues.get q).aborted = false) (hopen : b.queueShut (b.queues.get q) = false)
    (hfree : (b.queues.get q).gatedProd = false) :
    b.closeMsg q = (b.modQ q Queue.cleared).enqueue q (b.queues.get q).message :=
  (if_neg (by simp [hlive])).trans <| (if_neg (by simp [hopen])).trans (if_neg (by simp [hfree]))

end

/-- The order of closing is a matter of the producers and the held messages alone (R46). -/
theorem Blk.nextStamp_congr {b t : Blk} {q : Fin 256} {y : Queue} (h : b.QueuePut t q y)
    (hproducer : y.producer = (b.queues.get q).producer) (hheld : y.held = (b.queues.get q).held) (id : Nat) :
    t.nextStamp id = b.nextStamp id := by
  have hmap (v : Vector Queue 256) (f : Nat → Nat × List (Nat × List Word) → Nat) :
      v.toList.foldl (fun n x => f n (x.producer, x.held)) 0 = (v.toList.map fun x => (x.producer, x.held)).foldl f 0 :=
    List.foldl_map.symm
  have hsame : t.queues.toList.map (fun x => (x.producer, x.held)) = b.queues.toList.map fun x => (x.producer, x.held) := by
    rw [h, vmod, Vector.toList_set, List.map_set, hproducer, hheld]
    exact List.ext_getElem (by simp) fun j hj hj' => by
      rw [List.getElem_set]
      split
      · subst_vars; simp [Vector.get]
      · rfl
  unfold Blk.nextStamp
  rw [hmap _ fun n p => if p.1 = id then p.2.foldl (fun n h => max n (h.1 + 1)) n else n, hsame]
  exact (hmap ..).symm

/-! ### Windows and pops (R216, R217) -/

/-- A queue after the pop of a window of its head message. -/
def Queue.turned (x : Queue) (m : Msg) : Queue :=
  if 4 * (x.popped + 1) ≥ m.words.length then
    { x with msgs := x.msgs.drop 1, popped := 0, lastWin := windowOf m.words x.popped }
  else { x with popped := x.popped + 1, lastWin := windowOf m.words x.popped }

/-- What a pop of a window returns: its last word, or its last two. -/
def popValue (win : List Word) (wide : Bool) : Nat :=
  if wide then (win.getD 2 0).toNat + (win.getD 3 0).toNat * 2 ^ 32 else (win.getD 3 0).toNat

theorem Queue.turned_last {x : Queue} {m : Msg} (h : m.words.length ≤ 4 * (x.popped + 1)) :
    x.turned m = { x with msgs := x.msgs.drop 1, popped := 0, lastWin := windowOf m.words x.popped } := if_pos h

theorem Queue.turned_next {x : Queue} {m : Msg} (h : 4 * (x.popped + 1) < m.words.length) :
    x.turned m = { x with popped := x.popped + 1, lastWin := windowOf m.words x.popped } := if_neg (by omega)

theorem Queue.turned_lastWin (x : Queue) (m : Msg) : (x.turned m).lastWin = windowOf m.words x.popped := by
  unfold Queue.turned
  split <;> rfl

/-- Two words beside each other are the 64 bits of them. -/
theorem ofNat_twoWords (lo hi : Word) :
    BitVec.ofNat 64 (lo.toNat + hi.toNat * 2 ^ 32) = lo.zeroExtend 64 ||| (hi.zeroExtend 64 <<< 32) := by
  apply BitVec.eq_of_toNat_eq
  have hlo := lo.isLt
  have hhi := hi.isLt
  have hshift : hi.toNat <<< 32 % 2 ^ 64 = hi.toNat <<< 32 := by rw [Nat.shiftLeft_eq]; omega
  simp only [BitVec.zeroExtend, BitVec.toNat_or, BitVec.toNat_shiftLeft, BitVec.toNat_setWidth, BitVec.toNat_ofNat]
  rw [Nat.mod_eq_of_lt (show lo.toNat < 2 ^ 64 by omega), Nat.mod_eq_of_lt (show hi.toNat < 2 ^ 64 by omega), hshift,
    Nat.or_comm, ← Nat.shiftLeft_add_eq_or_of_lt hlo, Nat.shiftLeft_eq]
  omega

theorem ofNat_popValue (win : List Word) (wide : Bool) :
    BitVec.ofNat 64 (popValue win wide) =
      if wide then (win.getD 2 0).zeroExtend 64 ||| ((win.getD 3 0).zeroExtend 64 <<< 32) else (win.getD 3 0).zeroExtend 64 := by
  cases wide with
  | true => exact ofNat_twoWords ..
  | false => exact BitVec.ofNat_toNat ..

section
variable {b : Blk} {q : Fin 256}

theorem Blk.window_visible {m : Msg} {rest : List Msg} (hvisible : b.visible (b.queues.get q) = m :: rest) :
    b.window q = windowOf m.words (b.queues.get q).popped := by
  unfold Blk.window
  dsimp only
  rw [hvisible]

theorem Blk.window_nothing (hvisible : b.visible (b.queues.get q) = []) : b.window q = (b.queues.get q).lastWin := by
  unfold Blk.window
  dsimp only
  rw [hvisible]

/-- R216: a pop turns the window of the head message; besides the queue it touches the mailboxes alone. -/
theorem Blk.popWindow_visible {m : Msg} {rest : List Msg} (hvisible : b.visible (b.queues.get q) = m :: rest) :
    b.QueuePut (b.popWindow q) q ((b.queues.get q).turned m)
    ∧ b.popWindow q = { b with queues := (b.popWindow q).queues, mboxes := (b.popWindow q).mboxes } := by
  have hturn : b.popWindow q = Blk.creditRise b (b.modQ q fun _ => (b.queues.get q).turned m) q := by
    unfold Blk.popWindow
    dsimp only
    rw [hvisible]
    rfl
  rw [hturn, Blk.creditRise_eq]
  exact ⟨rfl, rfl⟩

/-- R217: a pop of nothing is an underrun, with at most a mark of its record. -/
theorem Blk.popWindow_nothing (hvisible : b.visible (b.queues.get q) = []) :
    ∃ n, b.QueuePut (b.popWindow q) q
      { b.queues.get q with sticky := orBits (b.queues.get q).sticky 1, logged := n } := by
  have hunder := Blk.QueuePut.modQ b q fun x => { x with sticky := orBits x.sticky 1 }
  obtain ⟨n, hmarked⟩ := hunder.qev 4 1 0 (b.queues.get q).consumer
  refine ⟨n, hmarked.of_queues_eq ?_⟩
  unfold Blk.popWindow
  dsimp only
  rw [hvisible]

theorem pqPop_eq {i : Initiator} (wide : Bool) (hpresent : b.queueAbsent q = false) (henabled : (b.queues.get q).enabled = true)
    (hconsumer : (b.queues.get q).consumer = i.id) :
    pqPop i q wide b = (b.popWindow q).answer (popValue (b.window q) wide) := by
  unfold pqPop
  rw [if_neg (by simp [hpresent]), if_neg (by simp [henabled]), if_neg (by simp [hconsumer])]
  rfl

end

end Sys2Proof.Machine
end

section
/-! SUPPORT. The writes of producers to their queues (R17, R210 to R214, R274). -/

namespace Sys2Proof.Machine
open Sys2Proof

section
variable {b : Blk} {i : Initiator} {q : Fin 256} {off : Nat} {f : Blk → Blk}

theorem Blk.asProducer_of_produces (h : Safety.produces b i q) : b.asProducer i q off f = f b := by
  obtain ⟨hpresent, henabled, hproducer⟩ := h
  exact (if_neg (by simp [hpresent])).trans (if_pos ⟨henabled, hproducer⟩)

/-- R17: another initiator than the producer is refused. -/
theorem Blk.asProducer_of_other (hpresent : b.queueAbsent q = false) (hother : (b.queues.get q).producer ≠ i.id) :
    b.asProducer i q off f = b.denied i (queueAddr q off) :=
  (if_neg (by simp [hpresent])).trans (if_neg fun h => hother h.2)

end

/-! ### One word (R210 to R212) -/

theorem runs_pqWr_appends (i : Initiator) (q : Fin 256) (w : Word) (s : State) (hproduces : Safety.produces s.blk i q)
    (hlive : (s.blk.queues.get q).aborted = false) (hshort : (s.blk.queues.get q).openLen < 1024)
    (hcredit : 0 < s.blk.credit (s.blk.queues.get q)) (hpod : s.blk.podReady (s.blk.queues.get q)) :
    Safety.runs (.pqWr i q w none) s fun t =>
      (t.blk.queues.get q).openMsg = some (((s.blk.queues.get q).openMsg.getD []) ++ [w])
      ∧ (t.blk.queues.get q).msgs = (s.blk.queues.get q).msgs ∧ (t.blk.queues.get q).drops = (s.blk.queues.get q).drops
      ∧ Safety.otherQueues s.blk t.blk q ∧ t.blk = { s.blk with queues := t.blk.queues, trans := t.blk.trans }
      ∧ t.mem = s.mem := by
  have hput : s.blk.QueuePut (s.blk.modQ q (·.appended w)).noteLow q ((s.blk.queues.get q).appended w) := rfl
  refine runs_onBlk rfl ((Blk.asProducer_of_produces hproduces).trans (Blk.appendWord_fits w hlive hshort hpod hcredit)) ?_
  dsimp only
  rw [hput.get]
  exact ⟨rfl, rfl, rfl, hput.others, rfl, rfl⟩

/-- A word that violates a bound aborts its message, sets the sticky bit of the bound and counts as a tenant's fault. -/
theorem runs_pqWr_violates {i : Initiator} {q : Fin 256} {w : Word} {s : State} (hproduces : Safety.produces s.blk i q)
    {n : Nat} (hn : n < 32) {code sev : Nat} {arg : Word}
    (hviolated : s.blk.appendWord q w = s.blk.violated q (2 ^ n) code sev arg) :
    Safety.runs (.pqWr i q w none) s fun t =>
      (t.blk.queues.get q).aborted = true ∧ (t.blk.queues.get q).openLen = 0
      ∧ (t.blk.queues.get q).msgs = (s.blk.queues.get q).msgs ∧ bit (t.blk.queues.get q).sticky n = true
      ∧ (∀ m : Fin 8, i = .tenant m → (t.blk.tenants.get m).faults = (s.blk.tenants.get m).faults + 1)
      ∧ Safety.otherQueues s.blk t.blk q ∧ t.mem = s.mem := by
  obtain ⟨_, hput⟩ := s.blk.violated_put q (2 ^ n) code sev arg
  refine runs_onBlk rfl ((Blk.asProducer_of_produces hproduces).trans hviolated) ?_
  dsimp only
  rw [hput.get]
  refine ⟨rfl, rfl, rfl, testBit_orBits _ hn, fun m hm => ?_, hput.others, rfl⟩
  obtain ⟨-, -, hproducer⟩ := hproduces
  exact s.blk.violated_faults _ code sev arg (hproducer.trans (by rw [hm]; rfl))

theorem runs_pqWr_denied (i : Initiator) (q : Fin 256) (w : Word) (w2 : Option Word) (s : State)
    (hpresent : s.blk.queueAbsent q = false) (hother : (s.blk.queues.get q).producer ≠ i.id) :
    Safety.runs (.pqWr i q w w2) s fun t => t.blk.queues = s.blk.queues
      ∧ t.blk.reply = { data := 0, fault := true, isolated := false } ∧ i ∈ t.blk.breath.denied ∧ t.mem = s.mem := by
  obtain ⟨-, hreply, hnoted⟩ := s.blk.denied_spec i (queueAddr q 0)
  refine runs_onBlk rfl (Blk.asProducer_of_other hpresent hother) ⟨?_, hreply, hnoted, rfl⟩
  dsimp only
  rw [Blk.denied_eq_refusal, Blk.refusal_eq]

/-! ### The end of a message (R210, R212, R214) -/

theorem runs_pqAbort (i : Initiator) (q : Fin 256) (l : List Word) (s : State) (hproduces : Safety.produces s.blk i q)
    (hmessage : (s.blk.queues.get q).openMsg = some l) :
    Safety.runs (.pqAbort i q) s fun t => (t.blk.queues.get q).openMsg = none ∧ (t.blk.queues.get q).aborted = false
      ∧ (t.blk.queues.get q).drops = satAdd (s.blk.queues.get q).drops 1 0xFFFFFFFF
      ∧ (t.blk.queues.get q).msgs = (s.blk.queues.get q).msgs ∧ Safety.otherQueues s.blk t.blk q
      ∧ t.blk = { s.blk with queues := t.blk.queues, mboxes := t.blk.mboxes } ∧ t.mem = s.mem := by
  have hput := s.blk.discarded_put q
  have hdiscard : pqAbort i q s.blk = s.blk.discarded q :=
    (Blk.asProducer_of_produces hproduces).trans (if_pos (by rw [hmessage]; rfl))
  refine runs_onBlk rfl hdiscard ?_
  dsimp only
  rw [hput.get]
  exact ⟨rfl, rfl, rfl, rfl, hput.others, s.blk.discarded_eq q, rfl⟩

theorem runs_pqWrEnd_aborted (i : Initiator) (q : Fin 256) (w : Word) (s : State) (hproduces : Safety.produces s.blk i q)
    (haborted : (s.blk.queues.get q).aborted = true) :
    Safety.runs (.pqWrEnd i q w) s fun t => (t.blk.queues.get q).openMsg = none ∧ (t.blk.queues.get q).aborted = false
      ∧ (t.blk.queues.get q).msgs = (s.blk.queues.get q).msgs ∧ (t.blk.queues.get q).held = (s.blk.queues.get q).held
      ∧ (t.blk.queues.get q).drops = satAdd (s.blk.queues.get q).drops 1 0xFFFFFFFF ∧ t.blk.evs = s.blk.evs
      ∧ t.mem = s.mem := by
  have hput := s.blk.discarded_put q
  have hdiscard : pqWrEnd i q w s.blk = s.blk.discarded q := by
    rw [pqWrEnd, Blk.asProducer_of_produces hproduces, Blk.appendWord_aborted w haborted, Blk.closeMsg_aborted haborted]
  refine runs_onBlk rfl hdiscard ?_
  dsimp only
  rw [hput.get]
  exact ⟨rfl, rfl, rfl, rfl, rfl, by rw [Blk.discarded_eq], rfl⟩

/-- The close of a live message after its last word: it enters its queue, or is held there. -/
theorem Blk.closeMsg_spec {b : Blk} {q : Fin 256} (hlive : (b.queues.get q).aborted = false)
    (hopen : b.queueShut (b.queues.get q) = false) :
    ((b.closeMsg q).queues.get q).openMsg = none
    ∧ ((b.queues.get q).gatedProd = false →
        ((b.closeMsg q).queues.get q).msgs =
          (b.queues.get q).msgs ++ [{ words := (b.queues.get q).message, seq := some b.evs.nextSeq }]
        ∧ (b.closeMsg q).evs.nextSeq = b.evs.nextSeq + 1)
    ∧ ((b.queues.get q).gatedProd = true →
        ((b.closeMsg q).queues.get q).msgs = (b.queues.get q).msgs
        ∧ ((b.closeMsg q).queues.get q).held =
          (b.queues.get q).held ++ [(b.nextStamp (b.queues.get q).producer, (b.queues.get q).message)]
        ∧ (b.closeMsg q).evs.nextSeq = b.evs.nextSeq)
    ∧ Safety.otherQueues b (b.closeMsg q) q := by
  have hcleared := Blk.QueuePut.modQ b q Queue.cleared
  cases hgated : (b.queues.get q).gatedProd with
  | false =>
    obtain ⟨henter, hseq⟩ := (b.modQ q Queue.cleared).enqueue_put q (b.queues.get q).message
    have hput := hcleared.trans henter
    rw [Blk.closeMsg_enters hlive hopen hgated, hput.get, hcleared.get]
    exact ⟨rfl, fun _ => ⟨rfl, hseq⟩, fun h => Bool.noConfusion h, hput.others⟩
  | true =>
    have hheld := Blk.closeMsg_held hlive hopen hgated
    have hput := hcleared.then_modQ fun x =>
      { x with held := x.held ++ [(b.nextStamp (b.queues.get q).producer, (b.queues.get q).message)],
               charged := x.charged + 16 * podsOf ((b.queues.get q).openMsg.getD []).length }
    rw [← hheld] at hput
    rw [hput.get]
    exact ⟨rfl, fun h => Bool.noConfusion h, fun _ => ⟨rfl, rfl, by rw [hheld]; rfl⟩, hput.others⟩

theorem runs_pqWrEnd_closes (i : Initiator) (q : Fin 256) (w : Word) (s : State) (hproduces : Safety.produces s.blk i q)
    (hlive : (s.blk.queues.get q).aborted = false) (hshort : (s.blk.queues.get q).openLen < 1024)
    (hcredit : 0 < s.blk.credit (s.blk.queues.get q)) (hopen : s.blk.queueShut (s.blk.queues.get q) = false)
    (hpod : s.blk.podReady (s.blk.queues.get q)) :
    Safety.runs (.pqWrEnd i q w) s fun t =>
      let ws := ((s.blk.queues.get q).openMsg.getD []) ++ [w]
      let msg := if (s.blk.queues.get q).isRequest then stampId i.id ws else ws
      (t.blk.queues.get q).openMsg = none
      ∧ ((s.blk.queues.get q).gatedProd = false →
          (t.blk.queues.get q).msgs = (s.blk.queues.get q).msgs ++ [{ words := msg, seq := some s.blk.evs.nextSeq }]
          ∧ t.blk.evs.nextSeq = s.blk.evs.nextSeq + 1)
      ∧ ((s.blk.queues.get q).gatedProd = true → (t.blk.queues.get q).msgs = (s.blk.queues.get q).msgs
          ∧ (t.blk.queues.get q).held = (s.blk.queues.get q).held ++ [(s.blk.nextStamp i.id, msg)]
          ∧ t.blk.evs.nextSeq = s.blk.evs.nextSeq)
      ∧ Safety.otherQueues s.blk t.blk q ∧ t.mem = s.mem := by
  have hclose : pqWrEnd i q w s.blk = (s.blk.modQ q (·.appended w)).noteLow.closeMsg q := by
    rw [pqWrEnd, Blk.asProducer_of_produces hproduces, Blk.appendWord_fits w hlive hshort hpod hcredit]
  obtain ⟨-, -, hproducer⟩ := hproduces
  have hput : s.blk.QueuePut (s.blk.modQ q (·.appended w)).noteLow q ((s.blk.queues.get q).appended w) := rfl
  obtain ⟨hnone, henters, hheld, hothers⟩ :=
    Blk.closeMsg_spec (b := (s.blk.modQ q (·.appended w)).noteLow) (q := q) (by rw [hput.get]; exact hlive)
      (by rw [hput.get]; exact hopen)
  rw [hput.get] at henters hheld
  rw [Blk.nextStamp_congr hput rfl rfl] at hheld
  refine runs_onBlk rfl hclose ?_
  dsimp only
  rw [← hproducer]
  exact ⟨hnone, henters, hheld, fun p hp => (hothers p hp).trans (hput.others p hp), rfl⟩

/-- Settles O28: each write of a producer appends a word, aborts its message, ends it, or is refused. -/
theorem producersMakeWholeMessages : Obligations.ProducersMakeWholeMessages :=
  ⟨runs_pqWr_appends,
    fun _ _ w _ hproduces hlive hshort hgated hcredit =>
      runs_pqWr_violates hproduces (n := 1) (by decide) (Blk.appendWord_noCredit w hlive hshort (.inl hgated) hcredit),
    fun _ _ w _ hproduces hlive hlong =>
      runs_pqWr_violates hproduces (n := 3) (by decide) (Blk.appendWord_tooLong w hlive hlong),
    runs_pqAbort, runs_pqWr_denied, runs_pqWrEnd_closes, runs_pqWrEnd_aborted⟩

end Sys2Proof.Machine
end

section
/-! SUPPORT. Whole messages of the hardware engines, and the pops of consumers (R213, R215 to R217). -/

namespace Sys2Proof.Machine
open Sys2Proof

/-! ### Engines (R213) -/

section
variable {b : Blk} {q : Fin 256} {ws : List Word}

theorem Blk.engineWrite_fits (henabled : (b.queues.get q).enabled = true) (hopen : b.queueShut (b.queues.get q) = false)
    (hplain : (b.queues.get q).isRequest = false) (hsome : ws ≠ []) (hlength : ws.length ≤ 1024)
    (hmax : (b.queues.get q).pods + podsOf ws.length ≤ (b.queues.get q).maxPods)
    (hpool : podsOf ws.length ≤ (b.queues.get q).freeReserve + b.sharedFree) : b.engineWrite q ws = b.enqueue q ws := by
  have hfits : ¬ (ws.isEmpty ∨ ws.length > 1024 ∨ (b.queues.get q).maxPods < (b.queues.get q).pods + podsOf ws.length
      ∨ (b.queues.get q).freeReserve + b.sharedFree < podsOf ws.length) := by
    rw [List.isEmpty_iff]
    rintro (hempty | hlong | hfull | hshort)
    · exact hsome hempty
    all_goals omega
  unfold Blk.engineWrite
  dsimp only
  rw [if_neg (by simp [henabled]), if_neg (by simp [hopen]), if_neg hfits, if_neg (by simp [hplain])]

theorem Blk.engineWrite_lost (henabled : (b.queues.get q).enabled = true) (hopen : b.queueShut (b.queues.get q) = false)
    (hroom : (b.queues.get q).maxPods < (b.queues.get q).pods + podsOf ws.length
      ∨ (b.queues.get q).freeReserve + b.sharedFree < podsOf ws.length) :
    b.engineWrite q ws =
      (b.dropMsg q 1).modQ q fun x => { x with sticky := orBits x.sticky 0x10, dropsBreath := x.dropsBreath + 1 } :=
  (if_neg (by simp [henabled])).trans <| (if_neg (by simp [hopen])).trans (if_pos (.inr (.inr hroom)))

end

theorem runs_engineMessage_fits {e : Engine} {q : Fin 256} {msg : List Word} {s : State}
    (hengine : (s.blk.queues.get q).prodEngine = e.code) (hfits : s.blk.engineWrite q msg = s.blk.enqueue q msg) :
    Safety.runs (.engineMessage e q msg) s fun t =>
      (t.blk.queues.get q).msgs = (s.blk.queues.get q).msgs ++ [{ words := msg, seq := some s.blk.evs.nextSeq }]
      ∧ (t.blk.queues.get q).drops = (s.blk.queues.get q).drops ∧ Safety.otherQueues s.blk t.blk q ∧ t.mem = s.mem := by
  obtain ⟨hput, -⟩ := s.blk.enqueue_put q msg
  refine runs_onBlk rfl ((if_pos hengine).trans hfits) ?_
  dsimp only
  rw [hput.get]
  exact ⟨rfl, rfl, hput.others, rfl⟩

theorem runs_engineMessage_lost {e : Engine} {q : Fin 256} {msg : List Word} {s : State}
    (hengine : (s.blk.queues.get q).prodEngine = e.code) (henabled : (s.blk.queues.get q).enabled = true)
    (hopen : s.blk.queueShut (s.blk.queues.get q) = false)
    (hroom : (s.blk.queues.get q).maxPods < (s.blk.queues.get q).pods + podsOf msg.length
      ∨ (s.blk.queues.get q).freeReserve + s.blk.sharedFree < podsOf msg.length) :
    Safety.runs (.engineMessage e q msg) s fun t =>
      (t.blk.queues.get q).msgs = (s.blk.queues.get q).msgs ∧ bit (t.blk.queues.get q).sticky 4 = true
      ∧ (t.blk.queues.get q).drops = satAdd (s.blk.queues.get q).drops 1 0xFFFFFFFF
      ∧ (t.blk.queues.get q).dropsBreath = (s.blk.queues.get q).dropsBreath + 1
      ∧ Safety.otherQueues s.blk t.blk q ∧ t.blk = { s.blk with queues := t.blk.queues } ∧ t.mem = s.mem := by
  have hput := (Blk.QueuePut.modQ s.blk q fun x => { x with drops := satAdd x.drops 1 0xFFFFFFFF }).then_modQ
    fun x => { x with sticky := orBits x.sticky 0x10, dropsBreath := x.dropsBreath + 1 }
  refine runs_onBlk rfl ((if_pos hengine).trans (Blk.engineWrite_lost henabled hopen hroom)) ?_
  dsimp only
  rw [Blk.dropMsg, hput.get]
  exact ⟨rfl, testBit_orBits _ (i := 4) (by decide), rfl, rfl, hput.others, rfl, rfl⟩

/-! ### Pops (R215 to R217) -/

theorem runs_pqPop_visible (i : Initiator) (q : Fin 256) (m : Msg) (rest : List Msg) (s : State)
    (hpresent : s.blk.queueAbsent q = false) (henabled : (s.blk.queues.get q).enabled = true)
    (hconsumer : (s.blk.queues.get q).consumer = i.id) (hvisible : s.blk.visible (s.blk.queues.get q) = m :: rest) :
    Safety.runs (.pqPop i q false) s fun t =>
      let x := s.blk.queues.get q
      t.blk.reply = { data := ((windowOf m.words x.popped).getD 3 0).zeroExtend 64, fault := false, isolated := false }
      ∧ (t.blk.queues.get q).lastWin = windowOf m.words x.popped
      ∧ (m.words.length ≤ 4 * (x.popped + 1) → (t.blk.queues.get q).msgs = x.msgs.drop 1 ∧ (t.blk.queues.get q).popped = 0)
      ∧ (4 * (x.popped + 1) < m.words.length → (t.blk.queues.get q).msgs = x.msgs ∧ (t.blk.queues.get q).popped = x.popped + 1)
      ∧ Safety.otherQueues s.blk t.blk q
      ∧ t.blk = { s.blk with queues := t.blk.queues, mboxes := t.blk.mboxes, reply := t.blk.reply } ∧ t.mem = s.mem := by
  obtain ⟨hturn, hblk⟩ := Blk.popWindow_visible hvisible
  have hpop := pqPop_eq false hpresent henabled hconsumer
  rw [Blk.window_visible hvisible] at hpop
  have hput := hturn.answer (popValue (windowOf m.words (s.blk.queues.get q).popped) false)
  refine runs_onBlk rfl hpop ?_
  dsimp only
  rw [hput.get]
  refine ⟨congrArg (Reply.mk · false false) (ofNat_popValue _ false), Queue.turned_lastWin .., fun hlast => ?_, fun hnext => ?_, hput.others, ?_, rfl⟩
  · rw [Queue.turned_last hlast]; exact ⟨rfl, rfl⟩
  · rw [Queue.turned_next hnext]; exact ⟨rfl, rfl⟩
  · rw [hblk]; rfl

theorem runs_pqPop_nothing (i : Initiator) (q : Fin 256) (wide : Bool) (s : State)
    (hpresent : s.blk.queueAbsent q = false) (henabled : (s.blk.queues.get q).enabled = true)
    (hconsumer : (s.blk.queues.get q).consumer = i.id) (hvisible : s.blk.visible (s.blk.queues.get q) = []) :
    Safety.runs (.pqPop i q wide) s fun t =>
      let w := (s.blk.queues.get q).lastWin
      t.blk.reply.data =
          (if wide then (w.getD 2 0).zeroExtend 64 ||| ((w.getD 3 0).zeroExtend 64 <<< 32) else (w.getD 3 0).zeroExtend 64)
      ∧ bit (t.blk.queues.get q).sticky 0 = true ∧ (t.blk.queues.get q).msgs = (s.blk.queues.get q).msgs
      ∧ (t.blk.queues.get q).lastWin = w ∧ Safety.otherQueues s.blk t.blk q ∧ t.mem = s.mem := by
  obtain ⟨_, hunder⟩ := Blk.popWindow_nothing hvisible
  have hpop := pqPop_eq wide hpresent henabled hconsumer
  rw [Blk.window_nothing hvisible] at hpop
  have hput := hunder.answer (popValue (s.blk.queues.get q).lastWin wide)
  refine runs_onBlk rfl hpop ?_
  dsimp only
  rw [hput.get]
  exact ⟨ofNat_popValue .., testBit_orBits _ (i := 0) (by decide), rfl, rfl, hput.others, rfl⟩

/-- Settles O29: an engine's message is whole or lost, and a pop moves the window or is an underrun. -/
theorem enginesAndPops : Obligations.EnginesAndPops :=
  ⟨fun _ _ _ _ hengine henabled hopen hplain hsome hlength =>
      ⟨fun hmax hpool =>
        runs_engineMessage_fits hengine (Blk.engineWrite_fits henabled hopen hplain hsome hlength hmax hpool),
        runs_engineMessage_lost hengine henabled hopen⟩,
    runs_pqPop_visible, runs_pqPop_nothing⟩

end Sys2Proof.Machine
end

section
/-! SUPPORT. RESPONSE_PLACE on MB10 while a management session is open (R420): its engine sends at once what stands in the response queue. -/

namespace Sys2Proof.Machine
open Sys2Proof

/-- A response of 16 bytes, without a payload. -/
def emptyResponse : Resp := { opcode := 0x101, client := 7, who := 0x31, flags := 1, status := 0, ebn := 5, payload := [] }

/-- RUN with a management session open: `emptyResponse` waits on MB10, whose response queue (31) is enabled from the Chanter to the
management endpoint, with room for 64 pods and no message. -/
def openSession : State :=
  { State.reset with
    blk :=
      { State.reset.blk with
        rcc := { State.reset.blk.rcc with mode := .run }
        mboxes := vmod State.reset.blk.mboxes 10 fun x => { x with resps := [emptyResponse] }
        queues := vmod State.reset.blk.queues 31 fun x => { x with limits := 0x00400040, owners := 0x00083120 }
        sec := { State.reset.blk.sec with session := some default } } }

/-- The placed response has left for the host: the queue is as empty as before. -/
theorem responsePlace_openSession_msgs :
    (openSession.blk.queues.get 31).msgs = [] ∧ ((responsePlaceSend 10 openSession.blk).queues.get 31).msgs = [] := by
  decide +kernel

theorem openSession_hasRoom : openSession.blk.hasRoom 31 (ceilDiv (16 + emptyResponse.payload.length) 4) = true := by
  decide +kernel

/-- Refutes O32: with a management session open the message placed on MB10's response queue does not stay there, since the engine of the
endpoint takes it in the same step (R420); `openSession` is such a state. -/
theorem not_responsesArePlaced : ¬ Obligations.ResponsesArePlaced := by
  rintro ⟨hplace, -⟩
  have hresps : (openSession.blk.mboxes.get 10).resps = [emptyResponse] := by simp [openSession]
  obtain ⟨hfits, -⟩ := hplace 10 emptyResponse [] openSession hresps (by decide) (by decide) (by decide)
  obtain ⟨t, hexec, -, hmsgs, -⟩ := hfits (Nat.zero_le _) openSession_hasRoom
  obtain rfl : openSession.onBlk (responsePlaceSend 10) = t := Host.Outcome.next.inj hexec
  have hempty := responsePlace_openSession_msgs.2
  exact absurd (hempty.symm.trans hmsgs) (by simp)

end Sys2Proof.Machine
end

section
/-! SUPPORT. Checks and answers of a request (R231, R234, R236 to R239): a list of checks that pass, a request in parts that reaches its body,
an answer as the statements write it, and a refusal. -/

namespace Sys2Proof.Machine
open Sys2Proof

/-! ### Lists of checks (R236) -/

theorem firstErr_eq_none_iff (l : List (Bool × Err)) : firstErr l = none ↔ Safety.pass l := by
  induction l with
  | nil => simp [firstErr, Safety.pass]
  | cons x l ih =>
    obtain ⟨bad, e⟩ := x
    have ih' : firstErr l = none ↔ ∀ y ∈ l, y.1 = false := ih
    cases bad <;> simp [firstErr, Safety.pass, ih']

theorem Safety.pass_append {l l' : List (Bool × Err)} : Safety.pass (l ++ l') ↔ Safety.pass l ∧ Safety.pass l' :=
  List.forall_mem_append

theorem Safety.pass_cons {bad : Bool} {e : Err} {l : List (Bool × Err)} : Safety.pass ((bad, e) :: l) ↔ bad = false ∧ Safety.pass l :=
  List.forall_mem_cons

theorem Safety.pass_nil : Safety.pass [] := nofun

/-- Checks that pass leave the decision to those that follow. -/
theorem firstErr_append_of_pass {l : List (Bool × Err)} (h : Safety.pass l) (l' : List (Bool × Err)) : firstErr (l ++ l') = firstErr l' := by
  induction l with
  | nil => rfl
  | cons x l ih =>
    obtain ⟨hx, hl⟩ := List.forall_mem_cons.1 h
    rw [List.cons_append, firstErr, hx]
    exact ih hl

theorem zeroErr_eq_nil {p : List Byte} {i n : Nat} (h : nonZeroAt p i n = none) : zeroErr p i n = [] := by
  rw [zeroErr, h]

/-! ### A request in parts (R234) -/

/-- The block after the assembly of a request has been taken from its mailbox. -/
def Blk.taken (b : Blk) (r : Req) : Blk := b.modMb r.mb fun m => { m with assembly := none }

theorem Blk.taken_resps (b : Blk) (r : Req) : ((b.taken r).mboxes.get r.mb).resps = (b.mboxes.get r.mb).resps := by
  simp [Blk.taken]

/-- The last part of a request that passes the shared checks takes the whole payload to its body. -/
theorem screen_whole {c : Cmd} {r : Req} {b : Blk} {p : List Byte} {ab : Blk → List Byte → Option (UnitName × Nat)}
    {gr : Blk → Initiator → List Byte → Option Err} (h : Safety.wholeInParts c r b p) (ha : ab (b.taken r) p = none)
    (hg : gr (b.taken r) (reqWho r) p = none) : screen c r ab gr false b = .pass (b.taken r) (reqWho r) p := by
  obtain ⟨hcont, rfl, hlen, hwords, hall, hpart, hrule, hmode, hwho, hflag⟩ := h
  have hl : lengthErr c r (b.assembled r).1.length = none := by
    simp [lengthErr, firstErr, hwords, hpart, hrule, Nat.not_lt.mpr hlen, Nat.not_lt.mpr hall]
  have hm : (b.taken r).modeErr c = none := if_pos hmode
  have hw : whoErr c (reqWho r) = none := if_pos hwho
  unfold Blk.taken at *
  unfold screen
  simp only [hcont, or_true, if_true, Bool.false_eq_true, if_false, hl, hpart, ha, hm, hw, hg, hflag]
  rfl

theorem serve_whole {c : Cmd} {r : Req} {b : Blk} {p : List Byte} {body : Blk → Initiator → List Byte → Blk}
    (h : Safety.wholeInParts c r b p) : serve c r noAbsent noGrant body b = body (b.taken r) (reqWho r) p := by
  rw [serve, screen_whole h rfl rfl]

theorem serveW_whole {c : Cmd} {r : Req} {b : Blk} {p : List Byte} {body : Blk → Initiator → List Byte → BW}
    (h : Safety.wholeInParts c r b p) : serveW c r noAbsent noGrant body b = body (b.taken r) (reqWho r) p := by
  rw [serveW, screen_whole h rfl rfl]

/-! ### Answers (R231, R237, R258) -/

theorem Blk.answerOf_eq_response {a b : Blk} (hmode : a.rcc.mode = b.rcc.mode) (op : Nat) (r : Req) (st : Nat) (n : Word) (p : List Byte) :
    a.answerOf op r st n p false = Safety.response b r op st n p := by
  unfold Blk.answerOf Safety.response
  rw [hmode]
  by_cases h : b.rcc.mode = .recovery <;> simp [h, b2n, reqWho]

/-- The answer that a later block of the same mode gives is the one that `Safety.answers` names. -/
theorem Blk.respond_answers {a b : Blk} {r : Req} (hmode : a.rcc.mode = b.rcc.mode)
    (hresps : (a.mboxes.get r.mb).resps = (b.mboxes.get r.mb).resps) (op st : Nat) (n : Word) (p : List Byte) :
    ((a.respond op r st n p).mboxes.get r.mb).resps = (b.mboxes.get r.mb).resps ++ [Safety.response b r op st n p] := by
  rw [Blk.respond_resps, hresps, Blk.answerOf_eq_response hmode]

/-- A completion is a notification: the responses that wait stay. -/
@[simp] theorem Blk.complete_resps (b : Blk) (d : Due) (st : Nat) (n : Word) (p : List Byte) (m : Fin 12) :
    ((b.complete d st n p).mboxes.get m).resps = (b.mboxes.get m).resps := by
  rw [Blk.complete, Blk.modMb, vmod_get]
  split <;> rfl

/-- What a refusal does that is no failed authentication: the answer alone where its mailbox has had one of its kind in this breath, or
the answer with its record. -/
theorem Blk.refuseReq_cases (b : Blk) (op : Nat) (r : Req) {e : Err} (hauth : e.status ≠ stAuth) :
    (((e.status = stDenied ∨ e.status = stOwner) ∧ r.mb ∈ b.breath.refusedMb) ∧
      b.refuseReq op r e = b.respond op r e.status b.ebn (b.errBytes e)) ∨
    ∃ x : Breath, b.refuseReq op r e = ({ b.respond op r e.status b.ebn (b.errBytes e) with breath := x }).ev (srcMb r.mb) 0x21 1
      (arg32 (op + e.status * 65536)) (idByte (reqWho r)) := by
  unfold Blk.refuseReq Blk.authEvent
  rw [if_neg hauth]
  by_cases hseen : (e.status = stDenied ∨ e.status = stOwner) ∧ r.mb ∈ b.breath.refusedMb
  · exact .inl ⟨hseen, if_pos hseen⟩
  · refine .inr ?_
    rw [if_neg hseen]
    by_cases honce : e.status = stDenied ∨ e.status = stOwner
    · exact ⟨_, by rw [if_pos honce]; rfl⟩
    · exact ⟨b.breath, by rw [if_neg honce]; rfl⟩

/-- A refusal that is no failed authentication, as `Safety.refuses` names it, by a block that differs from the first in its mailboxes alone. -/
theorem refuses_of_refuseReq {s : State} {a : Blk} {r : Req} (hblk : a = { s.blk with mboxes := a.mboxes })
    (hresps : (a.mboxes.get r.mb).resps = (s.blk.mboxes.get r.mb).resps) (op : Nat) {e : Err} (hauth : e.status ≠ stAuth) :
    Safety.refuses s { s with blk := a.refuseReq op r e } r op e.status e.off e.sub e.value := by
  have hmode : a.rcc.mode = s.blk.rcc.mode := by rw [hblk]
  have hbytes : a.errBytes e =
      leBytes 2 e.off ++ [BitVec.ofNat 8 e.sub, BitVec.ofNat 8 s.blk.rcc.mode.code] ++ leBytes 4 e.value := by rw [Blk.errBytes, hmode]
  have hebn : a.ebn = s.blk.breath.bn.truncate 32 := by rw [hblk]; rfl
  have hanswer := Blk.respond_answers hmode hresps op e.status a.ebn (a.errBytes e)
  rw [hebn, hbytes] at hanswer
  unfold Safety.refuses Safety.answers
  dsimp only
  rcases a.refuseReq_cases op r hauth with ⟨⟨honce, hseen⟩, heq⟩ | ⟨x, heq⟩
  · rw [heq, hebn, hbytes]
    refine ⟨hanswer, fun _ hnew => ?_, ?_, rfl⟩
    · have hbreath : a.breath = s.blk.breath := by rw [hblk]
      rcases hnew with ⟨hdenied, howner⟩ | hnew
      · exact (honce.elim hdenied howner).elim
      · exact (hnew (hbreath ▸ hseen)).elim
    · rw [Blk.respond_eq, hblk]
  · rw [heq, hebn, hbytes]
    refine ⟨?_, fun hroom _ => Blk.ev_last_of_evs_eq ?_ hroom .., ?_, rfl⟩
    · rw [Blk.ev_mboxes]; exact hanswer
    · rw [hblk]; rfl
    · rw [Blk.ev_eq, Blk.respond_eq, hblk]

end Sys2Proof.Machine
end

section
/-! SUPPORT. Transitions scheduled by command: MODE_SET (R245, R390, R391), TENANT_CTRL (R245, R273) and TENANT_REPLACE (R247, R276). -/

namespace Sys2Proof.Machine
open Sys2Proof

/-! ### MODE_SET -/

theorem Mode.lockdown_iff_of_ofCode {n : Nat} {m : Mode} (h : Mode.ofCode n = some m) : m = .lockdown ↔ n = 8 := by
  unfold Mode.ofCode at h
  split at h <;> cases h <;> decide

section
variable {r : Req} {m : Mode} {s : State} (hacc : Safety.accepted cmdModeSet r s.blk)
  (hm : Mode.ofCode (byteAt (Safety.payload r) 0).toNat = some m) (hzero : nonZeroAt (Safety.payload r) 1 3 = none)
  (hsched : s.blk.rcc.sched = none) (hwho : mbOwner r.mb ≠ .safety)
include hacc hm hzero hsched hwho

/-- With nothing scheduled, MODE_SET to a mode turns on the guard alone. -/
theorem modeSet_eq_of_unscheduled :
    modeSet r s.blk =
      if s.blk.setGuard m = some true then
        ((s.blk.ev srcRcc 0xC 1 (wordAt (Safety.payload r) 4) (idByte (mbOwner r.mb))).respond 0x202 r stAccepted
          (bnWord (s.blk.breath.bn + 2)) []).schedule m mcModeSet (if m = .lockdown then 3 else 5) (some (reqDue r 0x202))
      else s.blk.refuseReq 0x202 r (err stRefused 7 0) := by
  have hrequester : reqWho r ≠ .safety := hwho
  have houtranks (n : Nat) : s.blk.outranks n = true := by rw [Blk.outranks, hsched]
  rw [modeSet, serve_pass hacc rfl (if_neg fun h => hrequester h.1)]
  simp only [hm, zeroErr_eq_nil hzero, houtranks, hrequester, if_false, Mode.lockdown_iff_of_ofCode hm]
  by_cases hguard : s.blk.setGuard m = some true
  · simp [hguard, firstErr, reqWho]
  · simp [hguard, firstErr]

theorem runs_modeSet_scheduled (hguard : s.blk.setGuard m = some true) :
    Safety.runs (.modeSet r) s fun t =>
      t.blk.rcc.sched = some { target := m, cause := 2, at_ := s.blk.breath.bn + 2, rank := if m = .lockdown then 3 else 5, due := some { mb := r.mb, client := r.client, who := idByte (mbOwner r.mb), opcode := 0x202 } }
      ∧ t.blk.rcc.mode = s.blk.rcc.mode ∧ Safety.answers s t r 0x202 1 ((s.blk.breath.bn + 2).truncate 32) []
      ∧ (Safety.room s.blk srcRcc → Safety.lastRecord t.blk = some (srcRcc, 0xC, 1, wordAt (Safety.payload r) 4, idByte (mbOwner r.mb)))
      ∧ t.mem = s.mem := by
  refine runs_onBlk rfl ((modeSet_eq_of_unscheduled hacc hm hzero hsched hwho).trans (if_pos hguard)) ?_
  simp only [Blk.schedule, Blk.respond_rcc, Blk.ev_rcc, hsched]
  refine ⟨by simp [reqDue, reqWho, mcModeSet], by simp, ?_, fun hroom => ?_, trivial⟩
  · exact Blk.respond_answers (a := s.blk.ev srcRcc 0xC 1 (wordAt (Safety.payload r) 4) (idByte (mbOwner r.mb))) (by simp) (by simp) ..
  · rw [Safety.lastRecord_congr (b := s.blk.ev srcRcc 0xC 1 (wordAt (Safety.payload r) 4) (idByte (mbOwner r.mb))) (by simp)]
    exact Blk.ev_last_of_evs_eq rfl hroom ..

theorem runs_modeSet_unguarded (hguard : s.blk.setGuard m ≠ some true) :
    Safety.runs (.modeSet r) s fun t => Safety.refuses s t r 0x202 0x21 0xFFFF 7 0 :=
  runs_onBlk rfl ((modeSet_eq_of_unscheduled hacc hm hzero hsched hwho).trans (if_neg hguard))
    (refuses_of_refuseReq rfl rfl 0x202 (e := err stRefused 7 0) (by decide))

end

/-! ### TENANT_CTRL -/

theorem byteAt_take {l : List Byte} {i n : Nat} (h : i < n) : byteAt (l.take n) i = byteAt l i := by
  simp [byteAt, List.getD_eq_getElem?_getD, h]

theorem Blk.dropNext_of_none {b : Blk} {k : Fin 8} (h : (b.tn k).next = .none) : b.dropNext k = b := by
  rw [Blk.dropNext, h]

@[simp] theorem Blk.respond_tn (b : Blk) (op : Nat) (r : Req) (st : Nat) (n : Word) (p : List Byte) (j : Fin 8) :
    (b.respond op r st n p).tn j = b.tn j := rfl

/-- Two changes of a tenant are one. -/
theorem Blk.modT_modT (b : Blk) (k : Fin 8) (f g : Tenant → Tenant) : (b.modT k f).modT k g = b.modT k fun x => g (f x) := by
  have hset : vmod (vmod b.tenants k f) k g = vmod b.tenants k fun x => g (f x) := by
    rw [vmod, vmod_get_self, vmod, Vector.set_set]
    rfl
  exact congrArg (fun v => { b with tenants := v }) hset

/-- What an accepted request adds to its tenant: who waits for the state. -/
def Tenant.awaited (x : Tenant) (running : Bool) (r : Req) : Tenant := { x with due := x.due ++ [(running, reqDue r 0x203)] }

section
variable (b : Blk) (r : Req) (k : Fin 8) (running : Bool)

@[simp] theorem Blk.tenantAccepted_tn_self : (b.tenantAccepted r k running).tn k = (b.tn k).awaited running r := Blk.modT_tn_self ..

@[simp] theorem Blk.tenantAccepted_tn_ne {j : Fin 8} (h : j ≠ k) : (b.tenantAccepted r k running).tn j = b.tn j := Blk.modT_tn_ne _ _ h

theorem Blk.tenantAccepted_answers : ((b.tenantAccepted r k running).mboxes.get r.mb).resps =
    (b.mboxes.get r.mb).resps ++ [Safety.response b r 0x203 1 ((b.breath.bn + 1).truncate 32) []] :=
  Blk.respond_answers (a := b.modT k _) rfl rfl ..

/-- A request for the state in which the tenant stands draws its answer, and its completion at once. -/
theorem Blk.tenantNothing_answers : ((b.tenantNothing r k running).mboxes.get r.mb).resps =
    (b.mboxes.get r.mb).resps ++ [Safety.response b r 0x203 0 (b.breath.bn.truncate 32) []] :=
  (Blk.complete_resps ..).trans (Blk.respond_answers (a := b) rfl rfl ..)

variable {b k} (hnext : (b.tn k).next = .none)
include hnext

theorem Blk.ctrlStop_running (hst : (b.tn k).state = .running) :
    b.ctrlStop r k = (b.tenantAccepted r k false).modT k fun x => { x with next := .stop 1 } := by
  rw [Blk.ctrlStop, Blk.dropNext_of_none hnext, hst]

theorem Blk.ctrlStop_stopped (hst : (b.tn k).state = .stopped) : b.ctrlStop r k = b.tenantNothing r k false := by
  rw [Blk.ctrlStop, Blk.dropNext_of_none hnext, hst]

theorem Blk.ctrlStart_stopped (hst : (b.tn k).state = .stopped) :
    b.ctrlStart r k = (b.tenantAccepted r k true).modT k fun x => { x with next := .start } := by
  rw [Blk.ctrlStart, Blk.dropNext_of_none hnext, hst]

theorem Blk.ctrlStart_running (hst : (b.tn k).state = .running) : b.ctrlStart r k = b.tenantNothing r k true := by
  rw [Blk.ctrlStart, Blk.dropNext_of_none hnext, hst]

theorem Blk.ctrlReset_running (hst : (b.tn k).state = .running) :
    b.ctrlReset r k = (b.tenantAccepted r k true).modT k fun x => { x with next := .reset 1 } := by
  rw [Blk.ctrlReset, Blk.dropNext_of_none hnext, hst]

/-- R273: the first start during a shut-down is held, and recorded. -/
theorem Blk.ctrlStart_shutting (hst : (b.tn k).state = .stopping ∨ (b.tn k).state = .resetting) (hpending : (b.tn k).pending = none)
    (hdue : (b.tn k).pendingDue = []) :
    b.ctrlStart r k = ((b.modT k fun x => { x with pending := some false, pendingDue := [reqDue r 0x203] }).tev k 4 1 1).respond
      0x203 r stPending ebnUnknown [] := by
  have hhold : b.ctrlStart r k = b.tenantHold r k false := by
    rw [Blk.ctrlStart, Blk.dropNext_of_none hnext]
    rcases hst with hst | hst <;> rw [hst]
  have hput := Blk.modT_modT b k (fun x => { x with pending := none, pendingDue := [] })
    fun x => { x with pending := some false, pendingDue := [reqDue r 0x203] }
  rw [hhold, Blk.tenantHold, Blk.dropPending, hpending, hdue, ← hput]
  rfl

end

section
variable {r : Req} {k : Fin 8} {s : State} (hacc : Safety.accepted cmdTenantCtrl r s.blk) (hhost : hosts (mbOwner r.mb) = true)
  (hmode : s.blk.rcc.mode = .run) (hk : tenantArg (Safety.payload r) = some k) (hhas : s.blk.hasTenant k = true)
  (hen : (s.blk.tn k).cfg.enabled = true) (hzero : nonZeroAt (Safety.payload r) 2 2 = none)
include hacc hhost hmode hk hhas hen hzero

/-- A host's request for a tenant that passes every check runs the action of its row. -/
theorem tenantCtrl_eq {action : Nat} (hle : action ≤ 2) (haction : (byteAt (Safety.payload r) 1).toNat = action) (f : Blk → Req → Fin 8 → Blk) :
    tenantCtrl action r f s.blk = f s.blk r k := by
  have hlen : r.len.toNat = 4 := by
    obtain ⟨-, -, -, -, hlen, -⟩ := hacc
    simpa [LenRule.ok, cmdTenantCtrl] using hlen
  have hbyte : byteAt r.payload 1 = byteAt (Safety.payload r) 1 := by
    rw [Safety.payload, byteAt_take (by omega)]
  have hgrant : ∀ t : Fin 8, reqWho r ≠ .tenant t := by
    intro t ht
    rw [reqWho] at ht
    simp [ht, hosts] at hhost
  rw [tenantCtrl, hbyte, haction, if_neg (by simp), serve_pass hacc (by simp [absentTenant, hk, hhas])]
  · simp [hk, hen, haction, Nat.not_lt.2 hle, zeroErr_eq_nil hzero, hmode, firstErr]
  · split
    · exact absurd ‹_› (hgrant _)
    · rfl

variable (hnext : (s.blk.tn k).next = .none)
include hnext

theorem runs_tenantCtrlStop_running (haction : byteAt (Safety.payload r) 1 = 0) (hst : (s.blk.tn k).state = .running) :
    Safety.runs (.tenantCtrlStop r) s fun t => (t.blk.tn k).next = .stop 1
      ∧ (t.blk.tn k).state = .running ∧ (∀ j : Fin 8, j ≠ k → t.blk.tn j = s.blk.tn j)
      ∧ Safety.answers s t r 0x203 1 ((s.blk.breath.bn + 1).truncate 32) []
      ∧ t.blk = { s.blk with tenants := t.blk.tenants, mboxes := t.blk.mboxes } ∧ t.mem = s.mem := by
  refine runs_onBlk rfl ((tenantCtrl_eq hacc hhost hmode hk hhas hen hzero (by decide) (by rw [haction]; rfl) _).trans
    (Blk.ctrlStop_running r hnext hst)) ⟨by simp, by simp [Tenant.awaited, hst], fun j hj => by simp [hj], ?_, rfl, rfl⟩
  exact Blk.tenantAccepted_answers ..

theorem runs_tenantCtrlStop_stopped (haction : byteAt (Safety.payload r) 1 = 0) (hst : (s.blk.tn k).state = .stopped) :
    Safety.runs (.tenantCtrlStop r) s fun t => t.blk.tenants = s.blk.tenants
      ∧ Safety.okays s t r 0x203 [] ∧ Safety.onlyAnswers s t :=
  runs_onBlk rfl ((tenantCtrl_eq hacc hhost hmode hk hhas hen hzero (by decide) (by rw [haction]; rfl) _).trans
    (Blk.ctrlStop_stopped r hnext hst)) ⟨rfl, Blk.tenantNothing_answers .., rfl, rfl⟩

theorem runs_tenantCtrlStart_stopped (haction : byteAt (Safety.payload r) 1 = 1) (hst : (s.blk.tn k).state = .stopped) :
    Safety.runs (.tenantCtrlStart r) s fun t => (t.blk.tn k).next = .start
      ∧ (t.blk.tn k).state = .stopped ∧ Safety.answers s t r 0x203 1 ((s.blk.breath.bn + 1).truncate 32) [] ∧ t.mem = s.mem := by
  refine runs_onBlk rfl ((tenantCtrl_eq hacc hhost hmode hk hhas hen hzero (by decide) (by rw [haction]; rfl) _).trans
    (Blk.ctrlStart_stopped r hnext hst)) ⟨by simp, by simp [Tenant.awaited, hst], ?_, rfl⟩
  exact Blk.tenantAccepted_answers ..

theorem runs_tenantCtrlStart_running (haction : byteAt (Safety.payload r) 1 = 1) (hst : (s.blk.tn k).state = .running) :
    Safety.runs (.tenantCtrlStart r) s fun t => t.blk.tenants = s.blk.tenants
      ∧ Safety.okays s t r 0x203 [] ∧ Safety.onlyAnswers s t :=
  runs_onBlk rfl ((tenantCtrl_eq hacc hhost hmode hk hhas hen hzero (by decide) (by rw [haction]; rfl) _).trans
    (Blk.ctrlStart_running r hnext hst)) ⟨rfl, Blk.tenantNothing_answers .., rfl, rfl⟩

theorem runs_tenantCtrlReset_running (haction : byteAt (Safety.payload r) 1 = 2) (hst : (s.blk.tn k).state = .running) :
    Safety.runs (.tenantCtrlReset r) s fun t => (t.blk.tn k).next = .reset 1
      ∧ (t.blk.tn k).state = .running ∧ Safety.answers s t r 0x203 1 ((s.blk.breath.bn + 1).truncate 32) [] ∧ t.mem = s.mem := by
  refine runs_onBlk rfl ((tenantCtrl_eq hacc hhost hmode hk hhas hen hzero (by decide) (by rw [haction]; rfl) _).trans
    (Blk.ctrlReset_running r hnext hst)) ⟨by simp, by simp [Tenant.awaited, hst], ?_, rfl⟩
  exact Blk.tenantAccepted_answers ..

theorem runs_tenantCtrlStart_held (haction : byteAt (Safety.payload r) 1 = 1)
    (hst : (s.blk.tn k).state = .stopping ∨ (s.blk.tn k).state = .resetting) (hpending : (s.blk.tn k).pending = none)
    (hdue : (s.blk.tn k).pendingDue = []) :
    Safety.runs (.tenantCtrlStart r) s fun t => (t.blk.tn k).pending = some false
      ∧ (t.blk.tn k).state = (s.blk.tn k).state ∧ Safety.answers s t r 0x203 0x31 0xFFFFFFFF []
      ∧ (Safety.room s.blk (srcT k) → Safety.lastRecord t.blk = some (srcT k, 4, 1, 1, BitVec.ofNat 8 k.val)) ∧ t.mem = s.mem := by
  refine runs_onBlk rfl ((tenantCtrl_eq hacc hhost hmode hk hhas hen hzero (by decide) (by rw [haction]; rfl) _).trans
    (Blk.ctrlStart_shutting r hnext hst hpending hdue)) ⟨?_, ?_, ?_, fun hroom => Blk.tev_lastRecord (by simp) hroom .., rfl⟩
  · simp
  · simp
  · exact Blk.respond_answers (by simp [Blk.tev]) (by simp [Blk.tev]) ..

end

/-! ### TENANT_REPLACE -/

theorem runs_tenantReplace (r : Req) (k : Fin 8) (s : State) (hacc : Safety.accepted cmdTenantReplace r s.blk)
    (hfull : s.blk.rcc.mode = .run → s.blk.full = true) (hk : tenantArg (Safety.payload r) = some k) (hhas : s.blk.hasTenant k = true)
    (hen : (s.blk.tn k).cfg.enabled = true) (hzero : nonZeroAt (Safety.payload r) 2 6 = none)
    (hslot : (byteAt (Safety.payload r) 1).toNat ≤ 1) (hbn : leAt (Safety.payload r) 8 8 = 0)
    (husable : ((s.blk.comp (tenantComp k)).slot (decide ((byteAt (Safety.payload r) 1).toNat = 1))).usable = true)
    (hst : (s.blk.tn k).state = .running) (hfree : (s.blk.tn k).replace = none) (hidle : (s.blk.tn k).replacing = none) :
    Safety.runs (.tenantReplace r) s fun t =>
      (t.blk.tn k).replace = some (s.blk.breath.bn + 2, decide ((byteAt (Safety.payload r) 1).toNat = 1),
        { mb := r.mb, client := r.client, who := idByte (mbOwner r.mb), opcode := 0x308 })
      ∧ (t.blk.tn k).state = .running ∧ (∀ j : Fin 8, j ≠ k → t.blk.tn j = s.blk.tn j)
      ∧ Safety.answers s t r 0x308 1 ((s.blk.breath.bn + 2).truncate 32) [] ∧ t.mem = s.mem := by
  have htarget : s.blk.targetBn (Safety.payload r) 8 = s.blk.breath.bn + 2 := if_pos hbn
  have hearly : s.blk.targetEarly (Safety.payload r) 8 = false := by simp [Blk.targetEarly, hbn]
  have hlive : ¬ (s.blk.rcc.mode = .run ∧ s.blk.full = false) := fun h => by simp [hfull h.1] at h
  have heq : tenantReplace r s.blk = (s.blk.modT k fun x =>
      { x with replace := some (s.blk.breath.bn + 2, decide ((byteAt (Safety.payload r) 1).toNat = 1), reqDue r 0x308) }).respond 0x308 r
        stAccepted (bnWord (s.blk.breath.bn + 2)) [] := by
    rw [tenantReplace, serve_pass hacc (by simp [absentTenant, hk, hhas]) rfl]
    simp [hk, hlive, hen, Nat.not_lt.2 hslot, zeroErr_eq_nil hzero, hearly, husable, hst, hfree, hidle, htarget, firstErr]
  refine runs_onBlk rfl heq ⟨?_, ?_, fun j hj => ?_, ?_, rfl⟩
  · exact congrArg Tenant.replace (Blk.modT_tn_self ..)
  · exact (congrArg Tenant.state (Blk.modT_tn_self ..)).trans hst
  · exact Blk.modT_tn_ne _ _ hj
  · exact Blk.respond_answers (a := s.blk.modT k _) rfl rfl ..

/-- Settles O37: MODE_SET turns on the guard, and each TENANT_CTRL and TENANT_REPLACE is what its row does in the state of its tenant. -/
theorem transitionsAreScheduled : Obligations.TransitionsAreScheduled :=
  ⟨fun _ _ _ hacc hm hzero hsched hguard hwho => runs_modeSet_scheduled hacc hm hzero hsched hwho hguard,
    fun _ _ _ hacc hm hzero hsched hguard hwho => runs_modeSet_unguarded hacc hm hzero hsched hwho hguard,
    fun _ _ _ hacc hhost hmode hk hhas hen hzero hnext =>
      ⟨runs_tenantCtrlStop_running hacc hhost hmode hk hhas hen hzero hnext, runs_tenantCtrlStop_stopped hacc hhost hmode hk hhas hen hzero hnext,
        runs_tenantCtrlStart_stopped hacc hhost hmode hk hhas hen hzero hnext, runs_tenantCtrlStart_running hacc hhost hmode hk hhas hen hzero hnext,
        runs_tenantCtrlReset_running hacc hhost hmode hk hhas hen hzero hnext, runs_tenantCtrlStart_held hacc hhost hmode hk hhas hen hzero hnext⟩,
    runs_tenantReplace⟩

end Sys2Proof.Machine
end

section
/-! SUPPORT. Completions (R239), and what a write of a counter (R464, R465) and a change of the keys (R303) leave alone. -/

namespace Sys2Proof.Machine
open Sys2Proof

/-! ### Completions -/

/-- A completion is the last notification of its mailbox. -/
theorem Blk.complete_notes (b : Blk) (d : Due) (st : Nat) (n : Word) (p : List Byte) :
    ∃ fl, ((b.complete d st n p).mboxes.get d.mb).notes = (b.mboxes.get d.mb).notes ++
      [{ opcode := d.opcode + 0x40, client := d.client, who := d.who, flags := fl, status := BitVec.ofNat 16 st, ebn := n, payload := p }] :=
  ⟨_, congrArg Mailbox.notes (vmod_get_self b.mboxes d.mb _)⟩

/-- A failed authentication is one record more; any other error is none (R258). -/
theorem Blk.authEvent_eq (b : Blk) (m : Fin 12) (op : Nat) (who : Byte) (e : Err) :
    b.authEvent m op who e = { b with evs := (b.authEvent m op who e).evs } := by
  unfold Blk.authEvent
  split
  · exact Blk.ev_eq ..
  · rfl

theorem Blk.completeErr_eq (b : Blk) (d : Due) (e : Err) :
    b.completeErr d e = { b.complete d e.status b.ebn (b.errBytes e) with evs := (b.completeErr d e).evs } := Blk.authEvent_eq ..

/-! ### Records of other sources (R74) -/

/-- A record leaves what waits of another source. -/
theorem Blk.ev_waiting_ne (b : Blk) {src src' : BitVec 16} (h : src ≠ src') (code sev : Nat) (arg : Word) (tn : Byte) (pin : Bool) (fl : Nat) :
    (b.ev src code sev arg tn pin fl).waiting src' = b.waiting src' := by
  have hhand : (b.handLost src).waiting src' = b.waiting src' := by
    unfold Blk.handLost
    split
    · split
      · simp [Blk.waiting, Blk.lostRec, h]
      · rfl
    · rfl
  have hsrc : (b.capture src code sev arg tn fl pin).src = src := rfl
  unfold Blk.ev Blk.offer
  rw [hsrc, ← hhand]
  dsimp only
  split
  · simp [Blk.waiting, hsrc, h]
  · rfl

/-- What waits is a matter of the sequencer alone. -/
theorem Blk.onSec_waiting (b : Blk) (f : Security → Security) (src : BitVec 16) : (b.onSec f).waiting src = b.waiting src := rfl

/-! ### What a write of a counter leaves (R464, R465) -/

/-- What neither the NVM controller nor its records change, a write of a counter leaves alone. -/
theorem Blk.counterPut_keep {γ : Type} (g : Blk → γ) (hnvm : ∀ b f, g (Blk.onNvm b f) = g b)
    (hev : ∀ b code sev arg, g (Blk.ev b srcNvm code sev arg (pin := true)) = g b) (b : Blk) (off : Nat) (v : BitVec 64) :
    g (b.counterPut off v) = g b := by
  have hput (b : Blk) (off : Nat) (v : BitVec 64) (ep : Nat) : g (b.ctrPut off v ep) = g b := by
    rw [Blk.ctrPut]
    exact hnvm ..
  have hraise (v step : BitVec 64) : g (b.raiseEpoch off v step) = g b := by
    unfold Blk.raiseEpoch
    dsimp only
    rw [hev, hnvm, hput, foldl_keep g _ (fun a o => ?_), hput]
    split
    · rfl
    · exact hput ..
  unfold Blk.counterPut
  split
  · rfl
  split
  · dsimp only
    split
    · split
      · rw [hev, hnvm, hraise]
      · exact hraise ..
    · rw [hput, hput]
  · exact hput ..

section
variable (b : Blk) (off : Nat) (v : BitVec 64)

@[simp] theorem Blk.counterPut_sec : (b.counterPut off v).sec = b.sec :=
  Blk.counterPut_keep (·.sec) (fun _ _ => rfl) (fun _ _ _ _ => Blk.ev_sec ..) ..

@[simp] theorem Blk.counterPut_mboxes : (b.counterPut off v).mboxes = b.mboxes :=
  Blk.counterPut_keep (·.mboxes) (fun _ _ => rfl) (fun _ _ _ _ => Blk.ev_mboxes ..) ..

theorem Blk.counterPut_waiting {src : BitVec 16} (h : srcNvm ≠ src) : (b.counterPut off v).waiting src = b.waiting src :=
  Blk.counterPut_keep (·.waiting src) (fun _ _ => rfl) (fun b _ _ _ => b.ev_waiting_ne h ..) ..

end

/-! ### What a change of the keys leaves (R303) -/

/-- What neither a port nor its records change, the controlled ports leave alone as they follow the keys. -/
theorem Blk.macsecRefresh_keep {γ : Type} (g : Blk → γ) (hport : ∀ b p f, g (Blk.modPort b p f) = g b)
    (hev : ∀ b p, g (Blk.pev b p 7 3 1 (pin := true)) = g b) (b : Blk) : g b.macsecRefresh = g b := by
  refine foldl_keep g _ (fun a p => ?_) _ b
  dsimp only
  split
  · rw [hev, hport]
  · split
    · exact hport ..
    · rfl

section
variable (b : Blk)

@[simp] theorem Blk.macsecRefresh_sec : b.macsecRefresh.sec = b.sec :=
  Blk.macsecRefresh_keep (·.sec) (fun _ _ _ => rfl) (fun _ _ => Blk.ev_sec ..) b

@[simp] theorem Blk.macsecRefresh_mboxes : b.macsecRefresh.mboxes = b.mboxes :=
  Blk.macsecRefresh_keep (·.mboxes) (fun _ _ _ => rfl) (fun _ _ => Blk.ev_mboxes ..) b

theorem Blk.macsecRefresh_waiting {src : BitVec 16} (h : ∀ p, srcPort p ≠ src) : b.macsecRefresh.waiting src = b.waiting src :=
  Blk.macsecRefresh_keep (·.waiting src) (fun _ _ _ => rfl) (fun b p => b.ev_waiting_ne (h p) ..) b

end

end Sys2Proof.Machine
end

section
/-! SUPPORT. Key updates (R255, R412 to R416): the answer to a message whose fields pass, and the commit of a prepared one. -/

namespace Sys2Proof.Machine
open Sys2Proof

/-! ### KEY_UPDATE -/

/-- The key set that the operations of a message leave (R414, R415). -/
def Blk.preparedSet (b : Blk) (p : List Byte) (l : List KeyOp) : KeySet :=
  ((List.range (byteAt p 2).toNat).zip l).foldl (b.applyOp (p.take 40))
    { slots := b.sec.slots, epochs := (b.sec.epochAtt, b.sec.epochSeal), handles := [], unwraps := true }

/-- The key update that a message prepares (R415 step 1). -/
def Blk.prepared (b : Blk) (r : Req) (p : List Byte) (l : List KeyOp) : KeyUpd :=
  let k := b.preparedSet p l
  { due := reqDue r 0x901, counter := BitVec.ofNat 63 (leAt p 24 8), digest := Config.sha3 p, slots := k.slots, epochs := k.epochs,
    handles := k.handles, unwraps := k.unwraps }

section
variable {r : Req} {p : List Byte} {l : List KeyOp} {s : State} (hwhole : Safety.wholeInParts cmdKeyUpdate r s.blk p)
  (hlo : 1 ≤ (byteAt p 2).toNat) (hhi : (byteAt p 2).toNat ≤ 8) (hhead : Safety.pass (s.blk.headChecks p))
  (hlen : leAt p 36 4 + 40 + sigLen = p.length)
  (hops : keyOps (byteAt p 2).toNat 40 (slice p 40 (p.length - 40 - sigLen)) = .ok l) (hchecks : ∀ o ∈ l, Safety.pass (o.checks l))
include hlo hhi hhead hlen hchecks

/-- The field checks of a key update, one list after another. -/
theorem keyUpdate_fields_pass :
    firstErr ([(decide ((byteAt p 2).toNat < 1 ∨ 8 < (byteAt p 2).toNat), errAt 2 stBadParam 1 0)] ++ (s.blk.taken r).headChecks p
      ++ [(decide (leAt p 36 4 + 40 + sigLen ≠ p.length), errAt 36 stBadParam 1 0), (false, err 0 0 0)]
      ++ l.flatMap fun o => o.checks l) = none := by
  have hfields : Safety.pass (l.flatMap fun o => o.checks l) := by
    intro x hx
    obtain ⟨o, ho, hx⟩ := List.mem_flatMap.1 hx
    exact hchecks o ho x hx
  have hhead' : Safety.pass ((s.blk.taken r).headChecks p) := hhead
  rw [firstErr_eq_none_iff]
  simp [Safety.pass_append, Safety.pass_cons, hfields, hhead', hlen, Nat.not_lt.2 hhi, Nat.not_lt.2 hlo]

include hwhole hops

theorem keyUpdate_busy (hku : s.blk.sec.ku.isSome = true) : keyUpdate r s.blk = (s.blk.taken r).refuseReq 0x901 r (err stBusy 1 0) := by
  have hfields := keyUpdate_fields_pass (r := r) hlo hhi hhead hlen hchecks
  have hku' : (s.blk.taken r).sec.ku.isSome = true := hku
  rw [keyUpdate, serve_whole hwhole]
  simp only [hops, hfields, hku', firstErr, if_true]

theorem runs_keyUpdate_busy (hku : s.blk.sec.ku.isSome = true) :
    Safety.runs (.keyUpdate r) s fun t => Safety.refuses s t r 0x901 0x30 0xFFFF 1 0 :=
  runs_onBlk rfl (keyUpdate_busy hwhole hlo hhi hhead hlen hops hchecks hku)
    (refuses_of_refuseReq rfl (s.blk.taken_resps r) 0x901 (e := err stBusy 1 0) (by decide))

variable (hku : s.blk.sec.ku = none) (hready : s.blk.keysReady = true)
  (hauth : Safety.pass (s.blk.authChecks p (s.blk.signer (leAt p 32 2) roleKeyUpdate)))
include hku hready hauth

/-- A key update whose signer is authentic turns on its counter and its digest: the same message again draws the stored receipt, the next
one is prepared, and any other is rejected (R413). -/
theorem keyUpdate_authentic :
    keyUpdate r s.blk =
      if leAt p 24 8 = s.blk.sec.kuCnt.toNat ∧ Config.sha3 p = s.blk.sec.kuDigest then
        (s.blk.taken r).respond 0x901 r stApplied (s.blk.taken r).ebn (s.blk.taken r).sec.receipt
      else if leAt p 24 8 = s.blk.sec.kuCnt.toNat + 1 then
        ((s.blk.taken r).onSec fun x => { x with ku := some ((s.blk.taken r).prepared r p l) }).respond 0x901 r stAccepted ebnUnknown []
      else (s.blk.taken r).rejectUpdate r (err stCounter 1 (s.blk.sec.kuCnt.toNat % 2 ^ 32)) := by
  have hfields := keyUpdate_fields_pass (r := r) hlo hhi hhead hlen hchecks
  have hsec : (s.blk.taken r).sec = s.blk.sec := rfl
  have hready' : (s.blk.taken r).keysReady = true := hready
  have hauth' : Safety.pass ((s.blk.taken r).authChecks p ((s.blk.taken r).signer (leAt p 32 2) roleKeyUpdate)) := hauth
  rw [keyUpdate, serve_whole hwhole]
  simp only [hops, hfields, hsec, hku, hready', firstErr_append_of_pass hauth', firstErr]
  by_cases hsame : leAt p 24 8 = s.blk.sec.kuCnt.toNat ∧ Config.sha3 p = s.blk.sec.kuDigest
  · simp [hsame]
  · by_cases hcnt : leAt p 24 8 = s.blk.sec.kuCnt.toNat + 1
    · simp only [decide_eq_false hsame, if_neg hsame, if_pos hcnt, decide_eq_false (not_not.2 hcnt)]
      rfl
    · simp only [decide_eq_false hsame, if_neg hsame, if_neg hcnt, decide_eq_true hcnt]
      rfl

omit hauth in
theorem runs_keyUpdate_ready :
    Safety.runs (.keyUpdate r) s fun t =>
      Safety.pass (s.blk.authChecks p (s.blk.signer (leAt p 32 2) roleKeyUpdate)) →
      (¬ Safety.sameUpdate s.blk p → leAt p 24 8 = s.blk.sec.kuCnt.toNat + 1 →
        (∃ k : KeyUpd, t.blk.sec.ku = some k ∧ k.digest = Config.sha3 p ∧ k.counter = BitVec.ofNat 63 (leAt p 24 8)) ∧ t.blk.sec = { s.blk.sec with ku := t.blk.sec.ku }
        ∧ Safety.answers s t r 0x901 1 0xFFFFFFFF [] ∧ t.blk = { s.blk with sec := t.blk.sec, mboxes := t.blk.mboxes } ∧ t.mem = s.mem)
      ∧ (Safety.sameUpdate s.blk p → Safety.answers s t r 0x901 0x52 s.blk.ebn s.blk.sec.receipt ∧ Safety.onlyAnswers s t) := by
  refine ⟨s.onBlk (keyUpdate r), rfl, fun hauth => ⟨fun hnew hcnt => ?_, fun hsame => ?_⟩⟩
  · have heq := (keyUpdate_authentic hwhole hlo hhi hhead hlen hops hchecks hku hready hauth).trans ((if_neg hnew).trans (if_pos hcnt))
    rw [Safety.answers, State.onBlk_blk, heq]
    exact ⟨⟨_, rfl, rfl, rfl⟩, rfl, Blk.respond_answers (a := (s.blk.taken r).onSec _) (b := s.blk) (r := r) rfl (s.blk.taken_resps r) .., rfl, rfl⟩
  · have heq := (keyUpdate_authentic hwhole hlo hhi hhead hlen hops hchecks hku hready hauth).trans (if_pos hsame)
    rw [Safety.answers, Safety.onlyAnswers, State.onBlk_blk, heq]
    exact ⟨Blk.respond_answers (a := s.blk.taken r) (b := s.blk) (r := r) rfl (s.blk.taken_resps r) .., rfl, rfl⟩

end

/-! ### KEY_UPDATE_COMMITTED (R415) -/

/-- The security unit once it has taken a prepared update: its slots, its epochs with their certificate, its counter, digest and receipt,
and the other half. -/
def Security.committed (x : Security) (k : KeyUpd) (receipt : List Byte) : Security :=
  { x with ku := none, kuCnt := k.counter, kuHalf := !x.kuHalf, kuDigest := k.digest, receipt := receipt, slots := k.slots,
           epochAtt := k.epochs.1, epochSeal := k.epochs.2,
           certAtt := if k.epochs = (x.epochAtt, x.epochSeal) then x.certAtt
             else Config.attestCert x.certId k.epochs.1 k.epochs.2 }

section
variable {k : KeyUpd}

/-- A commit is one change of the security unit, its record and its completion with the receipt; the counters that it writes and the
controlled ports leave the mailboxes and the records of the Husk. -/
theorem keyUpdateCommitted_eq {b : Blk} (hku : b.sec.ku = some k) (hunwraps : k.unwraps = true) :
    ∃ (a : Blk) (n : Word), a.sec = b.sec.committed k (b.makeReceipt k)
      ∧ a.mboxes = b.mboxes ∧ a.waiting srcHusk = b.waiting srcHusk
      ∧ keyUpdateCommitted b = (a.ev srcHusk 2 2 (arg32 k.counter.toNat)).complete k.due stOk n (b.makeReceipt k) := by
  have hmarks (a : Blk) (m : BitVec 64) : ((a.counterPut ctrKu1 m).counterPut ctrKu2 m).sec = a.sec
      ∧ ((a.counterPut ctrKu1 m).counterPut ctrKu2 m).mboxes = a.mboxes
      ∧ ((a.counterPut ctrKu1 m).counterPut ctrKu2 m).waiting srcHusk = a.waiting srcHusk :=
    ⟨by simp, by simp, (Blk.counterPut_waiting _ _ _ (by decide)).trans (Blk.counterPut_waiting _ _ _ (by decide))⟩
  unfold keyUpdateCommitted
  rw [hku]
  dsimp only
  rw [if_neg (by rw [hunwraps]; decide)]
  generalize BitVec.ofNat 64 (k.counter.toNat + b2n (!b.sec.kuHalf) * 2 ^ 63) = mark
  obtain ⟨hsec, hmboxes, hwaiting⟩ := hmarks (b.onSec fun x => { x with ku := none }) mark
  refine ⟨_, _, ?_, ?_, ?_, rfl⟩
  · rw [Blk.macsecRefresh_sec, Blk.onSec_sec, hsec, Blk.onSec_sec]
    rfl
  · rw [Blk.macsecRefresh_mboxes, Blk.onSec_mboxes, hmboxes, Blk.onSec_mboxes]
  · rw [Blk.macsecRefresh_waiting _ (by decide), Blk.onSec_waiting, hwaiting, Blk.onSec_waiting]

theorem runs_keyUpdateCommitted (k : KeyUpd) (s : State) (hku : s.blk.sec.ku = some k) :
    Safety.runs .keyUpdateCommitted s fun t =>
    (k.unwraps = true → t.blk.sec.ku = none ∧ t.blk.sec.slots = k.slots ∧ t.blk.sec.kuCnt = k.counter
      ∧ t.blk.sec.kuHalf = !s.blk.sec.kuHalf ∧ t.blk.sec.kuDigest = k.digest ∧ t.blk.sec.receipt = s.blk.makeReceipt k ∧ (t.blk.sec.epochAtt, t.blk.sec.epochSeal) = k.epochs
      ∧ t.blk.sec.lc = s.blk.sec.lc ∧ (Safety.room s.blk srcHusk → Safety.lastRecord t.blk = some (srcHusk, 2, 2, arg32 k.counter.toNat, hw))
      ∧ (t.blk.mboxes.get k.due.mb).notes.map (fun n => (n.opcode, n.client, n.status, n.payload)) =
          (s.blk.mboxes.get k.due.mb).notes.map (fun n => (n.opcode, n.client, n.status, n.payload)) ++ [(k.due.opcode + 0x40, k.due.client, 0, s.blk.makeReceipt k)]
      ∧ t.mem = s.mem)
    ∧ (k.unwraps = false → t.blk.sec = { s.blk.sec with ku := none }
      ∧ (t.blk.mboxes.get k.due.mb).notes.length = (s.blk.mboxes.get k.due.mb).notes.length + 1 ∧ t.mem = s.mem) := by
  refine ⟨s.onBlk keyUpdateCommitted, rfl, fun hunwraps => ?_, fun hunwraps => ?_⟩
  · obtain ⟨a, n, hsec, hmboxes, hwaiting, heq⟩ := keyUpdateCommitted_eq hku hunwraps
    obtain ⟨fl, hnotes⟩ := Blk.complete_notes (a.ev srcHusk 2 2 (arg32 k.counter.toNat)) k.due stOk n (s.blk.makeReceipt k)
    have hroom (h : Safety.room s.blk srcHusk) : Safety.room a srcHusk := by rw [Safety.room, hwaiting]; exact h
    simp only [State.onBlk_blk, heq, Blk.complete_sec, Blk.ev_sec, hsec, hnotes, Blk.ev_mboxes, hmboxes]
    refine ⟨rfl, rfl, rfl, rfl, rfl, rfl, rfl, rfl, fun h => ?_, ?_, rfl⟩
    · exact Blk.ev_last a srcHusk 2 2 (arg32 k.counter.toNat) hw false 0 (hroom h)
    · rw [List.map_append]
      rfl
  · have heq : keyUpdateCommitted s.blk = ((s.blk.onSec fun x => { x with ku := none }).ev srcHusk 3 2 (arg32 (stAuth + 65536))).completeErr
        k.due (err stAuth 1 0) := by
      rw [keyUpdateCommitted, hku]
      exact if_pos hunwraps
    rw [State.onBlk_blk, heq, Blk.completeErr_eq]
    dsimp only
    rw [Blk.complete_sec, Blk.ev_sec]
    refine ⟨rfl, ?_, rfl⟩
    obtain ⟨fl, hnotes⟩ := Blk.complete_notes ((s.blk.onSec fun x => { x with ku := none }).ev srcHusk 3 2 (arg32 (stAuth + 65536))) k.due
      (err stAuth 1 0).status _ _
    rw [hnotes, List.length_append, Blk.ev_mboxes]
    rfl

theorem runs_keyUpdateCommitted_none (s : State) (hku : s.blk.sec.ku = none) : Safety.runs .keyUpdateCommitted s fun t => t = s :=
  runs_onBlk rfl (by rw [keyUpdateCommitted, hku]) rfl

end

/-- Settles O52: the answer turns on the update that runs, the signature and the counter, and the commit on whether every key unwrapped. -/
theorem keyUpdatesCommitWhole : Obligations.KeyUpdatesCommitWhole :=
  ⟨fun _ _ _ _ hwhole hlo hhi hhead hlen hops hchecks =>
      ⟨runs_keyUpdate_busy hwhole hlo hhi hhead hlen hops hchecks, runs_keyUpdate_ready hwhole hlo hhi hhead hlen hops hchecks⟩,
    runs_keyUpdateCommitted, runs_keyUpdateCommitted_none⟩

end Sys2Proof.Machine
end

section
/-! SUPPORT. What the update service is made of (R433, R437, R441): bytes written as a read sees them, components and their slots, where
the slots lie, and the states of an update. -/

namespace Sys2Proof.Machine
open Sys2Proof

/-! ### Bytes written -/

/-- Written bytes of the writable memories read back. -/
theorem Mem.read_writeBytes_in {l : List Byte} : ∀ {m : Mem} {a j : Nat}, Mem.wf m = true → (∀ i, i < l.length → writable (a + i) = true) →
    j < l.length → Mem.read (Mem.writeBytes m a l) (a + j) = byteAt l j := by
  induction l with
  | nil => exact fun _ _ hj => absurd hj (Nat.not_lt_zero _)
  | cons v l ih =>
    intro m a j hwf hw hj
    have hhead : writable a = true := hw 0 (Nat.succ_pos _)
    rw [Mem.writeBytes, if_pos hhead]
    cases j with
    | zero => rw [Mem.read_writeBytes_out _ _ _ _ (by omega), Nat.add_zero, Mem.read_write_self _ _ hwf]; rfl
    | succ j =>
      have htail (i : Nat) (hi : i < l.length) : writable (a + 1 + i) = true := by
        rw [Nat.add_right_comm]
        exact hw (i + 1) (Nat.succ_lt_succ hi)
      rw [show a + (j + 1) = a + 1 + j by omega, ih (Mem.wf_write a v hwf) htail (Nat.lt_of_succ_lt_succ hj)]
      rfl

theorem byteAt_drop (l : List Byte) (n i : Nat) : byteAt (l.drop n) i = byteAt l (n + i) := by
  simp [byteAt, List.getD_eq_getElem?_getD]

/-! ### Components (R433, R437) -/

theorem Component.slot_setSlot_same (c : Component) (sb : Bool) (x : ImgSlot) : (c.setSlot sb x).slot sb = x := by cases sb <;> rfl

theorem Component.slot_setSlot_not (c : Component) (sb : Bool) (x : ImgSlot) : (c.setSlot (!sb) x).slot sb = c.slot sb := by
  cases sb <;> rfl

theorem Component.setSlot_runB (c : Component) (sb : Bool) (x : ImgSlot) : (c.setSlot sb x).runB = c.runB := by cases sb <;> rfl

theorem Blk.comp_congr {a b : Blk} (h : a.upd.comps = b.upd.comps) (i : Fin 13) : a.comp i = b.comp i := congrArg (·.get i) h

theorem Blk.modComp_comp_self (b : Blk) (i : Fin 13) (f : Component → Component) : (b.modComp i f).comp i = f (b.comp i) := vmod_get_self ..

theorem Blk.modComp_comp_ne (b : Blk) {i j : Fin 13} (f : Component → Component) (h : j ≠ i) : (b.modComp i f).comp j = b.comp j :=
  vmod_get_ne _ _ _ _ h.symm

/-! ### Where the slots lie (R433, R455) -/

theorem writable_slot {code a : Nat} {i : Fin 13} {sb : Bool} (h : compIdx code = some i) (hlo : slotBase code sb ≤ a)
    (hhi : a < slotBase code sb + (slotArea code).2) : writable a = true := by
  have hcode : code < 5 ∨ 0x10 ≤ code ∧ code < 0x18 := by
    unfold compIdx at h
    split at h
    · exact .inl ‹_›
    · split at h
      · exact .inr ‹_›
      · cases h
  have hbounds : 0x08000000 ≤ slotBase code sb ∧ slotBase code sb + (slotArea code).2 ≤ 0x0C800000 := by
    unfold slotBase slotArea
    rcases hcode with hcode | ⟨hge, hlt⟩
    · interval_cases code <;> cases sb <;> decide
    · interval_cases code <;> cases sb <;> decide
  simp only [writable, Bool.or_eq_true, Bool.and_eq_true, decide_eq_true_eq]
  omega

/-! ### States of an update (R240, R441) -/

section
variable (b : Blk) (st : UpdState)

/-- A change of the state touches the update service, and the mailboxes by its notification. -/
theorem Blk.updTo_eq : b.updTo st = { b with upd := { b.upd with state := st }, mboxes := (b.updTo st).mboxes } := by
  rw [Blk.updTo, Blk.notify_eq]
  rfl

@[simp] theorem Blk.updTo_upd : (b.updTo st).upd = { b.upd with state := st } := by rw [Blk.updTo_eq]

@[simp] theorem Blk.updTo_evs : (b.updTo st).evs = b.evs := by rw [Blk.updTo_eq]

end

end Sys2Proof.Machine
end

section
/-! SUPPORT. An update from its manifest to its check (R256, R435 to R441): UPD_BEGIN, UPD_DATA, UPD_FINISH and UPDATE_VERIFIED. -/

namespace Sys2Proof.Machine
open Sys2Proof

/-! ### UPD_BEGIN -/

/-- The block once an update begins to receive: the slot that does not run takes the manifest, and the update service starts over. -/
def Blk.updBegun (b : Blk) (i : Fin 13) (p : List Byte) : Blk :=
  ((b.modComp i fun c => c.setSlot (!(b.comp i).runB) (manifestSlot p .receiving)).onUpd fun u =>
    { u with comp := (byteAt p 2).toNat, received := 0, imgLen := leAt p 36 4, refusal := 0, due := none, target := none }).updTo .receiving

section
variable (b : Blk) (i : Fin 13) (p : List Byte)

theorem Blk.updBegun_comps : (b.updBegun i p).upd.comps = (b.modComp i fun c => c.setSlot (!(b.comp i).runB) (manifestSlot p .receiving)).upd.comps := by
  rw [Blk.updBegun, Blk.updTo_upd]
  rfl

theorem Blk.updBegun_upd : (b.updBegun i p).upd.state = .receiving ∧ (b.updBegun i p).upd.comp = (byteAt p 2).toNat
    ∧ (b.updBegun i p).upd.received = 0 ∧ (b.updBegun i p).upd.imgLen = leAt p 36 4 := by
  rw [Blk.updBegun, Blk.updTo_upd]
  exact ⟨rfl, rfl, rfl, rfl⟩

theorem Blk.updBegun_comp_self : (b.updBegun i p).comp i = (b.comp i).setSlot (!(b.comp i).runB) (manifestSlot p .receiving) :=
  (Blk.comp_congr (b.updBegun_comps i p) i).trans (Blk.modComp_comp_self ..)

theorem Blk.updBegun_comp_ne {j : Fin 13} (h : j ≠ i) : (b.updBegun i p).comp j = b.comp j :=
  (Blk.comp_congr (b.updBegun_comps i p) j).trans (Blk.modComp_comp_ne _ _ h)

end

section
variable {r : Req} {p : List Byte} {i : Fin 13} {s : State} (hwhole : Safety.wholeInParts cmdUpdBegin r s.blk p)
  (hcomp : compIdx (byteAt p 2).toNat = some i) (hmode : s.blk.rcc.mode = .service) (hfields : Safety.pass (s.blk.manifestFields p))
  (hi : i.val ≠ 4) (hbusy : s.blk.updBusy i = false) (hlock : s.blk.sec.ownerLock = false) (hsite : Safety.pass s.blk.siteChecks)
  (hroll : Safety.pass (s.blk.manifestRollback i p))
include hwhole hcomp hmode hfields hi hbusy hlock hsite hroll

/-- In SERVICE a manifest that passes every check begins its update, and the slot that does not run is erased. -/
theorem updBegin_eq (hauth : Safety.pass (s.blk.manifestAuth p)) :
    updBegin r s.blk =
      ((((s.blk.taken r).updBegun i p).ev (srcUpd (byteAt p 2).toNat) 1 1 (wordAt p 32)).ok 0xA01 r (slice p 36 4 ++ leBytes 4 4072),
        [.clear (slotBase (byteAt p 2).toNat (!(s.blk.comp i).runB)) (slotArea (byteAt p 2).toNat).2]) := by
  have hcode : (byteAt p 2).toNat ≠ 4 := by
    intro h
    rw [h] at hcomp
    obtain rfl : (4 : Fin 13) = i := Option.some.inj hcomp
    exact hi rfl
  have hmode' : (s.blk.taken r).rcc.mode = .service := hmode
  have hlock' : (s.blk.taken r).sec.ownerLock = false := hlock
  have hfields' : Safety.pass ((s.blk.taken r).manifestFields p) := hfields
  have hbusy' : (s.blk.taken r).updBusy i = false := hbusy
  have hallowed : Safety.pass ((s.blk.taken r).siteChecks ++ (s.blk.taken r).manifestAuth p ++ (s.blk.taken r).manifestRollback i p) :=
    Safety.pass_append.2 ⟨Safety.pass_append.2 ⟨hsite, hauth⟩, hroll⟩
  rw [updBegin, serveW_whole hwhole]
  simp only [hcomp, hmode', hlock', hbusy', hcode, firstErr_append_of_pass hfields', List.append_assoc, List.cons_append, List.nil_append,
    firstErr]
  simp only [ne_eq, reduceCtorEq, not_true_eq_false, false_and, and_false, decide_false, Bool.false_and, Bool.false_eq_true, if_false,
    ← List.append_assoc, (firstErr_eq_none_iff _).2 hallowed]
  rfl

theorem runs_updBegin :
    Safety.runs (.updBegin r) s fun t => Safety.pass (s.blk.manifestAuth p) → let n := (byteAt p 2).toNat
      let sb := !(s.blk.comp i).runB
      t.blk.upd.state = .receiving ∧ t.blk.upd.comp = n ∧ t.blk.upd.received = 0 ∧ t.blk.upd.imgLen = leAt p 36 4
      ∧ ((t.blk.comp i).slot sb).state = .receiving ∧ ((t.blk.comp i).slot sb).digest = BitVec.ofNat 512 (leAt p 40 64)
      ∧ (t.blk.comp i).slot (s.blk.comp i).runB = (s.blk.comp i).slot (s.blk.comp i).runB ∧ (t.blk.comp i).runB = (s.blk.comp i).runB ∧ Safety.otherComps s.blk t.blk i
      ∧ (∀ a : Nat, slotBase n sb ≤ a → a < slotBase n sb + (slotArea n).2 → Mem.read t.mem a = 0)
      ∧ (∀ a : Nat, (a < slotBase n sb ∨ slotBase n sb + (slotArea n).2 ≤ a) → Mem.read t.mem a = Mem.read s.mem a) := by
  refine ⟨s.onMem fun _ b => updBegin r b, rfl, fun hauth => ?_⟩
  dsimp only
  rw [State.onMem_blk, State.onMem_mem, updBegin_eq hwhole hcomp hmode hfields hi hbusy hlock hsite hroll hauth]
  have hupd (l : List Store) (x : List Byte) : (((((s.blk.taken r).updBegun i p).ev (srcUpd (byteAt p 2).toNat) 1 1 (wordAt p 32)).ok 0xA01 r
      x).heal l).upd = ((s.blk.taken r).updBegun i p).upd := by simp
  obtain ⟨hstate, hcode, hreceived, hlen⟩ := (s.blk.taken r).updBegun_upd i p
  simp only [hupd, hstate, hcode, hreceived, hlen, Blk.comp_congr (congrArg Update.comps (hupd _ _)), Blk.updBegun_comp_self]
  have hclear (a : Nat) := Mem.read_clear s.mem (slotBase (byteAt p 2).toNat (!(s.blk.comp i).runB)) (slotArea (byteAt p 2).toNat).2 a
  refine ⟨trivial, trivial, trivial, trivial, ?_, ?_, ?_, Component.setSlot_runB .., fun j hj => ?_, fun a hlo hhi => ?_, fun a hout => ?_⟩
  · exact congrArg ImgSlot.state (Component.slot_setSlot_same ..)
  · exact congrArg ImgSlot.digest (Component.slot_setSlot_same ..)
  · exact Component.slot_setSlot_not ..
  · exact (Blk.comp_congr (congrArg Update.comps (hupd _ _)) j).trans (Blk.updBegun_comp_ne _ _ _ hj)
  · refine (hclear a).trans (if_pos ?_)
    simp [clears, hlo, hhi, writable_slot hcomp hlo hhi]
  · refine (hclear a).trans (if_neg ?_)
    simp only [clears, Bool.and_eq_true, decide_eq_true_eq]
    omega

end

/-! ### UPD_DATA -/

section
variable {r : Req} {i : Fin 13} {s : State} (hacc : Safety.accepted cmdUpdData r s.blk)
include hacc

theorem updData_out_of_order (hoff : leAt (Safety.payload r) 0 4 ≠ s.blk.upd.received) :
    updData r s.blk = (s.blk.refuseReq 0xA02 r (errAt 0 stBadParam 2 s.blk.upd.received), []) := by
  rw [updData, serveW_pass hacc rfl rfl]
  simp [firstErr, hoff]

theorem runs_updData_out_of_order (hoff : leAt (Safety.payload r) 0 4 ≠ s.blk.upd.received) :
    Safety.runs (.updData r) s fun t => Safety.refuses s t r 0xA02 0x12 0 2 s.blk.upd.received := by
  refine runs_onMem rfl (updData_out_of_order hacc hoff) ?_
  rw [Blk.heal_nil]
  exact refuses_of_refuseReq rfl rfl 0xA02 (e := errAt 0 stBadParam 2 s.blk.upd.received) (by simp [errAt, stBadParam, stAuth])

variable (hst : s.blk.upd.state = .receiving) (hcomp : compIdx s.blk.upd.comp = some i)
  (hzero : nonZeroAt (Safety.payload r) 4 4 = none) (hoff : leAt (Safety.payload r) 0 4 = s.blk.upd.received)
  (hfits : s.blk.upd.received + ((Safety.payload r).length - 8) ≤ s.blk.upd.imgLen)
include hst hcomp hzero hoff hfits

/-- Bytes in order that the image has room for are stored behind those received. -/
theorem updData_eq :
    updData r s.blk =
      ((s.blk.onUpd fun u => { u with received := s.blk.upd.received + ((Safety.payload r).length - 8) }).ok 0xA02 r
          (leBytes 4 (s.blk.upd.received + ((Safety.payload r).length - 8))),
        [.put (slotBase s.blk.upd.comp (!(s.blk.comp i).runB) + s.blk.upd.received) ((Safety.payload r).drop 8)]) := by
  rw [updData, serveW_pass hacc rfl rfl]
  simp [firstErr, zeroErr_eq_nil hzero, hoff, hst, hcomp, Nat.not_lt.2 hfits]

theorem runs_updData_stores (hcanon : Safety.canonical s) (harea : s.blk.upd.imgLen ≤ (slotArea s.blk.upd.comp).2) :
    Safety.runs (.updData r) s fun t => let n := (Safety.payload r).length - 8
      let a := slotBase s.blk.upd.comp (!(s.blk.comp i).runB) + s.blk.upd.received
      t.blk.upd = { s.blk.upd with received := s.blk.upd.received + n } ∧ Safety.okays s t r 0xA02 (leBytes 4 (s.blk.upd.received + n))
      ∧ (∀ j : Nat, j < n → Mem.read t.mem (a + j) = byteAt (Safety.payload r) (8 + j))
      ∧ (∀ x : Nat, (x < a ∨ a + n ≤ x) → Mem.read t.mem x = Mem.read s.mem x) := by
  refine runs_onMem rfl (updData_eq hacc hst hcomp hzero hoff hfits) ⟨rfl, ?_, fun j hj => ?_, fun x hx => ?_⟩
  · exact Blk.respond_answers (a := s.blk.onUpd _) rfl rfl ..
  · refine (Mem.read_writeBytes_in hcanon (fun k hk => ?_) (by rw [List.length_drop]; exact hj)).trans (byteAt_drop ..)
    rw [List.length_drop] at hk
    exact writable_slot hcomp (sb := !(s.blk.comp i).runB) (by omega) (by omega)
  · refine Mem.read_writeBytes_out _ _ _ _ ?_
    rw [List.length_drop]
    omega

end

/-! ### UPD_FINISH -/

section
variable {r : Req} {s : State} (hacc : Safety.accepted cmdUpdFinish r s.blk) (hst : s.blk.upd.state = .receiving)
include hacc hst

theorem runs_updFinish_verifies (hall : s.blk.upd.imgLen ≤ s.blk.upd.received) :
    Safety.runs (.updFinish r) s fun t => t.blk.upd.state = .verifying ∧ t.blk.upd.due.isSome = true ∧ t.blk.upd.comps = s.blk.upd.comps
      ∧ t.blk = { s.blk with upd := t.blk.upd, mboxes := t.blk.mboxes } ∧ t.mem = s.mem := by
  have heq : updFinish r s.blk =
      ((s.blk.onUpd fun u => { u with due := some (reqDue r 0xA03) }).updTo .verifying).respond 0xA03 r stAccepted ebnUnknown [] := by
    rw [updFinish, serve_pass hacc rfl rfl]
    simp [firstErr, hst, Nat.not_lt.2 hall]
  refine runs_onBlk rfl heq ?_
  rw [Blk.updTo_eq]
  exact ⟨rfl, rfl, rfl, rfl, rfl⟩

theorem runs_updFinish_short (hshort : s.blk.upd.received < s.blk.upd.imgLen) :
    Safety.runs (.updFinish r) s fun t => Safety.refuses s t r 0xA03 0x12 0xFFFF 2 s.blk.upd.received := by
  have heq : updFinish r s.blk = s.blk.refuseReq 0xA03 r (err stBadParam 2 s.blk.upd.received) := by
    rw [updFinish, serve_pass hacc rfl rfl]
    simp [firstErr, hst, hshort]
  exact runs_onBlk rfl heq
    (refuses_of_refuseReq rfl rfl 0xA03 (e := err stBadParam 2 s.blk.upd.received) (by simp [err, stBadParam, stAuth]))

end

/-! ### UPDATE_VERIFIED -/

/-- The block once the check of an image has run, before its record and its completion. -/
def Blk.updChecked (b : Blk) (i : Fin 13) (good : Bool) : Blk :=
  ((b.modComp i fun c => c.modSlot (!(b.comp i).runB) fun x => { x with state := if good then .verified else .invalid }).onUpd fun u =>
    { u with due := none }).updTo (if good then .verified else .idle)

section
variable (b : Blk) (i : Fin 13) (good : Bool)

theorem Blk.updChecked_state : (b.updChecked i good).upd.state = if good then .verified else .idle := by
  rw [Blk.updChecked, Blk.updTo_upd]

theorem Blk.updChecked_comps : (b.updChecked i good).upd.comps =
    (b.modComp i fun c => c.modSlot (!(b.comp i).runB) fun x => { x with state := if good then .verified else .invalid }).upd.comps := by
  rw [Blk.updChecked, Blk.updTo_upd]
  rfl

theorem Blk.updChecked_slot :
    (((b.updChecked i good).comp i).slot (!(b.comp i).runB)).state = if good then .verified else .invalid := by
  rw [Blk.comp_congr (b.updChecked_comps i good), Blk.modComp_comp_self, Component.modSlot, Component.slot_setSlot_same]

theorem Blk.updChecked_comp_ne {j : Fin 13} (h : j ≠ i) : (b.updChecked i good).comp j = b.comp j :=
  (Blk.comp_congr (b.updChecked_comps i good) j).trans (Blk.modComp_comp_ne _ _ h)

theorem Blk.updChecked_evs : (b.updChecked i good).evs = b.evs := by
  rw [Blk.updChecked, Blk.updTo_evs]
  rfl

end

/-- The block after the check and its record. -/
def Blk.updRecorded (b : Blk) (i : Fin 13) (good : Bool) : Blk :=
  if good then (b.updChecked i good).ev (srcUpd b.upd.comp) 3 1 (arg32 b.upd.imgLen) else b.updChecked i good

theorem Blk.updRecorded_upd (b : Blk) (i : Fin 13) (good : Bool) : (b.updRecorded i good).upd = (b.updChecked i good).upd := by
  unfold Blk.updRecorded
  split
  · exact Blk.ev_upd ..
  · rfl

section
variable {b : Blk} {m : Mem} {i : Fin 13} (hst : b.upd.state = .verifying) (hcomp : compIdx b.upd.comp = some i)
include hst hcomp

/-- A check that has run is recorded where the image is good, and whoever waits for it is told. -/
theorem updateVerified_eq {good : Bool} (hgood : b.imageGood m b.upd.comp (!(b.comp i).runB) ((b.comp i).slot (!(b.comp i).runB)) = good) :
    updateVerified m b = match b.upd.due with
      | some d =>
        if good then (b.updRecorded i good).complete d stOk (b.updRecorded i good).ebn (b.updRecorded i good).updStatus
        else (b.updRecorded i good).completeErr d (err stAuth 1 0)
      | none => b.updRecorded i good := by
  unfold updateVerified
  simp only [hst, hcomp]
  rw [hgood]
  rfl

theorem updateVerified_upd {good : Bool}
    (hgood : b.imageGood m b.upd.comp (!(b.comp i).runB) ((b.comp i).slot (!(b.comp i).runB)) = good) :
    (updateVerified m b).upd = (b.updChecked i good).upd := by
  rw [updateVerified_eq hst hcomp hgood, ← Blk.updRecorded_upd]
  split
  · split
    · exact Blk.complete_upd ..
    · rw [Blk.completeErr_eq]; rfl
  · rfl

theorem updateVerified_evs (hgood : b.imageGood m b.upd.comp (!(b.comp i).runB) ((b.comp i).slot (!(b.comp i).runB)) = true) :
    (updateVerified m b).evs = ((b.updChecked i true).ev (srcUpd b.upd.comp) 3 1 (arg32 b.upd.imgLen)).evs := by
  rw [updateVerified_eq hst hcomp hgood]
  split
  · exact Blk.complete_evs ..
  · rfl

end

theorem runs_updateVerified (i : Fin 13) (s : State) (hst : s.blk.upd.state = .verifying) (hcomp : compIdx s.blk.upd.comp = some i) :
    let sb := !(s.blk.comp i).runB
    Safety.runs .updateVerified s fun t => Safety.otherComps s.blk t.blk i ∧ t.mem = s.mem
    ∧ (s.blk.imageGood s.mem s.blk.upd.comp sb ((s.blk.comp i).slot sb) = true → t.blk.upd.state = .verified
      ∧ ((t.blk.comp i).slot sb).state = .verified ∧ (Safety.room s.blk (srcUpd s.blk.upd.comp) →
        Safety.lastRecord t.blk = some (srcUpd s.blk.upd.comp, 3, 1, arg32 s.blk.upd.imgLen, hw)))
    ∧ (s.blk.imageGood s.mem s.blk.upd.comp sb ((s.blk.comp i).slot sb) = false → t.blk.upd.state = .idle ∧ ((t.blk.comp i).slot sb).state = .invalid) := by
  intro sb
  refine runs_onMem rfl rfl ?_
  rw [Blk.heal_nil]
  have hcomps (good : Bool) (hgood : s.blk.imageGood s.mem s.blk.upd.comp sb ((s.blk.comp i).slot sb) = good) (j : Fin 13) :
      (updateVerified s.mem s.blk).comp j = (s.blk.updChecked i good).comp j :=
    Blk.comp_congr (congrArg Update.comps (updateVerified_upd hst hcomp hgood)) j
  refine ⟨fun j hj => (hcomps _ rfl j).trans (Blk.updChecked_comp_ne _ _ _ hj), rfl, fun hgood => ⟨?_, ?_, fun hroom => ?_⟩, fun hbad => ⟨?_, ?_⟩⟩
  · exact (congrArg Update.state (updateVerified_upd hst hcomp hgood)).trans (Blk.updChecked_state ..)
  · dsimp only
    rw [hcomps _ hgood]
    exact Blk.updChecked_slot ..
  · exact (Safety.lastRecord_congr (updateVerified_evs hst hcomp hgood)).trans (Blk.ev_last_of_evs_eq (Blk.updChecked_evs ..) hroom ..)
  · exact (congrArg Update.state (updateVerified_upd hst hcomp hbad)).trans (Blk.updChecked_state ..)
  · dsimp only
    rw [hcomps _ hbad]
    exact Blk.updChecked_slot ..

end Sys2Proof.Machine
end

section
/-! SUPPORT. RECOVERY over P2 (R449): the frames that the ROM takes, and what a whole message does. -/

namespace Sys2Proof.Machine
open Sys2Proof

/-! ### A message of an engine leaves the other queues and the update service (R213) -/

theorem Blk.enqueue_upd (b : Blk) (q : Fin 256) (ws : List Word) : (b.enqueue q ws).upd = b.upd := by
  unfold Blk.enqueue
  rw [Blk.takeSeq_eq]
  dsimp only
  split
  · split <;> rfl
  · split <;> rfl
  · rfl

/-- An engine's message enters its queue, is counted as lost there, or meets a queue that is not enabled. -/
theorem Blk.engineWrite_spec (b : Blk) (q : Fin 256) (ws : List Word) :
    (b.engineWrite q ws).upd = b.upd ∧ Safety.otherQueues b (b.engineWrite q ws) q := by
  unfold Blk.engineWrite
  dsimp only
  split
  · exact ⟨rfl, fun _ _ => rfl⟩
  split
  · exact ⟨rfl, (Blk.QueuePut.modQ b q _).others⟩
  split
  · exact ⟨rfl, ((Blk.QueuePut.modQ b q fun x => { x with drops := satAdd x.drops 1 0xFFFFFFFF }).then_modQ _).others⟩
  · exact ⟨Blk.enqueue_upd .., (Blk.enqueue_put b q _).1.others⟩

/-! ### RECOVERY_FRAME -/

/-- The block with the segments of a message taken in. -/
def Blk.segmentTaken (b : Blk) (a : BitVec 48) (num : Word) (count : Nat) (segs : List (Nat × List Byte)) : Blk :=
  b.onUpd fun u => { u with recHost := some a, recMsg := some (num, count), recSegs := segs }

/-- The block after the last segment of a message: no message is under way. -/
def Blk.messageTaken (b : Blk) (a : BitVec 48) : Blk := b.onUpd fun u => { u with recHost := some a, recMsg := none, recSegs := [] }

/-- The segments of a message that stand once a frame has come: those of the same message before it, and its own. -/
def Blk.segmentsNow (b : Blk) (l : List Byte) : List (Nat × List Byte) :=
  setKey (if b.upd.recMsg = some (wordAt l 4, (byteAt l 2).toNat) then b.upd.recSegs else []) (byteAt l 1).toNat (l.drop 8)

section
variable {a : BitVec 48} {l : List Byte} {b : Blk} (hmode : b.rcc.mode = .recovery) (hboot : b.rcc.bootSel = 1) (hmin : 8 ≤ l.length)
  (hmax : l.length ≤ 1408) (htype : byteAt l 0 = 0x20) (hzero : byteAt l 3 = 0) (hhost : b.upd.recHost = none ∨ b.upd.recHost = some a)
  (hidx : (byteAt l 1).toNat < (byteAt l 2).toNat)
include hmode hboot hmin hmax htype hzero hhost hidx

/-- A valid frame of the host is taken in: its message waits for more segments, goes to MB10, or draws the last responses again. -/
theorem recoveryFrame_taken :
    ((b.segmentsNow l).length < (byteAt l 2).toNat →
      recoveryFrame a l b = b.segmentTaken a (wordAt l 4) (byteAt l 2).toNat (b.segmentsNow l))
    ∧ ((byteAt l 2).toNat ≤ (b.segmentsNow l).length → b.upd.recLast = none → recoveryFrame a l b =
      ((b.messageTaken a).onUpd fun u => { u with recLast := some (wordAt l 4, []) }).engineWrite (mbQueue 10 0)
        (wordsOf 1025 ((List.range (byteAt l 2).toNat).flatMap fun j => (findKey (b.segmentsNow l) j).getD [])))
    ∧ ((byteAt l 2).toNat ≤ (b.segmentsNow l).length → ∀ m : List (List Byte), b.upd.recLast = some (wordAt l 4, m) → recoveryFrame a l b =
      (b.messageTaken a).onSec fun x => { x with sent := m.flatMap ((b.messageTaken a).romFrames (wordAt l 4)) }) := by
  unfold recoveryFrame
  dsimp only
  rw [if_neg]
  · refine ⟨fun hmore => if_pos hmore, fun hall hlast => (if_neg (Nat.not_lt.2 hall)).trans ?_,
      fun hall m hlast => (if_neg (Nat.not_lt.2 hall)).trans ?_⟩
    · rw [hlast]
      rfl
    · rw [hlast]
      exact if_pos rfl
  · rcases hhost with h | h <;> simp [hmode, hboot, htype, hzero, h, Nat.not_lt.2 hmin, Nat.not_lt.2 hmax, Nat.not_le.2 hidx]

end

theorem recoveryFrame_ignored {a b : BitVec 48} {l : List Byte} {s : State}
    (h : s.blk.rcc.mode ≠ .recovery ∨ (s.blk.upd.recHost = some b ∧ b ≠ a)) : recoveryFrame a l s.blk = s.blk := by
  refine if_pos ?_
  rcases h with hmode | ⟨hhost, hne⟩
  · exact .inl hmode
  · simp [hhost, hne]

section
variable {a : BitVec 48} {l : List Byte} {s : State} (hmode : s.blk.rcc.mode = .recovery) (hboot : s.blk.rcc.bootSel = 1)
  (hmin : 8 ≤ l.length) (hmax : l.length ≤ 1408) (htype : byteAt l 0 = 0x20) (hzero : byteAt l 3 = 0)
  (hhost : s.blk.upd.recHost = none ∨ s.blk.upd.recHost = some a) (hidx : byteAt l 1 = 0)
include hmode hboot hmin hmax htype hzero hhost hidx

theorem runs_recoveryFrame_new (hcount : byteAt l 2 = 1) (hlast : s.blk.upd.recLast = none) :
    Safety.runs (.recoveryFrame a l) s fun t => t.blk.upd.recHost = some a
      ∧ t.blk.upd.recLast = some (wordAt l 4, []) ∧ t.blk.upd.recMsg = none ∧ t.blk.upd.comps = s.blk.upd.comps
      ∧ (∀ q : Fin 256, q ≠ mbQueue 10 0 → t.blk.queues.get q = s.blk.queues.get q) ∧ t.mem = s.mem := by
  have hall : (byteAt l 2).toNat ≤ (s.blk.segmentsNow l).length := by rw [hcount]; exact Nat.succ_pos _
  obtain ⟨-, hnew, -⟩ := recoveryFrame_taken hmode hboot hmin hmax htype hzero hhost (by rw [hidx, hcount]; decide)
  obtain ⟨hupd, hothers⟩ := Blk.engineWrite_spec ((s.blk.messageTaken a).onUpd fun u => { u with recLast := some (wordAt l 4, []) })
    (mbQueue 10 0) (wordsOf 1025 ((List.range (byteAt l 2).toNat).flatMap fun j => (findKey (s.blk.segmentsNow l) j).getD []))
  refine runs_onBlk rfl (hnew hall hlast) ?_
  dsimp only
  rw [hupd]
  exact ⟨rfl, rfl, rfl, rfl, hothers, rfl⟩

theorem runs_recoveryFrame_repeated (m : List (List Byte)) (hcount : byteAt l 2 = 1) (hlast : s.blk.upd.recLast = some (wordAt l 4, m)) :
    Safety.runs (.recoveryFrame a l) s fun t =>
      t.blk.upd.recHost = some a ∧ t.blk.queues = s.blk.queues ∧ t.blk.sec.sent = m.flatMap (t.blk.romFrames (wordAt l 4)) ∧ t.mem = s.mem := by
  have hall : (byteAt l 2).toNat ≤ (s.blk.segmentsNow l).length := by rw [hcount]; exact Nat.succ_pos _
  obtain ⟨-, -, hrepeated⟩ := recoveryFrame_taken hmode hboot hmin hmax htype hzero hhost (by rw [hidx, hcount]; decide)
  exact runs_onBlk rfl (hrepeated hall m hlast) ⟨rfl, rfl, rfl, rfl⟩

theorem runs_recoveryFrame_first_of_two (hcount : byteAt l 2 = 2) (hnone : s.blk.upd.recMsg = none) :
    Safety.runs (.recoveryFrame a l) s fun t => t.blk.upd.recMsg = some (wordAt l 4, 2)
      ∧ t.blk.upd.recSegs = [(0, l.drop 8)] ∧ t.blk.queues = s.blk.queues ∧ t.mem = s.mem := by
  have hsegs : s.blk.segmentsNow l = [(0, l.drop 8)] := by simp [Blk.segmentsNow, setKey, hnone, hidx]
  obtain ⟨hmore, -, -⟩ := recoveryFrame_taken hmode hboot hmin hmax htype hzero hhost (by rw [hidx, hcount]; decide)
  rw [hsegs, hcount] at hmore
  exact runs_onBlk rfl (hmore Nat.one_lt_two) ⟨rfl, rfl, rfl, rfl⟩

end

/-- Settles O56: an update begins, receives, ends and is checked, and the ROM takes the frames of its host. -/
theorem updatesAreReceivedAndChecked : Obligations.UpdatesAreReceivedAndChecked :=
  ⟨fun _ _ _ _ hwhole hcomp hmode hfields hi hbusy hlock hsite hroll =>
      runs_updBegin hwhole hcomp hmode hfields hi hbusy hlock hsite hroll,
    fun _ _ _ hcanon hacc hst hcomp hzero =>
      ⟨fun hoff _ hfits harea => runs_updData_stores hacc hst hcomp hzero hoff hfits hcanon harea, runs_updData_out_of_order hacc⟩,
    fun _ _ hacc hst => ⟨runs_updFinish_verifies hacc hst, runs_updFinish_short hacc hst⟩,
    runs_updateVerified,
    fun _ _ _ hmode hboot hmin hmax htype hzero hhost =>
      ⟨fun hidx hcount hlast => runs_recoveryFrame_new hmode hboot hmin hmax htype hzero hhost hidx hcount hlast,
        fun m hidx hcount hlast => runs_recoveryFrame_repeated hmode hboot hmin hmax htype hzero hhost hidx m hcount hlast,
        fun hidx hcount hnone => runs_recoveryFrame_first_of_two hmode hboot hmin hmax htype hzero hhost hidx hcount hnone⟩,
    fun _ _ _ _ h => runs_onBlk rfl (recoveryFrame_ignored h) rfl,
    fun _ => runs_onBlk rfl rfl ⟨rfl, rfl⟩⟩

end Sys2Proof.Machine
end

section
/-! SUPPORT. What the parts of a start leave alone: the mode and its cause, what LOCKDOWN at the end of a start is judged by (R392), and
whether the breath and the switch run. -/

namespace Sys2Proof.Machine
open Sys2Proof

/-- The mode and its cause (R389), the flags that a start judges LOCKDOWN by (R392), and what runs. -/
structure StartView where
  mode : Mode
  cause : Nat
  lockFlag : Bool
  bootTamper : Nat
  breathing : Bool
  switching : Bool

def Blk.startView (b : Blk) : StartView :=
  { mode := b.rcc.mode, cause := b.rcc.modeCause, lockFlag := b.rcc.lockFlag, bootTamper := b.rcc.bootTamper,
    breathing := b.breath.running, switching := b.sw.running }

theorem Blk.startView_congr {a b : Blk} (hrcc : a.rcc = b.rcc) (hbreath : a.breath = b.breath) (hsw : a.sw = b.sw) :
    a.startView = b.startView := by
  rw [Blk.startView, hrcc, hbreath, hsw]
  rfl

/-! ### Single units and records -/

section
variable (b : Blk)

@[simp] theorem Blk.onEvs_startView (f : Evs → Evs) : (b.onEvs f).startView = b.startView := rfl
@[simp] theorem Blk.onTb_startView (f : TimeBase → TimeBase) : (b.onTb f).startView = b.startView := rfl
@[simp] theorem Blk.onSec_startView (f : Security → Security) : (b.onSec f).startView = b.startView := rfl
@[simp] theorem Blk.onDr_startView (f : DoubleReed → DoubleReed) : (b.onDr f).startView = b.startView := rfl
@[simp] theorem Blk.onNvm_startView (f : Nvm → Nvm) : (b.onNvm f).startView = b.startView := rfl
@[simp] theorem Blk.onUpd_startView (f : Update → Update) : (b.onUpd f).startView = b.startView := rfl
@[simp] theorem Blk.onCfg_startView (f : CfgSvc → CfgSvc) : (b.onCfg f).startView = b.startView := rfl
@[simp] theorem Blk.modK_startView (k : Fin 4) (f : Kernel → Kernel) : (b.modK k f).startView = b.startView := rfl
@[simp] theorem Blk.modQ_startView (q : Fin 256) (f : Queue → Queue) : (b.modQ q f).startView = b.startView := rfl
@[simp] theorem Blk.modT_startView (t : Fin 8) (f : Tenant → Tenant) : (b.modT t f).startView = b.startView := rfl
@[simp] theorem Blk.modCan_startView (c : Fin 6) (f : Can → Can) : (b.modCan c f).startView = b.startView := rfl
@[simp] theorem Blk.modNm_startView (c : Fin 6) (f : Nm → Nm) : (b.modNm c f).startView = b.startView := rfl
@[simp] theorem Blk.modPort_startView (p : Fin 13) (f : Port → Port) : (b.modPort p f).startView = b.startView := rfl
@[simp] theorem Blk.modSlot_startView (n : Fin 10) (f : InitSlot → InitSlot) : (b.modSlot n f).startView = b.startView := rfl
@[simp] theorem Blk.modComp_startView (i : Fin 13) (f : Component → Component) : (b.modComp i f).startView = b.startView := rfl
@[simp] theorem Blk.complete_startView (d : Due) (st : Nat) (n : Word) (p : List Byte) : (b.complete d st n p).startView = b.startView := rfl
@[simp] theorem Blk.wakeOutNow_startView : b.wakeOutNow.startView = b.startView := rfl
@[simp] theorem Blk.wakePulse_startView : b.wakePulse.startView = b.startView := rfl
@[simp] theorem Blk.canStart_startView : b.canStart.startView = b.startView := rfl
@[simp] theorem Blk.journalTenantSlots_startView : b.journalTenantSlots.startView = b.startView := by
  rw [Blk.journalTenantSlots, Blk.onNvm_startView]

@[simp] theorem Blk.ev_startView (src : BitVec 16) (code sev : Nat) (arg : Word) (tn : Byte) (pin : Bool) (fl : Nat) :
    (b.ev src code sev arg tn pin fl).startView = b.startView :=
  Blk.startView_congr (Blk.ev_rcc ..) (Blk.ev_breath ..) (Blk.ev_sw ..)

@[simp] theorem Blk.pev_startView (p : Fin 13) (code sev arg : Nat) (who : Byte) (pin : Bool) :
    (b.pev p code sev arg who pin).startView = b.startView := Blk.ev_startView ..

@[simp] theorem Blk.nmev_startView (c : Fin 6) (code sev arg : Nat) (pin : Bool) :
    (b.nmev c code sev arg pin).startView = b.startView := Blk.ev_startView ..

@[simp] theorem Blk.kev_startView (k : Fin 4) (src : BitVec 16) (code sev : Nat) (arg : Word) (tn : Byte) (pin : Bool) (fl : Nat) :
    (b.kev k src code sev arg tn pin fl).startView = b.startView := rfl

@[simp] theorem Blk.updTo_startView (st : UpdState) : (b.updTo st).startView = b.startView := by
  rw [Blk.updTo_eq]
  rfl

/-! ### The switch, the controllers and network management -/

@[simp] theorem Blk.gateIdle_startView (p : Fin 13) : (b.gateIdle p).startView = b.startView := rfl

@[simp] theorem Blk.gatesIdle_startView : b.gatesIdle.startView = b.startView :=
  foldl_keep Blk.startView _ (fun a _ => a.gateIdle_startView _) _ b

@[simp] theorem Blk.macsecRefresh_startView : b.macsecRefresh.startView = b.startView :=
  Blk.macsecRefresh_keep Blk.startView (fun _ _ _ => rfl) (fun _ _ => Blk.pev_startView ..) b

@[simp] theorem Blk.freeCopy_startView (ref : Nat) : (b.freeCopy ref).startView = b.startView := by
  unfold Blk.freeCopy
  split
  · rfl
  · dsimp only
    split <;> rfl

@[simp] theorem Blk.dropLink_startView (p : Fin 13) : (b.dropLink p).startView = b.startView := by
  unfold Blk.dropLink
  dsimp only
  rw [Blk.pev_startView]
  exact foldl_keep Blk.startView _ (fun a _ => a.freeCopy_startView _) _ _

@[simp] theorem Blk.portConfigure_startView (p : Fin 13) (g : PortCfg) : (b.portConfigure p g).startView = b.startView := by
  simp [Blk.portConfigure, apply_ite Blk.startView]

@[simp] theorem Blk.switchConfigure_startView (g : SwitchCfg) : (b.switchConfigure g).startView = b.startView := rfl

@[simp] theorem Blk.nmKeepAlive_startView (c : Fin 6) (cause : Nat) : (b.nmKeepAlive c cause).startView = b.startView := by
  simp [Blk.nmKeepAlive]

@[simp] theorem Blk.nmForming_startView (c : Fin 6) (kind : Option Nat) : (b.nmForming c kind).startView = b.startView := by
  cases kind <;> simp [Blk.nmForming, apply_ite Blk.startView]

@[simp] theorem Blk.busWake_startView (c : Fin 6) (cause : WakeCause) (ident : BitVec 30) :
    (b.busWake c cause ident).startView = b.startView := by
  unfold Blk.busWake
  simp [apply_ite Blk.startView]

@[simp] theorem Blk.nmOwnWake_startView (c : Fin 6) (cause : WakeCause) : (b.nmOwnWake c cause).startView = b.startView := by
  unfold Blk.nmOwnWake
  dsimp only
  split
  case h_1 | h_2 => exact Blk.busWake_startView ..
  case h_3 | h_4 | h_5 => split <;> rfl
  case h_6 => rfl

@[simp] theorem Blk.nmConfigure_startView (c : Fin 6) (cfg : Word × Word × Word × Word × List (List Word)) :
    (b.nmConfigure c cfg).startView = b.startView := by
  simp [Blk.nmConfigure, apply_ite Blk.startView]

@[simp] theorem Blk.canConfigure_startView (c : Fin 6) (g : CanCfg) : (b.canConfigure c g).startView = b.startView := by
  simp [Blk.canConfigure]

@[simp] theorem Blk.nmStart_startView (powerOn : Bool) : (b.nmStart powerOn).startView = b.startView :=
  foldl_keep Blk.startView _ (fun a c => by simp [apply_ite Blk.startView]) _ b

@[simp] theorem Blk.localWakeNow_startView : b.localWakeNow.startView = b.startView := by
  unfold Blk.localWakeNow
  rw [Blk.wakePulse_startView]
  exact (foldl_keep Blk.startView _ (fun a c => by simp [apply_ite Blk.startView]) _ _).trans (Blk.ev_startView ..)

end

end Sys2Proof.Machine
end

section
/-! SUPPORT. The parts of a start (R271, R390, R437, R438, R442, R443): components and their trials, the image's shell part, migration. -/

namespace Sys2Proof.Machine
open Sys2Proof

/-! ### Components (R437, R442, R443) -/

section
variable (b : Blk)

@[simp] theorem Blk.followSlot_startView (i : Fin 13) : (b.followSlot i).startView = b.startView := by
  simp [Blk.followSlot, Blk.journalSlot, apply_ite Blk.startView]

@[simp] theorem Blk.dropMigration_startView : b.dropMigration.startView = b.startView := by
  unfold Blk.dropMigration
  split
  · rfl
  · dsimp only
    rw [foldl_keep Blk.startView, Blk.onUpd_startView, Blk.onNvm_startView]
    · exact Blk.startView_congr rfl rfl rfl
    · intro a k
      split
      · simp [apply_ite Blk.startView]
      · rfl

@[simp] theorem Blk.revertComp_startView (i : Fin 13) : (b.revertComp i).startView = b.startView := by
  simp [Blk.revertComp, apply_ite Blk.startView]

/-- The fault pin follows a trial (R398). -/
@[simp] theorem Blk.onRcc_gpioFault_startView (f : Rcc → Word) : (b.onRcc fun r => { r with gpioFault := f r }).startView = b.startView := rfl

@[simp] theorem Blk.trialFail_startView (i : Fin 13) (why : Nat) : (b.trialFail i why).startView = b.startView := by
  unfold Blk.trialFail
  dsimp only
  split
  · simp
  · split <;> simp [Blk.resetForRevert]

@[simp] theorem Blk.trialStart_startView (i : Fin 13) : (b.trialStart i).startView = b.startView := by
  simp [Blk.trialStart, apply_ite Blk.startView]

@[simp] theorem Blk.activate_startView (i : Fin 13) (slotB : Bool) : (b.activate i slotB).startView = b.startView := by
  simp [Blk.activate]

@[simp] theorem Blk.activationDone_startView (i : Fin 13) : (b.activationDone i).startView = b.startView := by
  unfold Blk.activationDone
  split
  · rfl
  · dsimp only
    split <;> simp

theorem Blk.activateDue_startView {i : Fin 13} (hi : i ≠ 1) : (b.activateDue i).startView = b.startView := by
  have hval : i.val ≠ 1 := fun h => hi (Fin.ext h)
  simp [Blk.activateDue, hval, apply_ite Blk.startView]

@[simp] theorem Blk.startComponents_startView : b.startComponents.startView = b.startView := by
  refine foldl_keep_of_mem Blk.startView _ _ b fun i hi a => ?_
  have hne : i ≠ 1 := by rintro rfl; simp at hi
  split
  · exact a.revertComp_startView i
  · split
    · exact a.activateDue_startView hne
    · simp [apply_ite Blk.startView]

/-! ### What a start picks (R271, R438) -/

theorem Blk.pickChanter_startView {b t : Blk} {m : Mem} {f : Bool} (h : b.pickChanter m f = some t) : t.startView = b.startView := by
  unfold Blk.pickChanter at h
  dsimp only at h
  split at h
  · cases h; rfl
  · split at h
    · cases h; simp
    · cases h

theorem Blk.pickConfig_startView {b t : Blk} {m : Mem} {im : Image} (h : b.pickConfig m = some (t, im)) : t.startView = b.startView := by
  unfold Blk.pickConfig at h
  dsimp only at h
  split at h
  · cases h; rfl
  · split at h
    · cases h
    · cases h
      simp [apply_ite Blk.startView]

@[simp] theorem Blk.pickOther_startView (m : Mem) (i : Fin 13) : (b.pickOther m i).startView = b.startView := by
  simp [Blk.pickOther, apply_ite Blk.startView]

/-! ### The image's shell part (R268, R270) -/

@[simp] theorem Blk.flushQueue_startView (q : Fin 256) : (b.flushQueue q).startView = b.startView := by
  simp [Blk.flushQueue, apply_ite Blk.startView]

@[simp] theorem Blk.queuesConfigure_startView (im : Image) : (b.queuesConfigure im).startView = b.startView :=
  foldl_keep Blk.startView _ (fun a q => by simp [Blk.queueConfigure, apply_ite Blk.startView]) _ b

@[simp] theorem Blk.viewsConfigure_startView (im : Image) : (b.viewsConfigure im).startView = b.startView :=
  foldl_keep Blk.startView _ (fun a _ => a.onEvs_startView _) _ b

/-- At a start no tenant has run yet: its record is taken over, and nothing is shut or begun (R270). -/
@[simp] theorem Blk.tenantConfigure_startView (t : Fin 8) (g : TenantCfg) : (b.tenantConfigure t g true).startView = b.startView := rfl

@[simp] theorem Blk.safetyConfigure_startView (g : SafetyCfg) : (b.safetyConfigure g true).startView = b.startView := rfl

@[simp] theorem Blk.timeConfigure_startView (w : List Word) : (b.timeConfigure w).startView = b.startView := rfl

/-- The image sets lengths and limits of the breath; it neither starts nor stops it. -/
theorem Blk.onBre_startView {f : Breath → Breath} (h : (f b.breath).running = b.breath.running) :
    (b.onBre f).startView = b.startView := by
  simp [Blk.startView, h]

@[simp] theorem Blk.networksConfigure_startView (old : Option Image) (im : Image) :
    (b.networksConfigure old im).startView = b.startView := by
  unfold Blk.networksConfigure
  dsimp only
  rw [Blk.wakeOutNow_startView]
  refine (apply_ite Blk.startView ..).trans ?_
  rw [Blk.switchConfigure_startView, ite_self, foldl_keep Blk.startView, foldl_keep Blk.startView]
  · exact fun a c => by simp [apply_ite Blk.startView]
  · exact fun a p => by simp [apply_ite Blk.startView]

@[simp] theorem Blk.shellPart_startView (old : Option Image) (im : Image) : (b.shellPart old im true).startView = b.startView := by
  unfold Blk.shellPart
  dsimp only
  rw [Blk.onCfg_startView, Blk.networksConfigure_startView, Blk.onEvs_startView, Blk.timeConfigure_startView,
    forAll_keep Blk.startView _ (fun a n => a.modSlot_startView n _), Blk.safetyConfigure_startView,
    foldl_keep Blk.startView _ (fun a t => a.tenantConfigure_startView t _), Blk.viewsConfigure_startView,
    Blk.queuesConfigure_startView]
  exact b.onBre_startView rfl

@[simp] theorem Blk.migrate_startView : b.migrate.startView = b.startView := by
  unfold Blk.migrate
  dsimp only
  split
  · rfl
  · rw [Blk.updTo_startView, Blk.onNvm_startView, Blk.ev_startView, Blk.onNvm_startView, Blk.updTo_startView, Blk.onUpd_startView]

end

@[simp] theorem Blk.switchStart_startView (b : Blk) : b.switchStart.startView = { b.startView with switching := true } :=
  Blk.gatesIdle_startView _

/-- The image that a start applies runs the switch, and leaves the rest of the view (R390). -/
theorem Blk.startWith_startView (m : Mem) (b : Blk) (im : Image) :
    (b.startWith m im).startView = { b.startView with switching := true } := by
  unfold Blk.startWith
  dsimp only
  rw [Blk.switchStart_startView, Blk.nmStart_startView, Blk.canStart_startView, Blk.migrate_startView, Blk.onCfg_startView,
    forAll_keep Blk.startView _ (fun a k => a.modK_startView k _), Blk.pickOther_startView, Blk.pickOther_startView,
    Blk.shellPart_startView]

end Sys2Proof.Machine
end

section
/-! SUPPORT. The end of a start (R271, R381, R389, R390, R392, R447): RECOVERY by strap or for want of an image, RUN with an image that
passes; and the failures of the partition monitor that lead to LIMP (R390, R391). -/

namespace Sys2Proof.Machine
open Sys2Proof

/-! ### A change of mode (R389) -/

section
variable (b : Blk)

/-- A change of mode sets the mode and its cause. -/
@[simp] theorem Blk.noteMode_startView (new : Mode) (cause : Nat) :
    (b.noteMode new cause).startView = { b.startView with mode := new, cause := cause } := by
  simp [Blk.noteMode, Blk.startView]

@[simp] theorem Blk.noteMode_upd (new : Mode) (cause : Nat) : (b.noteMode new cause).upd = b.upd := by
  simp [Blk.noteMode]

@[simp] theorem Blk.gatesIdle_upd : b.gatesIdle.upd = b.upd := foldl_keep (·.upd) _ (fun _ _ => by rfl) _ b

/-! ### Entry into RECOVERY (R390, R447, R449) -/

@[simp] theorem Blk.romServes_startView (mbs : List (Fin 12)) : (b.romServes mbs).startView = b.startView :=
  foldl_keep Blk.startView _ (fun a _ => foldl_keep Blk.startView _ (fun c _ => c.modQ_startView _ _) _ a) mbs b

@[simp] theorem Blk.romServes_upd (mbs : List (Fin 12)) : (b.romServes mbs).upd = b.upd :=
  foldl_keep (·.upd) _ (fun a _ => by exact foldl_keep (fun t : Blk => t.upd) _ (fun _ _ => by rfl) _ a) mbs b

/-- Fallback at a change of mode is the channels' and their kernels' alone. -/
theorem Blk.modeFallback_frame (which : Initiator → Bool) :
    Blk.Frame Set.univ Channel.counted Kernel.unlogged b (b.modeFallback which) :=
  .foldl _ _ b fun k _ a => by
    split
    · exact (a.fallback_frame ..).weaken (Set.subset_univ _) id id
    · exact .refl ..

@[simp] theorem Blk.modeFallback_startView (which : Initiator → Bool) : (b.modeFallback which).startView = b.startView := by
  rw [(b.modeFallback_frame which).blk]
  exact Blk.startView_congr rfl rfl rfl

@[simp] theorem Blk.modeFallback_upd (which : Initiator → Bool) : (b.modeFallback which).upd = b.upd := by
  rw [(b.modeFallback_frame which).blk]

end

section
variable {b : Blk} (hboot : b.rcc.mode = .boot)
include hboot

theorem Blk.enterMode_recovery_of_boot (m : Mem) (cause : Nat) :
    b.enterMode m .recovery cause none = (((b.noteMode .recovery cause).modeFallback fun _ => true).gatesIdle, []) := by
  simp [Blk.enterMode, hboot, BW.map]

theorem Blk.enterMode_run_of_boot (m : Mem) (cause : Nat) :
    b.enterMode m .run cause none = ((b.noteMode .run cause).startPrograms m).map Blk.gatesIdle := by
  simp [Blk.enterMode, hboot, BW.map]

/-- RECOVERY sets the mode and its cause; no component changes. -/
theorem Blk.enterRecovery_spec (m : Mem) (cause arg : Nat) (mbs : List (Fin 12)) :
    (b.enterRecovery m cause arg mbs).1.startView = { b.startView with mode := .recovery, cause := cause }
    ∧ (b.enterRecovery m cause arg mbs).1.upd = b.upd := by
  have hmode : ((b.romServes mbs).ev (srcUpd 0) 0xC 3 (arg32 arg)).rcc.mode = .boot := by
    have hview : ((b.romServes mbs).ev (srcUpd 0) 0xC 3 (arg32 arg)).startView = b.startView := by simp
    exact (congrArg StartView.mode hview).trans hboot
  rw [Blk.enterRecovery, Blk.enterMode_recovery_of_boot hmode]
  simp

end

/-! ### Entry into RUN (R355, R390, R405) -/

section
variable (b : Blk)

@[simp] theorem Blk.huskTo_startView (h : HuskState) : (b.huskTo h).startView = b.startView := by
  rw [Blk.huskTo, Blk.macsecRefresh_startView, Blk.onSec_startView]

@[simp] theorem Blk.unseal_startView : b.unseal.startView = b.startView := by
  simp [Blk.unseal]

@[simp] theorem Blk.startBreath_startView (mode : Mode) : (b.startBreath mode).startView = { b.startView with breathing := true } := by
  unfold Blk.startBreath
  split
  next hrun => simp [Blk.startView, hrun]
  next => rw [Blk.ev_startView]; rfl

@[simp] theorem Blk.startAuto_startView : b.startAuto.startView = b.startView := by
  refine foldl_keep Blk.startView _ (fun a t => ?_) _ b
  dsimp only
  split
  · split <;> rfl
  · rfl

@[simp] theorem Blk.loadSafety_startView (m : Mem) : (b.loadSafety m).1.startView = b.startView := rfl

@[simp] theorem Blk.startPrograms_startView (m : Mem) : (b.startPrograms m).1.startView = b.startView := by
  unfold Blk.startPrograms
  simp only [BW.map, Blk.startAuto_startView]
  split <;> rfl

end

/-- A tamper alarm that came during a start has been judged. -/
def Blk.tamperJudged (b : Blk) : Blk := b.onRcc fun r => { r with bootTamper := 0 }

theorem Blk.tamperJudged_startView {b : Blk} (h : b.rcc.bootTamper = 0) : b.tamperJudged.startView = b.startView := by
  simp [Blk.tamperJudged, Blk.startView, h]

/-- A local cause that came before the start ended is handled at its end (R348). -/
def Blk.wakeIfCaused (b : Blk) : Blk := if b.nmg.localWake then b.localWakeNow else b

@[simp] theorem Blk.wakeIfCaused_startView (b : Blk) : b.wakeIfCaused.startView = b.startView := by
  simp [Blk.wakeIfCaused, apply_ite Blk.startView]

theorem Blk.startMode_eq_enter_run {b : Blk} (m : Mem) (hlock : b.rcc.lockFlag = false) (htamper : b.rcc.bootTamper = 0) :
    b.startMode m = ((b.tamperJudged.unseal.startBreath .run).enterMode m .run mcStart none).map
      Blk.wakeIfCaused := by
  unfold Blk.startMode
  dsimp only
  rw [if_neg (by simp [hlock, htamper]), if_neg (by simp [htamper])]
  rfl

/-- A start ends in RUN, with the breath running, unless LOCKDOWN is stored or a tamper alarm came during it (R390, R392). -/
theorem Blk.startMode_startView {b : Blk} (m : Mem) (hboot : b.rcc.mode = .boot) (hlock : b.rcc.lockFlag = false)
    (htamper : b.rcc.bootTamper = 0) :
    (b.startMode m).1.startView = { b.startView with mode := .run, cause := mcStart, breathing := true } := by
  have hready : (b.tamperJudged.unseal.startBreath .run).startView = { b.startView with breathing := true } := by
    rw [Blk.startBreath_startView, Blk.unseal_startView, Blk.tamperJudged_startView htamper]
  have hmode : (b.tamperJudged.unseal.startBreath .run).rcc.mode = .boot := (congrArg StartView.mode hready).trans hboot
  rw [Blk.startMode_eq_enter_run m hlock htamper, Blk.enterMode_run_of_boot hmode]
  simp only [BW.map, Blk.wakeIfCaused_startView, Blk.gatesIdle_startView, Blk.startPrograms_startView, Blk.noteMode_startView, hready]

/-! ### BOOT_COMPLETE (R271, R381, R390, R437, R438, R447) -/

@[simp] theorem Blk.heal_startView (b : Blk) (l : List Store) : (b.heal l).startView = b.startView := rfl

/-- What a start does with an image in a boot header: the components, the Chanter, the configuration, and the mode they lead to. -/
def Blk.startImage (m : Mem) (b : Blk) (f : Bool) : BW :=
  match b.startComponents.pickChanter m f with
  | none => b.startComponents.enterRecovery m mcNoImage 2 [9, 11]
  | some b1 => match b1.pickConfig m with
    | none => b1.enterRecovery m mcNoImage 3 [9, 11]
    | some (b2, im) => (b2.startWith m im).startMode m

section
variable {b b1 b2 : Blk} {m : Mem} {f : Bool} {im : Image} (hboot : b.rcc.mode = .boot)
include hboot

/-- A Chanter slot and a configuration that pass lead to RUN, with the breath and the switch running (R390, R438). -/
theorem Blk.startImage_run (hchanter : b.startComponents.pickChanter m f = some b1) (hconfig : b1.pickConfig m = some (b2, im))
    (hlock : b.rcc.lockFlag = false) (htamper : b.rcc.bootTamper = 0) :
    (b.startImage m f).1.startView =
      { b.startView with mode := .run, cause := mcStart, breathing := true, switching := true } := by
  have hview : (b2.startWith m im).startView = { b.startView with switching := true } := by
    rw [Blk.startWith_startView, Blk.pickConfig_startView hconfig, Blk.pickChanter_startView hchanter, Blk.startComponents_startView]
  have hrun := Blk.startMode_startView m ((congrArg StartView.mode hview).trans hboot) ((congrArg StartView.lockFlag hview).trans hlock)
    ((congrArg StartView.bootTamper hview).trans htamper)
  simp only [Blk.startImage, hchanter, hconfig]
  rw [hrun, hview]

/-- Without a Chanter slot or a configuration that passes the start leads to RECOVERY (R271, R447). -/
theorem Blk.startImage_recovery
    (hnone : b.startComponents.pickChanter m f = none ∨ ∃ b1, b.startComponents.pickChanter m f = some b1 ∧ b1.pickConfig m = none) :
    (b.startImage m f).1.startView = { b.startView with mode := .recovery, cause := mcNoImage } := by
  rcases hnone with hchanter | ⟨b1, hchanter, hconfig⟩
  · have hview : b.startComponents.startView = b.startView := b.startComponents_startView
    simp only [Blk.startImage, hchanter]
    rw [(Blk.enterRecovery_spec ((congrArg StartView.mode hview).trans hboot) ..).1, hview]
  · have hview : b1.startView = b.startView := (Blk.pickChanter_startView hchanter).trans b.startComponents_startView
    simp only [Blk.startImage, hchanter, hconfig]
    rw [(Blk.enterRecovery_spec ((congrArg StartView.mode hview).trans hboot) ..).1, hview]

variable (hno : b.rcc.episode = none)
include hno

/-- The completion of a start in BOOT, outside an episode, by the boot strap, the boot headers and the slots. -/
theorem bootComplete_of_boot : bootComplete f m b =
    if b.rcc.bootSel.toNat = 1 then b.enterRecovery m mcStrap 1 [10]
    else if b.rcc.bootSel.toNat = 2 then b.enterRecovery m mcStrap 1 [11]
    else if b.rcc.bootSel.toNat = 3 then b.enterRecovery m mcStrap 1 [9]
    else if b.upd.bootA = false ∧ b.upd.bootB = false then (b.ev (srcUpd 0) 0xD 4 3).enterRecovery m mcNoImage 2 [9, 11]
    else b.startImage m f :=
  if_neg (by simp [hboot, hno])

/-- The straps 1 to 3 lead to RECOVERY, each with a mailbox of its own (R381, R447). -/
theorem bootComplete_strap (hlo : 1 ≤ b.rcc.bootSel.toNat) (hhi : b.rcc.bootSel.toNat ≤ 3) :
    ∃ mb, bootComplete f m b = b.enterRecovery m mcStrap 1 [mb] := by
  rw [bootComplete_of_boot hboot hno]
  have hsel : b.rcc.bootSel.toNat = 1 ∨ b.rcc.bootSel.toNat = 2 ∨ b.rcc.bootSel.toNat = 3 := by omega
  rcases hsel with h | h | h
  · exact ⟨10, by simp [h]⟩
  · exact ⟨11, by simp [h]⟩
  · exact ⟨9, by simp [h]⟩

variable (hsel : b.rcc.bootSel = 0)
include hsel

theorem bootComplete_of_no_header (hA : b.upd.bootA = false) (hB : b.upd.bootB = false) :
    bootComplete f m b = (b.ev (srcUpd 0) 0xD 4 3).enterRecovery m mcNoImage 2 [9, 11] := by
  simp [bootComplete_of_boot hboot hno, hsel, hA, hB]

theorem bootComplete_of_header (hhead : b.upd.bootA = true ∨ b.upd.bootB = true) : bootComplete f m b = b.startImage m f := by
  have hsome : ¬ (b.upd.bootA = false ∧ b.upd.bootB = false) := by rcases hhead with h | h <;> simp [h]
  simp [bootComplete_of_boot hboot hno, hsel, hsome]

end

/-- BOOT_COMPLETE, by the view and the components of the block that it computes. -/
theorem runs_bootComplete {f : Bool} {s : State} {x : BW} {P : State → Prop} (hx : bootComplete f s.mem s.blk = x)
    (hP : ∀ t : State, t.blk.startView = x.1.startView → t.blk.upd = x.1.upd → P t) : Safety.runs (.bootComplete f) s P :=
  runs_onMem rfl hx (hP _ (Blk.heal_startView ..) (Blk.heal_upd ..))

section
variable {f : Bool} {s : State} (hboot : s.blk.rcc.mode = .boot) (hno : s.blk.rcc.episode = none)
include hboot hno

theorem runs_bootComplete_strap (hlo : 1 ≤ s.blk.rcc.bootSel.toNat) (hhi : s.blk.rcc.bootSel.toNat ≤ 3) :
    Safety.runs (.bootComplete f) s fun t => t.blk.rcc.mode = .recovery
      ∧ t.blk.rcc.modeCause = mcStrap ∧ t.blk.breath.running = s.blk.breath.running ∧ t.blk.upd.comps = s.blk.upd.comps := by
  obtain ⟨mb, hx⟩ := bootComplete_strap (f := f) (m := s.mem) hboot hno hlo hhi
  obtain ⟨hview, hupd⟩ := Blk.enterRecovery_spec hboot s.mem mcStrap 1 [mb]
  refine runs_bootComplete hx fun t htview htupd => ?_
  have hend := htview.trans hview
  exact ⟨congrArg StartView.mode hend, congrArg StartView.cause hend, congrArg StartView.breathing hend,
    congrArg Update.comps (htupd.trans hupd)⟩

variable (hsel : s.blk.rcc.bootSel = 0)
include hsel

theorem runs_bootComplete_of_no_header (hA : s.blk.upd.bootA = false) (hB : s.blk.upd.bootB = false) :
    Safety.runs (.bootComplete f) s fun t => t.blk.rcc.mode = .recovery
      ∧ t.blk.rcc.modeCause = mcNoImage ∧ t.blk.upd.comps = s.blk.upd.comps := by
  have hmode : (s.blk.ev (srcUpd 0) 0xD 4 3).rcc.mode = .boot := (congrArg Rcc.mode (Blk.ev_rcc ..)).trans hboot
  obtain ⟨hview, hupd⟩ := Blk.enterRecovery_spec hmode s.mem mcNoImage 2 [9, 11]
  refine runs_bootComplete (bootComplete_of_no_header hboot hno hsel hA hB) fun t htview htupd => ?_
  have hend := htview.trans hview
  exact ⟨congrArg StartView.mode hend, congrArg StartView.cause hend,
    congrArg Update.comps (htupd.trans (hupd.trans (Blk.ev_upd ..)))⟩

theorem runs_bootComplete_of_header (hhead : s.blk.upd.bootA = true ∨ s.blk.upd.bootB = true) :
    Safety.runs (.bootComplete f) s fun t =>
      (∀ (b1 b2 : Blk) (im : Image), s.blk.startComponents.pickChanter s.mem f = some b1 → b1.pickConfig s.mem = some (b2, im) →
        s.blk.rcc.lockFlag = false → s.blk.rcc.bootTamper = 0 →
          t.blk.rcc.mode = .run ∧ t.blk.rcc.modeCause = mcStart ∧ t.blk.breath.running = true ∧ t.blk.sw.running = true)
      ∧ ((s.blk.startComponents.pickChanter s.mem f = none ∨
          ∃ b1, s.blk.startComponents.pickChanter s.mem f = some b1 ∧ b1.pickConfig s.mem = none) →
        t.blk.rcc.mode = .recovery ∧ t.blk.rcc.modeCause = mcNoImage) := by
  refine runs_bootComplete (bootComplete_of_header hboot hno hsel hhead) fun t htview _ =>
    ⟨fun b1 b2 im hchanter hconfig hlock htamper => ?_, fun hnone => ?_⟩
  · have hend := htview.trans (Blk.startImage_run hboot hchanter hconfig hlock htamper)
    exact ⟨congrArg StartView.mode hend, congrArg StartView.cause hend, congrArg StartView.breathing hend,
      congrArg StartView.switching hend⟩
  · have hend := htview.trans (Blk.startImage_recovery hboot hnone)
    exact ⟨congrArg StartView.mode hend, congrArg StartView.cause hend⟩

end

/-- Outside BOOT, and in an episode, the row is no event (R390). -/
theorem runs_bootComplete_ignored (f : Bool) {s : State} (h : s.blk.rcc.mode ≠ .boot ∨ s.blk.rcc.episode.isSome = true) :
    Safety.runs (.bootComplete f) s fun t => t.blk = s.blk ∧ t.mem = s.mem :=
  runs_onMem rfl (if_pos h) ⟨Blk.heal_nil _, rfl⟩

/-! ### PARTITION_MONITOR_FAILURE (R390, R391) -/

theorem Blk.guard_limp_of_run {b : Blk} (hrun : b.rcc.mode = .run) : b.guard .limp = some true := by
  simp [Blk.guard, hrun]

theorem Blk.schedule_of_unscheduled {b : Blk} (hsched : b.rcc.sched = none) (new : Mode) (cause rank : Nat) (due : Option Due) :
    b.schedule new cause rank due =
      b.onRcc fun r => { r with sched := some { target := new, cause := cause, at_ := b.breath.bn + 2, rank := rank, due := due } } := by
  simp [Blk.schedule, hsched]

theorem partitionMonitorFailure_first {b : Blk} (hnone : b.rcc.pmFails = []) :
    partitionMonitorFailure b = b.onRcc fun r => { r with pmFails := [b.time.dt] } := by
  simp [partitionMonitorFailure, hnone]

/-- The third failure within ten minutes empties the list of failures and schedules LIMP for tick N+2. -/
theorem partitionMonitorFailure_third {b : Blk} {x y : BitVec 64} (hrun : b.rcc.mode = .run) (htwo : b.rcc.pmFails = [x, y])
    (hx : b.since x < 600000000000) (hy : b.since y < 600000000000) (hsched : b.rcc.sched = none) :
    partitionMonitorFailure b = b.onRcc fun r =>
      { r with pmFails := [], sched := some { target := .limp, cause := mcApp, at_ := b.breath.bn + 2, rank := 4, due := none } } := by
  have hrecent : b.rcc.pmFails.filter (fun t => decide (b.since t < 600000000000)) = [x, y] := by simp [htwo, hx, hy]
  have hguard : (b.onRcc fun r => { r with pmFails := [x, y, b.time.dt] }).guard .limp = some true := Blk.guard_limp_of_run hrun
  unfold partitionMonitorFailure
  dsimp only
  rw [hrecent, if_pos ⟨by simp, hguard⟩]
  exact Blk.schedule_of_unscheduled (b := (b.onRcc fun r => { r with pmFails := [x, y, b.time.dt] }).onRcc fun r => { r with pmFails := [] })
    hsched ..

/-- Settles O50: each way in which a start ends, and the failures of the partition monitor. -/
theorem startsEndInRunOrRecovery : Obligations.StartsEndInRunOrRecovery :=
  ⟨fun _ _ hboot hno =>
      ⟨runs_bootComplete_strap hboot hno, runs_bootComplete_of_no_header hboot hno, runs_bootComplete_of_header hboot hno⟩,
    fun f _ h => runs_bootComplete_ignored f h,
    fun _ hrun =>
      ⟨fun hnone => runs_onBlk rfl (partitionMonitorFailure_first hnone) ⟨rfl, rfl, rfl⟩,
        fun _ _ htwo hx hy hsched =>
          runs_onBlk rfl (partitionMonitorFailure_third hrun htwo hx hy hsched) ⟨rfl, hrun, rfl, rfl⟩⟩⟩

end Sys2Proof.Machine
end

section
/-! SUPPORT. What a step and a command do whatever the state: a step runs the front command, and every command answers a next state
that keeps the queue. -/

namespace Sys2Proof.Machine
open Sys2Proof

theorem step_of_pending {s : State} {c : Instr} {rest : List Instr} (h : s.pending = c :: rest) :
    step s = exec c (s.withPending rest) := by
  rw [step, h]

/-- Settles O1: the queue's front is what the step's case split takes. -/
theorem stepRunsTheFrontCommand : Obligations.StepRunsTheFrontCommand := fun _ _ _ h => step_of_pending h

/-- Settles O6: a command changes the block, or the block and the memories, and neither change touches the queue. -/
theorem everyCommandRuns : Obligations.EveryCommandRuns := by
  intro c s
  rcases exec_cases c s with ⟨f, hf⟩ | ⟨f, hf, -⟩
  · exact ⟨s.onBlk f, hf, State.onBlk_pending s f⟩
  · exact ⟨s.onMem f, hf, State.onMem_pending s f⟩

end Sys2Proof.Machine
end

section
/-! SUPPORT. One bus (R312, R331): what a change of its controller or of its network management, and a record, leave of the others; and
what an engine's message and a pop leave of the controllers (R213, R217). -/

namespace Sys2Proof.Machine
open Sys2Proof

section
variable (b : Blk) (c d : Fin 6)

@[simp] theorem Blk.modCan_can_self (f : Can → Can) : (b.modCan c f).can c = f (b.can c) := vmod_get_self ..
@[simp] theorem Blk.modNm_nm_self (f : Nm → Nm) : (b.modNm c f).nm c = f (b.nm c) := vmod_get_self ..
@[simp] theorem Blk.modCan_nm (f : Can → Can) : (b.modCan c f).nm d = b.nm d := rfl
@[simp] theorem Blk.modNm_can (f : Nm → Nm) : (b.modNm c f).can d = b.can d := rfl
@[simp] theorem Blk.heal_can (l : List Store) : (b.heal l).can d = b.can d := rfl
@[simp] theorem Blk.heal_nm (l : List Store) : (b.heal l).nm d = b.nm d := rfl

variable {c d} in
@[simp] theorem Blk.modCan_can_ne (h : d ≠ c) (f : Can → Can) : (b.modCan c f).can d = b.can d := vmod_get_ne _ _ _ _ h.symm

variable {c d} in
@[simp] theorem Blk.modNm_nm_ne (h : d ≠ c) (f : Nm → Nm) : (b.modNm c f).nm d = b.nm d := vmod_get_ne _ _ _ _ h.symm

/-- Two changes of a controller are one. -/
theorem Blk.modCan_modCan (f g : Can → Can) : (b.modCan c f).modCan c g = b.modCan c fun x => g (f x) := by
  have hset : vmod (vmod b.cans c f) c g = vmod b.cans c fun x => g (f x) := by
    rw [vmod, vmod_get_self, vmod, Vector.set_set]
    rfl
  exact congrArg (fun v => { b with cans := v }) hset

/-- Two changes of network management on a bus are one. -/
theorem Blk.modNm_modNm (f g : Nm → Nm) : (b.modNm c f).modNm c g = b.modNm c fun n => g (f n) := by
  have hset : vmod (vmod b.nms c f) c g = vmod b.nms c fun n => g (f n) := by
    rw [vmod, vmod_get_self, vmod, Vector.set_set]
    rfl
  exact congrArg (fun v => { b with nms := v }) hset

@[simp] theorem Blk.ev_can (src : BitVec 16) (code sev : Nat) (arg : Word) (tn : Byte) (pin : Bool) (fl : Nat) :
    (b.ev src code sev arg tn pin fl).can d = b.can d := congrArg (·.get d) (Blk.ev_cans ..)

@[simp] theorem Blk.ev_nm (src : BitVec 16) (code sev : Nat) (arg : Word) (tn : Byte) (pin : Bool) (fl : Nat) :
    (b.ev src code sev arg tn pin fl).nm d = b.nm d := congrArg (·.get d) (Blk.ev_nms ..)

@[simp] theorem Blk.cev_can (code sev arg : Nat) (tn : Byte) (pin : Bool) : (b.cev c code sev arg tn pin).can d = b.can d :=
  Blk.ev_can ..

@[simp] theorem Blk.cev_nm (code sev arg : Nat) (tn : Byte) (pin : Bool) : (b.cev c code sev arg tn pin).nm d = b.nm d :=
  Blk.ev_nm ..

@[simp] theorem Blk.nmev_can (code sev arg : Nat) (pin : Bool) : (b.nmev c code sev arg pin).can d = b.can d := Blk.ev_can ..
@[simp] theorem Blk.nmev_nm (code sev arg : Nat) (pin : Bool) : (b.nmev c code sev arg pin).nm d = b.nm d := Blk.ev_nm ..

theorem Blk.cev_eq (code sev arg : Nat) (tn : Byte) (pin : Bool) :
    b.cev c code sev arg tn pin = { b with evs := (b.cev c code sev arg tn pin).evs } := Blk.ev_eq ..

theorem Blk.nmev_eq (code sev arg : Nat) (pin : Bool) :
    b.nmev c code sev arg pin = { b with evs := (b.nmev c code sev arg pin).evs } := Blk.ev_eq ..

variable {b c} in
theorem Blk.cev_lastRecord {a : Blk} (hevs : a.evs = b.evs) (hroom : Safety.room b (srcCan c)) (code sev arg : Nat) (tn : Byte)
    (pin : Bool) :
    Safety.lastRecord (a.cev c code sev arg tn pin) =
      some (srcCan c, BitVec.ofNat 16 code, BitVec.ofNat 3 sev, arg32 arg, tn) := Blk.ev_last_of_evs_eq hevs hroom ..

variable {b c} in
theorem Blk.nmev_lastRecord {a : Blk} (hevs : a.evs = b.evs) (hroom : Safety.room b (srcNm c)) (code sev arg : Nat) (pin : Bool) :
    Safety.lastRecord (a.nmev c code sev arg pin) =
      some (srcNm c, BitVec.ofNat 16 code, BitVec.ofNat 3 sev, arg32 arg, hw) := Blk.ev_last_of_evs_eq hevs hroom ..

/-! ### Queues (R213, R217) -/

theorem Blk.enqueue_cans (q : Fin 256) (ws : List Word) : (b.enqueue q ws).cans = b.cans := by
  unfold Blk.enqueue
  rw [Blk.takeSeq_eq]
  dsimp only
  split
  · split <;> rfl
  · split <;> rfl
  · rfl

/-- An engine's message touches no controller. -/
@[simp] theorem Blk.engineWrite_cans (q : Fin 256) (ws : List Word) : (b.engineWrite q ws).cans = b.cans := by
  unfold Blk.engineWrite
  dsimp only
  split
  · rfl
  split
  · rfl
  split
  · rfl
  · exact Blk.enqueue_cans ..

@[simp] theorem Blk.engineWrite_can (q : Fin 256) (ws : List Word) : (b.engineWrite q ws).can d = b.can d :=
  congrArg (·.get d) (b.engineWrite_cans ..)

/-- A pop of a whole message changes its queue and the flags of mailboxes alone. -/
theorem Blk.popMsg_eq (q : Fin 256) :
    ∃ f, b.popMsg q = { b.modQ q f with mboxes := (b.popMsg q).mboxes } := by
  unfold Blk.popMsg
  split
  · exact ⟨id, by rw [Blk.modQ, vmod_id _ _ _ rfl]⟩
  · exact ⟨_, Blk.creditRise_eq ..⟩

theorem Blk.popMsg_cans (q : Fin 256) : (b.popMsg q).cans = b.cans := by
  obtain ⟨f, h⟩ := b.popMsg_eq q
  rw [h]
  rfl

theorem Blk.popMsg_others (q : Fin 256) : Safety.otherQueues b (b.popMsg q) q := by
  obtain ⟨f, h⟩ := b.popMsg_eq q
  rw [h]
  exact fun p hp => vmod_get_ne _ _ _ _ hp.symm

end

end Sys2Proof.Machine
end

section
/-! SUPPORT. Error confinement of a controller (R322, R323): the state follows the counters. -/

namespace Sys2Proof.Machine
open Sys2Proof

theorem Can.running_of_active {x : Can} (hst : x.state = .active) (htec : x.tec ≤ 127) (hrec : x.recCnt ≤ 127) : x.running = x := by
  rw [Can.running, if_neg (by omega), if_neg (by omega), ← hst]

theorem Can.onBus_of_active {x : Can} (h : x.state = .active) : x.onBus = true := by simp [Can.onBus, h]

theorem Can.onBus_of_passive {x : Can} (h : x.state = .passive) : x.onBus = true := by simp [Can.onBus, h]

/-- What bus-off takes from a controller: nothing is sent any more, and the FIFO goes too under `BOFF_FLUSH` (R323). -/
def Can.busOffNow (x : Can) (now : BitVec 64) : Can :=
  { x with
    sticky := orBits x.sticky 2, unack := 0, sending := none, boffDt := now, boffWait := false, trefSlot := none
    trefSkip := if x.trefSlot.isSome then satInc x.trefSkip 0xFFFF else x.trefSkip
    txDrop := if x.boffFlush then satAdd x.txDrop x.fifo.length 0xFFFF else x.txDrop
    fifo := if x.boffFlush then [] else x.fifo }

section
variable (b : Blk) (c : Fin 6)

theorem Blk.canState_of_same (h : (b.can c).running.state = (b.can c).state) : b.canState c = b := by
  unfold Blk.canState
  dsimp only
  rw [if_pos h, ite_self]

variable {b c} (hon : (b.can c).onBus = true) (hnew : (b.can c).running.state ≠ (b.can c).state)

include hon hnew in
theorem Blk.canState_of_passive (h : (b.can c).running.state = .passive) :
    b.canState c = (b.modCan c fun x => { x.running with sticky := orBits x.sticky 1 }).cev c 1 2
      ((b.can c).tec + (b.can c).recCnt * 65536) := by
  unfold Blk.canState
  dsimp only
  rw [if_neg (by simp [hon]), if_neg hnew]
  split
  · rfl
  all_goals simp_all

include hon hnew in
theorem Blk.canState_of_active (h : (b.can c).running.state = .active) :
    b.canState c = (b.modCan c Can.running).cev c 2 1 ((b.can c).tec + (b.can c).recCnt * 65536) := by
  unfold Blk.canState
  dsimp only
  rw [if_neg (by simp [hon]), if_neg hnew]
  split
  next hp => simp [h] at hp
  · rfl
  next ho => simp [h] at ho
  next hne _ => exact absurd h hne

/-- The block with the controller off the bus; a frame of network management goes back to its slot (R323, R335). -/
def Blk.busOffNow (b : Blk) (c : Fin 6) : Blk :=
  ((b.modCan c fun x => x.running.busOffNow b.time.dt).modNm c fun n => { n with slot := n.slot <|> n.inFlight, inFlight := none }).cev c 3 3
    (bits (b.can c).lastErr 2 0) hw true

theorem Blk.busOffNow_lastRecord (b : Blk) {c : Fin 6} (hroom : Safety.room b (srcCan c)) :
    Safety.lastRecord (b.busOffNow c) = some (srcCan c, 3, 3, arg32 (bits (b.can c).lastErr 2 0), hw) := by
  rw [Blk.busOffNow]
  exact Blk.cev_lastRecord (b := b) (by rfl) hroom ..

include hon hnew in
theorem Blk.canState_of_busOff (h : (b.can c).running.state = .busOff) :
    b.canState c = match (b.can c).trefSlot with
      | some (_, _, seq) => (b.busOffNow c).cev c 0xB 1 seq.toNat
      | none => b.busOffNow c := by
  unfold Blk.canState
  dsimp only
  rw [if_neg (by simp [hon]), if_neg hnew]
  split
  next hp => simp [h] at hp
  next ha => simp [h] at ha
  · rfl
  next hother => exact absurd h hother

include hon

/-- With TEC at most 255 the state follows the counters, with a record and its sticky bit where it changes. -/
theorem Blk.canState_confined (htec : (b.can c).tec ≤ 255) :
    (∃ st, (b.canState c).can c = { (b.can c).running with sticky := st }) ∧ (∀ d, d ≠ c → (b.canState c).can d = b.can d)
      ∧ b.canState c = { b with cans := (b.canState c).cans, evs := (b.canState c).evs } := by
  by_cases hsame : (b.can c).running.state = (b.can c).state
  · have hx : (b.can c).running = b.can c := by
      show { b.can c with state := (b.can c).running.state } = b.can c
      rw [hsame]
    rw [Blk.canState_of_same b c hsame, hx]
    exact ⟨⟨_, rfl⟩, fun _ _ => rfl, rfl⟩
  · by_cases hover : 127 < (b.can c).tec ∨ 127 < (b.can c).recCnt
    · rw [Blk.canState_of_passive hon hsame (by rw [Can.running, if_neg (by omega), if_pos hover])]
      exact ⟨⟨_, by rw [Blk.cev_can, Blk.modCan_can_self]⟩, fun d hd => by simp [hd], by rw [Blk.cev_eq]; rfl⟩
    · rw [Blk.canState_of_active hon hsame (by rw [Can.running, if_neg (by omega), if_neg hover])]
      exact ⟨⟨_, by rw [Blk.cev_can, Blk.modCan_can_self]⟩, fun d hd => by simp [hd], by rw [Blk.cev_eq]; rfl⟩

/-- A TEC above 255 takes the controller off the bus, with its record; a time reference that waited is skipped with another (R323, R326). -/
theorem Blk.canState_busOff (htec : 255 < (b.can c).tec) :
    (b.canState c).can c = (b.can c).running.busOffNow b.time.dt ∧ (∀ d, d ≠ c → (b.canState c).can d = b.can d)
      ∧ ((b.can c).trefSlot = none → Safety.room b (srcCan c) →
        Safety.lastRecord (b.canState c) = some (srcCan c, 3, 3, arg32 (bits (b.can c).lastErr 2 0), hw)) := by
  have hst : (b.can c).running.state = .busOff := by rw [Can.running, if_pos htec]
  have hnew : (b.can c).running.state ≠ (b.can c).state := by
    intro h
    simp [Can.onBus, ← h, hst] at hon
  have hcan : ∀ d, (b.busOffNow c).can d = (b.modCan c fun x => x.running.busOffNow b.time.dt).can d := fun d => Blk.cev_can ..
  rw [Blk.canState_of_busOff hon hnew hst]
  cases hlate : (b.can c).trefSlot with
  | none =>
    dsimp only
    exact ⟨by rw [hcan, Blk.modCan_can_self], fun d hd => by rw [hcan, Blk.modCan_can_ne _ hd],
      fun _ hroom => b.busOffNow_lastRecord hroom⟩
  | some late =>
    dsimp only
    exact ⟨by rw [Blk.cev_can, hcan, Blk.modCan_can_self], fun d hd => by rw [Blk.cev_can, hcan, Blk.modCan_can_ne _ hd], nofun⟩

end

end Sys2Proof.Machine
end

section
/-! SUPPORT. The rows of the CAN family (R316 to R326). -/

namespace Sys2Proof.Machine
open Sys2Proof

/-! ### Reception (R316, R317, R322) -/

/-- A received frame counted (R316, R322). -/
def Can.heardFrame (x : Can) : Can := { x with rxFrames := x.rxFrames + 1, recCnt := recOk x.recCnt }

/-- A frame stored in object `j`; one that overwrites a new one is counted as lost (R317). -/
def Can.stored (x : Can) (j : Fin 256) (f : CanFrame) (sof : BitVec 64) : Can :=
  { x with rxo := vmod x.rxo j (fun o => o.store f sof)
           lost := if (x.rxo.get j).isNew then satInc x.lost 0xFFFFFFFF else x.lost
           sticky := if (x.rxo.get j).isNew then orBits x.sticky 0x20 else x.sticky }

/-- What a frame does to a controller in error active, by its kind and the first object that takes it. -/
def Can.received (x : Can) (f : CanFrame) (sof : BitVec 64) : Can :=
  if f.remote then { x.heardFrame with rxRemote := satInc x.rxRemote 0xFFFF }
  else match (upTo 256).find? (fun j => (x.rxo.get j).takes f) with
    | none => { x.heardFrame with rxOther := satInc x.rxOther 0xFFFF }
    | some j => x.heardFrame.stored j f sof

section
variable {c : Fin 6} {b : Blk}

/-- A controller whose counters keep it in error active has no change of state. -/
theorem Blk.canState_of_stays_active (hst : (b.can c).state = .active) (htec : (b.can c).tec ≤ 127) (hrec : (b.can c).recCnt ≤ 127) :
    b.canState c = b :=
  Blk.canState_of_same b c (congrArg Can.state (Can.running_of_active hst htec hrec))

variable (hst : (b.can c).state = .active) (htec : (b.can c).tec ≤ 127) (hrec : (b.can c).recCnt ≤ 127)
include hst htec hrec

theorem canFrameReceived_cans (f : CanFrame) (sof : BitVec 64) :
    (canFrameReceived c f sof b).cans = (b.modCan c (·.received f sof)).cans := by
  have hlow : recOk (b.can c).recCnt ≤ 127 := by rw [recOk, if_neg (by omega)]; omega
  have hstays : (b.modCan c fun x => { x with rxFrames := x.rxFrames + 1, recCnt := recOk x.recCnt }).canState c =
      b.modCan c Can.heardFrame := by
    refine Blk.canState_of_stays_active ?_ ?_ ?_ <;> rw [Blk.modCan_can_self]
    · exact hst
    · exact htec
    · exact hlow
  have hput (g : Can → Can) (hg : g (b.can c).heardFrame = (b.can c).received f sof) :
      ((b.modCan c Can.heardFrame).modCan c g).cans = (b.modCan c (·.received f sof)).cans := by
    rw [Blk.modCan_modCan]
    exact congrArg (fun x => b.cans.set c.val x c.isLt) hg
  unfold canFrameReceived
  dsimp only
  rw [if_neg (by simp [Can.onBus_of_active hst])]
  rw [hstays]
  by_cases hrem : f.remote = true
  · rw [if_pos hrem]
    exact hput _ (by rw [Can.received, if_pos hrem]; rfl)
  · rw [if_neg hrem]
    cases hfind : (upTo 256).find? (fun j => ((b.can c).rxo.get j).takes f) with
    | none => exact hput (fun x => { x with rxOther := satInc x.rxOther 0xFFFF }) (by rw [Can.received, if_neg hrem, hfind]; rfl)
    | some j =>
      have hstore := hput (fun x =>
        { x with rxo := vmod x.rxo j (fun o => o.store f sof),
                 lost := if ((b.can c).rxo.get j).isNew then satInc x.lost 0xFFFFFFFF else x.lost,
                 sticky := if ((b.can c).rxo.get j).isNew then orBits x.sticky 0x20 else x.sticky })
        (by rw [Can.received, if_neg hrem, hfind]; rfl)
      dsimp only
      split
      · split
        · exact (Blk.engineWrite_cans ..).trans hstore
        · exact hstore
      · exact hstore

end

/-- Whatever stores it, a frame is counted, lowers REC, and leaves the transmit objects. -/
theorem Can.received_counts (x : Can) (f : CanFrame) (sof : BitVec 64) :
    (x.received f sof).rxFrames = x.rxFrames + 1 ∧ (x.received f sof).recCnt = recOk x.recCnt ∧ (x.received f sof).state = x.state
      ∧ (x.received f sof).txo = x.txo := by
  unfold Can.received
  split
  · exact ⟨rfl, rfl, rfl, rfl⟩
  · split <;> exact ⟨rfl, rfl, rfl, rfl⟩

theorem runs_canFrameReceived (c : Fin 6) (f : CanFrame) (sof : BitVec 64) (s : State) (hst : (s.blk.can c).state = .active)
    (htec : (s.blk.can c).tec ≤ 127) (hrec : (s.blk.can c).recCnt ≤ 127) :
    Safety.runs (.canFrameReceived c f sof) s fun t => (t.blk.can c).rxFrames = (s.blk.can c).rxFrames + 1
      ∧ (t.blk.can c).recCnt = (s.blk.can c).recCnt - 1 ∧ (t.blk.can c).state = .active ∧ (t.blk.can c).txo = (s.blk.can c).txo
      ∧ (f.remote = true → (t.blk.can c).rxRemote = satInc (s.blk.can c).rxRemote 0xFFFF ∧ (t.blk.can c).rxo = (s.blk.can c).rxo)
      ∧ (∀ j : Fin 256, f.remote = false → (upTo 256).find? (fun i => ((s.blk.can c).rxo.get i).takes f) = some j →
          (t.blk.can c).rxo.get j = ((s.blk.can c).rxo.get j).store f sof ∧ (∀ i : Fin 256, i ≠ j → (t.blk.can c).rxo.get i = (s.blk.can c).rxo.get i)
          ∧ (((s.blk.can c).rxo.get j).isNew = true → (t.blk.can c).lost = satInc (s.blk.can c).lost 0xFFFFFFFF))
      ∧ (f.remote = false → (∀ i : Fin 256, ((s.blk.can c).rxo.get i).takes f = false) →
          (t.blk.can c).rxOther = satInc (s.blk.can c).rxOther 0xFFFF ∧ (t.blk.can c).rxo = (s.blk.can c).rxo)
      ∧ (∀ d : Fin 6, d ≠ c → t.blk.can d = s.blk.can d) ∧ t.mem = s.mem := by
  have hcans := canFrameReceived_cans hst htec hrec f sof
  have hself : (canFrameReceived c f sof s.blk).can c = (s.blk.can c).received f sof :=
    (congrArg (·.get c) hcans).trans (Blk.modCan_can_self ..)
  obtain ⟨hframes, hcount, hstate, htxo⟩ := (s.blk.can c).received_counts f sof
  refine runs_onBlk rfl rfl ?_
  dsimp only
  rw [hself]
  refine ⟨hframes, hcount.trans (if_neg (by omega)), hstate.trans hst, htxo, fun hrem => ?_, fun j hrem hfind => ?_,
    fun hrem hnone => ?_, fun d hd => (congrArg (·.get d) hcans).trans (Blk.modCan_can_ne _ hd _), rfl⟩
  · rw [Can.received, if_pos hrem]
    exact ⟨rfl, rfl⟩
  · rw [Can.received, if_neg (by simp [hrem]), hfind]
    exact ⟨vmod_get_self .., fun i hi => vmod_get_ne _ _ _ _ hi.symm, fun hnew => if_pos hnew⟩
  · rw [Can.received, if_neg (by simp [hrem]), List.find?_eq_none.2 fun i _ => by simp [hnone i]]
    exact ⟨rfl, rfl⟩

theorem runs_canFrameReceived_off (c : Fin 6) (f : CanFrame) (sof : BitVec 64) (s : State) (hoff : (s.blk.can c).onBus = false) :
    Safety.runs (.canFrameReceived c f sof) s fun t => t = s := runs_onBlk rfl (if_pos hoff) rfl

/-! ### The transmit FIFO (R320, R321) -/

section
variable {c : Fin 6} {n : Fin 10} {q : Fin 256} {m : Msg} {s : State} (hon : (s.blk.can c).onBus = true)
  (halone : (s.blk.can c).alone = false) (hnext : s.blk.nextRequest c = some (n, q, m))
include hon halone hnext

theorem canTxEnqueue_eq :
    canTxEnqueue c s.blk =
      if 64 ≤ (s.blk.can c).fifo.length then s.blk.modCan c fun x => { x with sticky := orBits x.sticky 0x10 }
      else match (s.blk.can c).judge (slotInit n) (bytesOf m.words) s.blk.time.dt with
        | .error r => (s.blk.popMsg q).txRefuse c (slotInit n) (byteAt (bytesOf m.words) 0).toNat r
        | .ok e => (s.blk.popMsg q).modCan c fun x =>
            { x with fifo := x.fifo ++ [e], sticky := if 64 ≤ x.fifo.length + 1 then orBits x.sticky 0x10 else x.sticky } := by
  have hruns : ¬ ((s.blk.can c).state = .stopped ∨ (s.blk.can c).state = .asleep ∨ ((s.blk.can c).alone ∧ (s.blk.can c).aloneHold)) := by
    simp only [Can.onBus, Bool.or_eq_true, decide_eq_true_eq] at hon
    rcases hon with h | h <;> simp [h, halone]
  unfold canTxEnqueue
  dsimp only
  rw [if_neg hruns, hnext] <;> rfl

theorem runs_canTxEnqueue :
    (64 ≤ (s.blk.can c).fifo.length → Safety.runs (.canTxEnqueue c) s fun t => t.blk.can c = { s.blk.can c with sticky := orBits (s.blk.can c).sticky 0x10 }
      ∧ t.blk.queues = s.blk.queues ∧ t.mem = s.mem)
    ∧ ((s.blk.can c).fifo.length < 64 → ∀ e : TxEntry, (s.blk.can c).judge (slotInit n) (bytesOf m.words) s.blk.time.dt = .ok e →
      Safety.runs (.canTxEnqueue c) s fun t => (t.blk.can c).fifo = (s.blk.can c).fifo ++ [e] ∧ (∀ p : Fin 256, p ≠ q → t.blk.queues.get p = s.blk.queues.get p) ∧ t.mem = s.mem)
    ∧ ((s.blk.can c).fifo.length < 64 → ∀ r : Nat, (s.blk.can c).judge (slotInit n) (bytesOf m.words) s.blk.time.dt = .error r →
      Safety.runs (.canTxEnqueue c) s fun t => (t.blk.can c).fifo = (s.blk.can c).fifo ∧ (t.blk.can c).txDrop = satInc (s.blk.can c).txDrop 0xFFFF ∧ t.mem = s.mem) := by
  have hpop : (s.blk.popMsg q).can c = s.blk.can c := congrArg (·.get c) (s.blk.popMsg_cans q)
  refine ⟨fun hfull => ?_, fun hroom e he => ?_, fun hroom r hr => ?_⟩
  · exact runs_onBlk rfl ((canTxEnqueue_eq hon halone hnext).trans (if_pos hfull)) ⟨Blk.modCan_can_self .., rfl, rfl⟩
  · have heq := (canTxEnqueue_eq hon halone hnext).trans (if_neg (by omega))
    rw [he] at heq
    refine runs_onBlk rfl heq ⟨?_, s.blk.popMsg_others q, rfl⟩
    rw [Blk.modCan_can_self, hpop]
  · have heq := (canTxEnqueue_eq hon halone hnext).trans (if_neg (by omega))
    rw [hr] at heq
    have hrefuse (i : Initiator) (obj : Nat) : ((s.blk.popMsg q).txRefuse c i obj r).can c =
        { s.blk.can c with txDrop := satInc (s.blk.can c).txDrop 0xFFFF } := by
      unfold Blk.txRefuse
      dsimp only
      split
      · rw [Blk.modCan_can_self, hpop]
      · rw [Blk.cev_can]
        exact (Blk.modCan_can_self ..).trans (by rw [hpop])
    refine runs_onBlk rfl heq ?_
    dsimp only
    rw [hrefuse]
    exact ⟨rfl, rfl, rfl⟩

end

end Sys2Proof.Machine
end

section
/-! SUPPORT. What a controller sends, its errors, and its way back to the bus (R321 to R326). -/

namespace Sys2Proof.Machine
open Sys2Proof

/-! ### Arbitration (R321, R326, R335) -/

/-- A slot enters arbitration: its start of frame is now. -/
def Can.starts (x : Can) (sl : CanSlot) (now : BitVec 64) : Can := { x with sending := some sl, trefStart := now }

section
variable {c : Fin 6} {s : State} (hon : (s.blk.can c).onBus = true) (hlisten : (s.blk.can c).listen = false)
  (hfree : (s.blk.can c).sending = none) (hawake : (s.blk.nm c).state ≠ .settle)
include hon hlisten hfree hawake

/-- Outside SETTLE the time reference goes first, then network management, then the FIFO. -/
theorem canHeadArbitration_eq :
    canHeadArbitration c s.blk =
      if (s.blk.can c).trefSlot.isSome then s.blk.modCan c (·.starts .tref s.blk.time.dt)
      else if (s.blk.nm c).slot.isSome then
        (s.blk.modCan c (·.starts .nm s.blk.time.dt)).modNm c fun n => { n with inFlight := n.slot, slot := none, confirming := false }
      else if (s.blk.can c).fifoHeld then s.blk
      else if ((s.blk.dropAged c).can c).fifo.isEmpty then s.blk.dropAged c
      else (s.blk.dropAged c).modCan c (·.starts .fifo (s.blk.dropAged c).time.dt) := by
  unfold canHeadArbitration
  dsimp only
  rw [if_neg (by simp [hon, hlisten, hfree])]
  cases hslot : (s.blk.nm c).slot <;> simp [hawake] <;> rfl

theorem runs_canHeadArbitration :
    ((s.blk.can c).trefSlot.isSome = true → Safety.runs (.canHeadArbitration c) s fun t =>
      t.blk.can c = { s.blk.can c with sending := some .tref, trefStart := s.blk.time.dt } ∧ t.blk = { s.blk with cans := t.blk.cans } ∧ t.mem = s.mem)
    ∧ ((s.blk.can c).trefSlot = none → (s.blk.nm c).slot.isSome = true → Safety.runs (.canHeadArbitration c) s fun t => (t.blk.can c).sending = some .nm
      ∧ (t.blk.nm c).inFlight = (s.blk.nm c).slot ∧ (t.blk.nm c).slot = none ∧ t.blk = { s.blk with cans := t.blk.cans, nms := t.blk.nms } ∧ t.mem = s.mem)
    ∧ (∀ (e : TxEntry) (l : List TxEntry), (s.blk.can c).trefSlot = none → (s.blk.nm c).slot = none → (s.blk.can c).fifoHeld = false → (s.blk.can c).fifo = e :: l →
        s.blk.aged (s.blk.can c) e = false → Safety.runs (.canHeadArbitration c) s fun t =>
          t.blk.can c = { s.blk.can c with sending := some .fifo, trefStart := s.blk.time.dt } ∧ t.blk = { s.blk with cans := t.blk.cans } ∧ t.mem = s.mem) := by
  have heq := canHeadArbitration_eq hon hlisten hfree hawake
  refine ⟨fun htref => ?_, fun htref hnm => ?_, fun e l htref hnm hheld hfifo hyoung => ?_⟩
  · rw [if_pos htref] at heq
    exact runs_onBlk rfl heq ⟨Blk.modCan_can_self .., rfl, rfl⟩
  · rw [if_neg (by simp [htref]), if_pos hnm] at heq
    refine runs_onBlk rfl heq ?_
    simp [Can.starts]
    rfl
  · have hnone : s.blk.dropAged c = s.blk := by
      unfold Blk.dropAged
      simp [hfifo, hyoung]
    rw [if_neg (by simp [htref]), if_neg (by simp [hnm]), if_neg (by simp [hheld]), hnone, if_neg (by simp [hfifo])] at heq
    exact runs_onBlk rfl heq ⟨Blk.modCan_can_self .., rfl, rfl⟩

end

/-! ### A frame sent (R322, R326) -/

theorem Blk.measureDelay_can (b : Blk) (c : Fin 6) (slot : CanSlot) :
    (∃ w, ((b.measureDelay c slot).can c) = { b.can c with tdcv := w }) ∧ ∀ d, d ≠ c → (b.measureDelay c slot).can d = b.can d := by
  unfold Blk.measureDelay
  dsimp only
  split
  · split
    · exact ⟨⟨_, Blk.modCan_can_self (b := b.fresh.2) ..⟩, fun d hd => Blk.modCan_can_ne b.fresh.2 hd _⟩
    · exact ⟨⟨_, rfl⟩, fun _ _ => rfl⟩
  · exact ⟨⟨_, rfl⟩, fun _ _ => rfl⟩

/-- The counters after a success; what was sent is no longer in transmission (R322). -/
def Can.sentNow (x : Can) : Can := { x with sending := none, txFrames := x.txFrames + 1, tec := x.tec - 1, unack := 0 }

/-- The FIFO without the entry that was sent, whose object has no collisions to count any more (R325). -/
def Can.dequeued (x : Can) (e : TxEntry) (rest : List TxEntry) : Can :=
  { x with fifo := rest, txo := vmod x.txo e.obj (fun o => { o with coll := 0 }) }

section
variable {c : Fin 6} {e : TxEntry} {l : List TxEntry} {s : State} (hsend : (s.blk.can c).sending = some .fifo)
  (hst : (s.blk.can c).state = .active) (halone : (s.blk.can c).alone = false) (htec : (s.blk.can c).tec ≤ 127) (hrec : (s.blk.can c).recCnt ≤ 127)
  (hfifo : (s.blk.can c).fifo = e :: l)
include hsend hst halone htec hrec hfifo

theorem canTxSuccess_cans :
    (canTxSuccess c .fifo s.blk).cans = (((s.blk.measureDelay c .fifo).modCan c Can.sentNow).modCan c (·.dequeued e l)).cans := by
  obtain ⟨⟨w, hcan⟩, -⟩ := s.blk.measureDelay_can c .fifo
  have hsent : (((s.blk.measureDelay c .fifo).modCan c fun x =>
      { x with sending := none, txFrames := x.txFrames + 1, tec := x.tec - 1, unack := 0 }).aloneClear c).canState c =
      (s.blk.measureDelay c .fifo).modCan c Can.sentNow := by
    have hself : ((s.blk.measureDelay c .fifo).modCan c Can.sentNow).can c = { (s.blk.can c).sentNow with tdcv := w } := by
      rw [Blk.modCan_can_self, hcan]
      rfl
    have hclear : ((s.blk.measureDelay c .fifo).modCan c Can.sentNow).aloneClear c = (s.blk.measureDelay c .fifo).modCan c Can.sentNow :=
      if_pos (by rw [hself]; exact halone)
    refine (congrArg (Blk.canState · c) hclear).trans (Blk.canState_of_stays_active ?_ ?_ ?_) <;> rw [hself]
    · exact hst
    · exact (Nat.sub_le ..).trans htec
    · exact hrec
  unfold canTxSuccess
  dsimp only
  rw [if_neg (by simp [hsend]), hsent, hfifo]
  dsimp only
  split
  · exact Blk.engineWrite_cans ..
  · rfl

theorem runs_canTxSuccess : Safety.runs (.canTxSuccess c .fifo) s fun t =>
      (t.blk.can c).sending = none ∧ (t.blk.can c).fifo = l ∧ (t.blk.can c).txFrames = (s.blk.can c).txFrames + 1 ∧ (t.blk.can c).tec = (s.blk.can c).tec - 1
      ∧ (t.blk.can c).unack = 0 ∧ (t.blk.can c).rxo = (s.blk.can c).rxo ∧ (∀ d : Fin 6, d ≠ c → t.blk.can d = s.blk.can d) ∧ t.mem = s.mem := by
  have hcans := canTxSuccess_cans hsend hst halone htec hrec hfifo
  obtain ⟨⟨w, hcan⟩, hothers⟩ := s.blk.measureDelay_can c .fifo
  have hself : (canTxSuccess c .fifo s.blk).can c = ({ s.blk.can c with tdcv := w } : Can).sentNow.dequeued e l :=
    (congrArg (·.get c) hcans).trans ((Blk.modCan_can_self ..).trans (by rw [Blk.modCan_can_self, hcan]))
  refine runs_onBlk rfl rfl ?_
  dsimp only
  rw [hself]
  exact ⟨rfl, rfl, rfl, rfl, rfl, rfl,
    fun d hd => (congrArg (·.get d) hcans).trans ((Blk.modCan_can_ne _ hd _).trans ((Blk.modCan_can_ne _ hd _).trans (hothers d hd))), rfl⟩

end

/-! ### Errors (R322, R323) -/

theorem bits_lastErrWord (e : CanErr) (data tx : Bool) : bits (lastErrWord e data tx) 2 0 = errCode e := by
  cases e <;> cases data <;> cases tx <;> rfl

/-- Whatever the counters say, the change of state keeps them and the last error. -/
theorem Blk.canState_kept {b : Blk} {c : Fin 6} (hon : (b.can c).onBus = true) :
    ((b.canState c).can c).recCnt = (b.can c).recCnt ∧ ((b.canState c).can c).tec = (b.can c).tec
      ∧ ((b.canState c).can c).errFrames = (b.can c).errFrames ∧ ((b.canState c).can c).lastErr = (b.can c).lastErr
      ∧ ((b.canState c).can c).state = (b.can c).running.state ∧ ∀ d, d ≠ c → (b.canState c).can d = b.can d := by
  by_cases htec : (b.can c).tec ≤ 255
  · obtain ⟨⟨st, hself⟩, hothers, -⟩ := Blk.canState_confined hon htec
    rw [hself]
    exact ⟨rfl, rfl, rfl, rfl, rfl, hothers⟩
  · obtain ⟨hself, hothers, -⟩ := Blk.canState_busOff hon (Nat.lt_of_not_le htec)
    rw [hself]
    exact ⟨rfl, rfl, rfl, rfl, rfl, hothers⟩

/-- A receiver's error counted (R322). -/
def Can.rxErrored (x : Can) (e : CanErr) (kind : CanErrKind) (data : Bool) : Can :=
  { x with recCnt := satAdd x.recCnt (recAdd kind) 255, errFrames := satInc x.errFrames 0xFFFFFFFF,
           lastErr := lastErrWord e data false }

theorem canRxError_eq {c : Fin 6} {b : Blk} (e : CanErr) (k : CanErrKind) (d : Bool) (hon : (b.can c).onBus = true) :
    canRxError c e k d b = (b.modCan c (·.rxErrored e k d)).canState c := if_neg (by simp [hon])

theorem runs_canRxError (c : Fin 6) (e : CanErr) (k : CanErrKind) (d : Bool) (s : State) (hon : (s.blk.can c).onBus = true) :
    Safety.runs (.canRxError c e k d) s fun t =>
    (t.blk.can c).recCnt = satAdd (s.blk.can c).recCnt (recAdd k) 255 ∧ (t.blk.can c).tec = (s.blk.can c).tec
    ∧ (t.blk.can c).errFrames = satInc (s.blk.can c).errFrames 0xFFFFFFFF ∧ (t.blk.can c).lastErr = lastErrWord e d false
    ∧ ((s.blk.can c).tec ≤ 127 → (t.blk.can c).state = (if 127 < (t.blk.can c).recCnt then .passive else .active))
    ∧ (∀ f : Fin 6, f ≠ c → t.blk.can f = s.blk.can f) ∧ t.mem = s.mem := by
  have hself : (s.blk.modCan c (·.rxErrored e k d)).can c = (s.blk.can c).rxErrored e k d := Blk.modCan_can_self ..
  obtain ⟨hrec, htec, hframes, hlast, hstate, hothers⟩ := Blk.canState_kept (b := s.blk.modCan c (·.rxErrored e k d)) (c := c)
    (by rw [hself]; exact hon)
  rw [hself] at hrec htec hframes hlast hstate
  refine runs_onBlk rfl (canRxError_eq e k d hon) ⟨hrec, htec, hframes, hlast, fun hlow => ?_,
    fun f hf => (hothers f hf).trans (Blk.modCan_can_ne _ hf _), rfl⟩
  dsimp only
  rw [hstate, hrec, Can.running]
  have hlow' : ((s.blk.can c).rxErrored e k d).tec ≤ 127 := hlow
  simp [Nat.not_lt.2 hlow', show ¬ 255 < ((s.blk.can c).rxErrored e k d).tec by omega]

end Sys2Proof.Machine
end

section
/-! SUPPORT. Transmission errors, bus-off and its end, and rearming (R322 to R325). -/

namespace Sys2Proof.Machine
open Sys2Proof

/-! ### Transmission errors (R322) -/

/-- A transmitter's plain error counted; it ends the attempt (R322). -/
def Can.txErrored (x : Can) (e : CanErr) (data : Bool) : Can :=
  { x with tec := min (x.tec + 8) 256, errFrames := satInc x.errFrames 0xFFFFFFFF, lastErr := lastErrWord e data true, sending := none }

section
variable {c : Fin 6} {e : CanErr} {w : CanField} {s : State} (d : Bool) (hon : (s.blk.can c).onBus = true)
  (hsend : (s.blk.can c).sending = some .fifo) (hack : e ≠ .ack) (hfield : w = .arbitration ∨ w = .other)
include hon hsend hack hfield

/-- Outside the fields of a collision, a plain error of the FIFO's head is its count and what the state makes of it. -/
theorem canTxError_plain : canTxError c .fifo e .plain w d s.blk = (s.blk.modCan c (·.txErrored e d)).canState c := by
  have hfield' : ¬ (w = .control ∨ w = .data) := by rcases hfield with rfl | rfl <;> simp
  unfold canTxError Blk.countUnack
  simp [hon, hsend, hack, hfield', endsAttempt, Can.tecAdd]
  rfl

theorem runs_canTxError_counted (htec : (s.blk.can c).tec ≤ 127) (hrec : (s.blk.can c).recCnt ≤ 127) :
    Safety.runs (.canTxError c .fifo e .plain w d) s fun t =>
      (t.blk.can c).tec = (s.blk.can c).tec + 8 ∧ (t.blk.can c).sending = none ∧ (t.blk.can c).fifo = (s.blk.can c).fifo
      ∧ (t.blk.can c).state = (if 127 < (s.blk.can c).tec + 8 then .passive else .active)
      ∧ (t.blk.can c).lastErr = lastErrWord e d true ∧ t.blk = { s.blk with cans := t.blk.cans, evs := t.blk.evs } ∧ t.mem = s.mem := by
  have hself : (s.blk.modCan c (·.txErrored e d)).can c = (s.blk.can c).txErrored e d := Blk.modCan_can_self ..
  have hmin : min ((s.blk.can c).tec + 8) 256 = (s.blk.can c).tec + 8 := by omega
  obtain ⟨⟨st, hcan⟩, -, hblk⟩ := Blk.canState_confined (b := s.blk.modCan c (·.txErrored e d)) (c := c) (by rw [hself]; exact hon)
    (by rw [hself]; show min _ _ ≤ _; omega)
  refine runs_onBlk rfl (canTxError_plain d hon hsend hack hfield) ?_
  dsimp only
  rw [hcan, hself]
  refine ⟨hmin, rfl, rfl, ?_, rfl, hblk, rfl⟩
  have hlow : ¬ 255 < (s.blk.can c).tec + 8 := by omega
  simp [Can.running, Can.txErrored, hmin, hlow, Nat.not_lt.2 hrec]

theorem runs_canTxError_busOff (htec : 248 ≤ (s.blk.can c).tec) : Safety.runs (.canTxError c .fifo e .plain w d) s fun t =>
      (t.blk.can c).state = .busOff ∧ (t.blk.can c).boffDt = s.blk.time.dt ∧ (t.blk.can c).boffWait = false ∧ (t.blk.can c).sending = none
      ∧ ((s.blk.can c).boffFlush = true → (t.blk.can c).fifo = []) ∧ ((s.blk.can c).boffFlush = false → (t.blk.can c).fifo = (s.blk.can c).fifo)
      ∧ ((s.blk.can c).trefSlot = none → Safety.room s.blk (srcCan c) → Safety.lastRecord t.blk = some (srcCan c, 3, 3, arg32 (errCode e), hw)) ∧ t.mem = s.mem := by
  have hself : (s.blk.modCan c (·.txErrored e d)).can c = (s.blk.can c).txErrored e d := Blk.modCan_can_self ..
  have hover : 255 < ((s.blk.can c).txErrored e d).tec := by show 255 < min _ _; omega
  obtain ⟨hcan, -, hrecord⟩ := Blk.canState_busOff (b := s.blk.modCan c (·.txErrored e d)) (c := c) (by rw [hself]; exact hon)
    (by rw [hself]; exact hover)
  rw [hself] at hcan hrecord
  have hlast : bits ((s.blk.can c).txErrored e d).lastErr 2 0 = errCode e := bits_lastErrWord e d true
  rw [hlast] at hrecord
  refine runs_onBlk rfl (canTxError_plain d hon hsend hack hfield) ?_
  dsimp only
  rw [hcan]
  exact ⟨if_pos hover, rfl, rfl, rfl, fun hflush => if_pos hflush, fun hflush => if_neg fun h => Bool.false_ne_true (hflush.symm.trans h),
    fun htref hroom => hrecord htref ((Safety.room_congr rfl).2 hroom), rfl⟩

end

/-! ### Bus-off and its end (R323) -/

section
variable {c : Fin 6} {s : State} (hoff : (s.blk.can c).state = .busOff)
include hoff

theorem runs_boffDelayExpiry :
    ((s.blk.can c).boffAuto = true → Safety.runs (.boffDelayExpiry c) s fun t => t.blk.can c = { s.blk.can c with boffWait := true } ∧ t.blk = { s.blk with cans := t.blk.cans } ∧ t.mem = s.mem)
    ∧ ((s.blk.can c).boffAuto = false → Safety.runs (.boffDelayExpiry c) s fun t => t = s) :=
  ⟨fun hauto => runs_onBlk rfl (if_neg (by simp [hoff, hauto])) ⟨Blk.modCan_can_self .., rfl, rfl⟩,
    fun hauto => runs_onBlk rfl (if_pos (.inr hauto)) rfl⟩

theorem runs_canCmdRestart :
    ((s.blk.can c).boffAuto = false → Safety.runs (.canCmdRestart c) s fun t => t.blk.can c = { s.blk.can c with boffWait := true } ∧ t.blk = { s.blk with cans := t.blk.cans } ∧ t.mem = s.mem)
    ∧ ((s.blk.can c).boffAuto = true → Safety.runs (.canCmdRestart c) s fun t => t = s) :=
  ⟨fun hauto => runs_onBlk rfl (if_neg (by simp [hoff, hauto])) ⟨Blk.modCan_can_self .., rfl, rfl⟩,
    fun hauto => runs_onBlk rfl (if_pos (.inr hauto)) rfl⟩

theorem runs_busOffRecovered (hwait : (s.blk.can c).boffWait = true) :
    Safety.runs (.busOffRecovered c) s fun t => (t.blk.can c).state = .active ∧ (t.blk.can c).tec = 0 ∧ (t.blk.can c).recCnt = 0
      ∧ (Safety.room s.blk (srcCan c) → Safety.lastRecord t.blk = some (srcCan c, 4, 1, arg32 (min (s.blk.since (s.blk.can c).boffDt / 1000000) 0xFFFFFFFF), hw))
      ∧ (∀ d : Fin 6, d ≠ c → t.blk.can d = s.blk.can d) ∧ t.blk = { s.blk with cans := t.blk.cans, evs := t.blk.evs } ∧ t.mem = s.mem := by
  refine runs_onBlk rfl (if_neg (by simp [hoff, hwait])) ?_
  dsimp only
  rw [Blk.cev_can, Blk.modCan_can_self]
  exact ⟨rfl, rfl, rfl, fun hroom => Blk.cev_lastRecord (by rfl) hroom .., fun d hd => by rw [Blk.cev_can, Blk.modCan_can_ne _ hd],
    by rw [Blk.cev_eq]; rfl, rfl⟩

end

/-! ### Rearming (R325) -/

/-- A withdrawn object rearmed. -/
def TxObj.rearmed (o : TxObj) : TxObj := { o with withdrawn := false, coll := 0 }

/-- The turn of one object in CAN_CMD_REARM. -/
def Blk.rearm (c : Fin 6) (b : Blk) (j : Fin 64) : Blk :=
  if ((b.can c).txo.get j).withdrawn = false then b
  else (b.modCan c fun x => { x with txo := vmod x.txo j TxObj.rearmed }).cev c 8 1 j.val

theorem canCmdRearm_eq (c : Fin 6) (b : Blk) : canCmdRearm c b = (upTo 64).foldl (Blk.rearm c) b := rfl

section
variable (c : Fin 6) (b : Blk) (j : Fin 64)

/-- The turn of an object acts on that object alone, with a record where it was withdrawn. -/
theorem Blk.rearm_spec :
    ((Blk.rearm c b j).can c).txo.get j = (if ((b.can c).txo.get j).withdrawn = false then (b.can c).txo.get j else ((b.can c).txo.get j).rearmed)
      ∧ (∀ i, i ≠ j → ((Blk.rearm c b j).can c).txo.get i = (b.can c).txo.get i) ∧ (∀ d, d ≠ c → (Blk.rearm c b j).can d = b.can d)
      ∧ Blk.rearm c b j = { b with cans := (Blk.rearm c b j).cans, evs := (Blk.rearm c b j).evs } := by
  unfold Blk.rearm
  split
  · exact ⟨rfl, fun _ _ => rfl, fun _ _ => rfl, rfl⟩
  · rw [Blk.cev_can, Blk.modCan_can_self]
    exact ⟨vmod_get_self .., fun i hi => vmod_get_ne _ _ _ _ hi.symm, fun d hd => by rw [Blk.cev_can, Blk.modCan_can_ne _ hd],
      by rw [Blk.cev_eq]; rfl⟩

theorem canCmdRearm_txo :
    ((canCmdRearm c b).can c).txo.get j =
      if ((b.can c).txo.get j).withdrawn = false then (b.can c).txo.get j else ((b.can c).txo.get j).rearmed := by
  obtain ⟨a, ha, hfold⟩ := foldl_own_turn (l := upTo 64) id (fun b : Blk => (b.can c).txo.get j) (Blk.rearm c) b
    ((List.map_id (upTo 64)).symm ▸ List.nodup_finRange 64) (List.mem_finRange j)
    fun i a hi => (Blk.rearm_spec c a i).2.1 j hi.symm
  rw [canCmdRearm_eq, hfold, (Blk.rearm_spec c a j).1, show (a.can c).txo.get j = (b.can c).txo.get j from ha]

theorem canCmdRearm_frame :
    (∀ d, d ≠ c → (canCmdRearm c b).can d = b.can d)
      ∧ canCmdRearm c b = { b with cans := (canCmdRearm c b).cans, evs := (canCmdRearm c b).evs } := by
  rw [canCmdRearm_eq]
  refine List.foldlRecOn (motive := fun t : Blk => (∀ d, d ≠ c → t.can d = b.can d) ∧ t = { b with cans := t.cans, evs := t.evs })
    _ _ ⟨fun _ _ => rfl, rfl⟩ fun t ⟨hothers, hblk⟩ i _ => ?_
  obtain ⟨-, -, hturn, hframe⟩ := Blk.rearm_spec c t i
  exact ⟨fun d hd => (hturn d hd).trans (hothers d hd), hframe.trans (congrArg (fun u : Blk => { u with cans := (Blk.rearm c t i).cans, evs := (Blk.rearm c t i).evs }) hblk)⟩

end

theorem runs_canCmdRearm (c : Fin 6) (s : State) : Safety.runs (.canCmdRearm c) s fun t =>
    (∀ j : Fin 64, ((t.blk.can c).txo.get j).withdrawn = false ∧ ((t.blk.can c).txo.get j).cfg = ((s.blk.can c).txo.get j).cfg
      ∧ (((s.blk.can c).txo.get j).withdrawn = false → (t.blk.can c).txo.get j = (s.blk.can c).txo.get j))
    ∧ (∀ d : Fin 6, d ≠ c → t.blk.can d = s.blk.can d) ∧ t.blk = { s.blk with cans := t.blk.cans, evs := t.blk.evs } ∧ t.mem = s.mem := by
  obtain ⟨hothers, hblk⟩ := canCmdRearm_frame c s.blk
  refine runs_onBlk rfl rfl ?_
  dsimp only
  refine ⟨fun j => ?_, hothers, hblk, rfl⟩
  rw [canCmdRearm_txo]
  split
  next h => exact ⟨h, rfl, fun _ => rfl⟩
  next h => exact ⟨rfl, rfl, fun h' => absurd h' h⟩

/-- Settles O45: each row of the CAN family, by what it does to its controller. -/
theorem canFramesAndErrors : Obligations.CanFramesAndErrors :=
  ⟨runs_canFrameReceived, runs_canFrameReceived_off,
    fun _ _ _ _ _ hon halone hnext => runs_canTxEnqueue hon halone hnext,
    fun _ _ hon hlisten hfree hawake => runs_canHeadArbitration hon hlisten hfree hawake,
    fun _ _ _ _ hsend hst halone htec hrec hfifo => runs_canTxSuccess hsend hst halone htec hrec hfifo,
    fun _ _ _ h => runs_onBlk rfl (if_pos h) rfl,
    runs_canRxError,
    fun _ _ _ d _ hst hsend hack hfield htec hrec =>
      runs_canTxError_counted d (Can.onBus_of_active hst) hsend hack hfield htec hrec,
    fun _ _ _ d _ hst hsend hack hfield htec => runs_canTxError_busOff d (Can.onBus_of_passive hst) hsend hack hfield htec,
    fun _ _ hoff =>
      ⟨(runs_boffDelayExpiry hoff).1, (runs_boffDelayExpiry hoff).2, (runs_canCmdRestart hoff).1, (runs_canCmdRestart hoff).2,
        runs_busOffRecovered hoff⟩,
    runs_canCmdRearm⟩

end Sys2Proof.Machine
end

section
/-! SUPPORT. Network management of one bus (R334 to R341): what a valid frame, the entry into FORMING, a record granted at once and the
agreement leave. -/

namespace Sys2Proof.Machine
open Sys2Proof

/-! ### A valid frame (R334, R346) -/

/-- The runs of AWAKE_REQ that a frame moves are the node's list, its longest run and its keep-alive time (R346). -/
theorem Nm.trackHold_eq (n : Nm) (f : NmFrame) (now : BitVec 64) :
    n.trackHold f now = { n with hold := (n.trackHold f now).hold, longest := (n.trackHold f now).longest,
                                 kaLast := (n.trackHold f now).kaLast } := by
  unfold Nm.trackHold
  split <;> rfl

section
variable (n : Nm) (f : NmFrame) (now : BitVec 64)

@[simp] theorem Nm.heard_present : (n.heard f now).present = addOnce n.present f.src := by rw [Nm.heard, Nm.trackHold_eq]
@[simp] theorem Nm.heard_state : (n.heard f now).state = n.state := by rw [Nm.heard, Nm.trackHold_eq]
@[simp] theorem Nm.heard_ctrl : (n.heard f now).ctrl = n.ctrl := by rw [Nm.heard, Nm.trackHold_eq]
@[simp] theorem Nm.heard_cntSleep : (n.heard f now).cntSleep = n.cntSleep := by rw [Nm.heard, Nm.trackHold_eq]
@[simp] theorem Nm.heard_wakeBus : (n.heard f now).wakeBus = n.wakeBus := by rw [Nm.heard, Nm.trackHold_eq]
@[simp] theorem Nm.heard_addr : (n.heard f now).addr = n.addr := congrArg (bits · 7 2) (n.heard_ctrl f now)
@[simp] theorem Nm.heard_ring : (n.heard f now).ring = n.ring := congrArg (bit · 1) (n.heard_ctrl f now)

/-- The sender of a valid frame is in P (R334). -/
theorem Nm.mem_present_heard : f.src ∈ (n.heard f now).present := by
  rw [Nm.heard_present]
  exact mem_addOnce ..

@[simp] theorem Nm.ringFrame_token : (n.ringFrame f).token = true ↔ f.dst = n.addr := decide_eq_true_iff

end

/-! ### The entry into FORMING (R336) -/

/-- Network management of a bus that enters FORMING: P holds the node alone, and nothing is pending. -/
def Nm.forms (n : Nm) : Nm :=
  { n with state := .forming, present := [n.addr], ringSeen := false, expiries := 0, token := false, tokenSent := false,
           confirming := false, armed := false, confirmers := [] }

/-- The controller of a bus that enters FORMING: it runs, and its FIFO is not held. -/
def Can.forms (x : Can) : Can :=
  if x.state = .asleep then { x.running with fifoHeld := false } else { x with fifoHeld := false }

theorem Can.forms_fifoHeld (x : Can) : x.forms.fifoHeld = false := by
  unfold Can.forms
  split <;> rfl

section
variable (b : Blk) (c : Fin 6)

/-- A node with a ring enters FORMING with its frame in the slot. -/
theorem Blk.nmForming_of_ring (hring : (b.nm c).ring = true) (k : Nat) :
    b.nmForming c (some k) = ((b.modCan c Can.forms).modNm c fun n => n.forms.send k n.addr false).wakeOutNow := by
  have hkept : (((b.modCan c Can.forms).modNm c Nm.forms).nm c).ring = true := by
    rw [Blk.modNm_nm_self]
    exact hring
  have hentry : b.nmForming c (some k) = ((if (((b.modCan c Can.forms).modNm c Nm.forms).nm c).ring = false
      then ((b.modCan c Can.forms).modNm c Nm.forms).nmKeepAlive c 1 else (b.modCan c Can.forms).modNm c Nm.forms).modNm c
        fun n => n.send k n.addr false).wakeOutNow := rfl
  rw [hentry, if_neg (ne_false_of_eq_true hkept), Blk.modNm_modNm]
  rfl

@[simp] theorem Blk.wakeOutNow_nms : b.wakeOutNow.nms = b.nms := rfl
@[simp] theorem Blk.wakeOutNow_cans : b.wakeOutNow.cans = b.cans := rfl
@[simp] theorem Blk.wakeOutNow_nm (d : Fin 6) : b.wakeOutNow.nm d = b.nm d := rfl
@[simp] theorem Blk.wakeOutNow_can (d : Fin 6) : b.wakeOutNow.can d = b.can d := rfl

variable {b c} in
theorem Blk.nmForming_nm_self (hring : (b.nm c).ring = true) (k : Nat) :
    (b.nmForming c (some k)).nm c = (b.nm c).forms.send k (b.nm c).addr false := by
  rw [Blk.nmForming_of_ring b c hring, Blk.wakeOutNow_nm, Blk.modNm_nm_self]
  rfl

variable {b c} in
theorem Blk.nmForming_can_self (hring : (b.nm c).ring = true) (k : Nat) :
    (b.nmForming c (some k)).can c = (b.can c).forms := by
  rw [Blk.nmForming_of_ring b c hring, Blk.wakeOutNow_can, Blk.modNm_can, Blk.modCan_can_self]

/-! ### A record granted at once (R72) -/

/-- What a record granted at once leaves: whatever a change of the sequencer, the time base and NVM leaves alone. -/
theorem Blk.grantNow_keep {γ : Type} (view : Blk → γ) (hview : ∀ (a : Blk) e t n, view { a with evs := e, time := t, nvm := n } = view a)
    (p : PRec) : view (b.grantNow p).2.1 = view b := by
  have hgrant : ∀ (a : Blk) q, view (a.grantRec q).2 = view a := fun a q => by rw [Blk.grantRec_snd]; exact hview ..
  have hevs : ∀ (a : Blk) f, view (a.onEvs f) = view a := fun a _ => hview a _ a.time a.nvm
  have hlog : ∀ (a : Blk) r, view (a.toLog r) = view a := fun a r => by rw [Blk.toLog_eq]; exact hview a _ a.time a.nvm
  have hto : ∀ (a : Blk) v r, view (a.toView v r).1 = view a := fun a v r => by rw [Blk.toView_fst]; exact hevs ..
  have hdeliver : ∀ (a : Blk) r, view (a.deliver r).1 = view a := fun a r => by
    rw [(a.deliver_fst r).2]
    rw [← hlog a r]
    exact hview (a.toLog r) _ (a.toLog r).time (a.toLog r).nvm
  have hlost : ∀ (a : Blk) v, view (a.viewLost v).1 = view a := fun a v => by
    unfold Blk.viewLost
    dsimp only
    split
    · rfl
    · rw [hto, hlog, hevs, hgrant]
  have hlogLost : view b.logLostRec = view b := by
    unfold Blk.logLostRec
    dsimp only
    split
    · rfl
    · rw [hlog, hevs, hgrant]
  have hdue : view b.dueLost.1 = view b :=
    (foldl_keep (fun x : BW => view x.1) (fun x v => x.andThen (·.viewLost v)) (fun x v => hlost x.1 v) _ _).trans hlogLost
  rw [Blk.grantNow, hdeliver, hgrant, hdue]

/-! ### The agreement instant (R339 to R341) -/

/-- Network management of a bus at the agreement instant, with the SEQ of its record. -/
def Nm.agrees (c : Fin 6) (seq : BitVec 64) (n : Nm) : Nm :=
  { n with agreeSeq := seq, cntSleep := satInc n.cntSleep 0xFFFFFFFF, armed := decide (c.val < 4), state := .settle,
           token := false, tokenSent := false, confirming := false,
           slot := match n.slot with | some f => if f.kind = kWake then some f else none | none => none }

/-- The controller of a bus that settles: its FIFO waits (R340). -/
def Can.holds (x : Can) : Can := { x with fifoHeld := true }

theorem Blk.nmAgree_fst (addr : Nat) (ka : Bool) :
    ∃ p, (b.nmAgree c addr ka).1 = ((b.grantNow p).2.1.modNm c (Nm.agrees c (b.grantNow p).1)).modCan c Can.holds :=
  ⟨b.capture (srcNm c) 4 1 (arg32 (addr + 256 * b2n ka + 65536 * (b.nm c).present.length)) hw 0 false, by
    unfold Blk.nmAgree BW.map
    dsimp only
    rfl⟩

theorem Blk.nmAgree_nm (addr : Nat) (ka : Bool) : ∃ seq, (b.nmAgree c addr ka).1.nm c = (b.nm c).agrees c seq := by
  obtain ⟨p, hp⟩ := b.nmAgree_fst c addr ka
  have hkept : (b.grantNow p).2.1.nm c = b.nm c := b.grantNow_keep (·.nm c) (fun _ _ _ _ => rfl) p
  exact ⟨_, by rw [hp, Blk.modCan_nm, Blk.modNm_nm_self, hkept]⟩

theorem Blk.nmAgree_can (addr : Nat) (ka : Bool) : (b.nmAgree c addr ka).1.can c = (b.can c).holds := by
  obtain ⟨p, hp⟩ := b.nmAgree_fst c addr ka
  have hkept : (b.grantNow p).2.1.can c = b.can c := b.grantNow_keep (·.can c) (fun _ _ _ _ => rfl) p
  rw [hp, Blk.modCan_can_self, Blk.modNm_can, hkept]

end

end Sys2Proof.Machine
end

section
/-! SUPPORT. Frames of network management received and sent (R334 to R341, R344). -/

namespace Sys2Proof.Machine
open Sys2Proof

/-- A node that sleeps or is disabled, and a frame outside the range, change nothing (R334). -/
theorem runs_nmFrameReceived_unheard (c : Fin 6) (f : CanFrame) (s : State)
    (h : (s.blk.nm c).en = false ∨ (s.blk.nm c).state = .off ∨ (s.blk.nm c).state = .asleep ∨ inNmRange (s.blk.nm c).base f = false) :
    Safety.runs (.nmFrameReceived c f) s fun t => t.blk.nms = s.blk.nms ∧ t.blk.cans = s.blk.cans ∧ t.mem = s.mem :=
  runs_onMem rfl (if_pos h) ⟨rfl, rfl, rfl⟩

/-- What a frame does that a running node hears. -/
structure NmHears (b : Blk) (c : Fin 6) (f : CanFrame) : Prop where
  en : (b.nm c).en = true
  on : (b.nm c).state ≠ .off
  awake : (b.nm c).state ≠ .asleep
  range : inNmRange (b.nm c).base f = true

section
variable {c : Fin 6} {f : CanFrame} {b : Blk} (hears : NmHears b c f)
include hears

theorem NmHears.passes : ¬ ((b.nm c).en = false ∨ (b.nm c).state = .off ∨ (b.nm c).state = .asleep ∨ inNmRange (b.nm c).base f = false) := by
  obtain ⟨hen, hon, hawake, hrange⟩ := hears
  simp [hen, hon, hawake, hrange]

theorem nmFrameReceived_invalid (hdec : decodeNm (b.nm c).base f = none) :
    nmFrameReceived c f b = (b.modNm c fun n => { n with sticky := orBits n.sticky 1 }, []) := by
  unfold nmFrameReceived
  dsimp only
  rw [if_neg hears.passes, hdec]

variable {g : NmFrame} (hdec : decodeNm (b.nm c).base f = some g)
include hdec

theorem nmFrameReceived_forming (hst : (b.nm c).state = .forming) :
    nmFrameReceived c f b = (if g.kind = kRing then (b.modNm c (·.heard g b.time.dt)).modNm c (·.ringFrame g)
      else b.modNm c (·.heard g b.time.dt), []) := by
  unfold nmFrameReceived
  dsimp only
  rw [if_neg hears.passes, hdec, hst]

theorem nmFrameReceived_ring (hst : (b.nm c).state = .ring) (hkind : g.kind = kRing) :
    nmFrameReceived c f b = if g.flags.testBit 1 = true then ((b.modNm c (·.heard g b.time.dt)).modNm c (·.ringFrame g)).nmAgree c g.src false
      else ((b.modNm c (·.heard g b.time.dt)).modNm c (·.ringFrame g), []) := by
  have hstarts : ¬ decide (g.kind = kAlive ∨ g.kind = kWake) = true := by rw [hkind]; decide
  unfold nmFrameReceived
  dsimp only
  rw [if_neg hears.passes, hdec, hst]
  dsimp only
  rw [if_neg hstarts, if_pos hkind]

theorem nmFrameReceived_keepalive (hst : (b.nm c).state = .keepalive) (hring : (b.nm c).ring = true) (halone : (b.can c).alone = false)
    (hsrc : g.src ≠ (b.nm c).addr) : nmFrameReceived c f b = ((b.modNm c (·.heard g b.time.dt)).nmForming c (some kAlive), []) := by
  unfold nmFrameReceived
  dsimp only
  rw [if_neg hears.passes, hdec, hst]
  dsimp only
  rw [if_pos ⟨hring, halone, hsrc⟩]

theorem nmFrameReceived_settle (hst : (b.nm c).state = .settle) (hkind : g.kind = kWake ∨ g.kind = kAlive) :
    nmFrameReceived c f b = ((b.modNm c (·.heard g b.time.dt)).busWake c (if g.kind = kWake then .wakeFrame else .aliveFrame)
      (f.ident.zeroExtend 30), []) := by
  unfold nmFrameReceived
  dsimp only
  rw [if_neg hears.passes, hdec, hst]
  dsimp only
  rw [if_pos (decide_eq_true hkind.symm)]

end

/-! ### A wake frame while the bus settles (R344) -/

/-- A wake event in SETTLE that is not the module's own is counted as the bus's, and the bus forms its ring again. -/
theorem Blk.busWake_of_settle {b : Blk} {c : Fin 6} {cause : WakeCause} (hst : (b.nm c).state = .settle) (hring : (b.nm c).ring = true)
    (hown : ownWake cause = false) (ident : BitVec 30) :
    ((b.busWake c cause ident).nm c).state = .forming
    ∧ ((b.busWake c cause ident).nm c).wakeBus = satInc (b.nm c).wakeBus 0xFFFF
    ∧ ((b.busWake c cause ident).can c).fifoHeld = false := by
  unfold Blk.busWake
  extract_lets n code settle last heard b1 b2 b3
  have hnm1 : b2.nm c = b1.nm c := Blk.nmev_nm ..
  have hring2 : (b2.nm c).ring = true := by
    rw [hnm1, Blk.modNm_nm_self]
    exact hring
  have hnm : b3.nm c = (b2.nm c).forms.send (if ownWake cause = true then kWake else kAlive) (b2.nm c).addr false :=
    Blk.nmForming_nm_self hring2 _
  have hcan : b3.can c = (b2.can c).forms := Blk.nmForming_can_self hring2 _
  have hformed : (b3.nm c).state = .forming ∧ (b3.nm c).wakeBus = satInc (b.nm c).wakeBus 0xFFFF ∧ (b3.can c).fifoHeld = false := by
    rw [hnm, hcan, hnm1, Blk.modNm_nm_self]
    exact ⟨rfl, if_neg (by simp [hown]), Can.forms_fifoHeld _⟩
  rw [if_neg (by simp [n, hst])]
  split
  · exact hformed
  · exact hformed

/-! ### The rows -/

section
variable {c : Fin 6} {f : CanFrame} {s : State} (hears : NmHears s.blk c f)
include hears

theorem runs_nmFrameReceived_invalid (hdec : decodeNm (s.blk.nm c).base f = none) : Safety.runs (.nmFrameReceived c f) s fun t =>
      t.blk.nm c = { s.blk.nm c with sticky := orBits (s.blk.nm c).sticky 1 } ∧ (∀ d : Fin 6, d ≠ c → t.blk.nm d = s.blk.nm d)
        ∧ t.blk.cans = s.blk.cans ∧ t.mem = s.mem :=
  runs_onMem rfl (nmFrameReceived_invalid hears hdec) ⟨Blk.modNm_nm_self .., fun _ hd => Blk.modNm_nm_ne _ hd _, rfl, rfl⟩

variable {g : NmFrame} (hdec : decodeNm (s.blk.nm c).base f = some g)
include hdec

theorem runs_nmFrameReceived_forming (hst : (s.blk.nm c).state = .forming) :
    (g.kind = kRing → Safety.runs (.nmFrameReceived c f) s fun t =>
        (t.blk.nm c).state = .ring ∧ g.src ∈ (t.blk.nm c).present ∧ (t.blk.nm c).round = g.round
        ∧ ((t.blk.nm c).token = true ↔ g.dst = (s.blk.nm c).addr) ∧ (∀ d : Fin 6, d ≠ c → t.blk.nm d = s.blk.nm d)
        ∧ t.blk.cans = s.blk.cans ∧ t.mem = s.mem)
    ∧ (g.kind ≠ kRing → Safety.runs (.nmFrameReceived c f) s fun t =>
        (t.blk.nm c).state = .forming ∧ g.src ∈ (t.blk.nm c).present ∧ t.blk.cans = s.blk.cans ∧ t.mem = s.mem) := by
  refine ⟨fun hkind => runs_onMem rfl (nmFrameReceived_forming hears hdec hst) ?_,
    fun hkind => runs_onMem rfl (nmFrameReceived_forming hears hdec hst) ?_⟩
  · rw [if_pos hkind, Blk.modNm_modNm]
    dsimp only
    rw [Blk.heal_nm, Blk.modNm_nm_self]
    exact ⟨rfl, Nm.mem_present_heard .., rfl, by rw [Nm.ringFrame_token, Nm.heard_addr], fun d hd => Blk.modNm_nm_ne _ hd _, rfl, rfl⟩
  · rw [if_neg hkind]
    dsimp only
    rw [Blk.heal_nm, Blk.modNm_nm_self]
    exact ⟨by rw [Nm.heard_state, hst], Nm.mem_present_heard .., rfl, rfl⟩

theorem runs_nmFrameReceived_ring (hst : (s.blk.nm c).state = .ring) (hkind : g.kind = kRing) :
    (g.flags.testBit 1 = false → Safety.runs (.nmFrameReceived c f) s fun t =>
        (t.blk.nm c).state = .ring ∧ g.src ∈ (t.blk.nm c).present ∧ (t.blk.nm c).round = g.round
        ∧ ((t.blk.nm c).token = true ↔ g.dst = (s.blk.nm c).addr) ∧ t.blk.cans = s.blk.cans ∧ t.mem = s.mem)
    ∧ (g.flags.testBit 1 = true → Safety.runs (.nmFrameReceived c f) s fun t =>
        (t.blk.nm c).state = .settle ∧ (t.blk.nm c).armed = decide (c.val < 4) ∧ (t.blk.can c).fifoHeld = true
        ∧ (t.blk.nm c).cntSleep = satInc (s.blk.nm c).cntSleep 0xFFFFFFFF ∧ (t.blk.can c).fifo = (s.blk.can c).fifo) := by
  refine ⟨fun hplain => runs_onMem rfl (nmFrameReceived_ring hears hdec hst hkind) ?_,
    fun hconfirm => runs_onMem rfl (nmFrameReceived_ring hears hdec hst hkind) ?_⟩
  · rw [if_neg (ne_true_of_eq_false hplain), Blk.modNm_modNm]
    dsimp only
    rw [Blk.heal_nm, Blk.modNm_nm_self]
    exact ⟨rfl, Nm.mem_present_heard .., rfl, by rw [Nm.ringFrame_token, Nm.heard_addr], rfl, rfl⟩
  · rw [if_pos hconfirm, Blk.modNm_modNm]
    dsimp only
    obtain ⟨seq, hnm⟩ := (s.blk.modNm c fun n => (n.heard g s.blk.time.dt).ringFrame g).nmAgree_nm c g.src false
    rw [Blk.heal_nm, Blk.heal_can, hnm, Blk.nmAgree_can, Blk.modNm_nm_self]
    exact ⟨rfl, rfl, rfl, congrArg (satInc · 0xFFFFFFFF) (Nm.heard_cntSleep ..), rfl⟩

theorem runs_nmFrameReceived_keepalive (hst : (s.blk.nm c).state = .keepalive) (hring : (s.blk.nm c).ring = true)
    (halone : (s.blk.can c).alone = false) (hsrc : g.src ≠ (s.blk.nm c).addr) : Safety.runs (.nmFrameReceived c f) s fun t =>
        (t.blk.nm c).state = .forming ∧ (t.blk.nm c).present = [(s.blk.nm c).addr] ∧ t.mem = s.mem := by
  refine runs_onMem rfl (nmFrameReceived_keepalive hears hdec hst hring halone hsrc) ?_
  dsimp only
  rw [Blk.heal_nm, Blk.nmForming_nm_self (by rw [Blk.modNm_nm_self, Nm.heard_ring, hring]), Blk.modNm_nm_self]
  exact ⟨rfl, congrArg ([·]) (Nm.heard_addr ..), rfl⟩

theorem runs_nmFrameReceived_settle (hst : (s.blk.nm c).state = .settle) (hkind : g.kind = kWake ∨ g.kind = kAlive)
    (hring : (s.blk.nm c).ring = true) : Safety.runs (.nmFrameReceived c f) s fun t =>
        (t.blk.nm c).state = .forming ∧ (t.blk.nm c).wakeBus = satInc (s.blk.nm c).wakeBus 0xFFFF ∧ (t.blk.can c).fifoHeld = false ∧ t.mem = s.mem := by
  have hown : ownWake (if g.kind = kWake then .wakeFrame else .aliveFrame) = false := by split <;> rfl
  obtain ⟨hforming, hcount, hheld⟩ := Blk.busWake_of_settle (b := s.blk.modNm c (·.heard g s.blk.time.dt)) (c := c)
    (by rw [Blk.modNm_nm_self, Nm.heard_state, hst]) (by rw [Blk.modNm_nm_self, Nm.heard_ring, hring]) hown (f.ident.zeroExtend 30)
  rw [Blk.modNm_nm_self, Nm.heard_wakeBus] at hcount
  refine runs_onMem rfl (nmFrameReceived_settle hears hdec hst hkind) ?_
  dsimp only
  rw [Blk.heal_nil]
  exact ⟨hforming, hcount, hheld, rfl⟩

end

/-- The frame of the slot was sent: the token goes with a RING frame, and its confirmation is the holder's agreement (R338, R339). -/
theorem runs_nmFrameSent {c : Fin 6} {f : NmFrame} {s : State} (hsent : (s.blk.nm c).inFlight = some f) :
    (f.kind = kRing → f.flags.testBit 1 = true → (s.blk.nm c).state = .ring → Safety.runs (.nmFrameSent c) s fun t =>
      (t.blk.nm c).state = .settle ∧ (t.blk.nm c).inFlight = none ∧ (t.blk.nm c).armed = decide (c.val < 4) ∧ (t.blk.can c).fifoHeld = true)
    ∧ (f.kind = kRing → f.flags.testBit 1 = false → Safety.runs (.nmFrameSent c) s fun t =>
      t.blk.nm c = { s.blk.nm c with inFlight := none, coll := 0, token := false, tokenSent := true } ∧ t.blk.cans = s.blk.cans ∧ t.mem = s.mem)
    ∧ (f.kind = kKeepAlive → Safety.runs (.nmFrameSent c) s fun t =>
      t.blk.nm c = { s.blk.nm c with inFlight := none, coll := 0 } ∧ t.blk.cans = s.blk.cans ∧ t.mem = s.mem) := by
  have hring : f.kind = kRing → nmFrameSent c s.blk =
      if f.flags.testBit 1 = true ∧ (s.blk.nm c).state = .ring
      then (s.blk.modNm c fun n => { n with inFlight := none, coll := 0, token := false, tokenSent := true }).nmAgree c (s.blk.nm c).addr false
      else (s.blk.modNm c fun n => { n with inFlight := none, coll := 0, token := false, tokenSent := true }, []) := fun hkind => by
    unfold nmFrameSent
    dsimp only
    rw [hsent]
    dsimp only
    rw [if_pos hkind, Blk.modNm_modNm]
  refine ⟨fun hkind hconfirm hst => runs_onMem rfl ((hring hkind).trans (if_pos ⟨hconfirm, hst⟩)) ?_,
    fun hkind hplain => runs_onMem rfl ((hring hkind).trans (if_neg (by simp [hplain]))) ?_, fun hkind => ?_⟩
  · dsimp only
    obtain ⟨seq, hnm⟩ := (s.blk.modNm c fun n => { n with inFlight := none, coll := 0, token := false, tokenSent := true }).nmAgree_nm c
      (s.blk.nm c).addr false
    rw [Blk.heal_nm, Blk.heal_can, hnm, Blk.nmAgree_can, Blk.modNm_nm_self]
    exact ⟨rfl, rfl, rfl, rfl⟩
  · exact ⟨Blk.modNm_nm_self .., rfl, rfl⟩
  · have hkept : nmFrameSent c s.blk = (s.blk.modNm c fun n => { n with inFlight := none, coll := 0 }, []) := by
      unfold nmFrameSent
      dsimp only
      rw [hsent]
      dsimp only
      rw [if_neg (by rw [hkind]; decide), if_neg fun h => absurd h.1 (by rw [hkind]; decide)]
    exact runs_onMem rfl hkept ⟨Blk.modNm_nm_self .., rfl, rfl⟩

/-- Settles O42, clause by clause: each kind of frame by the state of the node that hears it. -/
theorem nmFramesFormTheRing : Obligations.NmFramesFormTheRing :=
  ⟨runs_nmFrameReceived_unheard,
    fun _ _ _ hen hon hawake hrange =>
      have hears : NmHears _ _ _ := ⟨hen, hon, hawake, hrange⟩
      ⟨runs_nmFrameReceived_invalid hears, fun _ hdec hsrc =>
        ⟨fun hst => (runs_nmFrameReceived_forming hears hdec hst).1, fun hst => (runs_nmFrameReceived_forming hears hdec hst).2,
          fun hst hkind => (runs_nmFrameReceived_ring hears hdec hst hkind).1,
          fun hst hkind => (runs_nmFrameReceived_ring hears hdec hst hkind).2,
          fun hst hring halone => runs_nmFrameReceived_keepalive hears hdec hst hring halone hsrc,
          fun hst hkind hring => runs_nmFrameReceived_settle hears hdec hst hkind hring⟩⟩,
    fun _ _ _ => runs_nmFrameSent⟩

end Sys2Proof.Machine
end

section
/-! SUPPORT. The timers of network management (R332, R333, R337 to R341, R345, R346). -/

namespace Sys2Proof.Machine
open Sys2Proof

/-! ### What the timers do -/

theorem arg32_toNat (w : Word) : arg32 w.toNat = w := BitVec.eq_of_toNat_eq (toNat_arg32 w.isLt)

/-- The flags of a frame name what the node needs and knows (R334, R338). -/
theorem testBit_flags (p q r t : Bool) :
    (b2n p + 2 * b2n q + 4 * b2n r + 8 * b2n t).testBit 0 = p ∧ (b2n p + 2 * b2n q + 4 * b2n r + 8 * b2n t).testBit 1 = q
      ∧ (b2n p + 2 * b2n q + 4 * b2n r + 8 * b2n t).testBit 2 = r := by
  revert p q r t
  decide

theorem Nm.testBit_frame_flags (n : Nm) (kind dst : Nat) (ack : Bool) :
    (n.frame kind dst ack).flags.testBit 0 = decide (n.ownReq = 0) ∧ (n.frame kind dst ack).flags.testBit 1 = ack
      ∧ (n.frame kind dst ack).flags.testBit 2 = decide (n.ownReq ≠ 0) := testBit_flags ..

/-- One address less leaves at least two of three. -/
theorem two_le_length_filter_ne {l : List Nat} (hnodup : l.Nodup) (hlen : 3 ≤ l.length) (a : Nat) : 2 ≤ (l.filter (· ≠ a)).length := by
  have herase : l.filter (· ≠ a) = l.erase a := by
    rw [hnodup.erase_eq_filter]
    exact List.filter_congr fun x _ => by by_cases h : x = a <;> simp [h]
  have := List.le_length_erase (a := a) (l := l)
  rw [herase]
  omega

/-- Network management of a bus in keep-alive mode, entered now (R341). -/
def Nm.keepsAlive (n : Nm) (now : BitVec 64) : Nm :=
  { n with state := .keepalive, token := false, tokenSent := false, confirming := false, kaLast := now, sticky := orBits n.sticky 4 }

/-- The token passed to the successor with what the holder knows (R338, R339). -/
def Nm.passes (n : Nm) : Nm :=
  { (if n.isLowest then { n with round := n.round + 1 } else n).send kRing
      (if n.isLowest then { n with round := n.round + 1 } else n).succ n.agreed with confirmers := [], token := false }

/-- The successor that stayed silent leaves P (R338). -/
def Nm.drops (gone : Nat) (n : Nm) : Nm :=
  { n with present := n.present.filter (· ≠ gone), tokenSent := false, skips := satInc n.skips 0xFFFF, sticky := orBits n.sticky 2 }

theorem Nm.bit_drops_sticky (gone : Nat) (n : Nm) : bit (n.drops gone).sticky 1 = true := testBit_orBits n.sticky (i := 1) (by decide)

/-- The silent successor dropped, with its record. -/
def Blk.nmDrop (b : Blk) (c : Fin 6) : Blk := (b.modNm c (Nm.drops (b.nm c).succ)).nmev c 2 2 (b.nm c).succ

/-- Network management of a bus that goes to sleep (R340). -/
def Nm.sleeps (c : Fin 6) (n : Nm) : Nm :=
  { n with state := .asleep, slot := none, inFlight := none, armed := decide (c.val < 4), frameWake := false, wakeFilter := none, fec := 0 }

/-- A false wake counted, with the filter that caused it (R345). -/
def Nm.wokeFalsely (n : Nm) : Nm :=
  { n with falseWakes := satInc n.falseWakes 0xFFFF, sticky := orBits n.sticky 8,
           wfCount := match n.wakeFilter with
             | some f => vmod n.wfCount f (fun p => (p.1, satInc p.2 0xFFFF))
             | none => n.wfCount }

theorem Nm.wokeFalsely_wfCount {n : Nm} {f : Fin 4} (h : n.wakeFilter = some f) :
    (n.wokeFalsely.wfCount.get f).2 = satInc (n.wfCount.get f).2 0xFFFF := by
  unfold Nm.wokeFalsely
  rw [h]
  exact congrArg Prod.snd (vmod_get_self ..)

section
variable (b : Blk) (c : Fin 6)

theorem Blk.nmAsleep_nm : (b.nmAsleep c).nm c = (b.nm c).sleeps c := vmod_get_self ..
theorem Blk.nmAsleep_can : (b.nmAsleep c).can c = (b.can c).sleepNow := vmod_get_self ..

theorem Blk.nmAsleep_evs : (b.nmAsleep c).evs = b.evs := rfl

@[simp] theorem Blk.modNm_lastRecord (f : Nm → Nm) : Safety.lastRecord (b.modNm c f) = Safety.lastRecord b := Safety.lastRecord_congr rfl

theorem Blk.nmDrop_lastRecord (hroom : Safety.room b (srcNm c)) :
    Safety.lastRecord (b.nmDrop c) = some (srcNm c, 2, 2, arg32 (b.nm c).succ, hw) := Blk.nmev_lastRecord (b := b) (by rfl) hroom ..

/-- Keep-alive mode entered, with its record (R341). -/
theorem Blk.nmKeepAlive_spec (cause : Nat) :
    (b.nmKeepAlive c cause).nm c = (b.nm c).keepsAlive b.time.dt
    ∧ (Safety.room b (srcNm c) → Safety.lastRecord (b.nmKeepAlive c cause) = some (srcNm c, 3, 2, arg32 cause, hw)) := by
  refine ⟨?_, fun hroom => ?_⟩
  · rw [Blk.nmKeepAlive, Blk.wakeOutNow_nm, Blk.nmev_nm, Blk.modNm_nm_self]
    rfl
  · exact Blk.nmev_lastRecord (b := b) (a := b.modNm c (·.keepsAlive b.time.dt)) rfl hroom ..

end

/-! ### The rows -/

section
variable {c : Fin 6} {s : State}

theorem runs_ringTimerExpiry_forming (hst : (s.blk.nm c).state = .forming) (hseen : (s.blk.nm c).ringSeen = false)
    (hlow : (s.blk.nm c).isLowest = true) :
    (2 ≤ (s.blk.nm c).present.length → Safety.runs (.ringTimerExpiry c) s fun t => (t.blk.nm c).state = .ring
      ∧ (t.blk.nm c).round = (s.blk.nm c).round + 1 ∧ (∃ f : NmFrame, (t.blk.nm c).slot = some f ∧ f.kind = kRing ∧ f.dst = (s.blk.nm c).succ)
      ∧ (Safety.room s.blk (srcNm c) → Safety.lastRecord t.blk = some (srcNm c, 1, 1, arg32 (s.blk.nm c).present.length, hw))
      ∧ t.blk = { s.blk with nms := t.blk.nms, evs := t.blk.evs } ∧ t.mem = s.mem)
    ∧ ((s.blk.nm c).present.length ≤ 1 → (s.blk.nm c).expiries = 0 → Safety.runs (.ringTimerExpiry c) s fun t =>
      t.blk.nm c = { s.blk.nm c with expiries := 1 } ∧ t.blk = { s.blk with nms := t.blk.nms } ∧ t.mem = s.mem)
    ∧ ((s.blk.nm c).present.length ≤ 1 → (s.blk.nm c).expiries ≠ 0 → Safety.runs (.ringTimerExpiry c) s fun t => (t.blk.nm c).state = .keepalive
      ∧ (Safety.room s.blk (srcNm c) → Safety.lastRecord t.blk = some (srcNm c, 3, 2, 2, hw)) ∧ t.mem = s.mem) := by
  have hrow : ringTimerExpiry c s.blk = if 2 ≤ (s.blk.nm c).present.length then
        (s.blk.modNm c fun n => { n with round := n.round + 1, state := .ring }.send kRing
          { n with round := n.round + 1, state := .ring }.succ false).nmev c 1 1 (s.blk.nm c).present.length
      else if (s.blk.nm c).expiries = 0 then s.blk.modNm c fun n => { n with expiries := 1 }
      else s.blk.nmKeepAlive c 2 := by
    unfold ringTimerExpiry
    dsimp only
    rw [hst]
    dsimp only
    rw [if_neg (by simp [hseen, hlow])]
  refine ⟨fun hmany => runs_onBlk rfl (hrow.trans (if_pos hmany)) ?_,
    fun hfew hfirst => runs_onBlk rfl (hrow.trans ((if_neg (by omega)).trans (if_pos hfirst))) ⟨Blk.modNm_nm_self .., rfl, rfl⟩,
    fun hfew hlater => runs_onBlk rfl (hrow.trans ((if_neg (by omega)).trans (if_neg hlater))) ?_⟩
  · dsimp only
    rw [Blk.nmev_nm, Blk.modNm_nm_self]
    exact ⟨rfl, rfl, ⟨_, rfl, rfl, rfl⟩, fun hroom => Blk.nmev_lastRecord (b := s.blk) (by rfl) hroom .., by rw [Blk.nmev_eq]; rfl, rfl⟩
  · obtain ⟨hnm, hrecord⟩ := s.blk.nmKeepAlive_spec c 2
    dsimp only
    rw [hnm]
    exact ⟨rfl, hrecord, rfl⟩

theorem runs_ringTimerExpiry_ring (hst : (s.blk.nm c).state = .ring) (hsent : (s.blk.nm c).tokenSent = true)
    (hlen : 3 ≤ (s.blk.nm c).present.length) (hnodup : (s.blk.nm c).present.Nodup) :
    Safety.runs (.ringTimerExpiry c) s fun t => (t.blk.nm c).state = .ring ∧ (s.blk.nm c).succ ∉ (t.blk.nm c).present
      ∧ (t.blk.nm c).skips = satInc (s.blk.nm c).skips 0xFFFF ∧ bit (t.blk.nm c).sticky 1 = true
      ∧ (Safety.room s.blk (srcNm c) → Safety.lastRecord t.blk = some (srcNm c, 2, 2, arg32 (s.blk.nm c).succ, hw)) ∧ t.mem = s.mem := by
  have hself : (s.blk.nmDrop c).nm c = (s.blk.nm c).drops (s.blk.nm c).succ := by rw [Blk.nmDrop, Blk.nmev_nm, Blk.modNm_nm_self]
  have hleft : ¬ ((s.blk.nmDrop c).nm c).present.length ≤ 1 := by
    rw [hself]
    exact Nat.not_le.2 (two_le_length_filter_ne hnodup hlen _)
  have hrow : ringTimerExpiry c s.blk = if ((s.blk.nmDrop c).nm c).present.length ≤ 1 then (s.blk.nmDrop c).nmKeepAlive c 2
      else (s.blk.nmDrop c).modNm c fun n => n.send kRing n.succ false := by
    unfold ringTimerExpiry
    dsimp only
    rw [hst]
    dsimp only
    rw [if_neg (by simp [hsent])]
    rfl
  refine runs_onBlk rfl (hrow.trans (if_neg hleft)) ?_
  dsimp only
  rw [Blk.modNm_nm_self, hself]
  refine ⟨hst, fun h => ?_, rfl, Nm.bit_drops_sticky (s.blk.nm c).succ _, fun hroom => ?_, rfl⟩
  · simpa using (List.mem_filter.1 h).2
  · rw [Blk.modNm_lastRecord]
    exact s.blk.nmDrop_lastRecord c hroom

theorem Nm.passes_spec (n : Nm) : n.passes.token = false ∧ n.passes.confirming = n.agreed
    ∧ n.passes.round = (if n.isLowest then n.round + 1 else n.round)
    ∧ ∃ f : NmFrame, n.passes.slot = some f ∧ f.kind = kRing ∧ f.dst = n.succ ∧ f.flags.testBit 1 = n.agreed
        ∧ (f.flags.testBit 0 = decide (n.ownReq = 0)) ∧ (f.flags.testBit 2 = decide (n.ownReq ≠ 0)) := by
  unfold Nm.passes
  by_cases hlow : n.isLowest = true
  · rw [if_pos hlow, if_pos hlow]
    obtain ⟨hindicates, hconfirms, hneeds⟩ := { n with round := n.round + 1 }.testBit_frame_flags kRing { n with round := n.round + 1 }.succ n.agreed
    exact ⟨rfl, rfl, rfl, _, rfl, rfl, rfl, hconfirms, hindicates, hneeds⟩
  · rw [if_neg hlow, if_neg hlow]
    obtain ⟨hindicates, hconfirms, hneeds⟩ := n.testBit_frame_flags kRing n.succ n.agreed
    exact ⟨rfl, rfl, rfl, _, rfl, rfl, rfl, hconfirms, hindicates, hneeds⟩

theorem runs_tokenTimerExpiry (hst : (s.blk.nm c).state = .ring) (htoken : (s.blk.nm c).token = true) : Safety.runs (.tokenTimerExpiry c) s fun t =>
    (t.blk.nm c).token = false ∧ (t.blk.nm c).confirming = (s.blk.nm c).agreed
    ∧ (t.blk.nm c).round = (if (s.blk.nm c).isLowest then (s.blk.nm c).round + 1 else (s.blk.nm c).round)
    ∧ (∃ f : NmFrame, (t.blk.nm c).slot = some f ∧ f.kind = kRing ∧ f.dst = (s.blk.nm c).succ ∧ f.flags.testBit 1 = (s.blk.nm c).agreed
        ∧ (f.flags.testBit 0 = decide ((s.blk.nm c).ownReq = 0)) ∧ (f.flags.testBit 2 = decide ((s.blk.nm c).ownReq ≠ 0)))
    ∧ (∀ d : Fin 6, d ≠ c → t.blk.nm d = s.blk.nm d) ∧ t.blk = { s.blk with nms := t.blk.nms } ∧ t.mem = s.mem := by
  have hrow : tokenTimerExpiry c s.blk = s.blk.modNm c Nm.passes := if_neg (by simp [hst, htoken])
  refine runs_onBlk rfl hrow ?_
  dsimp only
  rw [Blk.modNm_nm_self]
  obtain ⟨hgone, hconfirming, hround, hframe⟩ := (s.blk.nm c).passes_spec
  exact ⟨hgone, hconfirming, hround, hframe, fun d hd => Blk.modNm_nm_ne _ hd _, rfl, rfl⟩

theorem runs_settleExpiry (hst : (s.blk.nm c).state = .settle) : Safety.runs (.settleExpiry c) s fun t => (t.blk.nm c).state = .asleep
    ∧ (t.blk.can c).state = .asleep ∧ (t.blk.can c).fifo = [] ∧ (t.blk.can c).txDrop = satAdd (s.blk.can c).txDrop (s.blk.can c).fifo.length 0xFFFF
    ∧ (Safety.room s.blk (srcNm c) → Safety.lastRecord t.blk = some (srcNm c, 6, 1, arg32 (min (s.blk.since (s.blk.nm c).awakeSince / 1000000000) 0xFFFFFFFF), hw))
    ∧ t.blk = { s.blk with nms := t.blk.nms, cans := t.blk.cans, evs := t.blk.evs, nmg := t.blk.nmg } ∧ t.mem = s.mem := by
  refine runs_onBlk rfl (if_neg (not_not_intro hst)) ?_
  dsimp only
  rw [Blk.nmev_nm, Blk.nmev_can, Blk.nmAsleep_nm, Blk.nmAsleep_can]
  exact ⟨rfl, rfl, rfl, rfl, fun hroom => Blk.nmev_lastRecord (b := s.blk) (a := s.blk.nmAsleep c) rfl hroom .., by rw [Blk.nmev_eq]; rfl, rfl⟩

theorem runs_kaExpiry (hst : (s.blk.nm c).state = .keepalive) :
    ((s.blk.nm c).ownReq ≠ 0 → Safety.runs (.kaIntervalExpiry c) s fun t => (t.blk.nm c).state = .keepalive
      ∧ (∃ f : NmFrame, (t.blk.nm c).slot = some f ∧ f.kind = kKeepAlive ∧ f.flags.testBit 2 = true) ∧ t.blk = { s.blk with nms := t.blk.nms } ∧ t.mem = s.mem)
    ∧ ((s.blk.nm c).ownReq = 0 → Safety.runs (.kaIntervalExpiry c) s fun t => t = s)
    ∧ ((s.blk.nm c).ownReq = 0 → Safety.runs (.kaSilenceExpiry c) s fun t => (t.blk.nm c).state = .settle ∧ (t.blk.can c).fifoHeld = true
      ∧ (t.blk.nm c).armed = decide (c.val < 4) ∧ (t.blk.nm c).cntSleep = satInc (s.blk.nm c).cntSleep 0xFFFFFFFF) := by
  refine ⟨fun hreq => runs_onBlk rfl (if_neg (by simp [hst, hreq])) ?_, fun hreq => runs_onBlk rfl (if_pos (.inr hreq)) rfl,
    fun hreq => runs_onMem rfl (if_neg (by simp [hst, hreq])) ?_⟩
  · dsimp only
    rw [Blk.modNm_nm_self]
    exact ⟨hst, ⟨_, rfl, rfl, ((s.blk.nm c).testBit_frame_flags ..).2.2.trans (decide_eq_true hreq)⟩, rfl, rfl⟩
  · obtain ⟨seq, hnm⟩ := s.blk.nmAgree_nm c (s.blk.nm c).addr true
    dsimp only
    rw [Blk.heal_nm, Blk.heal_can, hnm, Blk.nmAgree_can]
    exact ⟨rfl, rfl, rfl, rfl⟩

theorem runs_falseWakeExpiry (hframe : (s.blk.nm c).frameWake = true) (hawake : (s.blk.nm c).state ≠ .asleep) (hon : (s.blk.nm c).state ≠ .off) :
    ((s.blk.nm c).heardOther = true ∨ (s.blk.nm c).ownReq ≠ 0 → Safety.runs (.falseWakeExpiry c) s fun t =>
      t.blk.nm c = { s.blk.nm c with frameWake := false } ∧ t.blk = { s.blk with nms := t.blk.nms } ∧ t.mem = s.mem)
    ∧ ((s.blk.nm c).heardOther = false → (s.blk.nm c).ownReq = 0 → Safety.runs (.falseWakeExpiry c) s fun t => (t.blk.nm c).state = .asleep
      ∧ (t.blk.nm c).falseWakes = satInc (s.blk.nm c).falseWakes 0xFFFF ∧ (t.blk.nm c).armed = decide (c.val < 4) ∧ (t.blk.can c).state = .asleep
      ∧ (∀ f : Fin 4, (s.blk.nm c).wakeFilter = some f → ((t.blk.nm c).wfCount.get f).2 = satInc ((s.blk.nm c).wfCount.get f).2 0xFFFF)
      ∧ (Safety.room s.blk (srcNm c) → Safety.lastRecord t.blk = some (srcNm c, 8, 2, (s.blk.nm c).lastWakeId, hw)) ∧ t.mem = s.mem) := by
  have hrow : falseWakeExpiry c s.blk = if (s.blk.nm c).heardOther = true ∨ (s.blk.nm c).ownReq ≠ 0 then s.blk.modNm c fun n => { n with frameWake := false }
      else ((s.blk.modNm c Nm.wokeFalsely).nmAsleep c).nmev c 8 2 (s.blk.nm c).lastWakeId.toNat := if_neg (by simp [hframe, hawake, hon])
  refine ⟨fun hother => runs_onBlk rfl (hrow.trans (if_pos hother)) ⟨Blk.modNm_nm_self .., rfl, rfl⟩,
    fun hother hreq => runs_onBlk rfl (hrow.trans (if_neg (by simp [hother, hreq]))) ?_⟩
  dsimp only
  rw [Blk.nmev_nm, Blk.nmev_can, Blk.nmAsleep_nm, Blk.nmAsleep_can, Blk.modNm_nm_self]
  refine ⟨rfl, rfl, rfl, rfl, fun f hf => Nm.wokeFalsely_wfCount hf, fun hroom => ?_, rfl⟩
  rw [Blk.nmev_lastRecord (b := s.blk) (Blk.nmAsleep_evs (s.blk.modNm c Nm.wokeFalsely) c) hroom, arg32_toNat]
  rfl

theorem runs_requestLapsed {i : Initiator} (hmax : bits s.blk.nmg.maxAwake 13 0 ≠ 0) (hheld : (findKey (s.blk.nm c).requests i).isSome = true) :
    Safety.runs (.requestLapsed c i) s fun t => t.blk.nm c = { s.blk.nm c with requests := (s.blk.nm c).requests.filter (fun r => r.1 ≠ i) }
      ∧ (Safety.room s.blk (srcNm c) → Safety.lastRecord t.blk = some (srcNm c, 0xA, 2, arg32 (bits s.blk.nmg.maxAwake 13 0), idByte i))
      ∧ t.blk = { s.blk with nms := t.blk.nms, evs := t.blk.evs } ∧ t.mem = s.mem := by
  have hsome : ¬ (bits s.blk.nmg.maxAwake 13 0 = 0 ∨ (findKey (s.blk.nm c).requests i).isNone = true) := by
    rw [Option.isNone_eq_false_iff.2 hheld]
    simp [hmax]
  refine runs_onBlk rfl (if_neg hsome) ?_
  dsimp only
  rw [Blk.ev_nm, Blk.modNm_nm_self]
  exact ⟨rfl, fun hroom => Blk.ev_last_of_evs_eq (b := s.blk) (by rfl) hroom .., by rw [Blk.ev_eq]; rfl, rfl⟩

theorem runs_nodeHoldsAwake {a : Fin 64} {t0 : BitVec 64} (hhold : findKey (s.blk.nm c).hold a.val = some t0) :
    Safety.runs (.nodeHoldsAwake c a) s fun t =>
    (Safety.room s.blk (srcNm c) → Safety.lastRecord t.blk = some (srcNm c, 9, 2, arg32 (a.val + min (s.blk.since t0 / 3600000000000) 0xFFFF * 65536), hw))
    ∧ t.blk = { s.blk with evs := t.blk.evs } ∧ t.mem = s.mem := by
  have hrow : nodeHoldsAwake c a s.blk = s.blk.nmev c 9 2 (a.val + min (s.blk.since t0 / 3600000000000) 0xFFFF * 65536) true := by
    rw [nodeHoldsAwake, hhold]
  exact runs_onBlk rfl hrow ⟨fun hroom => Blk.nmev_lastRecord rfl hroom .., Blk.nmev_eq .., rfl⟩

end

/-- Settles O43, timer by timer. -/
theorem nmTimersMoveTheBus : Obligations.NmTimersMoveTheBus :=
  ⟨fun _ _ => runs_ringTimerExpiry_forming, fun _ _ => runs_ringTimerExpiry_ring, fun _ _ => runs_tokenTimerExpiry,
    fun _ _ => runs_settleExpiry, fun _ _ => runs_kaExpiry, fun _ _ => runs_falseWakeExpiry, fun _ _ _ => runs_requestLapsed,
    fun _ _ => runs_onBlk rfl rfl ⟨Blk.modNm_nm_self .., rfl, rfl⟩, fun _ _ _ _ => runs_nodeHoldsAwake⟩

end Sys2Proof.Machine
end

section
/-! SUPPORT. The safety program's resets (R364, R366, R367), its self-test, code check and debugging (R368 to R370). -/

namespace Sys2Proof.Machine
open Sys2Proof

/-! ### What leaves the double-reed unit alone -/

section
variable (b : Blk)

@[simp] theorem Blk.dev_dr (core : Fin 2) (code sev arg : Nat) (pin : Bool) : (b.dev core code sev arg pin).dr = b.dr := Blk.ev_dr ..
@[simp] theorem Blk.dev_rcc (core : Fin 2) (code sev arg : Nat) (pin : Bool) : (b.dev core code sev arg pin).rcc = b.rcc := Blk.ev_rcc ..

theorem Blk.dev_lastRecord {a : Blk} {core : Fin 2} (hevs : a.evs = b.evs) (hroom : Safety.room b (srcDr core)) (code sev arg : Nat) (pin : Bool) :
    Safety.lastRecord (a.dev core code sev arg pin) = some (srcDr core, BitVec.ofNat 16 code, BitVec.ofNat 3 sev, arg32 arg, 0x10) :=
  Blk.ev_last_of_evs_eq hevs hroom ..

@[simp] theorem Blk.flushQueue_dr (q : Fin 256) : (b.flushQueue q).dr = b.dr := by
  unfold Blk.flushQueue
  dsimp only
  split
  · rfl
  · exact Blk.ev_dr ..

@[simp] theorem Blk.flushProgram_dr (id : Nat) : (b.flushProgram id).dr = b.dr :=
  foldl_keep (·.dr) _ (fun a q => by
    dsimp only
    split
    · exact a.flushQueue_dr q
    · rfl) _ b

@[simp] theorem Blk.initReset_dr (i : Initiator) : (b.initReset i).dr = b.dr := by
  unfold Blk.initReset
  split <;> rfl

/-- A program's reset leaves the double-reed unit to its own steps. -/
@[simp] theorem Blk.resetProgram_dr (i : Initiator) : (b.resetProgram i).dr = b.dr := by
  have hview : (b.resetProgram i).dr = ((b.initReset i).flushProgram i.id).dr := by
    unfold Blk.resetProgram
    dsimp only
    split <;> rfl
  rw [hview, Blk.flushProgram_dr, Blk.initReset_dr]

@[simp] theorem Blk.fallback_dr (k : Fin 4) (cs : List (Fin 40)) (cause : Nat) : (b.fallback k cs cause).dr = b.dr :=
  (congrArg Blk.dr (b.fallback_frame (k := k) (cs := cs) (cause := cause)).blk).trans rfl

theorem Blk.safetyFallback_dr : b.safetyFallback.dr = { b.dr with fbUntilVerified := true } :=
  foldl_keep (·.dr) _ (fun a k => a.fallback_dr k _ _) _ (b.onDr fun d => { d with fbUntilVerified := true })

end

/-! ### Divergence and giving up (R364, R366, R367) -/

/-- The unit of a safety program that is given up. -/
def DoubleReed.givesUp (d : DoubleReed) : DoubleReed := { d with run := false, givenUp := true, assertReset := none, resetting := false }

section
variable (b : Blk)

theorem Blk.giveUpSafety_dr : b.giveUpSafety.dr = b.dr.givesUp := Blk.dev_dr ..

theorem Blk.giveUpSafety_fault : bit b.giveUpSafety.rcc.gpioFault 1 = true := by
  rw [Blk.giveUpSafety, Blk.dev_rcc]
  exact testBit_orBits b.rcc.gpioFault (i := 1) (by decide)

theorem Blk.giveUpSafety_lastRecord (hroom : Safety.room b (srcDr 0)) :
    Safety.lastRecord b.giveUpSafety = some (srcDr 0, 8, 4, arg32 b.divResets.length, 0x10) := by
  rw [Blk.giveUpSafety]
  exact Blk.dev_lastRecord b (by rfl) hroom ..

theorem Blk.divResets_of_none (h : b.dr.resets = []) : b.divResets = [] := by
  rw [Blk.divResets, h]
  rfl

variable {b} {k : Fin 2} (hruns : b.safetyRuns = true) (hon : b.dr.taskOn k = true) (hcount : b.dr.divLimit ≤ (b.task k).consec)
  (hfirst : b.dr.resets = [])
include hruns hon hcount hfirst

/-- A task that reached DIV_LIMIT, with no earlier reset in the window: the reset limit decides. -/
theorem safetyDivergenceLimit_first : safetyDivergenceLimit b =
    if 1 ≥ b.dr.resetLimit then (b.onDr fun d => { d with resets := [] }).giveUpSafety
    else b.onDr fun d => { d with resets := [b.time.dt], assertReset := some 1 } := by
  have hreached : ¬ (b.safetyRuns = false ∨ b.dr.enabled.all (fun t => (b.task t).consec < b.dr.divLimit) = true) := by
    rintro (h | h)
    · simp [hruns] at h
    · have hk : k ∈ b.dr.enabled := List.mem_filter.2 ⟨List.mem_finRange k, hon⟩
      exact Nat.not_lt.2 hcount (of_decide_eq_true (List.all_eq_true.1 h k hk))
  unfold safetyDivergenceLimit
  rw [if_neg hreached, b.divResets_of_none hfirst]
  rfl

end

theorem runs_safetyDivergenceLimit (k : Fin 2) (s : State) (hruns : s.blk.safetyRuns = true) (hon : s.blk.dr.taskOn k = true)
    (hcount : s.blk.dr.divLimit ≤ (s.blk.task k).consec) (hfirst : s.blk.dr.resets = []) :
    (1 < s.blk.dr.resetLimit → Safety.runs .safetyDivergenceLimit s fun t => t.blk.dr.assertReset = some 1 ∧ t.blk.dr.resets = [s.blk.time.dt]
      ∧ t.blk = { s.blk with dr := t.blk.dr } ∧ t.mem = s.mem)
    ∧ (s.blk.dr.resetLimit = 1 → Safety.runs .safetyDivergenceLimit s fun t => t.blk.dr.givenUp = true ∧ t.blk.dr.run = false ∧ bit t.blk.rcc.gpioFault 1 = true
      ∧ (Safety.room s.blk (srcDr 0) → Safety.lastRecord t.blk = some (srcDr 0, 8, 4, 0, 0x10)) ∧ t.mem = s.mem) := by
  have hrow := safetyDivergenceLimit_first hruns hon hcount hfirst
  refine ⟨fun hlim => runs_onBlk rfl (hrow.trans (if_neg (by omega))) ⟨rfl, rfl, rfl, rfl⟩,
    fun hlim => runs_onBlk rfl (hrow.trans (if_pos (by omega))) ?_⟩
  dsimp only
  rw [Blk.giveUpSafety_dr]
  exact ⟨rfl, rfl, Blk.giveUpSafety_fault _, fun hroom => Blk.giveUpSafety_lastRecord _ ((Safety.room_congr rfl).2 hroom), rfl⟩

/-! ### The reset and its load (R367) -/

/-- A safety reset ends a task's passes and its count. -/
def Task.resets (x : Task) : Task :=
  { x with pass := .ended, consec := 0, capA := [], capB := [], doneA := false, doneB := false, verified := false }

/-- The unit in a safety reset. -/
def DoubleReed.inReset (d : DoubleReed) : DoubleReed :=
  { d with assertReset := none, resetting := true, run := true, fenceRunning := false, tasks := d.tasks.map Task.resets }

/-- Whatever its cause, a safety reset ends the passes; one that a failed update or a start caused also waits for a verified breath. -/
theorem Blk.safetyReset_dr {b : Blk} (hpresent : b.dr.present = true) (hgiven : b.dr.givenUp = false) (cause : Nat) :
    ∃ fb, (b.safetyReset cause).dr = { b.dr.inReset with fbUntilVerified := fb } := by
  have hreset : b.safetyReset cause = if cause = 4 ∨ cause = 6
      then (((b.onDr DoubleReed.inReset).resetProgram .safety).dev 0 7 3 cause (pin := true)).safetyFallback
      else ((b.onDr DoubleReed.inReset).resetProgram .safety).dev 0 7 3 cause (pin := true) := if_neg (by simp [hpresent, hgiven])
  have hdr : (((b.onDr DoubleReed.inReset).resetProgram .safety).dev 0 7 3 cause (pin := true)).dr = b.dr.inReset := by
    rw [Blk.dev_dr, Blk.resetProgram_dr]
    rfl
  rw [hreset]
  split
  · exact ⟨true, by rw [Blk.safetyFallback_dr, hdr]⟩
  · exact ⟨_, hdr⟩

theorem runs_safetyReset (c : Fin 7) (s : State) (hcause : 2 ≤ c.val) (hpresent : s.blk.dr.present = true) (hgiven : s.blk.dr.givenUp = false) :
    Safety.runs (.safetyReset c) s fun t =>
    t.blk.dr.resetting = true ∧ t.blk.dr.fenceRunning = false ∧ (∀ k : Fin 2, (t.blk.task k).pass = .ended ∧ (t.blk.task k).consec = 0 ∧ (t.blk.task k).capA = [])
    ∧ t.mem = s.mem := by
  obtain ⟨fb, hdr⟩ := Blk.safetyReset_dr hpresent hgiven c.val
  have hrow : safetyReset c s.blk = s.blk.safetyReset c.val := by
    rw [safetyReset, if_neg (by omega), if_neg (by omega)]
  have htask : ∀ k : Fin 2, (s.blk.safetyReset c.val).task k = (s.blk.task k).resets := fun k => by
    rw [Blk.task, hdr]
    exact Vector.getElem_map ..
  refine runs_onBlk rfl hrow ?_
  dsimp only
  rw [hdr]
  exact ⟨rfl, rfl, fun k => by rw [htask]; exact ⟨rfl, rfl, rfl⟩, rfl⟩

/-- The load ends the reset where the code measures as the stored digest says, and leaves the program in reset where it does not. -/
theorem runs_safetyResetComplete (s : State) (hreset : s.blk.dr.resetting = true) : let c := s.blk.comp 1
    Safety.runs .safetyResetComplete s fun t =>
      (measured s.mem cSafety c.runB (c.slot c.runB) = true → t.blk.dr.resetting = false ∧ t.blk.dr.run = true ∧ t.blk.dr.origin = true)
      ∧ (measured s.mem cSafety c.runB (c.slot c.runB) = false → t.blk.dr.resetting = true ∧ t.mem = s.mem) := by
  intro c
  have hrow : safetyResetComplete s.mem s.blk =
      if measured s.mem cSafety c.runB (c.slot c.runB) = true then s.blk.loadSafety s.mem else (s.blk, []) := if_neg (by simp [hreset])
  by_cases hm : measured s.mem cSafety c.runB (c.slot c.runB) = true
  · exact runs_onMem rfl (hrow.trans (if_pos hm)) ⟨fun _ => ⟨rfl, rfl, rfl⟩, fun h => absurd hm (ne_true_of_eq_false h)⟩
  · exact runs_onMem rfl (hrow.trans (if_neg hm)) ⟨fun h => absurd h hm, fun _ => ⟨hreset, rfl⟩⟩

/-! ### Self-test (R368) -/

/-- The unit after core `c` has run its slice. -/
def DoubleReed.sliced (d : DoubleReed) (c : Fin 2) : DoubleReed :=
  if c = 1 then { d with slice := (d.slice + 1) % 64, cycles := if d.slice = 63 then satInc d.cycles 0xFFFF else d.cycles } else d

/-- The unit after a slice of core `c` has failed. -/
def DoubleReed.fails (d : DoubleReed) (c : Fin 2) (n : Nat) : DoubleReed :=
  { d with failed := vmod d.failed c (fun _ => true), lastBad := n, sticky := orBits d.sticky 0x40 }

theorem DoubleReed.sliced_slice (d : DoubleReed) (c : Fin 2) : (d.sliced c).slice = (if c = 1 then (d.slice + 1) % 64 else d.slice) := by
  unfold DoubleReed.sliced
  split <;> rfl

theorem DoubleReed.sliced_failed (d : DoubleReed) (c : Fin 2) : (d.sliced c).failed = d.failed := by
  unfold DoubleReed.sliced
  split <;> rfl

theorem DoubleReed.fails_spec (d : DoubleReed) (c : Fin 2) (n : Nat) :
    (d.fails c n).failed.get c = true ∧ (d.fails c n).lastBad = n ∧ bit (d.fails c n).sticky 6 = true :=
  ⟨vmod_get_self .., rfl, testBit_orBits d.sticky (i := 6) (by decide)⟩

theorem selftestSlice_eq (c : Fin 2) (ok : Bool) (b : Blk) : selftestSlice c ok b =
    if ok = true then b.onDr (·.sliced c)
    else if b.dr.taskOn c = true ∧ b.dr.run = true
      then ((b.onDr fun d => (d.sliced c).fails c b.dr.slice).dev c 9 4 b.dr.slice (pin := true)).giveUpSafety
      else (b.onDr fun d => (d.sliced c).fails c b.dr.slice).dev c 9 4 b.dr.slice (pin := true) := by
  have hfirst : (if c = 1 then b.onDr fun d => { d with
      slice := (b.dr.slice + 1) % 64, cycles := if b.dr.slice = 63 then satInc d.cycles 0xFFFF else d.cycles } else b) = b.onDr (·.sliced c) := by
    unfold DoubleReed.sliced
    split <;> rfl
  unfold selftestSlice
  dsimp only
  rw [hfirst]
  rfl

theorem runs_selftestSlice (c : Fin 2) (s : State) :
    (Safety.runs (.selftestSlice c true) s fun t => t.blk.dr.slice = (if c = 1 then (s.blk.dr.slice + 1) % 64 else s.blk.dr.slice)
      ∧ t.blk.dr.failed = s.blk.dr.failed ∧ t.blk = { s.blk with dr := t.blk.dr } ∧ t.mem = s.mem)
    ∧ (Safety.runs (.selftestSlice c false) s fun t => t.blk.dr.failed.get c = true ∧ t.blk.dr.lastBad = s.blk.dr.slice ∧ bit t.blk.dr.sticky 6 = true
      ∧ (s.blk.dr.taskOn c = true → s.blk.dr.run = true → t.blk.dr.givenUp = true ∧ t.blk.dr.run = false)
      ∧ (s.blk.dr.run = false → Safety.room s.blk (srcDr c) → Safety.lastRecord t.blk = some (srcDr c, 9, 4, arg32 s.blk.dr.slice, 0x10)) ∧ t.mem = s.mem) := by
  have hdr : ((s.blk.onDr fun d => (d.sliced c).fails c s.blk.dr.slice).dev c 9 4 s.blk.dr.slice (pin := true)).dr =
      (s.blk.dr.sliced c).fails c s.blk.dr.slice := Blk.dev_dr ..
  obtain ⟨hfailed, hlast, hsticky⟩ := (s.blk.dr.sliced c).fails_spec c s.blk.dr.slice
  refine ⟨runs_onBlk rfl ((selftestSlice_eq ..).trans (if_pos rfl)) ⟨DoubleReed.sliced_slice .., DoubleReed.sliced_failed .., rfl, rfl⟩, ?_⟩
  by_cases hgive : s.blk.dr.taskOn c = true ∧ s.blk.dr.run = true
  · refine runs_onBlk rfl ((selftestSlice_eq ..).trans ((if_neg Bool.false_ne_true).trans (if_pos hgive))) ?_
    dsimp only
    rw [Blk.giveUpSafety_dr, hdr]
    exact ⟨hfailed, hlast, hsticky, fun _ _ => ⟨rfl, rfl⟩, fun h => absurd hgive.2 (ne_true_of_eq_false h), rfl⟩
  · refine runs_onBlk rfl ((selftestSlice_eq ..).trans ((if_neg Bool.false_ne_true).trans (if_neg hgive))) ?_
    dsimp only
    rw [hdr]
    exact ⟨hfailed, hlast, hsticky, fun h₁ h₂ => absurd ⟨h₁, h₂⟩ hgive, fun _ hroom => Blk.dev_lastRecord s.blk (by rfl) hroom .., rfl⟩

/-! ### Code check (R369) -/

theorem runs_codeCheckBlock (s : State) (hruns : s.blk.safetyRuns = true) :
    (Safety.runs (.codeCheckBlock true) s fun t => t.blk.dr.nextBlock = (s.blk.dr.nextBlock + 1) % 256 ∧ t.blk.dr.assertReset = s.blk.dr.assertReset
      ∧ t.blk = { s.blk with dr := t.blk.dr } ∧ t.mem = s.mem)
    ∧ (Safety.runs (.codeCheckBlock false) s fun t => t.blk.dr.assertReset = some 3 ∧ bit t.blk.dr.sticky 7 = true
      ∧ t.blk.dr.blocksBad = satInc s.blk.dr.blocksBad 0xFFFF
      ∧ (Safety.room s.blk (srcDr 0) → Safety.lastRecord t.blk = some (srcDr 0, 0xA, 4, arg32 s.blk.dr.nextBlock, 0x10)) ∧ t.mem = s.mem) := by
  have hlive : ¬ s.blk.safetyRuns = false := by simp [hruns]
  refine ⟨runs_onBlk rfl (if_neg hlive) ⟨rfl, rfl, rfl, rfl⟩, runs_onBlk rfl ((if_neg hlive).trans (if_neg Bool.false_ne_true)) ?_⟩
  dsimp only
  rw [Blk.dev_dr]
  exact ⟨rfl, testBit_orBits s.blk.dr.sticky (i := 7) (by decide), rfl, fun hroom => Blk.dev_lastRecord s.blk (by rfl) hroom .., rfl⟩

/-! ### Debugging (R370) -/

/-- The bit of a core in the list of cores under debug, set and cleared. -/
theorem testBit_or_core (x : Byte) (c : Fin 2) : (x ||| BitVec.ofNat 8 (2 ^ c.val)).toNat.testBit c.val = true := by
  have hlt : 2 ^ c.val < 2 ^ 8 := Nat.pow_lt_pow_right (by decide) (by omega)
  rw [BitVec.toNat_or, Nat.testBit_or, BitVec.toNat_ofNat, Nat.mod_eq_of_lt hlt, Nat.testBit_two_pow_self, Bool.or_true]

theorem testBit_and_not_core (x : Byte) (c : Fin 2) : (x &&& ~~~ BitVec.ofNat 8 (2 ^ c.val)).toNat.testBit c.val = false := by
  have hlt : 2 ^ c.val < 2 ^ 8 := Nat.pow_lt_pow_right (by decide) (by omega)
  have hset : (BitVec.ofNat 8 (2 ^ c.val)).getLsbD c.val = true := by
    rw [BitVec.getLsbD, BitVec.toNat_ofNat, Nat.mod_eq_of_lt hlt, Nat.testBit_two_pow_self]
  show (x &&& ~~~ BitVec.ofNat 8 (2 ^ c.val)).getLsbD c.val = false
  rw [BitVec.getLsbD_and, BitVec.getLsbD_not, hset]
  simp

theorem runs_debug (c : Fin 2) (s : State) :
    (s.blk.rcc.mode = .service → s.blk.dr.debugOn.toNat.testBit c.val = false → Safety.runs (.debugAttached c) s fun t =>
      t.blk.dr.debugOn.toNat.testBit c.val = true ∧ (Safety.room s.blk (srcDr c) → Safety.lastRecord t.blk = some (srcDr c, 0xB, 3, 0, 0x10)) ∧ t.mem = s.mem)
    ∧ (s.blk.rcc.mode ≠ .service → Safety.runs (.debugAttached c) s fun t => t = s)
    ∧ (s.blk.dr.debugOn.toNat.testBit c.val = true → Safety.runs (.debugDetached c) s fun t => t.blk.dr.debugOn.toNat.testBit c.val = false
      ∧ t.blk.dr.assertReset = some 2 ∧ (Safety.room s.blk (srcDr c) → Safety.lastRecord t.blk =
          some (srcDr c, 0xC, 2, arg32 (min (s.blk.since s.blk.dr.debugSince / 1000000000) 0xFFFFFFFF), 0x10)) ∧ t.mem = s.mem) := by
  refine ⟨fun hmode hoff => runs_onBlk rfl (if_neg (by simp [hmode, hoff])) ?_, fun hmode => runs_onBlk rfl (if_pos (.inl hmode)) rfl,
    fun hon => runs_onBlk rfl (if_neg (by simp [hon])) ?_⟩
  · dsimp only
    rw [Blk.dev_dr]
    exact ⟨testBit_or_core .., fun hroom => Blk.dev_lastRecord s.blk (by rfl) hroom .., rfl⟩
  · dsimp only [Blk.onDr]
    rw [Blk.dev_dr]
    exact ⟨testBit_and_not_core .., rfl,
      fun hroom => (Safety.lastRecord_congr (by rfl)).trans (Blk.dev_lastRecord s.blk (a := s.blk) rfl hroom 0xC 2 _ true), rfl⟩

/-- Settles O41, clause by clause. -/
theorem safetyProgramIsReset : Obligations.SafetyProgramIsReset :=
  ⟨runs_safetyDivergenceLimit, runs_safetyReset, runs_safetyResetComplete, runs_selftestSlice, runs_codeCheckBlock, runs_debug⟩

end Sys2Proof.Machine
end

section
/-! SUPPORT. What the parts of a reset leave of an episode (R375, R378): the sources and the step, the mode, the clocks of the blocks, the
security unit, and the breath, the time base and the sequencer as a reset finds them. -/

namespace Sys2Proof.Machine
open Sys2Proof

/-- The episode and its sources (R378), the mode (R389), the clock gating (R379), the security unit without the alarms that wait (R423),
whether the breath and the sequencer run, BN, the time base without what is latched for reads (R89), a scheduled swap (R268), and the last
hold-up commit (R386). -/
structure EpisodeView where
  episode : Option Reach
  asserted : BitVec 16
  seen : BitVec 16
  step : Nat
  resetoutLow : Bool
  mode : Mode
  blkState : Vector BlkState 11
  sec : Security
  breathing : Bool
  bn : BitVec 48
  time : TimeBase
  resumed : Bool
  swapBn : Option (BitVec 48)
  holdLast : Word
  feedBack : Bool

/-- The time base without what is latched for reads. -/
def TimeBase.unlatched (t : TimeBase) : TimeBase := { t with hiLatch := [] }

/-- The security unit without the alarms that wait for the tamper counter (R423). -/
def Security.unalarmed (x : Security) : Security := { x with tmpPending := 0 }

def Blk.episodeView (b : Blk) : EpisodeView :=
  { episode := b.rcc.episode, asserted := b.rcc.asserted, seen := b.rcc.seen, step := b.rcc.step, resetoutLow := b.rcc.resetoutLow,
    mode := b.rcc.mode, blkState := b.rcc.blkState, sec := b.sec.unalarmed, breathing := b.breath.running, bn := b.breath.bn,
    time := b.time.unlatched, resumed := b.evs.resumed, swapBn := b.cfg.swapBn,
    holdLast := b.rcc.holdLast, feedBack := b.rcc.feedBack }

theorem Blk.episodeView_congr {a b : Blk} (hrcc : a.rcc = b.rcc) (hsec : a.sec = b.sec) (hbreath : a.breath = b.breath)
    (htime : a.time = b.time) (hevs : a.evs.resumed = b.evs.resumed) (hcfg : a.cfg = b.cfg) : a.episodeView = b.episodeView := by
  rw [Blk.episodeView, hrcc, hsec, hbreath, htime, hevs, hcfg]
  rfl

/-- Work on the channels and their kernels. -/
theorem Blk.Frame.episodeView {γ δ : Type} {S : Set (Fin 40)} {g : Channel → γ} {h : Kernel → δ} {b t : Blk} (hf : Blk.Frame S g h b t) :
    t.episodeView = b.episodeView := by
  rw [hf.blk]
  rfl

section
variable (b : Blk)

/-! ### Single units and records -/

@[simp] theorem Blk.onUpd_episodeView (f : Update → Update) : (b.onUpd f).episodeView = b.episodeView := rfl
@[simp] theorem Blk.onNvm_episodeView (f : Nvm → Nvm) : (b.onNvm f).episodeView = b.episodeView := rfl
@[simp] theorem Blk.onDr_episodeView (f : DoubleReed → DoubleReed) : (b.onDr f).episodeView = b.episodeView := rfl
@[simp] theorem Blk.modK_episodeView (k : Fin 4) (f : Kernel → Kernel) : (b.modK k f).episodeView = b.episodeView := rfl
@[simp] theorem Blk.modCh_episodeView (c : Fin 40) (f : Channel → Channel) : (b.modCh c f).episodeView = b.episodeView := rfl
@[simp] theorem Blk.modQ_episodeView (q : Fin 256) (f : Queue → Queue) : (b.modQ q f).episodeView = b.episodeView := rfl
@[simp] theorem Blk.modT_episodeView (t : Fin 8) (f : Tenant → Tenant) : (b.modT t f).episodeView = b.episodeView := rfl
@[simp] theorem Blk.modComp_episodeView (i : Fin 13) (f : Component → Component) : (b.modComp i f).episodeView = b.episodeView := rfl
@[simp] theorem Blk.modPort_episodeView (p : Fin 13) (f : Port → Port) : (b.modPort p f).episodeView = b.episodeView := rfl
@[simp] theorem Blk.complete_episodeView (d : Due) (st : Nat) (n : Word) (p : List Byte) :
    (b.complete d st n p).episodeView = b.episodeView := rfl
@[simp] theorem Blk.heal_episodeView (l : List Store) : (b.heal l).episodeView = b.episodeView := rfl
@[simp] theorem Blk.noteHolding_episodeView : b.noteHolding.episodeView = b.episodeView := rfl
@[simp] theorem Blk.emptyView_episodeView (v : Fin 9) : (b.emptyView v).episodeView = b.episodeView := rfl
@[simp] theorem Blk.switchStop_episodeView : b.switchStop.episodeView = b.episodeView := rfl
@[simp] theorem Blk.canStop_episodeView : b.canStop.episodeView = b.episodeView := rfl
@[simp] theorem Blk.readPower_episodeView : b.readPower.episodeView = b.episodeView := by
  simp only [Blk.readPower, apply_ite Blk.episodeView]
  exact ite_self _

@[simp] theorem Blk.ev_episodeView (src : BitVec 16) (code sev : Nat) (arg : Word) (tn : Byte) (pin : Bool) (fl : Nat) :
    (b.ev src code sev arg tn pin fl).episodeView = b.episodeView :=
  Blk.episodeView_congr (Blk.ev_rcc ..) (Blk.ev_sec ..) (Blk.ev_breath ..) (Blk.ev_time ..) (by rw [Blk.ev_evs]) (Blk.ev_cfg ..)

@[simp] theorem Blk.kev_episodeView (k : Fin 4) (src : BitVec 16) (code sev : Nat) (arg : Word) (tn : Byte) (pin : Bool) (fl : Nat) :
    (b.kev k src code sev arg tn pin fl).episodeView = b.episodeView := rfl

@[simp] theorem Blk.dev_episodeView (c : Fin 2) (code sev arg : Nat) (pin : Bool) : (b.dev c code sev arg pin).episodeView = b.episodeView :=
  Blk.ev_episodeView ..

@[simp] theorem Blk.tev_episodeView (t : Fin 8) (code sev arg : Nat) (pin : Bool) : (b.tev t code sev arg pin).episodeView = b.episodeView :=
  Blk.ev_episodeView ..

@[simp] theorem Blk.pev_episodeView (p : Fin 13) (code sev arg : Nat) (who : Byte) (pin : Bool) :
    (b.pev p code sev arg who pin).episodeView = b.episodeView := Blk.ev_episodeView ..

@[simp] theorem Blk.updTo_episodeView (st : UpdState) : (b.updTo st).episodeView = b.episodeView := by
  rw [Blk.updTo_eq]
  rfl

@[simp] theorem Blk.completeErr_episodeView (d : Due) (e : Err) : (b.completeErr d e).episodeView = b.episodeView := by
  unfold Blk.completeErr Blk.authEvent
  split
  · exact Blk.ev_episodeView ..
  · rfl

@[simp] theorem Blk.displaced_episodeView (l : List Due) : (b.displaced l).episodeView = b.episodeView :=
  foldl_keep Blk.episodeView _ (fun a d => a.completeErr_episodeView d _) l b

/-! ### Programs and their queues (R186, R219, R272) -/

@[simp] theorem Blk.flushQueue_episodeView (q : Fin 256) : (b.flushQueue q).episodeView = b.episodeView := by
  simp [Blk.flushQueue, apply_ite Blk.episodeView]

@[simp] theorem Blk.flushProgram_episodeView (id : Nat) : (b.flushProgram id).episodeView = b.episodeView :=
  foldl_keep Blk.episodeView _ (fun a q => by simp [apply_ite Blk.episodeView]) _ b

@[simp] theorem Blk.initReset_episodeView (i : Initiator) : (b.initReset i).episodeView = b.episodeView := by
  unfold Blk.initReset
  split <;> rfl

@[simp] theorem Blk.resetProgram_episodeView (i : Initiator) : (b.resetProgram i).episodeView = b.episodeView := by
  have hview : (b.resetProgram i).episodeView = ((b.initReset i).flushProgram i.id).episodeView := by
    unfold Blk.resetProgram
    dsimp only
    generalize (b.initReset i).flushProgram i.id = b1
    split <;> rfl
  simp [hview]

@[simp] theorem Blk.tenantDisplace_episodeView (t : Fin 8) (running : Bool) : (b.tenantDisplace t running).episodeView = b.episodeView := by
  simp [Blk.tenantDisplace]

@[simp] theorem Blk.dropNext_episodeView (t : Fin 8) : (b.dropNext t).episodeView = b.episodeView := by
  unfold Blk.dropNext
  split <;> simp

@[simp] theorem Blk.dropPending_episodeView (t : Fin 8) : (b.dropPending t).episodeView = b.episodeView := by
  simp [Blk.dropPending]

/-- The breath goes on without what it holds for the tenant. -/
theorem Blk.onBre_episodeView {f : Breath → Breath} (hrun : (f b.breath).running = b.breath.running) (hbn : (f b.breath).bn = b.breath.bn) :
    (b.onBre f).episodeView = b.episodeView := by
  simp [Blk.episodeView, hrun, hbn]

@[simp] theorem Blk.assertShut_episodeView (t : Fin 8) (reset : Bool) (cause : Nat) :
    (b.assertShut t reset cause).episodeView = b.episodeView := by
  unfold Blk.assertShut
  extract_lets b1 b2 b3 b4
  have hb1 : b1.episodeView = b.episodeView := by simp [b1, apply_ite Blk.episodeView]
  have hb3 : b3.episodeView = b2.episodeView := b2.onBre_episodeView rfl rfl
  have hb4 : b4.episodeView = b.episodeView := by
    rw [Blk.resetProgram_episodeView, hb3, Blk.modT_episodeView, hb1]
  split
  · rw [Blk.tev_episodeView, hb4]
  · exact hb4

@[simp] theorem Blk.stopAll_episodeView (cause : Nat) : (b.stopAll cause).episodeView = b.episodeView := by
  refine foldl_keep Blk.episodeView _ (fun a t => ?_) _ b
  dsimp only
  split <;> simp

@[simp] theorem Blk.startAuto_episodeView : b.startAuto.episodeView = b.episodeView := by
  refine foldl_keep Blk.episodeView _ (fun a t => ?_) _ b
  dsimp only
  split
  · split <;> rfl
  · rfl

@[simp] theorem Blk.safetyFallback_episodeView : b.safetyFallback.episodeView = b.episodeView :=
  foldl_keep Blk.episodeView _ (fun a _ => (a.fallback_frame ..).episodeView) _ _

@[simp] theorem Blk.safetyReset_episodeView (cause : Nat) : (b.safetyReset cause).episodeView = b.episodeView := by
  simp [Blk.safetyReset, apply_ite Blk.episodeView]

/-! ### Updates, components and their trials (R441 to R443) -/

@[simp] theorem Blk.dropUpdate_episodeView (why : Nat) : (b.dropUpdate why).episodeView = b.episodeView := by
  unfold Blk.dropUpdate
  split
  case h_1 | h_2 | h_3 =>
    extract_lets b1 b2
    have hb1 : b1.episodeView = b.episodeView := by
      unfold b1
      split <;> rfl
    have hb2 : b2.episodeView = b.episodeView := by rw [Blk.ev_episodeView, Blk.updTo_episodeView, Blk.onUpd_episodeView, hb1]
    split
    · split
      · rw [Blk.completeErr_episodeView, hb2]
      · rw [Blk.displaced_episodeView, hb2]
    · exact hb2
  case h_4 => rfl

@[simp] theorem Blk.dropMigration_episodeView : b.dropMigration.episodeView = b.episodeView := by
  unfold Blk.dropMigration
  split
  · rfl
  · dsimp only
    rw [foldl_keep Blk.episodeView, Blk.onUpd_episodeView, Blk.onNvm_episodeView]
    · exact Blk.episodeView_congr rfl rfl rfl rfl rfl rfl
    · intro a k
      split
      · simp [apply_ite Blk.episodeView]
      · rfl

@[simp] theorem Blk.followSlot_episodeView (i : Fin 13) : (b.followSlot i).episodeView = b.episodeView := by
  unfold Blk.followSlot
  split
  · rw [Blk.journalSlot, Blk.onNvm_episodeView]
    rfl
  · split
    · rw [Blk.journalTenantSlots, Blk.onNvm_episodeView]
    · rfl

@[simp] theorem Blk.revertComp_episodeView (i : Fin 13) : (b.revertComp i).episodeView = b.episodeView := by
  simp [Blk.revertComp, apply_ite Blk.episodeView]

@[simp] theorem Blk.onRcc_gpioFault_episodeView (f : Rcc → Word) :
    (b.onRcc fun r => { r with gpioFault := f r }).episodeView = b.episodeView := rfl

@[simp] theorem Blk.trialFail_episodeView (i : Fin 13) (why : Nat) : (b.trialFail i why).episodeView = b.episodeView := by
  unfold Blk.trialFail
  dsimp only
  split
  · simp
  · split <;> simp [Blk.resetForRevert]

@[simp] theorem Blk.trialStart_episodeView (i : Fin 13) : (b.trialStart i).episodeView = b.episodeView := by
  simp [Blk.trialStart, apply_ite Blk.episodeView]

/-! ### Counters (R464, R465) -/

@[simp] theorem Blk.ctrPut_episodeView (o : Nat) (v : BitVec 64) (e : Nat) : (b.ctrPut o v e).episodeView = b.episodeView := by
  rw [Blk.ctrPut, Blk.onNvm_episodeView]

@[simp] theorem Blk.counterPut_episodeView (o : Nat) (v : BitVec 64) : (b.counterPut o v).episodeView = b.episodeView :=
  Blk.counterPut_keep Blk.episodeView (fun _ _ => rfl) (fun _ _ _ _ => Blk.ev_episodeView ..) b o v

@[simp] theorem Blk.counterScan_episodeView : b.counterScan.episodeView = b.episodeView := by
  unfold Blk.counterScan
  dsimp only
  refine (foldl_keep Blk.episodeView _ (fun a o => ?_) _ _).trans ?_
  · simp [apply_ite Blk.episodeView]
  · rw [apply_ite Blk.episodeView, Blk.ev_episodeView, Blk.onNvm_episodeView,
      foldl_keep Blk.episodeView _ (fun a o => by simp [apply_ite Blk.episodeView]), ite_self]

@[simp] theorem Blk.addPending_episodeView : b.addPending.episodeView = b.episodeView := by
  unfold Blk.addPending
  split
  · rfl
  · exact Blk.counterPut_episodeView ..

/-! ### Links -/

@[simp] theorem Blk.freeCopy_episodeView (ref : Nat) : (b.freeCopy ref).episodeView = b.episodeView := by
  unfold Blk.freeCopy
  split
  · rfl
  · dsimp only
    split <;> rfl

@[simp] theorem Blk.dropLink_episodeView (p : Fin 13) : (b.dropLink p).episodeView = b.episodeView := by
  unfold Blk.dropLink
  dsimp only
  rw [Blk.pev_episodeView]
  exact foldl_keep Blk.episodeView _ (fun a _ => a.freeCopy_episodeView _) _ _

/-! ### Kernels at a reset (R122, R375) -/

@[simp] theorem Blk.startCoreHold_episodeView (k : Fin 4) : (b.startCoreHold k).episodeView = b.episodeView := by
  unfold Blk.startCoreHold
  dsimp only
  split
  · rfl
  · rw [(Blk.fallback_frame (b := _) ..).episodeView, Blk.kev_episodeView, Blk.modK_episodeView]
    exact foldl_keep Blk.episodeView _ (fun a c => by simp [apply_ite Blk.episodeView]) _ _

@[simp] theorem kernelPowerUp_episodeView (k : Fin 4) : (kernelPowerUp k b).episodeView = b.episodeView := by
  by_cases hup : b.hasKernel k = false ∨ (b.kn k).powered = true
  · rw [kernelPowerUp, if_pos hup]
  · obtain ⟨hin, hoff⟩ := not_or.1 hup
    rw [kernelPowerUp_eq k b (by simpa using hin) (by simpa using hoff), (Blk.restoredRest_frame ..).episodeView,
      (Blk.fallback_frame ..).episodeView, (Blk.restoredChans_frame ..).episodeView, Blk.modK_episodeView]

@[simp] theorem Blk.kernelsRequest_episodeView : b.kernelsRequest.episodeView = b.episodeView := by
  refine foldl_keep Blk.episodeView _ (fun a k => ?_) _ b
  dsimp only
  split
  · rw [(Blk.fallback_frame ..).episodeView]
    exact foldl_keep Blk.episodeView _ (fun c _ => c.modCh_episodeView _ _) _ _
  · rfl

@[simp] theorem Blk.kernelsPower_episodeView : b.kernelsPower.episodeView = b.episodeView := by
  refine foldl_keep Blk.episodeView _ (fun a k => ?_) _ b
  have hch : ((chansOf k).foldl (fun b c => b.modCh c fun ch =>
      { Channel.reset (c.val % 10) with wmSave := ch.wmSave, energySave := ch.energySave }) (a.modK k Kernel.unpowered)).episodeView =
      a.episodeView := foldl_keep Blk.episodeView _ (fun c _ => c.modCh_episodeView _ _) _ _
  dsimp only
  split
  · rw [kernelPowerUp_episodeView, hch]
  · exact hch

end

end Sys2Proof.Machine
end

section
/-! SUPPORT. Reset sources (R374, R375, R377, R378, R396): what an assertion makes of the view of an episode, and the rows of the sources. -/

namespace Sys2Proof.Machine
open Sys2Proof

/-! ### What a reach resets (R375) -/

/-- A reset of reach S or P as the view shows it: BOOT, RESETOUT_N low, the breath and the sequencer stopped, no swap scheduled, the
security unit sealed. -/
def EpisodeView.shellDown (v : EpisodeView) (st : Vector BlkState 11) (tm : TimeBase) : EpisodeView :=
  { v with resetoutLow := true, mode := .boot, blkState := st, breathing := false, time := tm, sec := v.sec.restart, resumed := false,
           swapBn := none, feedBack := false }

/-- What follows once the shell's registers are reset to `n`: the kernels, debug access, and an update that was being received. -/
def Blk.shellFollows (b : Blk) (p : Bool) (n : Blk) : Blk :=
  let b1 := if p then n.kernelsPower else n.kernelsRequest
  let b2 := if b.sec.debugScope = 0 then b1 else b1.ev srcDebug 0x31 2 3
  if b.upd.state = .receiving ∨ b.upd.state = .verifying then b2.dropUpdate 2 else b2

theorem Blk.shellFollows_episodeView (b : Blk) (p : Bool) (n : Blk) : (b.shellFollows p n).episodeView = n.episodeView := by
  unfold Blk.shellFollows
  simp [apply_ite Blk.episodeView]

theorem Blk.shellReset_episodeView (p : Bool) (b : Blk) :
    ∃ st tm, (b.shellReset p).episodeView = b.episodeView.shellDown st tm ∧ tm.aot = b.time.aot :=
  ⟨_, _, (b.shellFollows_episodeView p _).trans rfl, rfl⟩

theorem Blk.onEvs_episodeView (b : Blk) {f : Evs → Evs} (h : (f b.evs).resumed = b.evs.resumed) : (b.onEvs f).episodeView = b.episodeView := by
  simp [Blk.episodeView, h]

theorem Blk.coreBlocks_episodeView (b : Blk) (st : BlkState) : ∃ v, (b.coreBlocks st).episodeView = { b.episodeView with blkState := v } :=
  ⟨_, rfl⟩

/-- A C-reach reset resets the clocks of the cores' blocks, and leaves the rest of the view. -/
theorem Blk.coreReset_episodeView (b : Blk) : ∃ st, b.coreReset.episodeView = { b.episodeView with blkState := st } := by
  unfold Blk.coreReset
  extract_lets b1 b2 b3 b4
  have hb1 : b1.episodeView = b.episodeView :=
    foldl_keep Blk.episodeView _ (fun a k => by simp [apply_ite Blk.episodeView]) _ b
  obtain ⟨st, hb2⟩ := (b1.stopAll 8).coreBlocks_episodeView .inReset
  have hb4 : b4.episodeView = { b.episodeView with blkState := st } := by
    have hviews : b4.episodeView = ((b3.initReset .chanter).flushProgram 0x20).episodeView := Blk.onEvs_episodeView _ rfl
    rw [hviews, Blk.flushProgram_episodeView, Blk.initReset_episodeView, Blk.onDr_episodeView, hb2, Blk.stopAll_episodeView, hb1]
  refine ⟨st, ?_⟩
  split
  · rw [Blk.dropUpdate_episodeView, hb4]
  · exact hb4

/-! ### Assertion (R378) -/

/-- The view of an episode that source `n` begins. -/
def EpisodeView.begun (v : EpisodeView) (n : Nat) : EpisodeView :=
  { v with episode := some (srcReach n), asserted := v.asserted ||| BitVec.ofNat 16 (2 ^ n), seen := BitVec.ofNat 16 (2 ^ n),
           step := if n = 8 ∨ n = 9 then 1 else (srcReach n).firstStep }

/-- The view of an episode that source `n` joins. -/
def EpisodeView.joined (v : EpisodeView) (e : Reach) (n : Nat) : EpisodeView :=
  { v with episode := some (e.wider (srcReach n)), asserted := if n = 8 then v.asserted else v.asserted ||| BitVec.ofNat 16 (2 ^ n),
           seen := v.seen ||| BitVec.ofNat 16 (2 ^ n), step := min v.step (srcReach n).firstStep }

/-- The registers of an episode that source `n` begins. -/
def Rcc.begun (r : Rcc) (n : Nat) : Rcc :=
  { r with episode := some (srcReach n), fromE1 := decide (n = 8 ∨ n = 9), asserted := r.asserted ||| BitVec.ofNat 16 (2 ^ n),
           seen := BitVec.ofNat 16 (2 ^ n), recorded := none,
           step := if decide (n = 8 ∨ n = 9) = true then 1 else (srcReach n).firstStep }

theorem Blk.begun_episodeView (b : Blk) (n : Nat) : (b.onRcc (·.begun n)).episodeView = b.episodeView.begun n := by
  simp only [Blk.episodeView, EpisodeView.begun, Blk.onRcc, Rcc.begun, decide_eq_true_eq]

section
variable {b : Blk} (hidle : b.rcc.episode = none) (n : Nat)
include hidle

theorem Blk.assertSource_shell (hreach : srcReach n ≠ .c) :
    ∃ st tm, (b.assertSource n).episodeView = (b.episodeView.begun n).shellDown st tm ∧ tm.aot = b.time.aot := by
  have hreset : ∃ p, b.assertSource n = ((b.onRcc (·.begun n)).shellReset p).noteHolding := by
    unfold Blk.assertSource
    rw [hidle]
    cases hr : srcReach n with
    | p => exact ⟨true, by simp only [Rcc.begun, hr]⟩
    | s => exact ⟨false, by simp only [Rcc.begun, hr]⟩
    | c => exact absurd hr hreach
  obtain ⟨p, hp⟩ := hreset
  obtain ⟨st, tm, hview, haot⟩ := (b.onRcc (·.begun n)).shellReset_episodeView p
  exact ⟨st, tm, by rw [hp, Blk.noteHolding_episodeView, hview, Blk.begun_episodeView], haot⟩

theorem Blk.assertSource_core (hreach : srcReach n = .c) :
    ∃ st, (b.assertSource n).episodeView = { b.episodeView.begun n with blkState := st } := by
  have hreset : b.assertSource n = (b.onRcc (·.begun n)).coreReset.noteHolding := by
    unfold Blk.assertSource
    rw [hidle]
    simp [Rcc.begun, hreach]
  obtain ⟨st, hview⟩ := (b.onRcc (·.begun n)).coreReset_episodeView
  exact ⟨st, by rw [hreset, Blk.noteHolding_episodeView, hview, Blk.begun_episodeView]⟩

end

/-! ### The rows of the sources (R374) -/

theorem testBit_or_source (x : BitVec 16) {n : Nat} (h : n < 16) : (x ||| BitVec.ofNat 16 (2 ^ n)).toNat.testBit n = true := by
  have hlt : 2 ^ n < 2 ^ 16 := Nat.pow_lt_pow_right (by decide) h
  rw [BitVec.toNat_or, Nat.testBit_or, BitVec.toNat_ofNat, Nat.mod_eq_of_lt hlt, Nat.testBit_two_pow_self, Bool.or_true]

/-- Time bases that differ in what is latched for reads alone. -/
theorem TimeBase.eq_of_unlatched {x y : TimeBase} (h : x.unlatched = y.unlatched) : x = { y with hiLatch := x.hiLatch } := by
  cases x
  cases y
  simp only [TimeBase.unlatched, TimeBase.mk.injEq] at h ⊢
  simp [h]

/-- A row that asserts source `n` while no episode runs, told by the view: what it does besides is before or after the assertion and
leaves the view. -/
theorem asserts_of_view {c : Instr} {n : Nat} {s : State} {f : Blk → Blk} {a : Blk} (hidle : s.blk.rcc.episode = none) (hn : n < 16)
    (hexec : exec c s = .next (s.onBlk f)) (hbefore : a.episodeView = s.blk.episodeView)
    (hafter : (f s.blk).episodeView = (a.assertSource n).episodeView) : Safety.asserts c n s := by
  have haidle : a.rcc.episode = none := (congrArg EpisodeView.episode hbefore).trans hidle
  have hbit : (s.blk.rcc.asserted ||| BitVec.ofNat 16 (2 ^ n)).toNat.testBit n = true := testBit_or_source _ hn
  refine runs_onBlk hexec rfl ?_
  dsimp only
  by_cases hreach : srcReach n = .c
  · obtain ⟨st, hcore⟩ := Blk.assertSource_core haidle n hreach
    rw [hbefore] at hcore
    have hend := hafter.trans hcore
    refine ⟨congrArg EpisodeView.episode hend, ?_, congrArg EpisodeView.seen hend, congrArg EpisodeView.step hend, rfl, fun h => absurd hreach h,
      fun _ => ⟨congrArg EpisodeView.resetoutLow hend, congrArg EpisodeView.mode hend, congrArg EpisodeView.breathing hend,
        TimeBase.eq_of_unlatched (congrArg EpisodeView.time hend), congrArg EpisodeView.resumed hend⟩⟩
    rw [show (f s.blk).rcc.asserted = _ from congrArg EpisodeView.asserted hend]
    exact hbit
  · obtain ⟨st, tm, hshell, haot⟩ := Blk.assertSource_shell haidle n hreach
    rw [hbefore] at hshell
    have hend := hafter.trans hshell
    have htime : (f s.blk).time.aot = s.blk.time.aot :=
      (congrArg (fun v : EpisodeView => v.time.aot) hend).trans (haot.trans (congrArg (fun v : EpisodeView => v.time.aot) hbefore))
    refine ⟨congrArg EpisodeView.episode hend, ?_, congrArg EpisodeView.seen hend, congrArg EpisodeView.step hend, rfl,
      fun _ => ⟨congrArg EpisodeView.resetoutLow hend, congrArg EpisodeView.mode hend, congrArg EpisodeView.breathing hend,
        congrArg EpisodeView.resumed hend, congrArg EpisodeView.swapBn hend, congrArg EpisodeView.bn hend, htime⟩, fun h => absurd h hreach⟩
    rw [show (f s.blk).rcc.asserted = _ from congrArg EpisodeView.asserted hend]
    exact hbit

/-- The watchdog's expiry is the second where the one before is at most 10 s old (R374). -/
theorem watchdog_eq {b : Blk} (hidle : b.rcc.episode = none) {second : Bool}
    (hsecond : (match b.rcc.wdtLast with | some d => decide (b.since d ≤ 10000000000) | none => false) = second) :
    watchdog b = ((b.onRcc fun r => { r with wdtLast := some b.time.dt, wdtStart := b.time.dt }).assertSource (if second then 5 else 13)).ev
      srcRcc 0xB 3 (arg32 (b2n second)) (pin := true) := by
  subst hsecond
  exact if_neg (by simp [hidle])

theorem asserts_watchdog {s : State} (hidle : s.blk.rcc.episode = none) {second : Bool}
    (hsecond : (match s.blk.rcc.wdtLast with | some d => decide (s.blk.since d ≤ 10000000000) | none => false) = second) :
    Safety.asserts .watchdog (if second then 5 else 13) s :=
  asserts_of_view (a := s.blk.onRcc fun r => { r with wdtLast := some s.blk.time.dt, wdtStart := s.blk.time.dt }) hidle
    (by split <;> decide) rfl rfl (by rw [watchdog_eq hidle hsecond, Blk.ev_episodeView])

theorem asserts_resetDevice {s : State} (hidle : s.blk.rcc.episode = none) {reachS : Bool} (hdue : s.blk.rcc.resetDue = some reachS) :
    Safety.asserts (.resetDeviceAsserted reachS) (if reachS then 7 else 12) s :=
  asserts_of_view (a := s.blk.onRcc fun x => { x with resetDue := none }) hidle (by split <;> decide) rfl rfl
    (congrArg Blk.episodeView (if_neg (not_not_intro hdue)))

/-- Each source, while no episode runs. -/
theorem sources_begin_episodes (s : State) (hidle : s.blk.rcc.episode = none) :
    Safety.asserts .shellPowerOn 0 s ∧ Safety.asserts .supplyDifference 3 s ∧ Safety.asserts .chanterFatalFault 14 s
    ∧ (s.blk.rcc.vioB = true → Safety.asserts .poresetNAssert 1 s ∧ Safety.asserts .sysresetNAssert 2 s)
    ∧ (s.blk.rcc.vioB = false → (Safety.runs .poresetNAssert s fun t => t = s) ∧ Safety.runs .sysresetNAssert s fun t => t = s)
    ∧ (∀ tj : BitVec 16, 2080 < tj.toInt → Safety.asserts (.shellOvertemp tj) 4 s)
    ∧ (∀ tj : BitVec 16, tj.toInt ≤ 2080 → Safety.runs (.shellOvertemp tj) s fun t => t = s)
    ∧ (s.blk.rcc.wdtLast = none → Safety.asserts .watchdog 13 s)
    ∧ (∀ d : BitVec 64, s.blk.rcc.wdtLast = some d → s.blk.since d ≤ 10000000000 → Safety.asserts .watchdog 5 s)
    ∧ (∀ d : BitVec 64, s.blk.rcc.wdtLast = some d → 10000000000 < s.blk.since d → Safety.asserts .watchdog 13 s)
    ∧ (s.blk.rcc.resetDue = some true → Safety.asserts (.resetDeviceAsserted true) 7 s)
    ∧ (s.blk.rcc.resetDue = some false → Safety.asserts (.resetDeviceAsserted false) 12 s)
    ∧ ((s.blk.sec.debugScope ≠ 0 ∨ s.blk.sec.lc = lcBlank) → Safety.asserts .debugResetRequest 15 s)
    ∧ (s.blk.sec.debugScope = 0 → s.blk.sec.lc ≠ lcBlank → Safety.runs .debugResetRequest s fun t => t = s) := by
  refine ⟨asserts_of_view (a := s.blk) hidle (by decide) rfl rfl rfl, asserts_of_view (a := s.blk) hidle (by decide) rfl rfl rfl,
    asserts_of_view (a := s.blk) hidle (by decide) rfl rfl rfl, fun hpins => ⟨?_, ?_⟩, fun hpins => ⟨?_, ?_⟩, fun tj hhot => ?_,
    fun tj hcool => runs_onBlk rfl (if_pos hcool) rfl, fun hnone => ?_, fun d hd hsoon => ?_, fun d hd hlate => ?_,
    fun hdue => asserts_resetDevice hidle hdue, fun hdue => asserts_resetDevice hidle hdue, fun hopen => ?_,
    fun hscope hlc => runs_onBlk rfl (if_neg (by simp [hscope, hlc])) rfl⟩
  · exact asserts_of_view (a := s.blk.onRcc fun r => { r with nPoreset := false }) hidle (by decide) rfl rfl
      (congrArg Blk.episodeView (if_pos hpins))
  · exact asserts_of_view (a := s.blk.onRcc fun r => { r with nSysreset := false }) hidle (by decide) rfl rfl
      (congrArg Blk.episodeView (if_pos hpins))
  · exact runs_onBlk rfl (if_neg (by simp [hpins])) rfl
  · exact runs_onBlk rfl (if_neg (by simp [hpins])) rfl
  · exact asserts_of_view (a := s.blk) hidle (by decide) rfl rfl
      ((congrArg Blk.episodeView (if_neg (Int.not_le.2 hhot))).trans (Blk.ev_episodeView ..))
  · exact asserts_watchdog (second := false) hidle (by rw [hnone])
  · exact asserts_watchdog (second := true) hidle (by rw [hd]; exact decide_eq_true hsoon)
  · exact asserts_watchdog (second := false) hidle (by rw [hd]; exact decide_eq_false (Nat.not_le.2 hlate))
  · exact asserts_of_view (a := s.blk) hidle (by decide) rfl rfl (congrArg Blk.episodeView (if_pos hopen))

/-! ### RESET_DEVICE, the watchdog's kick, and a source within an episode -/

theorem runs_resetDevice (r : Req) (s : State) (hacc : Safety.accepted cmdResetDevice r s.blk) (hzero : nonZeroAt (Safety.payload r) 1 3 = none)
    (hkind : byteAt (Safety.payload r) 0 = 1 ∨ (byteAt (Safety.payload r) 0 = 2 ∧ s.blk.rcc.mode ≠ .recovery)) : Safety.runs (.resetDevice r) s fun t =>
      t.blk.rcc = { s.blk.rcc with resetDue := some (decide (byteAt (Safety.payload r) 0 = 1)) } ∧ Safety.okays s t r 0x204 []
        ∧ t.blk = { s.blk with rcc := t.blk.rcc, mboxes := t.blk.mboxes } ∧ t.mem = s.mem := by
  have hbyte : ((byteAt (Safety.payload r) 0).toNat = 1) ↔ byteAt (Safety.payload r) 0 = 1 := BitVec.toNat_inj (y := 1)
  have hasked : (byteAt (Safety.payload r) 0).toNat = 1 ∨ ((byteAt (Safety.payload r) 0).toNat = 2 ∧ s.blk.rcc.mode ≠ .recovery) := by
    rcases hkind with h | ⟨h, hmode⟩
    · exact .inl (by rw [h]; rfl)
    · exact .inr ⟨by rw [h]; rfl, hmode⟩
  have hrow : resetDevice r s.blk = (s.blk.ok 0x204 r []).onRcc fun x =>
      { x with resetDue := some (decide ((byteAt (Safety.payload r) 0).toNat = 1)) } := by
    rw [resetDevice, serve_pass hacc rfl rfl, zeroErr_eq_nil hzero]
    simp [firstErr, hasked]
  refine runs_onBlk rfl hrow ?_
  simp only [hbyte]
  exact ⟨rfl, Blk.respond_answers (a := s.blk) rfl rfl .., rfl, trivial⟩

theorem runs_rccWdtKickWrite (w : Word) (s : State) :
    (w = 0x5A5A → Safety.runs (.rccWdtKickWrite .chanter w) s fun t => t.blk = { s.blk with rcc := { s.blk.rcc with wdtStart := s.blk.time.dt } } ∧ t.mem = s.mem)
    ∧ (w ≠ 0x5A5A → Safety.runs (.rccWdtKickWrite .chanter w) s fun t => t = s) := by
  have hrow : rccWdtKickWrite .chanter w s.blk = if w = 0x5A5A then s.blk.onRcc fun r => { r with wdtStart := s.blk.time.dt } else s.blk :=
    if_neg (not_not_intro rfl)
  exact ⟨fun h => runs_onBlk rfl (hrow.trans (if_pos h)) ⟨rfl, rfl⟩, fun h => runs_onBlk rfl (hrow.trans (if_neg h)) rfl⟩

/-- A supply difference widens an episode that runs to reach S, and takes it back to the first step of that reach. -/
theorem runs_supplyDifference_within (e : Reach) (s : State) (hep : s.blk.rcc.episode = some e) : Safety.runs .supplyDifference s fun t =>
    t.blk.rcc.episode = some (e.wider .s) ∧ t.blk.rcc.asserted.toNat.testBit 3 = true ∧ t.blk.rcc.seen = s.blk.rcc.seen ||| 8
    ∧ t.blk.rcc.step = min s.blk.rcc.step 3 ∧ t.mem = s.mem := by
  have hreset : ∃ a : Blk, a.episodeView = s.blk.episodeView.joined e 3 ∧ supplyDifference s.blk = (a.shellReset false).noteHolding := by
    unfold supplyDifference Blk.assertSource
    rw [hep]
    exact ⟨_, rfl, rfl⟩
  obtain ⟨a, ha, hrow⟩ := hreset
  obtain ⟨st, tm, hview, -⟩ := a.shellReset_episodeView false
  have hend : (supplyDifference s.blk).episodeView = (s.blk.episodeView.joined e 3).shellDown st tm := by
    rw [hrow, Blk.noteHolding_episodeView, hview, ha]
  refine runs_onBlk rfl rfl ⟨congrArg EpisodeView.episode hend, ?_, congrArg EpisodeView.seen hend, congrArg EpisodeView.step hend, rfl⟩
  dsimp only
  rw [show (supplyDifference s.blk).rcc.asserted = _ from congrArg EpisodeView.asserted hend]
  exact testBit_or_source s.blk.rcc.asserted (n := 3) (by decide)

/-- Settles O48, source by source. -/
theorem resetSourcesBeginEpisodes : Obligations.ResetSourcesBeginEpisodes :=
  ⟨sources_begin_episodes, fun _ hsome => runs_onBlk rfl (if_pos hsome) rfl, runs_resetDevice, runs_rccWdtKickWrite, runs_supplyDifference_within⟩

end Sys2Proof.Machine
end

section
/-! SUPPORT. Releases, the exit sequence (R378) and the clock gating of blocks (R379, R380). -/

namespace Sys2Proof.Machine
open Sys2Proof

/-! ### Releases -/

theorem testBit_and_not_source (x : BitVec 16) (n : ResetBit) : (x &&& ~~~ BitVec.ofNat 16 (2 ^ n.val)).toNat.testBit n.val = false := by
  have hlt : 2 ^ n.val < 2 ^ 16 := Nat.pow_lt_pow_right (by decide) n.isLt
  have hset : (BitVec.ofNat 16 (2 ^ n.val)).getLsbD n.val = true := by
    rw [BitVec.getLsbD, BitVec.toNat_ofNat, Nat.mod_eq_of_lt hlt, Nat.testBit_two_pow_self]
  show (x &&& ~~~ BitVec.ofNat 16 (2 ^ n.val)).getLsbD n.val = false
  rw [BitVec.getLsbD_and, BitVec.getLsbD_not, hset]
  simp

theorem runs_releases (s : State) :
    (Safety.runs .poresetNRelease s fun t => t.blk.rcc.nPoreset = true ∧ t.blk.rcc.asserted = s.blk.rcc.asserted &&& ~~~ 2 ∧ t.blk = { s.blk with rcc := t.blk.rcc } ∧ t.mem = s.mem)
    ∧ (Safety.runs .sysresetNRelease s fun t => t.blk.rcc.nSysreset = true ∧ t.blk.rcc.asserted = s.blk.rcc.asserted &&& ~~~ 4 ∧ t.blk = { s.blk with rcc := t.blk.rcc } ∧ t.mem = s.mem)
    ∧ (∀ n : ResetBit, 3 ≤ n.val → n.val ≠ 8 → s.blk.rcc.asserted.toNat.testBit n.val = true → Safety.runs (.resetSourceRelease n) s fun t =>
        t.blk.rcc.asserted.toNat.testBit n.val = false ∧ t.blk.rcc.episode = s.blk.rcc.episode ∧ t.blk = { s.blk with rcc := t.blk.rcc } ∧ t.mem = s.mem) := by
  refine ⟨runs_onBlk rfl rfl ⟨rfl, rfl, rfl, rfl⟩, runs_onBlk rfl rfl ⟨rfl, rfl, rfl, rfl⟩, fun n hpins hrails hasserted => ?_⟩
  have hrow : resetSourceRelease n s.blk = s.blk.releaseSource n.val := if_neg (by rw [hasserted]; simp; omega)
  exact runs_onBlk rfl hrow ⟨testBit_and_not_source .., rfl, rfl, rfl⟩

/-! ### A step of the exit sequence -/

/-- What the first step of the effective reach records (R378). -/
def Rcc.noted (r : Rcc) (e : Reach) : Rcc := if r.firstStep e = r.step ∧ r.recorded ≠ some e then r.record e else r

theorem Rcc.noted_eq (r : Rcc) (e : Reach) :
    r.noted e = { r with cause := (r.noted e).cause, causePrev := (r.noted e).causePrev, recorded := (r.noted e).recorded } := by
  unfold Rcc.noted
  split <;> rfl

/-- The step that the sequence stands at, where no source holds it. -/
theorem exitStepDone_of_mayRun {b : Blk} {e : Reach} (hep : b.rcc.episode = some e) (hmay : b.rcc.mayRun b.rcc.step = true)
    (l : List (BitVec 5)) : exitStepDone l b =
      if b.rcc.step = 8 then (b.onRcc (·.noted e)).runStep e l b.rcc.step
      else ((b.onRcc (·.noted e)).runStep e l b.rcc.step).map fun t => (t.onRcc fun r => { r with step := b.rcc.step + 1 }).noteHolding := by
  have hnote : (if b.rcc.firstStep e = b.rcc.step ∧ b.rcc.recorded ≠ some e then b.onRcc fun r => r.record e else b) = b.onRcc (·.noted e) := by
    unfold Rcc.noted
    by_cases hfirst : b.rcc.firstStep e = b.rcc.step ∧ b.rcc.recorded ≠ some e
    · simp only [if_pos hfirst, Blk.onRcc]
    · simp only [if_neg hfirst, Blk.onRcc]
  unfold exitStepDone
  rw [hep]
  dsimp only
  rw [if_neg (by simp [hmay]), hnote]

/-- What the memories get of a step: E5 clears the volatile ones (R375). -/
def stepClears (k : Nat) : List Store := if k = 5 then [.clear 0x10000000 0x1000000, .clear 0x80000000 0x80000000] else []

theorem Blk.sampleStraps_rcc (b : Blk) (l : List (BitVec 5)) :
    (b.sampleStraps l).rcc = { b.rcc with bootSel := (b.sampleStraps l).rcc.bootSel, straps := (b.sampleStraps l).rcc.straps,
                                          blkState := (b.sampleStraps l).rcc.blkState } := by
  unfold Blk.sampleStraps
  dsimp only
  split
  · rw [Blk.ev_rcc]
    rfl
  · rfl

/-- A step between the rails and the end of the episode keeps the episode, its sources and what is recorded; E7 releases RESETOUT_N. -/
theorem Blk.runStep_spec (b : Blk) (e : Reach) (l : List (BitVec 5)) {k : Nat} (hrails : k ≠ 1) (hend : k ≠ 8) :
    (b.runStep e l k).1.rcc.episode = b.rcc.episode ∧ (b.runStep e l k).1.rcc.asserted = b.rcc.asserted
      ∧ (b.runStep e l k).1.rcc.cause = b.rcc.cause ∧ (b.runStep e l k).1.rcc.causePrev = b.rcc.causePrev
      ∧ (k = 7 → (b.runStep e l k).1.rcc.resetoutLow = false) ∧ (b.runStep e l k).2 = stepClears k := by
  unfold Blk.runStep
  split
  next => exact absurd rfl hrails
  next =>
    dsimp only
    rw [Blk.sampleStraps_rcc]
    exact ⟨rfl, rfl, rfl, rfl, nofun, rfl⟩
  next => exact ⟨rfl, rfl, rfl, rfl, nofun, rfl⟩
  next => exact ⟨rfl, rfl, rfl, rfl, nofun, rfl⟩
  next =>
    refine ⟨?_, ?_, ?_, ?_, fun _ => rfl, rfl⟩
    all_goals
      dsimp only [Blk.onRcc]
      split <;> rfl
  next => exact absurd rfl hend
  next h5 h7 _ => exact ⟨rfl, rfl, rfl, rfl, fun h => absurd h h7, (if_neg h5).symm⟩

/-- The two clears of E5 reach every byte of SRAM and of LPDDR5 (R375). -/
theorem read_stepClears (m : Mem) {a : Nat} (h : (0x10000000 ≤ a ∧ a < 0x11000000) ∨ (0x80000000 ≤ a ∧ a < 0x100000000)) :
    Mem.read (Mem.stores m (stepClears 5)) a = 0 := by
  show Mem.read (Mem.clear (Mem.clear m 0x10000000 0x1000000) 0x80000000 0x80000000) a = 0
  rw [Mem.read_clear, Mem.read_clear]
  simp only [clears, writable, Bool.and_eq_true, Bool.or_eq_true, decide_eq_true_eq]
  rcases h with h | h
  · rw [if_neg (by omega), if_pos (by omega)]
  · rw [if_pos (by omega)]

section
variable {e : Reach} {s : State} (l : List (BitVec 5)) (hep : s.blk.rcc.episode = some e)
include hep

theorem runs_exitStepDone_held (hheld : s.blk.rcc.mayRun s.blk.rcc.step = false) : Safety.runs (.exitStepDone l) s fun t =>
      t.blk.rcc.step = s.blk.rcc.step ∧ t.blk.rcc.episode = some e
      ∧ t.blk.rcc.holding = decide (s.blk.rcc.firstStep e < s.blk.rcc.step) ∧ t.blk = { s.blk with rcc := t.blk.rcc } ∧ t.mem = s.mem := by
  have hrow : exitStepDone l s.blk = (s.blk.noteHolding, []) := by
    unfold exitStepDone
    rw [hep]
    exact if_pos hheld
  refine runs_onMem rfl hrow ?_
  dsimp only
  rw [Blk.heal_nil]
  refine ⟨rfl, hep, ?_, rfl, rfl⟩
  simp [Blk.noteHolding, Blk.onRcc, hep, hheld]

theorem runs_exitStepDone_between (hmay : s.blk.rcc.mayRun s.blk.rcc.step = true) (hend : s.blk.rcc.step ≠ 8) (hrails : s.blk.rcc.step ≠ 1) :
    Safety.runs (.exitStepDone l) s fun t => t.blk.rcc.step = s.blk.rcc.step + 1
      ∧ t.blk.rcc.episode = some e ∧ t.blk.rcc.asserted = s.blk.rcc.asserted
      ∧ (s.blk.rcc.firstStep e = s.blk.rcc.step → s.blk.rcc.recorded = none → t.blk.rcc.cause = mkWord [s.blk.rcc.seen.toNat, e.num * 2 ^ 28]
          ∧ t.blk.rcc.causePrev = (if e = .p then 0 else s.blk.rcc.cause))
      ∧ (s.blk.rcc.step = 7 → t.blk.rcc.resetoutLow = false)
      ∧ (s.blk.rcc.step = 5 → ∀ a : Nat, (0x10000000 ≤ a ∧ a < 0x11000000) ∨ (0x80000000 ≤ a ∧ a < 0x100000000) → Mem.read t.mem a = 0)
      ∧ (s.blk.rcc.step ≠ 5 → t.mem = s.mem) := by
  obtain ⟨hepisode, hasserted, hcause, hprev, hout, hstores⟩ := (s.blk.onRcc (·.noted e)).runStep_spec e l hrails hend
  have hnoted : (s.blk.onRcc (·.noted e)).rcc = s.blk.rcc.noted e := rfl
  rw [hnoted, Rcc.noted_eq] at hepisode hasserted
  refine runs_onMem rfl ((exitStepDone_of_mayRun hep hmay l).trans (if_neg hend)) ?_
  refine ⟨rfl, hepisode.trans hep, hasserted, fun hfirst hnone => ?_, hout, fun hfive a ha => ?_, fun hfive => ?_⟩
  · have hrecord : s.blk.rcc.noted e = s.blk.rcc.record e := if_pos ⟨hfirst, by rw [hnone]; nofun⟩
    exact ⟨hcause.trans (by rw [hnoted, hrecord]; rfl), hprev.trans (by rw [hnoted, hrecord]; rfl)⟩
  · show Mem.read (Mem.stores s.mem ((s.blk.onRcc (·.noted e)).runStep e l s.blk.rcc.step).2) a = 0
    rw [hstores, hfive]
    exact read_stepClears s.mem ha
  · show Mem.stores s.mem ((s.blk.onRcc (·.noted e)).runStep e l s.blk.rcc.step).2 = s.mem
    rw [hstores, stepClears, if_neg hfive]
    rfl

end

/-! ### Step E8: the end of the episode (R378) -/

/-- What the end of an episode goes by: the sources seen, and a pending life-cycle change. -/
def Blk.ends (b : Blk) : BitVec 16 × Option (Nat × Nat) := (b.rcc.seen, b.sec.lcPending)

theorem Blk.ends_of_episodeView {a b : Blk} (h : a.episodeView = b.episodeView) : a.ends = b.ends :=
  congrArg (fun v : EpisodeView => (v.seen, v.sec.lcPending)) h

theorem Blk.of_ends {a b : Blk} (h : a.ends = b.ends) : a.rcc.seen = b.rcc.seen ∧ a.sec.lcPending = b.sec.lcPending :=
  ⟨congrArg Prod.fst h, congrArg Prod.snd h⟩

section
variable (b : Blk)

@[simp] theorem Blk.onEvs_ends (f : Evs → Evs) : (b.onEvs f).ends = b.ends := rfl
@[simp] theorem Blk.onTb_ends (f : TimeBase → TimeBase) : (b.onTb f).ends = b.ends := rfl
@[simp] theorem Blk.onBre_ends (f : Breath → Breath) : (b.onBre f).ends = b.ends := rfl
@[simp] theorem Blk.onNvm_ends (f : Nvm → Nvm) : (b.onNvm f).ends = b.ends := rfl

theorem Blk.onSec_ends {f : Security → Security} (h : (f b.sec).lcPending = b.sec.lcPending) : (b.onSec f).ends = b.ends :=
  congrArg (b.rcc.seen, ·) h

theorem Blk.onRcc_ends {f : Rcc → Rcc} (h : (f b.rcc).seen = b.rcc.seen) : (b.onRcc f).ends = b.ends :=
  congrArg (·, b.sec.lcPending) h

@[simp] theorem Blk.storeAnchor_ends : b.storeAnchor.ends = b.ends := by rw [Blk.storeAnchor, Blk.onNvm_ends, Blk.onTb_ends]

@[simp] theorem Blk.counterPut_ends (o : Nat) (v : BitVec 64) : (b.counterPut o v).ends = b.ends :=
  Blk.ends_of_episodeView (b.counterPut_episodeView o v)

/-- The sequencer resumes (R75), and the sources seen and a pending life-cycle change stay. -/
theorem Blk.startSequencer_ends : b.startSequencer.ends = b.ends := by
  unfold Blk.startSequencer
  dsimp only
  rw [Blk.onRcc_ends, Blk.onSec_ends, Blk.onEvs_ends, Blk.storeAnchor_ends, Blk.onBre_ends, Blk.counterPut_ends, Blk.counterPut_ends]
  · rfl
  · rfl

theorem Blk.startSequencer_resumed : b.startSequencer.evs.resumed = true := by
  unfold Blk.startSequencer
  dsimp only [Blk.onRcc, Blk.onSec, Blk.onEvs]

/-- The shell's start at the end of an episode of reach S or P: the guarded counters, held alarms, DT, the power registers, the sequencer. -/
def Blk.shellStarts (b : Blk) : Blk :=
  ((((b.counterScan.addPending).startTime).readPower).startSequencer).onNvm fun n =>
    { n with scanning := false, torn := false, sticky := if n.torn then orBits n.sticky 8 else n.sticky }

theorem Blk.shellStarts_ends : b.shellStarts.ends = b.ends := by
  rw [Blk.shellStarts, Blk.onNvm_ends, Blk.startSequencer_ends, Blk.ends_of_episodeView (Blk.readPower_episodeView _), Blk.startTime,
    Blk.onTb_ends, Blk.ends_of_episodeView (Blk.addPending_episodeView _), Blk.ends_of_episodeView (Blk.counterScan_episodeView _)]

theorem Blk.shellStarts_resumed : b.shellStarts.evs.resumed = true := by
  rw [Blk.shellStarts, Blk.onNvm_evs, Blk.startSequencer_resumed]

end

theorem Blk.noted_episodeView (b : Blk) (e : Reach) : (b.onRcc (·.noted e)).episodeView = b.episodeView := by
  have hcause : ∀ (f g : Rcc → Word) (h : Rcc → Option Reach),
      (b.onRcc fun r => { r with cause := f r, causePrev := g r, recorded := h r }).episodeView = b.episodeView := fun _ _ _ => rfl
  rw [funext (Rcc.noted_eq · e)]
  exact hcause ..

/-- The registers of an episode that has ended. -/
def Blk.episodeOver (b : Blk) : Blk :=
  b.onRcc fun r => { r with episode := none, step := 0, holding := false, fromE1 := false, recorded := none, relDt := b.time.dt,
                            wdtStart := b.time.dt }

/-- The episode ended, with its record. -/
def Blk.episodeLogged (b : Blk) : Blk := b.episodeOver.ev srcRcc 1 2 b.episodeOver.rcc.cause (pin := true)

theorem Blk.episodeLogged_episodeView (b : Blk) : b.episodeLogged.episodeView = { b.episodeView with episode := none, step := 0 } := by
  rw [Blk.episodeLogged, Blk.ev_episodeView]
  rfl

theorem Blk.episodeLogged_episode (b : Blk) : b.episodeLogged.rcc.episode = none := congrArg EpisodeView.episode b.episodeLogged_episodeView

theorem Blk.episodeLogged_resumed (b : Blk) : b.episodeLogged.evs.resumed = b.evs.resumed :=
  congrArg EpisodeView.resumed b.episodeLogged_episodeView

theorem Blk.episodeLogged_ends (b : Blk) : b.episodeLogged.ends = b.ends :=
  congrArg (fun v : EpisodeView => (v.seen, v.sec.lcPending)) b.episodeLogged_episodeView

theorem Blk.endEpisode_shell {b : Blk} {e : Reach} (hreach : e ≠ .c) : b.endEpisode e = b.shellStarts.episodeLogged.enterBoot := by
  unfold Blk.endEpisode
  simp only [hreach, ne_eq, not_false_eq_true, decide_true, if_true]
  rfl

theorem Blk.endEpisode_core (b : Blk) : b.endEpisode .c = b.episodeLogged.resumeCores := rfl

/-- BOOT is entered, with a wake or a reset as its cause (R389, R390). -/
theorem Blk.enterBoot_rcc (b : Blk) : b.enterBoot.rcc = { b.rcc with
    mode := .boot, modeCause := if b.rcc.seen.toNat.testBit 8 then mcWake else mcReset, entryBn := b.breath.bn, entryDt := b.time.dt } := by
  rw [Blk.enterBoot, Blk.ev_rcc]
  rfl

theorem Blk.enterBoot_sec (b : Blk) : b.enterBoot.sec = b.sec := Blk.ev_sec ..

theorem Blk.enterBoot_resumed (b : Blk) : b.enterBoot.evs.resumed = b.evs.resumed := by
  rw [Blk.enterBoot, Blk.ev_evs]
  rfl

/-- After a C-reach episode the mode goes on (R378). -/
theorem Blk.resumeCores_episodeView (b : Blk) : b.resumeCores.episodeView = b.episodeView := by
  unfold Blk.resumeCores
  extract_lets m b1 b2
  have hb1 : b1.episodeView = b.episodeView := by simp [b1, apply_ite Blk.episodeView]
  have hb2 : b2.episodeView = b.episodeView := by simp [b2, apply_ite Blk.episodeView, hb1]
  split
  · exact hb2
  · exact (foldl_keep Blk.episodeView _ (fun a i => a.trialStart_episodeView i) _ _).trans hb2

theorem Blk.lifecycleResume_of_none {b : Blk} (h : b.sec.lcPending = none) : b.lifecycleResume = b := by
  rw [Blk.lifecycleResume, h]

theorem runs_exitStepDone_end {e : Reach} {s : State} (l : List (BitVec 5)) (hep : s.blk.rcc.episode = some e)
    (hmay : s.blk.rcc.mayRun 8 = true) (hstep : s.blk.rcc.step = 8) (hlc : s.blk.sec.lcPending = none) :
    Safety.runs (.exitStepDone l) s fun t => t.blk.rcc.episode = none
      ∧ (e ≠ .c → t.blk.rcc.mode = .boot ∧ t.blk.evs.resumed = true ∧ t.blk.rcc.modeCause = (if s.blk.rcc.seen.toNat.testBit 8 then mcWake else mcReset))
      ∧ (e = .c → t.blk.rcc.mode = s.blk.rcc.mode) := by
  have hnoted := s.blk.noted_episodeView e
  have hrow : exitStepDone l s.blk = (((s.blk.onRcc (·.noted e)).endEpisode e).lifecycleResume, []) := by
    rw [exitStepDone_of_mayRun hep (by rw [hstep]; exact hmay), if_pos hstep, hstep, Blk.runStep]
  by_cases hreach : e = .c
  · subst hreach
    have hend : ((s.blk.onRcc (·.noted .c)).endEpisode .c).episodeView = { s.blk.episodeView with episode := none, step := 0 } := by
      rw [Blk.endEpisode_core, Blk.resumeCores_episodeView, Blk.episodeLogged_episodeView, hnoted]
    rw [Blk.lifecycleResume_of_none ((congrArg (fun v : EpisodeView => v.sec.lcPending) hend).trans hlc)] at hrow
    exact runs_onMem rfl hrow ⟨congrArg EpisodeView.episode hend, fun h => absurd rfl h, fun _ => congrArg EpisodeView.mode hend⟩
  · have hends := (Blk.episodeLogged_ends _).trans ((s.blk.onRcc (·.noted e)).shellStarts_ends.trans (Blk.ends_of_episodeView hnoted))
    obtain ⟨hseen, hpending⟩ := Blk.of_ends hends
    have hsec : (s.blk.onRcc (·.noted e)).shellStarts.episodeLogged.enterBoot.sec.lcPending = none := by
      rw [Blk.enterBoot_sec]
      exact hpending.trans hlc
    rw [Blk.endEpisode_shell hreach, Blk.lifecycleResume_of_none hsec] at hrow
    refine runs_onMem rfl hrow ?_
    dsimp only
    rw [Blk.heal_nil, Blk.enterBoot_rcc, Blk.enterBoot_resumed, hseen, Blk.episodeLogged_resumed, Blk.shellStarts_resumed]
    dsimp only
    rw [Blk.episodeLogged_episode]
    exact ⟨rfl, fun _ => ⟨rfl, rfl, rfl⟩, fun h => absurd h hreach⟩

/-! ### Clocks (R379, R380) -/

section
variable (b : Blk) (i : Block)

theorem Blk.setClock_self (st : BlkState) (good : Nat) (d : BitVec 16) :
    (b.setClock i st good d).rcc.blkState.get i = st ∧ (b.setClock i st good d).rcc.blkDev.get i = d :=
  ⟨vmod_get_self .., vmod_get_self ..⟩

theorem Blk.setClock_ne (st : BlkState) (good : Nat) (d : BitVec 16) {j : Block} (h : j ≠ i) :
    (b.setClock i st good d).rcc.blkState.get j = b.rcc.blkState.get j := vmod_get_ne _ _ _ _ h.symm

/-- A block put in reset stops what runs in it; no other block's clock changes. -/
theorem Blk.blockDown_episodeView : (b.blockDown i).episodeView = b.episodeView := by
  have hlinks : ∀ l : List (Fin 13), (l.foldl (fun b p => if (b.port p).link then b.dropLink p else b) b).episodeView = b.episodeView :=
    fun l => foldl_keep Blk.episodeView _ (fun a p => by simp [apply_ite Blk.episodeView]) l b
  unfold Blk.blockDown
  dsimp only
  split
  · rfl
  · exact b.stopAll_episodeView 8
  · rfl
  · exact hlinks _
  · exact hlinks _
  · rfl
  · rfl

end

theorem runs_clocks (i : Block) (d : BitVec 16) (s : State) :
    (s.blk.rcc.blkState.get i = .pending → s.blk.clockless i = false → s.blk.rcc.mode = .boot → Safety.runs (.clockGood i d) s fun t =>
      t.blk.rcc.blkState.get i = .running ∧ t.blk.rcc.blkDev.get i = d ∧ (∀ j : Block, j ≠ i → t.blk.rcc.blkState.get j = s.blk.rcc.blkState.get j)
        ∧ t.blk = { s.blk with rcc := t.blk.rcc } ∧ t.mem = s.mem)
    ∧ (s.blk.rcc.blkState.get i = .pending → s.blk.clockless i = false → 5 ≤ i.val → Safety.runs (.clockFail i d) s fun t =>
      t.blk.rcc.blkState.get i = .fail ∧ (∀ j : Block, j ≠ i → t.blk.rcc.blkState.get j = s.blk.rcc.blkState.get j) ∧ t.blk.rcc.episode = s.blk.rcc.episode
        ∧ (Safety.room s.blk srcRcc → Safety.lastRecord t.blk = some (srcRcc, 2, 4, arg32 i.val, hw)) ∧ t.blk = { s.blk with rcc := t.blk.rcc, evs := t.blk.evs } ∧ t.mem = s.mem)
    ∧ (s.blk.clockless i = true → (Safety.runs (.clockGood i d) s fun t => t = s) ∧ Safety.runs (.clockFail i d) s fun t => t = s)
    ∧ (s.blk.rcc.blkState.get i = .running → Safety.runs (.clockLost i d) s fun t => t.blk.rcc.blkState.get i = .pending
      ∧ (∀ j : Block, j ≠ i → t.blk.rcc.blkState.get j = s.blk.rcc.blkState.get j) ∧ t.mem = s.mem)
    ∧ (s.blk.rcc.blkState.get i ≠ .running → Safety.runs (.clockLost i d) s fun t => t = s) := by
  refine ⟨fun hst hclock hboot => ?_, fun hst hclock hfive => ?_,
    fun hclock => ⟨runs_onBlk rfl (if_pos (.inr hclock)) rfl, runs_onBlk rfl (if_pos (.inr hclock)) rfl⟩, fun hst => ?_,
    fun hst => runs_onBlk rfl (if_pos hst) rfl⟩
  · have hmode : (s.blk.setClock i .running 64 d).rcc.mode.breathes = false := congrArg Mode.breathes hboot
    have hrow : clockGood i d s.blk = s.blk.setClock i .running 64 d :=
      (if_neg (by simp [hst, hclock])).trans (if_pos hmode)
    obtain ⟨hself, hdev⟩ := s.blk.setClock_self i .running 64 d
    exact runs_onBlk rfl hrow ⟨hself, hdev, fun j hj => s.blk.setClock_ne i _ _ _ hj, rfl, rfl⟩
  · have hnot : ¬ (i = 4 ∧ (((s.blk.setClock i .fail 0 d).onRcc fun r => { r with gpioFault := orBits r.gpioFault 0x10 }).ev srcRcc 2 4
        (arg32 i.val) (pin := true)).guard .limp = some true) := by
      rintro ⟨rfl, -⟩
      exact absurd hfive (by decide)
    have hrow : clockFail i d s.blk = ((s.blk.setClock i .fail 0 d).onRcc fun r => { r with gpioFault := orBits r.gpioFault 0x10 }).ev srcRcc 2 4
        (arg32 i.val) (pin := true) := by
      unfold clockFail
      rw [if_neg (by simp [hst, hclock])]
      dsimp only
      rw [if_neg (by omega : ¬ i.val < 3), if_neg hnot]
    refine runs_onBlk rfl hrow ?_
    dsimp only
    rw [Blk.ev_rcc]
    exact ⟨(s.blk.setClock_self i .fail 0 d).1, fun j hj => s.blk.setClock_ne i .fail 0 d hj, rfl,
      fun hroom => Blk.ev_last_of_evs_eq (b := s.blk) (by rfl) hroom .., by rw [Blk.ev_eq]; rfl, rfl⟩
  · have hview := (s.blk.setClock i .pending 0 d).blockDown_episodeView i
    have hstate : ((s.blk.setClock i .pending 0 d).blockDown i).rcc.blkState = (s.blk.setClock i .pending 0 d).rcc.blkState :=
      congrArg EpisodeView.blkState hview
    refine runs_onBlk rfl (if_neg (not_not_intro hst)) ?_
    dsimp only
    rw [hstate]
    exact ⟨(s.blk.setClock_self i .pending 0 d).1, fun j hj => s.blk.setClock_ne i _ _ _ hj, rfl⟩

/-- Settles O49, clause by clause. -/
theorem episodesRunTheExitSequence : Obligations.EpisodesRunTheExitSequence :=
  ⟨runs_releases,
    fun l _ _ hep => ⟨runs_exitStepDone_held l hep, runs_exitStepDone_between l hep, runs_exitStepDone_end l hep⟩, runs_clocks⟩

end Sys2Proof.Machine
end

section
/-! SUPPORT. Supplies and the hold-up commit (R383 to R388), SLEEP (R393) and the always-on region (R373). -/

namespace Sys2Proof.Machine
open Sys2Proof

/-! ### Fields of a register word -/

theorem toNat_mkWord_two (a b : Nat) : (mkWord [a, b]).toNat = (a + b) % 2 ^ 32 := by
  simp [mkWord]

theorem bits_setBits_low (w : Word) {v : Nat} (h : v < 65536) : bits (setBits w 15 0 v) 15 0 = v := by
  simp only [bits, setBits, fld, BitVec.toNat_ofNat]
  omega

theorem bits_setBits_high (w : Word) {v : Nat} (h : v < 65536) : bits (setBits w 31 16 v) 31 16 = v := by
  simp only [bits, setBits, fld, BitVec.toNat_ofNat]
  omega

theorem bits_lt (w : Word) : bits w 15 0 < 65536 ∧ bits w 31 16 < 65536 := ⟨Nat.mod_lt _ (by decide), Nat.mod_lt _ (by decide)⟩

/-- A bit is the parity of the quotient by its weight. -/
theorem bit_eq_decide (w : Word) (i : Nat) : bit w i = decide (w.toNat / 2 ^ i % 2 = 1) := by
  rw [bit, Nat.testBit_eq_decide_div_mod_eq]

theorem bit_setBits_off (w : Word) : bit (setBits w 16 16 0) 16 = false := by
  rw [bit_eq_decide]
  simp only [bits, setBits, fld, BitVec.toNat_ofNat, decide_eq_false_iff_not]
  omega

/-- The register of the last hold-up commit: its duration, and bit 16 as it completed (R386). -/
theorem holdLast_fields (us : BitVec 16) :
    bits (arg32 (us.toNat + 65536)) 15 0 = us.toNat ∧ bit (arg32 (us.toNat + 65536)) 16 = true := by
  have hlt := us.isLt
  rw [bit_eq_decide]
  simp only [bits, arg32, BitVec.toNat_ofNat, decide_eq_true_eq]
  omega

/-! ### Core supply and feeds (R383, R384, R388) -/

theorem runs_avsStep (up : Bool) (m : BitVec 12) (s : State) (hlow : 720 ≤ bits s.blk.rcc.pwrCore 11 0) (hhigh : bits s.blk.rcc.pwrCore 11 0 ≤ 880) :
    Safety.runs (.avsStep up m) s fun t =>
    let v := bits s.blk.rcc.pwrCore 11 0
    let w := if up then min 880 (v + 5) else max 720 (v - 5)
    bits t.blk.rcc.pwrCore 11 0 = w ∧ bits t.blk.rcc.pwrCore 27 16 = m.toNat ∧ (w ≠ (if up then v + 5 else v - 5) → bit t.blk.rcc.pwrSticky 3 = true)
      ∧ t.blk = { s.blk with rcc := t.blk.rcc } ∧ t.mem = s.mem := by
  refine runs_onBlk rfl rfl ?_
  dsimp only [avsStep, Blk.onRcc]
  generalize bits s.blk.rcc.pwrCore 11 0 = v at hlow hhigh ⊢
  have hwant : min 880 (max 720 (if up then v + 5 else v - 5)) = if up then min 880 (v + 5) else max 720 (v - 5) := by
    split <;> omega
  have hrange : (if up then min 880 (v + 5) else max 720 (v - 5)) ≤ 880 := by split <;> omega
  rw [hwant]
  generalize (if up then min 880 (v + 5) else max 720 (v - 5)) = now at hrange ⊢
  have hm := m.isLt
  refine ⟨?_, ?_, fun hne => ?_, rfl, rfl⟩
  · simp only [bits, toNat_mkWord_two, fld]
    omega
  · simp only [bits, toNat_mkWord_two, fld]
    omega
  · rw [if_neg hne]
    exact testBit_orBits s.blk.rcc.pwrSticky (i := 3) (by decide)

/-- A feed that is lost while the other is good (R384): its voltage, and its sticky bit. -/
def Blk.feedOut (b : Blk) (feedB : Bool) (v : BitVec 16) : Blk :=
  (b.setVbat feedB v).onRcc fun r =>
    if feedB then { r with feedB := false, feedBLow := true, pwrSticky := orBits r.pwrSticky 2 }
    else { r with feedA := false, feedALow := true, pwrSticky := orBits r.pwrSticky 1 }

theorem feedLost_of_fed {v : BitVec 16} {b : Blk} (hv : v.toNat < 4000) (hA : b.rcc.feedA = true) (hB : b.rcc.feedB = true)
    (hvariant : b.variant ≠ .nz820) (feedB : Bool) : feedLost feedB v b = (b.feedOut feedB v).ev srcRcc 5 3 (arg32 (b2n feedB)) := by
  have hstands : ¬ (4000 ≤ v.toNat ∨ (if feedB then b.rcc.feedB else b.rcc.feedA) = false) := by
    cases feedB <;> simp [hA, hB, hv]
  have hlog : ((if feedB then b.rcc.feedA else b.rcc.feedB) && !(feedB && decide (b.variant = .nz820))) = true := by
    cases feedB <;> simp [hA, hB, hvariant]
  unfold feedLost
  dsimp only
  rw [if_neg hstands, hlog, if_pos rfl]
  rfl

theorem Blk.feedOut_eq (b : Blk) (feedB : Bool) (v : BitVec 16) : b.feedOut feedB v = { b with rcc := (b.feedOut feedB v).rcc } := rfl

theorem runs_feedLost (feedB : Bool) (v : BitVec 16) (s : State) (hv : v.toNat < 4000) (hA : s.blk.rcc.feedA = true)
    (hB : s.blk.rcc.feedB = true) (hvariant : s.blk.variant ≠ .nz820) : Safety.runs (.feedLost feedB v) s fun t =>
      t.blk.rcc = (s.blk.feedOut feedB v).rcc
      ∧ (Safety.room s.blk srcRcc → Safety.lastRecord t.blk = some (srcRcc, 5, 3, arg32 (b2n feedB), hw))
      ∧ t.blk = { s.blk with rcc := t.blk.rcc, evs := t.blk.evs } ∧ t.mem = s.mem := by
  refine runs_onBlk rfl (feedLost_of_fed hv hA hB hvariant feedB) ?_
  rw [Blk.feedOut_eq]
  refine ⟨Blk.ev_rcc .., fun hroom => Blk.ev_last_of_evs_eq (b := s.blk) (by rfl) hroom .., ?_, rfl⟩
  dsimp only
  rw [Blk.ev_eq]

/-- The record of the loss names the feed. -/
theorem runs_feedLost_A (v : BitVec 16) (s : State) (hv : v.toNat < 4000) (hA : s.blk.rcc.feedA = true) (hB : s.blk.rcc.feedB = true)
    (hvariant : s.blk.variant ≠ .nz820) : Safety.runs (.feedLost false v) s fun t =>
      t.blk.rcc.feedA = false ∧ t.blk.rcc.feedB = true ∧ bit t.blk.rcc.pwrSticky 0 = true
      ∧ bits t.blk.rcc.vbat 15 0 = v.toNat ∧ (Safety.room s.blk srcRcc → Safety.lastRecord t.blk = some (srcRcc, 5, 3, 0, hw))
      ∧ t.blk = { s.blk with rcc := t.blk.rcc, evs := t.blk.evs } ∧ t.mem = s.mem := by
  obtain ⟨t, hexec, hrcc, hrecord, hframe⟩ := runs_feedLost false v s hv hA hB hvariant
  refine ⟨t, hexec, ?_, ?_, ?_, ?_, hrecord, hframe⟩ <;> rw [hrcc]
  · rfl
  · exact hB
  · exact testBit_orBits s.blk.rcc.pwrSticky (i := 0) (by decide)
  · exact bits_setBits_low s.blk.rcc.vbat v.isLt

theorem runs_feedLost_B (v : BitVec 16) (s : State) (hv : v.toNat < 4000) (hA : s.blk.rcc.feedA = true) (hB : s.blk.rcc.feedB = true)
    (hvariant : s.blk.variant ≠ .nz820) : Safety.runs (.feedLost true v) s fun t =>
      t.blk.rcc.feedB = false ∧ t.blk.rcc.feedA = true ∧ bit t.blk.rcc.pwrSticky 1 = true
      ∧ bits t.blk.rcc.vbat 31 16 = v.toNat ∧ (Safety.room s.blk srcRcc → Safety.lastRecord t.blk = some (srcRcc, 5, 3, 1, hw))
      ∧ t.blk = { s.blk with rcc := t.blk.rcc, evs := t.blk.evs } ∧ t.mem = s.mem := by
  obtain ⟨t, hexec, hrcc, hrecord, hframe⟩ := runs_feedLost true v s hv hA hB hvariant
  refine ⟨t, hexec, ?_, ?_, ?_, ?_, hrecord, hframe⟩ <;> rw [hrcc]
  · rfl
  · exact hA
  · exact testBit_orBits s.blk.rcc.pwrSticky (i := 1) (by decide)
  · exact bits_setBits_high s.blk.rcc.vbat v.isLt

/-- A feed that is good again: its voltage, and VHOLD, which charges from the higher feed (R385). -/
def Blk.fed (b : Blk) (feedB : Bool) (v : BitVec 16) : Blk :=
  (b.setVbat feedB v).onRcc fun r =>
    let r1 := if feedB then { r with feedB := true, feedBLow := false } else { r with feedA := true, feedALow := false }
    { r1 with vhold := setBits r1.vhold 15 0 (max (bits r1.vbat 15 0) (bits r1.vbat 31 16)), vholdOk := true }

theorem Blk.fed_rcc (b : Blk) (feedB : Bool) (v : BitVec 16) :
    ((b.fed feedB v).rcc.holdup = b.rcc.holdup ∧ (b.fed feedB v).rcc.holdupDone = b.rcc.holdupDone ∧ (b.fed feedB v).rcc.mode = b.rcc.mode
      ∧ (b.fed feedB v).rcc.episode = b.rcc.episode)
    ∧ (if feedB then (b.fed feedB v).rcc.feedB else (b.fed feedB v).rcc.feedA) = true
    ∧ bits (b.fed feedB v).rcc.vhold 15 0 = max (bits (b.fed feedB v).rcc.vbat 15 0) (bits (b.fed feedB v).rcc.vbat 31 16) := by
  have hmax : max (bits (b.setVbat feedB v).rcc.vbat 15 0) (bits (b.setVbat feedB v).rcc.vbat 31 16) < 65536 :=
    max_lt (bits_lt _).1 (bits_lt _).2
  have hvhold := bits_setBits_low (b.setVbat feedB v).rcc.vhold hmax
  have hset : (b.setVbat feedB v).rcc.holdup = b.rcc.holdup ∧ (b.setVbat feedB v).rcc.holdupDone = b.rcc.holdupDone
    ∧ (b.setVbat feedB v).rcc.mode = b.rcc.mode ∧ (b.setVbat feedB v).rcc.episode = b.rcc.episode := ⟨rfl, rfl, rfl, rfl⟩
  unfold Blk.fed
  generalize b.setVbat feedB v = a at hvhold hset ⊢
  rw [Blk.onRcc_rcc]
  cases feedB
  · simp only [Bool.false_eq_true, if_false]
    exact ⟨hset, trivial, hvhold⟩
  · simp only [if_true]
    exact ⟨hset, trivial, hvhold⟩

/-- The feed noted, and logged where its loss was. -/
def Blk.feedNoted (b : Blk) (feedB : Bool) (v : BitVec 16) : Blk :=
  if (if feedB then b.rcc.feedBLow else b.rcc.feedALow) then (b.fed feedB v).ev srcRcc 6 1 (arg32 (b2n feedB)) else b.fed feedB v

theorem Blk.feedNoted_rcc (b : Blk) (feedB : Bool) (v : BitVec 16) : (b.feedNoted feedB v).rcc = (b.fed feedB v).rcc := by
  unfold Blk.feedNoted
  generalize (if feedB then b.rcc.feedBLow else b.rcc.feedALow) = low
  split
  · exact Blk.ev_rcc ..
  · rfl

theorem Blk.feedNoted_eq (b : Blk) (feedB : Bool) (v : BitVec 16) :
    b.feedNoted feedB v = { b with rcc := (b.feedNoted feedB v).rcc, evs := (b.feedNoted feedB v).evs } := by
  have hfed : b.fed feedB v = { b with evs := (b.fed feedB v).evs, rcc := (b.fed feedB v).rcc } := rfl
  unfold Blk.feedNoted
  generalize (if feedB then b.rcc.feedBLow else b.rcc.feedALow) = low
  generalize b.fed feedB v = a at hfed ⊢
  split
  · rw [Blk.ev_eq, hfed]
  · exact hfed

theorem feedGood_of_good {v : BitVec 16} (hv : 4250 ≤ v.toNat) (feedB : Bool) (b : Blk) : feedGood feedB v b =
      if (b.feedNoted feedB v).rcc.holdup = false ∨ (b.feedNoted feedB v).rcc.mode = .sleep then b.feedNoted feedB v
      else if (b.feedNoted feedB v).rcc.holdupDone then (b.feedNoted feedB v).assertSource 9
      else (b.feedNoted feedB v).onRcc fun r => { r with feedBack := true } :=
  if_neg (Nat.not_lt.2 hv)

/-- The end of a hold-up commit with a feed back asserts source 9, which begins the shell's way back (R388). -/
theorem Blk.assertSource_nine {b : Blk} (hidle : b.rcc.episode = none) :
    (b.assertSource 9).rcc.episode = some .s ∧ (b.assertSource 9).rcc.asserted.toNat.testBit 9 = true ∧ (b.assertSource 9).rcc.step = 1
      ∧ (b.assertSource 9).rcc.feedBack = false ∧ (b.assertSource 9).rcc.holdLast = b.rcc.holdLast := by
  obtain ⟨st, tm, hview, -⟩ := Blk.assertSource_shell hidle 9 (by decide)
  refine ⟨congrArg EpisodeView.episode hview, ?_, congrArg EpisodeView.step hview, congrArg EpisodeView.feedBack hview,
    congrArg EpisodeView.holdLast hview⟩
  rw [show (b.assertSource 9).rcc.asserted = _ from congrArg EpisodeView.asserted hview]
  exact testBit_or_source b.rcc.asserted (n := 9) (by decide)

theorem runs_feedGood (f : Bool) (v : BitVec 16) (s : State) (hv : 4250 ≤ v.toNat) :
    (s.blk.rcc.holdup = false → Safety.runs (.feedGood f v) s fun t => (if f then t.blk.rcc.feedB else t.blk.rcc.feedA) = true
      ∧ t.blk.rcc.vholdOk = true ∧ bits t.blk.rcc.vhold 15 0 = max (bits t.blk.rcc.vbat 15 0) (bits t.blk.rcc.vbat 31 16)
      ∧ t.blk = { s.blk with rcc := t.blk.rcc, evs := t.blk.evs } ∧ t.mem = s.mem)
    ∧ (s.blk.rcc.holdup = true → s.blk.rcc.mode ≠ .sleep → s.blk.rcc.holdupDone = false → Safety.runs (.feedGood f v) s fun t =>
      t.blk.rcc.feedBack = true ∧ t.blk.rcc.holdup = true ∧ t.blk.rcc.holdupDone = false ∧ t.blk.rcc.episode = s.blk.rcc.episode ∧ t.mem = s.mem)
    ∧ (s.blk.rcc.holdup = true → s.blk.rcc.mode ≠ .sleep → s.blk.rcc.holdupDone = true → s.blk.rcc.episode = none → Safety.runs (.feedGood f v) s fun t =>
      t.blk.rcc.episode = some .s ∧ t.blk.rcc.asserted.toNat.testBit 9 = true ∧ t.blk.rcc.step = 1 ∧ t.mem = s.mem) := by
  have hrow := feedGood_of_good hv f s.blk
  have hrcc := s.blk.feedNoted_rcc f v
  have hframe := s.blk.feedNoted_eq f v
  have hok : (s.blk.fed f v).rcc.vholdOk = true := rfl
  obtain ⟨⟨hholdup, hdone, hmode, hepisode⟩, hfeed, hvhold⟩ := s.blk.fed_rcc f v
  rw [← hrcc] at hholdup hdone hmode hepisode hfeed hvhold hok
  generalize s.blk.feedNoted f v = b at *
  refine ⟨fun hnone => ?_, fun hcommit hawake hopen => ?_, fun hcommit hawake hover hidle => ?_⟩
  · exact runs_onBlk rfl (hrow.trans (if_pos (.inl (hholdup.trans hnone)))) ⟨hfeed, hok, hvhold, hframe, rfl⟩
  · refine runs_onBlk rfl (hrow.trans ((if_neg ?_).trans (if_neg ?_))) ⟨rfl, hholdup.trans hcommit, hdone.trans hopen, hepisode, rfl⟩
    · simp [hholdup, hmode, hcommit, hawake]
    · simp [hdone, hopen]
  · refine runs_onBlk rfl (hrow.trans ((if_neg ?_).trans (if_pos (hdone.trans hover)))) ?_
    · simp [hholdup, hmode, hcommit, hawake]
    · obtain ⟨hep, hbit, hstep, -, -⟩ := Blk.assertSource_nine (b := b) (hepisode.trans hidle)
      exact ⟨hep, hbit, hstep, rfl⟩

/-! ### The hold-up commit (R386, R388) -/

/-- An aborted key update leaves what neither the Husk's registers nor its record hold. -/
theorem Blk.abortKeyUpdate_none_keep {γ : Type} (g : Blk → γ) (hsec : ∀ b f, g (Blk.onSec b f) = g b)
    (hev : ∀ b code sev arg, g (Blk.ev b srcHusk code sev arg) = g b) (b : Blk) : g (b.abortKeyUpdate none) = g b := by
  unfold Blk.abortKeyUpdate
  split
  · rfl
  · exact (hev ..).trans (hsec ..)

theorem runs_holdupTrip (s : State) (hpowered : s.blk.rcc.powered = true) :
    (s.blk.rcc.holdup = false → Safety.runs .holdupTrip s fun t => t.blk.rcc.holdup = true ∧ t.blk.rcc.holdupDone = false ∧ bit t.blk.rcc.pwrSticky 2 = true
      ∧ t.blk.sw.running = false ∧ t.blk.breath.bn = s.blk.breath.bn ∧ t.mem = s.mem)
    ∧ (s.blk.rcc.holdup = true → Safety.runs .holdupTrip s fun t => t = s) := by
  have hrow : holdupTrip s.blk = s.blk.startHoldup := if_pos hpowered
  refine ⟨fun hnone => runs_onBlk rfl (hrow.trans (if_neg (by simp [hnone]))) ?_, fun hruns => runs_unchanged rfl (hrow.trans (if_pos hruns))⟩
  have hsw : ((s.blk.switchStop.canHalt).abortKeyUpdate none).sw.running = false :=
    Blk.abortKeyUpdate_none_keep (·.sw.running) (fun _ _ => rfl) (fun _ _ _ _ => by rw [Blk.ev_sw]) _
  have hbreath : ((s.blk.switchStop.canHalt).abortKeyUpdate none).breath = s.blk.breath :=
    Blk.abortKeyUpdate_none_keep (·.breath) (fun _ _ => rfl) (fun _ _ _ _ => Blk.ev_breath ..) _
  generalize (s.blk.switchStop.canHalt).abortKeyUpdate none = b at hsw hbreath ⊢
  exact ⟨rfl, rfl, testBit_orBits b.rcc.pwrSticky (i := 2) (by decide), hsw, congrArg Breath.bn hbreath, rfl⟩

theorem Blk.ringWrite_keep {γ : Type} (g : Blk → γ) (hevs : ∀ b f, g (Blk.onEvs b f) = g b)
    (hev : ∀ b code sev arg, g (Blk.ev b srcSeq code sev arg) = g b) (b : Blk) (r : Rec) (old : List Byte) :
    g (b.ringWrite r old).1 = g b := by
  have hpin (b : Blk) : g (b.pinCopy r).1 = g b := by
    unfold Blk.pinCopy
    split
    · rfl
    · split
      · dsimp only
        exact hevs b _
      · split
        · rfl
        · exact (hev _ _ _ _).trans (hevs b _)
  exact (hpin _).trans (hevs ..)

/-- The log writer changes the sequencer alone. -/
theorem Blk.drain_keep {γ : Type} (g : Blk → γ) (hevs : ∀ b f, g (Blk.onEvs b f) = g b)
    (hev : ∀ b code sev arg, g (Blk.ev b srcSeq code sev arg) = g b) (m : Mem) (n : Nat) (b : Blk) : g (Blk.drain m n b).1 = g b := by
  induction n generalizing b with
  | zero => rfl
  | succ n ih =>
    rw [Blk.drain]
    split
    · rfl
    · exact (ih _).trans ((Blk.ringWrite_keep g hevs hev ..).trans (hevs ..))

/-- What VHOLD carried of the log queue. -/
def Blk.heldUp (m : Mem) (b : Blk) : BW :=
  ((b.fresh.2).saveChannels true true).drain m (Config.freeNat b.fresh.1 % (b.evs.logQ.length + 1))

theorem Blk.heldUp_rcc (m : Mem) (b : Blk) : (b.heldUp m).1.rcc = b.rcc :=
  Blk.drain_keep (·.rcc) (fun _ _ => rfl) (fun _ _ _ _ => Blk.ev_rcc ..) ..

theorem Blk.heldUp_time (m : Mem) (b : Blk) : (b.heldUp m).1.time = b.time :=
  Blk.drain_keep (·.time) (fun _ _ => rfl) (fun _ _ _ _ => Blk.ev_time ..) ..

theorem Blk.length_heldUp_logQ (m : Mem) (b : Blk) : (b.heldUp m).1.evs.logQ.length ≤ b.evs.logQ.length := by
  have hwrote := Blk.drain_wrote m (Config.freeNat b.fresh.1 % (b.evs.logQ.length + 1)) ((b.fresh.2).saveChannels true true)
    (Nat.le_of_lt_succ (Nat.mod_lt _ (Nat.succ_pos _)))
  have hqueue := congrArg List.length hwrote.queue
  rw [List.length_append] at hqueue
  exact Nat.le.intro ((Nat.add_comm ..).trans hqueue.symm)

/-- The journal of the commit: the anchor of the time base, the count of the records that VHOLD did not carry, and the duration. -/
def Blk.holdupJournal (b : Blk) (us : BitVec 16) : Blk :=
  (((b.onNvm fun n => n.transact (b.holdupItems b.evs.logQ.length us.toNat)).onTb fun t =>
      { t with anchorDt := some t.dt, anchorAot := t.aot, aotContinuous := true }).onEvs fun e =>
    { e with unwritten := b.evs.logQ.length, logQ := [] }).onRcc fun r =>
      { r with holdupDone := true, holdLast := arg32 (us.toNat + 65536), sleepStep := if r.sleepStep = 3 then 4 else r.sleepStep }

section
variable (b : Blk) (us : BitVec 16)

theorem Blk.holdupJournal_time :
    (b.holdupJournal us).time = { b.time with anchorDt := some b.time.dt, anchorAot := b.time.aot, aotContinuous := true } := by
  rw [Blk.holdupJournal, Blk.onRcc_time, Blk.onEvs_time, Blk.onTb_time, Blk.onNvm_time]

theorem Blk.holdupJournal_evs : (b.holdupJournal us).evs = { b.evs with unwritten := b.evs.logQ.length, logQ := [] } := by
  rw [Blk.holdupJournal, Blk.onRcc_evs, Blk.onEvs_evs, Blk.onTb_evs, Blk.onNvm_evs]

theorem Blk.holdupJournal_rcc : (b.holdupJournal us).rcc =
    { b.rcc with holdupDone := true, holdLast := arg32 (us.toNat + 65536), sleepStep := if b.rcc.sleepStep = 3 then 4 else b.rcc.sleepStep } := by
  rw [Blk.holdupJournal, Blk.onRcc_rcc, Blk.onEvs_rcc, Blk.onTb_rcc, Blk.onNvm_rcc]

end

theorem holdupCommitted_of_open {us : BitVec 16} {m : Mem} {b : Blk} (hcommit : b.rcc.holdup = true) (hopen : b.rcc.holdupDone = false) :
    holdupCommitted us m b = (b.heldUp m).map fun t =>
      if (t.holdupJournal us).rcc.feedBack then ((t.holdupJournal us).onRcc fun r => { r with feedBack := false }).assertSource 9
      else t.holdupJournal us :=
  if_neg (by simp [hcommit, hopen])

theorem runs_holdupCommitted (us : BitVec 16) (s : State) (hcommit : s.blk.rcc.holdup = true) (hopen : s.blk.rcc.holdupDone = false)
    (hback : s.blk.rcc.feedBack = false) : Safety.runs (.holdupCommitted us) s fun t =>
    t.blk.rcc.holdupDone = true ∧ bits t.blk.rcc.holdLast 15 0 = us.toNat ∧ bit t.blk.rcc.holdLast 16 = true ∧ t.blk.evs.logQ = []
    ∧ t.blk.evs.unwritten ≤ s.blk.evs.logQ.length ∧ t.blk.time.anchorDt = some s.blk.time.dt ∧ t.blk.time.anchorAot = s.blk.time.aot
    ∧ t.blk.rcc.episode = s.blk.rcc.episode := by
  have hrcc := s.blk.heldUp_rcc s.mem
  have htime := s.blk.heldUp_time s.mem
  have hlen := s.blk.length_heldUp_logQ s.mem
  refine runs_onMem rfl (holdupCommitted_of_open hcommit hopen) ?_
  generalize s.blk.heldUp s.mem = x at hrcc htime hlen ⊢
  obtain ⟨b, l⟩ := x
  dsimp only [BW.map] at hrcc htime hlen ⊢
  rw [if_neg (by simp [Blk.holdupJournal_rcc, hrcc, hback])]
  rw [Blk.heal_rcc, Blk.heal_evs, Blk.heal_time, b.holdupJournal_rcc, b.holdupJournal_evs, b.holdupJournal_time, htime, hrcc]
  exact ⟨rfl, (holdLast_fields us).1, (holdLast_fields us).2, rfl, hlen, rfl, rfl, rfl⟩

theorem runs_holdupCommitted_back (us : BitVec 16) (s : State) (hcommit : s.blk.rcc.holdup = true) (hopen : s.blk.rcc.holdupDone = false)
    (hback : s.blk.rcc.feedBack = true) (hidle : s.blk.rcc.episode = none) : Safety.runs (.holdupCommitted us) s fun t =>
      t.blk.rcc.episode = some .s ∧ t.blk.rcc.asserted.toNat.testBit 9 = true ∧ t.blk.rcc.step = 1
      ∧ t.blk.rcc.feedBack = false ∧ bits t.blk.rcc.holdLast 15 0 = us.toNat ∧ bit t.blk.rcc.holdLast 16 = true := by
  have hrcc := s.blk.heldUp_rcc s.mem
  refine runs_onMem rfl (holdupCommitted_of_open hcommit hopen) ?_
  generalize s.blk.heldUp s.mem = x at hrcc ⊢
  obtain ⟨b, l⟩ := x
  dsimp only [BW.map] at hrcc ⊢
  have hjournal := b.holdupJournal_rcc us
  generalize b.holdupJournal us = a at hjournal ⊢
  rw [if_pos (by rw [hjournal, hrcc]; exact hback)]
  obtain ⟨hep, hbit, hstep, hfeed, hlast⟩ := Blk.assertSource_nine (b := a.onRcc fun r => { r with feedBack := false })
    (by rw [Blk.onRcc_rcc, hjournal, hrcc]; exact hidle)
  rw [Blk.heal_rcc, hlast, Blk.onRcc_rcc, hjournal]
  exact ⟨hep, hbit, hstep, hfeed, holdLast_fields us⟩

theorem runs_vholdDepleted (s : State) (hcommit : s.blk.rcc.holdup = true) : Safety.runs .vholdDepleted s fun t =>
    t.blk.rcc.powered = false ∧ t.blk.rcc.vholdOk = false ∧ t.blk.breath.running = false
    ∧ (s.blk.rcc.holdupDone = false → bit t.blk.rcc.holdLast 16 = false) ∧ t.mem = s.mem := by
  refine runs_onBlk rfl (if_neg (by simp [hcommit])) ⟨rfl, rfl, rfl, fun hopen => ?_, rfl⟩
  have hlast : (if s.blk.rcc.holdupDone then s.blk.rcc.holdLast else setBits s.blk.rcc.holdLast 16 16 0) = setBits s.blk.rcc.holdLast 16 16 0 :=
    if_neg (by simp [hopen])
  exact (congrArg (bit · 16) hlast).trans (bit_setBits_off _)

/-! ### SLEEP (R393) -/

theorem runs_autoSleepRequest (s : State) :
    (bit s.blk.rcc.sleepCtrl 0 = true → s.blk.guard .sleep = some true → s.blk.rcc.sched = none → Safety.runs .autoSleepRequest s fun t =>
      t.blk.rcc = { s.blk.rcc with sched := some { target := .sleep, cause := mcAutoSleep, at_ := s.blk.breath.bn + 2, rank := 5, due := none } }
        ∧ t.blk = { s.blk with rcc := t.blk.rcc } ∧ t.mem = s.mem)
    ∧ (bit s.blk.rcc.sleepCtrl 0 = false → Safety.runs .autoSleepRequest s fun t => t = s) := by
  refine ⟨fun hauto hguard hsched => ?_, fun hauto => runs_unchanged rfl (if_neg (by simp [hauto]))⟩
  have hrow : autoSleepRequest s.blk = s.blk.schedule .sleep mcAutoSleep 5 none := if_pos ⟨hauto, hguard, by rw [hsched]; rfl⟩
  exact runs_onBlk rfl (hrow.trans (Blk.schedule_of_unscheduled hsched ..)) ⟨rfl, rfl, rfl⟩

theorem runs_sleepPowerDown (s : State) :
    (s.blk.rcc.mode = .sleep → s.blk.rcc.sleepStep = 4 → Safety.runs .sleepPowerDown s fun t => t.blk.rcc.powered = false ∧ t.blk.rcc.sleepStep = 5
      ∧ t.blk.evs.resumed = false ∧ t.blk.nmg.sleepAot = s.blk.time.aot ∧ t.blk.rcc.mode = .sleep ∧ t.mem = s.mem)
    ∧ ((s.blk.rcc.mode ≠ .sleep ∨ s.blk.rcc.sleepStep ≠ 4) → Safety.runs .sleepPowerDown s fun t => t = s) :=
  ⟨fun hmode hstep => runs_onBlk rfl (if_neg (by simp [hmode, hstep])) ⟨rfl, rfl, rfl, rfl, hmode, rfl⟩,
    fun hother => runs_unchanged rfl (if_pos hother)⟩

/-- The way back from an entry to SLEEP begins with the breath. -/
theorem Blk.startBreath_of_stopped {b : Blk} (hstop : b.breath.running = false) (m : Mode) :
    (b.startBreath m).rcc = b.rcc ∧ (b.startBreath m).breath.running = true ∧ (b.startBreath m).breath.bn = b.breath.bn := by
  unfold Blk.startBreath
  rw [if_neg (by simp [hstop])]
  dsimp only
  rw [Blk.ev_rcc, Blk.ev_breath]
  exact ⟨rfl, rfl, rfl⟩

theorem Blk.switchStart_keeps {γ : Type} (g : Blk → γ) (hsw : ∀ b f, g (Blk.onSw b f) = g b) (hport : ∀ b p f, g (Blk.modPort b p f) = g b)
    (b : Blk) : g b.switchStart = g b :=
  (foldl_keep g _ (fun _ _ => hport ..) _ _).trans ((foldl_keep g _ (fun _ _ => hport ..) _ _).trans (hsw ..))

theorem Blk.switchStart_keep (b : Blk) : b.switchStart.rcc = b.rcc ∧ b.switchStart.breath = b.breath ∧ b.switchStart.sw.running = true :=
  ⟨b.switchStart_keeps (·.rcc) (fun _ _ => rfl) fun _ _ _ => rfl, b.switchStart_keeps (·.breath) (fun _ _ => rfl) fun _ _ _ => rfl,
    (foldl_keep (fun a : Blk => a.sw.running) _ (fun a p => by rfl) _ _).trans
      (foldl_keep (fun a : Blk => a.sw.running) _ (fun a p => by rfl) _ _)⟩

/-- An entry to SLEEP left again: no commit runs, the breath and the switch run (R393). -/
def Blk.sleepLeft (b : Blk) (step : Fin 4) : Blk :=
  let b1 := (b.ev srcRcc 9 1 (arg32 step.val)).onRcc fun r => { r with holdup := false, holdupDone := false, sleepStep := 0 }
  (b1.addPending.startBreath b1.rcc.sleepFrom).switchStart

theorem Blk.sleepLeft_spec {b : Blk} (step : Fin 4) (hstop : b.breath.running = false) (hpending : b.sec.tmpPending = 0) :
    (b.sleepLeft step).rcc = { b.rcc with holdup := false, holdupDone := false, sleepStep := 0 } ∧ (b.sleepLeft step).breath.running = true
      ∧ (b.sleepLeft step).breath.bn = b.breath.bn ∧ (b.sleepLeft step).sw.running = true := by
  unfold Blk.sleepLeft
  extract_lets b1
  have hb1 : b1.rcc = { b.rcc with holdup := false, holdupDone := false, sleepStep := 0 } ∧ b1.breath = b.breath ∧ b1.sec.tmpPending = 0 := by
    dsimp only [b1, Blk.onRcc]
    rw [Blk.ev_rcc, Blk.ev_breath, Blk.ev_sec]
    exact ⟨rfl, rfl, hpending⟩
  clear_value b1
  obtain ⟨hrcc, hbreath, hnone⟩ := hb1
  have hadd : b1.addPending = b1 := if_pos hnone
  obtain ⟨hsrcc, hrun, hbn⟩ := Blk.startBreath_of_stopped (b := b1) (by rw [hbreath]; exact hstop) b1.rcc.sleepFrom
  obtain ⟨hwrcc, hwbreath, hwrun⟩ := (b1.startBreath b1.rcc.sleepFrom).switchStart_keep
  rw [hadd, hwrcc, hwbreath, hsrcc, hbn]
  exact ⟨hrcc, hrun, by rw [hbreath], hwrun⟩

theorem runs_sleepAbortedEntry (k : Fin 4) (s : State) (hmode : s.blk.rcc.mode = .sleep) (hstep : s.blk.rcc.sleepStep < 5)
    (htamper : s.blk.rcc.bootTamper = 0) (hstop : s.blk.breath.running = false) (hpending : s.blk.sec.tmpPending = 0) :
    Safety.runs (.sleepAbortedEntry k) s fun t => t.blk.rcc.sleepStep = 0 ∧ t.blk.rcc.holdup = false ∧ t.blk.breath.running = true ∧ t.blk.sw.running = true
        ∧ t.blk.rcc.sched = some { target := s.blk.rcc.sleepFrom, cause := mcWake, at_ := s.blk.breath.bn + 1, rank := 1, due := none } ∧ t.mem = s.mem := by
  have hguard : ¬ (s.blk.rcc.mode ≠ .sleep ∨ 5 ≤ s.blk.rcc.sleepStep) := by
    simp [hmode]
    omega
  have hrow : sleepAbortedEntry k s.blk = (s.blk.sleepLeft k).onRcc fun r =>
      { r with bootTamper := 0,
               sched := some { target := if decide (r.bootTamper = 2) then .lockdown else r.sleepFrom, cause := if decide (r.bootTamper = 2) then mcTamper2 else mcWake,
                               at_ := (s.blk.sleepLeft k).breath.bn + 1, rank := 1, due := none } } := if_neg hguard
  obtain ⟨hrcc, hrun, hbn, hsw⟩ := Blk.sleepLeft_spec k hstop hpending
  refine runs_onBlk rfl hrow ?_
  generalize s.blk.sleepLeft k = b at hrcc hrun hbn hsw ⊢
  simp only [Blk.onRcc, hrcc, htamper, hbn]
  exact ⟨trivial, trivial, hrun, hsw, rfl, trivial⟩

/-! ### The always-on region and VIO (R373, R397) -/

theorem and_not_pins (x : BitVec 16) : x &&& ~~~ BitVec.ofNat 16 (2 ^ 1) &&& ~~~ BitVec.ofNat 16 (2 ^ 2) = x &&& ~~~ 6 := by
  rw [BitVec.and_assoc]
  rfl

theorem runs_alwaysOnPowerOn (s : State) : Safety.runs .alwaysOnPowerOn s fun t =>
      t.blk.time = { s.blk.time with aot := 0, aotFrac := 0, aotContinuous := false } ∧ t.blk.nmg.wakeSrc = 0
      ∧ t.blk.sec.tmpStatus = 0 ∧ t.blk.sec.tmpPending = 0 ∧ t.blk.rcc = { s.blk.rcc with vka := true } ∧ t.blk.evs = s.blk.evs ∧ t.mem = s.mem :=
  runs_onBlk rfl rfl ⟨rfl, rfl, rfl, rfl, rfl, rfl, rfl⟩

theorem runs_vioLost_A (lost : Bool) (s : State) : Safety.runs (.vioLost false lost) s fun t =>
      t.blk.rcc.vioA = !lost ∧ t.blk.rcc.vioB = s.blk.rcc.vioB ∧ (lost = true → bit t.blk.rcc.pwrSticky 4 = true)
      ∧ t.blk = { s.blk with rcc := t.blk.rcc } ∧ t.mem = s.mem := by
  refine runs_onBlk rfl rfl ⟨rfl, rfl, fun hlost => ?_, rfl, rfl⟩
  subst hlost
  exact testBit_orBits s.blk.rcc.pwrSticky (i := 4) (by decide)

theorem vioLost_B (b : Blk) : vioLost true true b = b.onRcc fun r =>
    { r with vioB := false, nPoreset := true, nSysreset := true, pwrSticky := orBits r.pwrSticky (2 ^ 5), asserted := r.asserted &&& ~~~ 6,
             holding := (vioLost true true b).rcc.holding } := by
  have hpins := and_not_pins b.rcc.asserted
  unfold vioLost Blk.releaseSource
  dsimp only [Blk.onRcc, Blk.noteHolding]
  simp only [and_self, if_true, hpins, Bool.not_true]
  rfl

theorem runs_vioLost_B (s : State) : Safety.runs (.vioLost true true) s fun t =>
      t.blk.rcc.vioB = false ∧ t.blk.rcc.nPoreset = true ∧ t.blk.rcc.nSysreset = true
      ∧ t.blk.rcc.asserted = s.blk.rcc.asserted &&& ~~~ 6 ∧ bit t.blk.rcc.pwrSticky 5 = true ∧ t.blk = { s.blk with rcc := t.blk.rcc } ∧ t.mem = s.mem :=
  runs_onBlk rfl (vioLost_B s.blk) ⟨rfl, rfl, rfl, rfl, testBit_orBits s.blk.rcc.pwrSticky (i := 5) (by decide), rfl, rfl⟩

/-- Settles O51: each row of the supplies, of the hold-up commit and of SLEEP by its own lemma. -/
theorem suppliesAndSleep : Obligations.SuppliesAndSleep :=
  ⟨runs_avsStep, fun v s hv hA hB hvariant => ⟨runs_feedLost_A v s hv hA hB hvariant, runs_feedLost_B v s hv hA hB hvariant⟩, fun f v s => ⟨fun hhigh => runs_unchanged rfl (if_pos (.inl hhigh)),
    fun hlow => runs_unchanged rfl (if_pos hlow), fun hv => (runs_feedGood f v s hv).1, fun hv => (runs_feedGood f v s hv).2.1,
    fun hv => (runs_feedGood f v s hv).2.2⟩, runs_holdupTrip, runs_holdupCommitted, runs_holdupCommitted_back, runs_vholdDepleted,
    fun s => ⟨(runs_autoSleepRequest s).1, (runs_autoSleepRequest s).2, (runs_sleepPowerDown s).1, (runs_sleepPowerDown s).2,
      fun k => runs_sleepAbortedEntry k s, runs_alwaysOnPowerOn s, fun lost => runs_vioLost_A lost s, runs_vioLost_B s⟩⟩
end Sys2Proof.Machine
end

section
/-! SUPPORT. Signed messages (R403, R404, R417, R418, R421), the end of debug access, and attestation (R410, R411). -/

namespace Sys2Proof.Machine
open Sys2Proof

/-! ### LIFECYCLE_SET (R404) -/

/-- The block whose Husk store is erased and whose change is done, before source 7 is asserted. -/
def Blk.lifecycleErased (b : Blk) (target g : Nat) (root : List Byte) : Blk :=
  let owner : Slot := { (default : Slot) with gen := 1, used := true, type := ktAnchor, key := root }
  let id := Config.identityCert b.sec.certId target g
  let b1 := b.onSec fun x =>
    let fixed := (Vector.replicate 64 (default : Slot)).set 5 (x.slots.get 5)
    { x with lc := target, gen := g, lcPending := none, receipt := [], kuDigest := 0, epochAtt := 0, epochSeal := 0,
             ownerLock := false, slots := if target = lcOwned then fixed.set 6 owner else fixed,
             certId := id, certAtt := Config.attestCert id 0 0 }
  b1.onNvm fun n => n.transact [(jLifeCycle, [])]

/-- What the erased store holds: the Lumnel anchor and, in OWNED, the owner root are its only keys. -/
structure Security.Erased (x y : Security) (target g : Nat) : Prop where
  lc : y.lc = target
  gen : y.gen = g
  pending : y.lcPending = none
  receipt : y.receipt = []
  epochAtt : y.epochAtt = 0
  epochSeal : y.epochSeal = 0
  slots : ∀ j : Fin 64, j ≠ 5 → j ≠ 6 → (y.slots.get j).used = false
  kuCnt : y.kuCnt = x.kuCnt
  ctlCnt : y.ctlCnt = x.ctlCnt
  dbgCnt : y.dbgCnt = x.dbgCnt

theorem erased_slots (anchor owner : Slot) (owned : Prop) [Decidable owned] {j : Fin 64} (h5 : j ≠ 5) (h6 : j ≠ 6) :
    (((if owned then ((Vector.replicate 64 (default : Slot)).set 5 anchor).set 6 owner
      else (Vector.replicate 64 (default : Slot)).set 5 anchor) : Vector Slot 64).get j).used = false := by
  have h5' : ¬ 5 = j.val := fun h => h5 (Fin.ext h.symm)
  have h6' : ¬ 6 = j.val := fun h => h6 (Fin.ext h.symm)
  split
  · show ((((Vector.replicate 64 (default : Slot)).set 5 anchor).set 6 owner)[j.val]).used = false
    rw [Vector.getElem_set, if_neg h6', Vector.getElem_set, if_neg h5', Vector.getElem_replicate]
    rfl
  · show (((Vector.replicate 64 (default : Slot)).set 5 anchor)[j.val]).used = false
    rw [Vector.getElem_set, if_neg h5', Vector.getElem_replicate]
    rfl

theorem Blk.lifecycleErased_sec (b : Blk) (target g : Nat) (root : List Byte) :
    b.sec.Erased (b.lifecycleErased target g root).sec target g where
  lc := rfl
  gen := rfl
  pending := rfl
  receipt := rfl
  epochAtt := rfl
  epochSeal := rfl
  slots := fun _ h5 h6 => erased_slots _ _ _ h5 h6
  kuCnt := rfl
  ctlCnt := rfl
  dbgCnt := rfl

theorem Security.restart_used (x : Security) (j : Fin 64) : (x.restart.slots.get j).used = (x.slots.get j).used := by
  simp only [Security.restart, Security.cache, Vector.get_map]

/-- A reset takes the keys from the cache, and leaves what the store holds. -/
theorem Security.Erased.restart {x y : Security} {target g : Nat} (h : x.Erased y target g) : x.Erased y.restart target g where
  lc := h.lc
  gen := h.gen
  pending := h.pending
  receipt := h.receipt
  epochAtt := h.epochAtt
  epochSeal := h.epochSeal
  slots := fun j h5 h6 => (y.restart_used j).trans (h.slots j h5 h6)
  kuCnt := h.kuCnt
  ctlCnt := h.ctlCnt
  dbgCnt := h.dbgCnt

theorem Security.Erased.of_unalarmed {x y z : Security} {target g : Nat} (h : x.Erased y target g) (heq : z.unalarmed = y.unalarmed) :
    x.Erased z target g where
  lc := (congrArg Security.lc heq).trans h.lc
  gen := (congrArg Security.gen heq).trans h.gen
  pending := (congrArg Security.lcPending heq).trans h.pending
  receipt := (congrArg Security.receipt heq).trans h.receipt
  epochAtt := (congrArg Security.epochAtt heq).trans h.epochAtt
  epochSeal := (congrArg Security.epochSeal heq).trans h.epochSeal
  slots := fun j h5 h6 => (congrArg (fun x : Security => (x.slots.get j).used) heq).trans (h.slots j h5 h6)
  kuCnt := (congrArg Security.kuCnt heq).trans h.kuCnt
  ctlCnt := (congrArg Security.ctlCnt heq).trans h.ctlCnt
  dbgCnt := (congrArg Security.dbgCnt heq).trans h.dbgCnt

/-- Source 7, which a command or a life-cycle change asserts, seals the security unit. -/
theorem Blk.assertSource_seven {b : Blk} (hidle : b.rcc.episode = none) :
    (b.assertSource 7).rcc.episode = some .s ∧ (b.assertSource 7).rcc.asserted.toNat.testBit 7 = true
      ∧ (b.assertSource 7).sec.unalarmed = b.sec.restart.unalarmed := by
  obtain ⟨st, tm, hview, -⟩ := Blk.assertSource_shell hidle 7 (by decide)
  refine ⟨congrArg EpisodeView.episode hview, ?_, congrArg EpisodeView.sec hview⟩
  rw [show (b.assertSource 7).rcc.asserted = _ from congrArg EpisodeView.asserted hview]
  exact testBit_or_source b.rcc.asserted (n := 7) (by decide)

theorem Blk.lifecycleFinish_spec {b : Blk} (hidle : b.rcc.episode = none) (target g : Nat) (root : List Byte) :
    b.sec.Erased (b.lifecycleFinish target g root).sec target g ∧ (b.lifecycleFinish target g root).rcc.asserted.toNat.testBit 7 = true
      ∧ (b.lifecycleFinish target g root).rcc.episode = some .s := by
  have hrow : b.lifecycleFinish target g root =
      ((b.lifecycleErased target g root).assertSource 7).ev srcHusk 6 4 (arg32 (target + g * 256)) (pin := true) := rfl
  have hidle' : (b.lifecycleErased target g root).rcc.episode = none := hidle
  have herased := b.lifecycleErased_sec target g root
  generalize b.lifecycleErased target g root = a at hrow hidle' herased
  obtain ⟨hep, hbit, hsec⟩ := Blk.assertSource_seven hidle'
  rw [hrow, Blk.ev_rcc, Blk.ev_sec]
  exact ⟨herased.restart.of_unalarmed hsec, hbit, hep⟩

section
variable {r : Req} {p : List Byte} {s : State} (hwhole : Safety.wholeInParts cmdLifecycleSet r s.blk p)
  (hctl : Safety.pass (s.blk.ctlChecks p 1 (if leAt p 36 4 = lcOwned then pubLen else 0))) (hzero : nonZeroAt p 24 8 = none)
  (htarget : leAt p 36 4 ≤ 4)
include hwhole hctl hzero htarget

omit hwhole in
/-- The fields of a life-cycle message, one list after another: what its transition and its signer decide. -/
theorem lifecycleSet_fields (a : Blk) (hsec : a.sec = s.blk.sec) (bad : Bool) (e : Err) (l : List (Bool × Err)) :
    firstErr (a.ctlChecks p 1 (if leAt p 36 4 = lcOwned then pubLen else 0) ++ zeroErr p 24 8
      ++ [(decide (4 < leAt p 36 4), errAt 36 stBadParam 1 0), (bad, e)] ++ l) = if bad then some e else firstErr l := by
  have hslot (h : Nat) : a.slotOfHandle h = s.blk.slotOfHandle h := by rw [Blk.slotOfHandle, hsec]; rfl
  have hctl' : Safety.pass (a.ctlChecks p 1 (if leAt p 36 4 = lcOwned then pubLen else 0)) := by
    rw [Blk.ctlChecks, Blk.headChecks, Blk.staleHandle, hslot]
    exact hctl
  rw [zeroErr_eq_nil hzero, List.append_nil, List.append_assoc, firstErr_append_of_pass hctl', decide_eq_false (Nat.not_lt.2 htarget)]
  rfl

theorem lifecycleSet_refused (htrans : s.blk.lcTransition (leAt p 36 4) = none) :
    lifecycleSet r s.blk = (s.blk.taken r).refuseReq 0x904 r (err stRefused 7 0) := by
  have htrans' : (s.blk.taken r).lcTransition (leAt p 36 4) = none := htrans
  rw [lifecycleSet, serve_whole hwhole]
  simp only [htrans', lifecycleSet_fields hctl hzero htarget (s.blk.taken r) rfl, Option.isNone_none, if_true]

theorem lifecycleSet_authentic {n g : Nat} {k : Fin 64} {x : Slot} (htrans : s.blk.lcTransition (leAt p 36 4) = some (n, g))
    (hslot : s.blk.slotOfHandle (leAt p 32 2) = some (k, x)) (hanchor : k.val = n ∧ s.blk.anchorsReady = true ∧ x.used = true ∧ x.type = ktAnchor)
    (hauth : Safety.pass (s.blk.authChecks p (some x))) :
    ∃ a : Blk, a.rcc = s.blk.rcc ∧ a.sec = { s.blk.sec with lcPending := some (leAt p 36 4, g) }
      ∧ lifecycleSet r s.blk = a.lifecycleFinish (leAt p 36 4) g (slice p 44 pubLen) := by
  have htrans' : (s.blk.taken r).lcTransition (leAt p 36 4) = some (n, g) := htrans
  have hslot' : (s.blk.taken r).slotOfHandle (leAt p 32 2) = some (k, x) := hslot
  have hanchor' : k.val = n ∧ (s.blk.taken r).anchorsReady = true ∧ x.used = true ∧ x.type = ktAnchor := hanchor
  have hauth' : firstErr ((s.blk.taken r).authChecks p (some x)) = none := (firstErr_eq_none_iff _).2 hauth
  refine ⟨(((s.blk.taken r).onNvm fun n => n.transact [(jLifeCycle, [BitVec.ofNat 8 (leAt p 36 4), BitVec.ofNat 8 g])]).onSec fun x =>
    { x with lcPending := some (leAt p 36 4, g) }).respond 0x904 r stAccepted ebnUnknown [], rfl, rfl, ?_⟩
  rw [lifecycleSet, serve_whole hwhole]
  simp only [htrans', hslot', if_pos hanchor', lifecycleSet_fields hctl hzero htarget (s.blk.taken r) rfl, Option.isNone_some,
    Bool.false_eq_true, if_false, hauth']

theorem runs_lifecycleSet {n g : Nat} {k : Fin 64} {x : Slot} (hidle : s.blk.rcc.episode = none)
    (htrans : s.blk.lcTransition (leAt p 36 4) = some (n, g)) (hslot : s.blk.slotOfHandle (leAt p 32 2) = some (k, x)) (hkn : k.val = n)
    (hused : x.used = true) (htype : x.type = ktAnchor) (hready : s.blk.anchorsReady = true) :
    Safety.runs (.lifecycleSet r) s fun t => Safety.pass (s.blk.authChecks p (some x)) →
      t.blk.sec.lc = leAt p 36 4 ∧ t.blk.sec.gen = g ∧ t.blk.sec.lcPending = none ∧ t.blk.sec.receipt = [] ∧ t.blk.sec.epochAtt = 0 ∧ t.blk.sec.epochSeal = 0
      ∧ (∀ j : Fin 64, j ≠ 5 → j ≠ 6 → (t.blk.sec.slots.get j).used = false) ∧ t.blk.sec.kuCnt = s.blk.sec.kuCnt ∧ t.blk.sec.ctlCnt = s.blk.sec.ctlCnt
      ∧ t.blk.sec.dbgCnt = s.blk.sec.dbgCnt ∧ t.blk.rcc.asserted.toNat.testBit 7 = true ∧ t.blk.rcc.episode = some .s ∧ t.mem = s.mem := by
  refine ⟨s.onBlk (lifecycleSet r), rfl, fun hauth => ?_⟩
  obtain ⟨a, hrcc, hsec, hrow⟩ := lifecycleSet_authentic hwhole hctl hzero htarget htrans hslot ⟨hkn, hready, hused, htype⟩ hauth
  rw [State.onBlk_blk, hrow]
  obtain ⟨herased, hbit, hep⟩ := Blk.lifecycleFinish_spec (b := a) (by rw [hrcc]; exact hidle) (leAt p 36 4) g (slice p 44 pubLen)
  have hkuCnt := herased.kuCnt
  have hctlCnt := herased.ctlCnt
  have hdbgCnt := herased.dbgCnt
  rw [hsec] at hkuCnt hctlCnt hdbgCnt
  exact ⟨herased.lc, herased.gen, herased.pending, herased.receipt, herased.epochAtt, herased.epochSeal, herased.slots, hkuCnt, hctlCnt, hdbgCnt,
    hbit, hep, rfl⟩

theorem runs_lifecycleSet_refused (htrans : s.blk.lcTransition (leAt p 36 4) = none) : Safety.runs (.lifecycleSet r) s fun t =>
      t.blk.sec = s.blk.sec ∧ t.blk.rcc = s.blk.rcc ∧ t.mem = s.mem := by
  obtain ⟨-, -, hframe, -⟩ := refuses_of_refuseReq (s := s) rfl (s.blk.taken_resps r) 0x904 (e := err stRefused 7 0) (by decide)
  refine runs_onBlk rfl (lifecycleSet_refused hwhole hctl hzero htarget htrans) ?_
  dsimp only at hframe ⊢
  generalize (s.blk.taken r).refuseReq 0x904 r (err stRefused 7 0) = a at hframe ⊢
  exact ⟨by rw [hframe], by rw [hframe], rfl⟩

end

/-! ### Messages that count (R418, R421) -/

/-- The control counters and the owner lock stored leave all but the security unit, NVM and its records. -/
theorem Blk.putControl_keep {γ : Type} (g : Blk → γ) (hsec : ∀ b f, g (Blk.onSec b f) = g b) (hnvm : ∀ b f, g (Blk.onNvm b f) = g b)
    (hev : ∀ b code sev arg, g (Blk.ev b srcNvm code sev arg (pin := true)) = g b) (b : Blk) (f : Security → Security) :
    g (b.putControl f) = g b := by
  unfold Blk.putControl
  dsimp only
  rw [Blk.counterPut_keep g hnvm hev, Blk.counterPut_keep g hnvm hev, hsec]

section
variable (b : Blk) (f : Security → Security)

@[simp] theorem Blk.putControl_sec : (b.putControl f).sec = f b.sec := by
  unfold Blk.putControl
  dsimp only
  rw [Blk.counterPut_sec, Blk.counterPut_sec, Blk.onSec_sec]

@[simp] theorem Blk.putControl_rcc : (b.putControl f).rcc = b.rcc :=
  Blk.putControl_keep (·.rcc) (fun _ _ => rfl) (fun _ _ => rfl) (fun _ _ _ _ => Blk.ev_rcc ..) b f

@[simp] theorem Blk.putControl_breath : (b.putControl f).breath = b.breath :=
  Blk.putControl_keep (·.breath) (fun _ _ => rfl) (fun _ _ => rfl) (fun _ _ _ _ => Blk.ev_breath ..) b f

theorem Blk.putControl_waiting {src : BitVec 16} (h : srcNvm ≠ src) : (b.putControl f).waiting src = b.waiting src :=
  Blk.putControl_keep (·.waiting src) (fun _ _ => rfl) (fun _ _ => rfl) (fun b _ _ _ => b.ev_waiting_ne h ..) b f

end

theorem runs_lockdownExit (r : Req) (p : List Byte) (s : State) (hwhole : Safety.wholeInParts cmdLockdownExit r s.blk p)
    (hsched : s.blk.rcc.sched = none) (hclass : s.blk.sec.class2Now = false) : Safety.runs (.lockdownExit r) s fun t =>
      s.blk.counted p 2 (fun a => decide (a = 0)) = none → t.blk.sec.ctlCnt = BitVec.ofNat 64 (leAt p 24 8) ∧ t.blk.rcc.mode = s.blk.rcc.mode
      ∧ t.blk.rcc.sched = some { target := .run, cause := mcExit, at_ := s.blk.breath.bn + 2, rank := 5, due := some (reqDue r 0x906) } ∧ t.mem = s.mem := by
  refine ⟨s.onBlk (lockdownExit r), rfl, fun hcounted => ?_⟩
  have hcounted' : (s.blk.taken r).counted p 2 (fun a => decide (a = 0)) = none := hcounted
  have hsched' : (s.blk.taken r).rcc.sched = none := hsched
  have hclass' : (s.blk.taken r).sec.class2Now = false := hclass
  have hrcc : (s.blk.taken r).rcc = s.blk.rcc := rfl
  have hbreath : (s.blk.taken r).breath = s.blk.breath := rfl
  rw [State.onBlk_blk, lockdownExit, serve_whole hwhole]
  generalize s.blk.taken r = a at hcounted' hsched' hclass' hrcc hbreath ⊢
  simp only [hcounted', hsched', hclass', Option.isSome_none, Bool.false_eq_true, if_false]
  rw [show ((none : Option Err) <|> none <|> none) = none from rfl]
  dsimp only
  rw [Blk.schedule_of_unscheduled (by rw [Blk.respond_rcc, Blk.putControl_rcc]; exact hsched'), Blk.onRcc_sec, Blk.onRcc_rcc, Blk.respond_rcc,
    Blk.respond_sec, Blk.respond_breath, Blk.putControl_rcc, Blk.putControl_sec, Blk.putControl_breath, hrcc, hbreath]
  exact ⟨rfl, rfl, rfl, rfl⟩

theorem runs_ownerLock (r : Req) (p : List Byte) (s : State) (hwhole : Safety.wholeInParts cmdOwnerLock r s.blk p) :
    Safety.runs (.ownerLock r) s fun t => s.blk.counted p 3 (fun a => decide (a ≤ 1)) = none →
    t.blk.sec.ownerLock = decide (leAt p 36 4 = 1) ∧ t.blk.sec.ctlCnt = BitVec.ofNat 64 (leAt p 24 8) ∧ t.blk.sec.slots = s.blk.sec.slots ∧ t.blk.rcc = s.blk.rcc ∧ t.mem = s.mem := by
  refine ⟨s.onBlk (ownerLock r), rfl, fun hcounted => ?_⟩
  have hcounted' : (s.blk.taken r).counted p 3 (fun a => decide (a ≤ 1)) = none := hcounted
  have hrcc : (s.blk.taken r).rcc = s.blk.rcc := rfl
  have hsec : (s.blk.taken r).sec = s.blk.sec := rfl
  rw [State.onBlk_blk, ownerLock, serve_whole hwhole]
  generalize s.blk.taken r = a at hcounted' hrcc hsec ⊢
  simp only [hcounted']
  rw [Blk.ok_sec, Blk.ok_rcc, Blk.putControl_sec, Blk.putControl_rcc, hsec, hrcc]
  exact ⟨rfl, rfl, rfl, rfl, rfl⟩

section
variable {r : Req} {p : List Byte} {s : State} (hwhole : Safety.wholeInParts cmdDebugAuth r s.blk p) (hhead : Safety.pass (s.blk.headChecks p))
  (hzero : nonZeroAt p 2 1 = none) (hlo : 60 ≤ leAt p 36 4) (hhi : leAt p 36 4 ≤ 28800) (hscope : leAt p 40 4 < 512)
  (hzero' : nonZeroAt p 44 4 = none) (hcnt : s.blk.sec.dbgCnt.toNat < leAt p 24 8)
  (hauth : Safety.pass (s.blk.authChecks p (s.blk.signer (leAt p 32 2) roleDebug)))
include hwhole hhead hzero hlo hhi hscope hzero' hcnt

include hauth in
theorem debugAuth_eq : debugAuth r s.blk =
    (((s.blk.taken r).putControl fun x =>
      { x with dbgCnt := BitVec.ofNat 64 (leAt p 24 8), debugScope := BitVec.ofNat 10 (leAt p 40 4),
               debugEnd := s.blk.time.dt + BitVec.ofNat 64 (leAt p 36 4 * 1000000000) }).ev srcDebug 0x30 3 (arg32 (leAt p 40 4))).ok 0x903 r
      (leBytes 8 (s.blk.time.dt + BitVec.ofNat 64 (leAt p 36 4 * 1000000000)).toNat) := by
  have hhead' : Safety.pass ((s.blk.taken r).headChecks p) := hhead
  have hauth' : Safety.pass ((s.blk.taken r).authChecks p ((s.blk.taken r).signer (leAt p 32 2) roleDebug)) := hauth
  have hsec : (s.blk.taken r).sec = s.blk.sec := rfl
  have htime : (s.blk.taken r).time = s.blk.time := rfl
  have hbit : (leAt p 40 4).testBit 9 = false := Nat.testBit_lt_two_pow hscope
  have hpass : firstErr ((s.blk.taken r).headChecks p ++ zeroErr p 2 1
      ++ [(decide (leAt p 36 4 < 60 ∨ 28800 < leAt p 36 4), errAt 36 stBadParam 1 0), (decide (1024 ≤ leAt p 40 4), errAt 40 stBadParam 3 0),
        ((leAt p 40 4).testBit 9 && decide (s.blk.sec.lc ≠ lcReturned), errAt 40 stBadParam 1 0)] ++ zeroErr p 44 4
      ++ (s.blk.taken r).authChecks p ((s.blk.taken r).signer (leAt p 32 2) roleDebug)
      ++ [(decide (leAt p 24 8 ≤ s.blk.sec.dbgCnt.toNat), err stCounter 1 (s.blk.sec.dbgCnt.toNat % 2 ^ 32))]) = none := by
    rw [firstErr_eq_none_iff, zeroErr_eq_nil hzero, zeroErr_eq_nil hzero', hbit]
    simp only [Safety.pass_append, Safety.pass_cons, hhead', hauth', decide_eq_false_iff_not, Bool.false_and, true_and, and_true,
      List.append_nil, Safety.pass_nil]
    omega
  rw [debugAuth, serve_whole hwhole]
  simp only [hsec, htime, hpass]

theorem runs_debugAuth : Safety.runs (.debugAuth r) s fun t =>
      Safety.pass (s.blk.authChecks p (s.blk.signer (leAt p 32 2) roleDebug)) → t.blk.sec.debugScope = BitVec.ofNat 10 (leAt p 40 4)
      ∧ t.blk.sec.debugEnd = s.blk.time.dt + BitVec.ofNat 64 (leAt p 36 4 * 1000000000) ∧ t.blk.sec.dbgCnt = BitVec.ofNat 64 (leAt p 24 8)
      ∧ (Safety.room s.blk srcDebug → Safety.lastRecord t.blk = some (srcDebug, 0x30, 3, arg32 (leAt p 40 4), hw)) ∧ t.mem = s.mem := by
  refine ⟨s.onBlk (debugAuth r), rfl, fun hauth => ?_⟩
  have hwait : (s.blk.taken r).waiting srcDebug = s.blk.waiting srcDebug := rfl
  rw [State.onBlk_blk, debugAuth_eq hwhole hhead hzero hlo hhi hscope hzero' hcnt hauth]
  generalize s.blk.taken r = a at hwait ⊢
  generalize s.blk.time.dt + BitVec.ofNat 64 (leAt p 36 4 * 1000000000) = till
  rw [Blk.ok_sec, Blk.ev_sec, Blk.putControl_sec]
  refine ⟨rfl, rfl, rfl, fun hroom => ?_, rfl⟩
  rw [Safety.lastRecord_congr (Blk.ok_evs ..)]
  refine Blk.ev_last _ srcDebug 0x30 3 _ hw false 0 ?_
  rw [Safety.room, Blk.putControl_waiting _ _ (by decide), hwait]
  exact hroom

end

/-! ### The end of debug access (R421) -/

theorem debugDetached_of_off {b : Blk} (hoff : b.dr.debugOn = 0) (c : Fin 2) : debugDetached c b = b :=
  if_pos (by rw [hoff]; simp)

theorem Blk.closeDebug_of_open {b : Blk} (hopen : b.sec.debugScope ≠ 0) (hoff : b.dr.debugOn = 0) (why : Nat) :
    b.closeDebug why = (b.onSec fun x => { x with debugScope := 0 }).ev srcDebug 0x31 2 (arg32 why) := by
  have hdr : ((b.onSec fun x => { x with debugScope := 0 }).ev srcDebug 0x31 2 (arg32 why)).dr.debugOn = 0 := by
    rw [Blk.ev_dr]
    exact hoff
  unfold Blk.closeDebug
  rw [if_neg hopen]
  dsimp only
  generalize (b.onSec fun x => { x with debugScope := 0 }).ev srcDebug 0x31 2 (arg32 why) = a at hdr ⊢
  show debugDetached 1 (debugDetached 0 a) = a
  rw [debugDetached_of_off hdr, debugDetached_of_off hdr]

theorem runs_debugAccessExpiry (s : State) :
    (s.blk.sec.debugScope ≠ 0 → s.blk.dr.debugOn = 0 → Safety.runs .debugAccessExpiry s fun t => t.blk.sec = { s.blk.sec with debugScope := 0 }
      ∧ (Safety.room s.blk srcDebug → Safety.lastRecord t.blk = some (srcDebug, 0x31, 2, 1, hw)) ∧ t.blk = { s.blk with sec := t.blk.sec, evs := t.blk.evs } ∧ t.mem = s.mem)
    ∧ (s.blk.sec.debugScope = 0 → Safety.runs .debugAccessExpiry s fun t => t = s) := by
  refine ⟨fun hopen hoff => runs_onBlk rfl (Blk.closeDebug_of_open hopen hoff 1) ?_, fun hclosed => runs_unchanged rfl (if_pos hclosed)⟩
  refine ⟨Blk.ev_sec .., fun hroom => Blk.ev_last_of_evs_eq (b := s.blk) (by rfl) hroom .., ?_, rfl⟩
  dsimp only
  rw [Blk.ev_eq]
  rfl

/-! ### Attestation (R410, R411) -/

theorem length_padTo (n : Nat) (l : List Byte) : (padTo n l).length = n := by
  simp only [padTo, List.length_append, List.length_take, List.length_replicate]
  omega

theorem Blk.length_attestEntry (b : Blk) (i : Fin 13) : (b.attestEntry i).length = 72 := by
  unfold Blk.attestEntry
  dsimp only
  split
  · rw [List.length_replicate]
  · simp [digestBytes]

theorem Blk.length_attestBody (b : Blk) (nonce : List Byte) (seq : BitVec 64) : (b.attestBody nonce seq).length = 1064 := by
  have hentries : ((upTo 13).flatMap b.attestEntry).length = 936 := by
    rw [List.length_flatMap, funext b.length_attestEntry]
    rfl
  simp [Blk.attestBody, length_padTo, hentries, Blk.uidBytes, Blk.lcBytes]

theorem Blk.takeSeq_dt (b : Blk) : b.takeSeq.2.time.dt = b.time.dt := by
  unfold Blk.takeSeq
  dsimp only
  split
  · rw [Blk.counterPut_seq_eq]
    rfl
  · rfl

/-- The report that is given, and its signature. -/
def Blk.attestReport (b : Blk) (p : List Byte) : List Byte :=
  let body := b.takeSeq.2.attestBody p b.takeSeq.1
  body ++ padTo sigLen (Config.mldsaSign (b.takeSeq.2.keyLabel labelAttest) b.takeSeq.2.sec.epochAtt body)

theorem Blk.length_attestReport (b : Blk) (p : List Byte) : (b.attestReport p).length = 5691 := by
  simp only [Blk.attestReport, List.length_append, Blk.length_attestBody, length_padTo, sigLen]

section
variable {r : Req} {s : State} (hacc : Safety.accepted cmdAttest r s.blk)
include hacc

theorem runs_attest (hready : s.blk.keysReady = true) (hlast : (s.blk.mboxes.get r.mb).lastAttest = none) : Safety.runs (.attest r) s fun t =>
    (t.blk.mboxes.get r.mb).lastAttest = some s.blk.time.dt ∧ t.blk.evs.nextSeq = s.blk.evs.nextSeq + 1 ∧ t.blk.sec = s.blk.sec ∧ t.mem = s.mem
    ∧ (∃ q : List Byte, Safety.okays s t r 0x105 q ∧ q.length = 5691) := by
  have hrow : attest r s.blk = (s.blk.takeSeq.2.modMb r.mb fun m => { m with lastAttest := some s.blk.takeSeq.2.time.dt }).ok 0x105 r
      (s.blk.attestReport (Safety.payload r)) := by
    rw [attest, serve_pass hacc rfl rfl]
    simp only [hlast, hready, firstErr, Nat.lt_irrefl, decide_false, Bool.not_true, Bool.false_eq_true, if_false]
    rfl
  have hlen := s.blk.length_attestReport (Safety.payload r)
  have hdt := s.blk.takeSeq_dt
  have hseq : s.blk.takeSeq.2 = { s.blk with evs := { s.blk.evs with nextSeq := s.blk.evs.nextSeq + 1, highWater := s.blk.takeSeq.2.evs.highWater },
                                             time := s.blk.takeSeq.2.time, nvm := s.blk.takeSeq.2.nvm } := congrArg Prod.snd s.blk.takeSeq_eq
  refine runs_onBlk rfl hrow ?_
  dsimp only
  generalize s.blk.attestReport (Safety.payload r) = q at hlen ⊢
  generalize s.blk.takeSeq.2 = a at hdt hseq ⊢
  have hresps : ((a.modMb r.mb fun m => { m with lastAttest := some a.time.dt }).mboxes.get r.mb).resps = (s.blk.mboxes.get r.mb).resps := by
    rw [show (a.modMb r.mb fun m => { m with lastAttest := some a.time.dt }).mboxes.get r.mb = _ from vmod_get_self .., hseq]
  have hmode : (a.modMb r.mb fun m => { m with lastAttest := some a.time.dt }).rcc.mode = s.blk.rcc.mode := by rw [hseq]; rfl
  have hebn : (a.modMb r.mb fun m => { m with lastAttest := some a.time.dt }).ebn = s.blk.breath.bn.truncate 32 := by rw [hseq]; rfl
  have hanswer := Blk.respond_answers hmode hresps 0x105 stOk (a.modMb r.mb fun m => { m with lastAttest := some a.time.dt }).ebn q
  have hgiven : ((a.modMb r.mb fun m => { m with lastAttest := some a.time.dt }).mboxes.get r.mb).lastAttest = some a.time.dt :=
    congrArg Mailbox.lastAttest (vmod_get_self ..)
  have hanswered (b : Blk) : ((b.ok 0x105 r q).mboxes.get r.mb).lastAttest = (b.mboxes.get r.mb).lastAttest :=
    (congrArg Mailbox.lastAttest (vmod_get_self b.mboxes r.mb _)).trans rfl
  rw [hebn] at hanswer
  refine ⟨by rw [hanswered, hgiven, hdt], ?_, ?_, rfl, q, ?_, hlen⟩
  · rw [Blk.ok_evs, hseq]
    rfl
  · rw [Blk.ok_sec, hseq]
    rfl
  · exact (congrArg (fun n => (((a.modMb r.mb fun m => { m with lastAttest := some a.time.dt }).respond 0x105 r stOk n q).mboxes.get r.mb).resps) hebn).trans
      hanswer

theorem runs_attest_early {d : BitVec 64} (hlast : (s.blk.mboxes.get r.mb).lastAttest = some d) (hsoon : s.blk.since d < 1000000000) :
    Safety.runs (.attest r) s fun t => Safety.refuses s t r 0x105 0x30 0xFFFF 2 (1000 - s.blk.since d / 1000000) := by
  have hleft : 0 < 1000 - s.blk.since d / 1000000 := by omega
  have hrow : attest r s.blk = s.blk.refuseReq 0x105 r (err stBusy 2 (1000 - s.blk.since d / 1000000)) := by
    rw [attest, serve_pass hacc rfl rfl]
    simp only [hlast, firstErr, decide_eq_true hleft, if_true]
  exact runs_onBlk rfl hrow (refuses_of_refuseReq rfl rfl 0x105 (e := err stBusy 2 (1000 - s.blk.since d / 1000000)) (by dsimp only [err]; decide))

end

/-- Settles O53, message by message. -/
theorem signedMessagesAct : Obligations.SignedMessagesAct :=
  ⟨fun _ _ _ _ _ _ _ hwhole hidle hctl hzero htarget htrans hslot hkn hused htype hready =>
      runs_lifecycleSet hwhole hctl hzero htarget hidle htrans hslot hkn hused htype hready,
    fun _ _ _ hwhole hctl hzero htarget htrans => runs_lifecycleSet_refused hwhole hctl hzero htarget htrans,
    runs_lockdownExit, runs_ownerLock,
    fun _ _ _ hwhole hhead hzero hlo hhi hscope hzero' hcnt => runs_debugAuth hwhole hhead hzero hlo hhi hscope hzero' hcnt,
    runs_debugAccessExpiry, fun _ _ hacc hready hlast => runs_attest hacc hready hlast,
    fun _ _ _ hacc hlast hsoon => runs_attest_early hacc hlast hsoon⟩

end Sys2Proof.Machine
end

section
/-! SUPPORT. Tamper alarms (R422 to R425) and the entropy source (R426). -/

namespace Sys2Proof.Machine
open Sys2Proof

/-! ### The Husk's state (R303) -/

/-- The Husk's state leaves all but the security unit, the controlled ports and their records. -/
theorem Blk.huskTo_keep {γ : Type} (g : Blk → γ) (hsec : ∀ b f, g (Blk.onSec b f) = g b) (hport : ∀ b p f, g (Blk.modPort b p f) = g b)
    (hev : ∀ b p, g (Blk.pev b p 7 3 1 (pin := true)) = g b) (b : Blk) (h : HuskState) : g (b.huskTo h) = g b :=
  (Blk.macsecRefresh_keep g hport hev _).trans (hsec ..)

section
variable (b : Blk) (h : HuskState)

theorem Blk.huskTo_sec : (b.huskTo h).sec = { b.sec.cache (decide (h = .available)) with husk := h } :=
  (Blk.macsecRefresh_sec _).trans (Blk.onSec_sec ..)

@[simp] theorem Blk.huskTo_rcc : (b.huskTo h).rcc = b.rcc :=
  Blk.huskTo_keep (·.rcc) (fun _ _ => rfl) (fun _ _ _ => rfl) (fun _ _ => Blk.ev_rcc ..) b h

@[simp] theorem Blk.huskTo_breath : (b.huskTo h).breath = b.breath :=
  Blk.huskTo_keep (·.breath) (fun _ _ => rfl) (fun _ _ _ => rfl) (fun _ _ => Blk.ev_breath ..) b h

@[simp] theorem Blk.huskTo_mboxes : (b.huskTo h).mboxes = b.mboxes :=
  Blk.huskTo_keep (·.mboxes) (fun _ _ => rfl) (fun _ _ _ => rfl) (fun _ _ => Blk.ev_mboxes ..) b h

theorem Blk.huskTo_waiting {src : BitVec 16} (hsrc : ∀ p, srcPort p ≠ src) : (b.huskTo h).waiting src = b.waiting src :=
  Blk.huskTo_keep (·.waiting src) (fun _ _ => rfl) (fun _ _ _ => rfl) (fun b p => b.ev_waiting_ne (hsrc p) ..) b h

end

/-- Keys are cached in AVAILABLE alone. -/
theorem Security.cache_off_cached (x : Security) (n : Fin 64) : ((x.cache false).slots.get n).cached = false := by
  simp only [Security.cache, Vector.get_map, Bool.false_and]

/-- A notification waits among the notes of its mailboxes: the responses stay. -/
theorem Blk.notify_resps (b : Blk) (op : Nat) (p : List Byte) (who : Initiator → Bool) (m : Fin 12) :
    ((b.notify op p who).mboxes.get m).resps = (b.mboxes.get m).resps := by
  refine foldl_keep (fun a : Blk => (a.mboxes.get m).resps) _ (fun a k => ?_) _ b
  dsimp only
  split
  · show ((vmod a.mboxes k _).get m).resps = (a.mboxes.get m).resps
    rw [vmod_get]
    split <;> rfl
  · rfl

theorem Blk.notifyAll_resps (b : Blk) (op : Nat) (p : List Byte) (m : Fin 12) : ((b.notifyAll op p).mboxes.get m).resps = (b.mboxes.get m).resps :=
  Blk.notify_resps ..

/-! ### The record of an alarm (R423) -/

/-- Alarms of class 1 within the last hour. -/
def Blk.recentAlarms (b : Blk) : List (BitVec 48) := b.sec.class1.filter fun t => decide (b.time.aot.toNat - t.toNat < 3600 * 32768)

/-- The security unit once an alarm is recorded in it. -/
def Security.alarmed (x : Security) (code : Byte) (cls : Nat) (mode : Mode) (aot : BitVec 48) : Security :=
  { x with
    tmpLast := mkWord [code.toNat, fld cls 2 8, fld mode.code 4 10], tmpLastAot := aot,
    tmpSticky := orBits x.tmpSticky (if code.toNat < 4 then 2 ^ (code.toNat - 1) else 2 ^ (code.toNat - 0x10 + 4)),
    tmpStatus := if code.toNat < 4 then x.tmpStatus
      else orBits (setBits (orBits x.tmpStatus 0xF) (code.toNat - 0x10) (code.toNat - 0x10) 0) 0x10,
    class2Now := x.class2Now || decide (4 ≤ code.toNat),
    tmpPending := if decide (mode = .sleep) then satInc x.tmpPending 255 else x.tmpPending,
    class1 := if code.toNat < 4 then x.class1 ++ [aot] else x.class1 }

theorem Blk.recordAlarm_eq (b : Blk) (code : Byte) (cls : Nat) :
    b.recordAlarm code cls =
      let b1 := b.onSec fun x => x.alarmed code cls b.rcc.mode b.time.aot
      if decide (b.rcc.mode = .sleep) then b1 else b1.counterPut ctrTamper (b1.ctrValue ctrTamper + 1) := rfl

/-- The block with the alarm recorded, after the class 1 alarms of the last hour. -/
def Blk.alarmNoted (b : Blk) (code : Byte) (cls : Nat) : Blk := (b.onSec fun x => { x with class1 := b.recentAlarms }).recordAlarm code cls

theorem Blk.alarmNoted_keep {γ : Type} (g : Blk → γ) (hsec : ∀ b f, g (Blk.onSec b f) = g b) (hnvm : ∀ b f, g (Blk.onNvm b f) = g b)
    (hev : ∀ b code sev arg, g (Blk.ev b srcNvm code sev arg (pin := true)) = g b) (b : Blk) (code : Byte) (cls : Nat) :
    g (b.alarmNoted code cls) = g b := by
  rw [Blk.alarmNoted, Blk.recordAlarm_eq]
  dsimp only
  split
  · rw [hsec, hsec]
  · rw [Blk.counterPut_keep g hnvm hev, hsec, hsec]

section
variable (b : Blk) (code : Byte) (cls : Nat)

theorem Blk.alarmNoted_sec : (b.alarmNoted code cls).sec =
    ({ b.sec with class1 := b.recentAlarms } : Security).alarmed code cls b.rcc.mode b.time.aot := by
  rw [Blk.alarmNoted, Blk.recordAlarm_eq]
  dsimp only
  split
  · rfl
  · rw [Blk.counterPut_sec]
    rfl

@[simp] theorem Blk.alarmNoted_rcc : (b.alarmNoted code cls).rcc = b.rcc :=
  Blk.alarmNoted_keep (·.rcc) (fun _ _ => rfl) (fun _ _ => rfl) (fun _ _ _ _ => Blk.ev_rcc ..) b code cls

@[simp] theorem Blk.alarmNoted_breath : (b.alarmNoted code cls).breath = b.breath :=
  Blk.alarmNoted_keep (·.breath) (fun _ _ => rfl) (fun _ _ => rfl) (fun _ _ _ _ => Blk.ev_breath ..) b code cls

@[simp] theorem Blk.alarmNoted_mboxes : (b.alarmNoted code cls).mboxes = b.mboxes :=
  Blk.alarmNoted_keep (·.mboxes) (fun _ _ => rfl) (fun _ _ => rfl) (fun _ _ _ _ => Blk.ev_mboxes ..) b code cls

theorem Blk.alarmNoted_waiting {src : BitVec 16} (h : srcNvm ≠ src) : (b.alarmNoted code cls).waiting src = b.waiting src :=
  Blk.alarmNoted_keep (·.waiting src) (fun _ _ => rfl) (fun _ _ => rfl) (fun b _ _ _ => b.ev_waiting_ne h ..) b code cls

/-- In SLEEP the alarm waits for the next start: no counter is written. -/
theorem Blk.alarmNoted_nvm_of_sleep (hmode : b.rcc.mode = .sleep) : (b.alarmNoted code cls).nvm = b.nvm := by
  have hasleep : decide ((b.onSec fun x => { x with class1 := b.recentAlarms }).rcc.mode = .sleep) = true := decide_eq_true hmode
  rw [Blk.alarmNoted, Blk.recordAlarm_eq]
  dsimp only
  rw [if_pos hasleep]
  rfl

end

/-! ### The row of an alarm (R422, R424) -/

theorem Blk.tamperClass_one {b : Blk} {c : Byte} (hlo : 1 ≤ c.toNat) (hhi : c.toNat ≤ 3) : b.tamperClass c = 1 := by
  have hc : c.toNat = 1 ∨ c.toNat = 2 ∨ c.toNat = 3 := by omega
  unfold Blk.tamperClass
  rcases hc with h | h | h <;> simp only [h]

theorem Blk.tamperClass_two {b : Blk} {c : Byte} (h : c = 0x10 ∨ c = 0x11) : b.tamperClass c = 2 := by
  rcases h with rfl | rfl <;> rfl

/-- The last step of an alarm: its record, and the notification of every program. -/
def Blk.alarmTold (b : Blk) (arg : Word) (payload : List Byte) : Blk := (b.ev srcTmp 0x20 4 arg).notifyAll 0x0980 payload

section
variable {b : Blk} {code : Byte} {cls : Nat}

/-- An alarm of a handled class, with no debug access open. -/
theorem tamperAlarm_eq (hclass : b.tamperClass code ≠ 0)
    (hcls : (if b.tamperClass code = 1 ∧ 2 ≤ b.recentAlarms.length then 2 else b.tamperClass code) = cls) (hclosed : b.sec.debugScope = 0) (m : Mem) :
    ∃ payload, tamperAlarm code m b =
      ((b.alarmNoted code cls).tamperReact m code cls).map (·.alarmTold (b.alarmNoted code cls).sec.tmpLast payload) := by
  have hclose : (b.alarmNoted code cls).closeDebug 4 = b.alarmNoted code cls := if_pos (by rw [Blk.alarmNoted_sec]; exact hclosed)
  subst hcls
  refine ⟨[BitVec.ofNat 8 (if b.tamperClass code = 1 ∧ 2 ≤ b.recentAlarms.length then 2 else b.tamperClass code), 0, 0, 0]
    ++ leBytes 8 b.time.dt.toNat, ?_⟩
  refine Eq.trans ?_ (congrArg (fun a : Blk => (a.tamperReact m code _).map _) hclose)
  exact if_neg hclass

/-- In RUN an alarm acts on the keys alone, with no key update and no key operation to abort. -/
theorem Blk.tamperReact_run {a : Blk} (hmode : a.rcc.mode = .run) (hku : a.sec.ku = none) (hoff : bit a.sec.cryCtrl 0 = false) (m : Mem) :
    a.tamperReact m code cls = ((if cls = 2 then
        ((if a.rcc.holdup ∧ a.rcc.holdupDone = false then a else a.ev srcHusk 5 4 (arg32 code.toNat)).huskTo .locked).schedule .lockdown mcTamper2 2 none
      else if a.sec.husk = .available then (a.onSec fun x => { x with cl1Hold := true }).huskTo .unavailable else a), []) := by
  have habort : a.abortKeyUpdate (some cls) = a := by rw [Blk.abortKeyUpdate, hku]
  have hjob : a.abortJob m = (a, []) := if_pos (.inl hoff)
  unfold Blk.tamperReact
  rw [hmode]
  dsimp only
  rw [habort, hjob]
  rfl

end

/-- The record of an alarm is the last one captured, where the tamper monitor has room. -/
theorem Blk.alarmTold_lastRecord {b s : Blk} (hwait : b.waiting srcTmp = s.waiting srcTmp) (hroom : Safety.room s srcTmp) (arg : Word)
    (p : List Byte) : Safety.lastRecord (b.alarmTold arg p) = some (srcTmp, 0x20, 4, arg, hw) := by
  rw [Blk.alarmTold, Safety.lastRecord_congr (Blk.notifyAll_evs ..)]
  exact Blk.ev_last b srcTmp 0x20 4 arg hw false 0 (by rw [Safety.room, hwait]; exact hroom)

section
variable (b : Blk) (arg : Word) (p : List Byte)

@[simp] theorem Blk.alarmTold_sec : (b.alarmTold arg p).sec = b.sec := by rw [Blk.alarmTold, Blk.notifyAll_sec, Blk.ev_sec]
@[simp] theorem Blk.alarmTold_rcc : (b.alarmTold arg p).rcc = b.rcc := by rw [Blk.alarmTold, Blk.notifyAll_rcc, Blk.ev_rcc]
@[simp] theorem Blk.alarmTold_nvm : (b.alarmTold arg p).nvm = b.nvm := by rw [Blk.alarmTold, Blk.notifyAll_nvm, Blk.ev_nvm]

theorem Blk.alarmTold_resps (m : Fin 12) : ((b.alarmTold arg p).mboxes.get m).resps = (b.mboxes.get m).resps := by
  rw [Blk.alarmTold, Blk.notifyAll_resps, Blk.ev_mboxes]

end

section
variable (c : Byte) (s : State) (hclosed : s.blk.sec.debugScope = 0)
include hclosed

theorem runs_tamperAlarm_class1 (hlo : 1 ≤ c.toNat) (hhi : c.toNat ≤ 3) (hfirst : s.blk.sec.class1 = []) (hmode : s.blk.rcc.mode = .run)
    (hhusk : s.blk.sec.husk = .available) (hku : s.blk.sec.ku = none) (hoff : bit s.blk.sec.cryCtrl 0 = false) : Safety.runs (.tamperAlarm c) s fun t =>
      t.blk.sec.husk = .unavailable ∧ t.blk.sec.cl1Hold = true
      ∧ t.blk.sec.tmpLast = mkWord [c.toNat, 256, 3 * 1024] ∧ t.blk.sec.tmpLastAot = s.blk.time.aot ∧ t.blk.sec.class1 = [s.blk.time.aot]
      ∧ bit t.blk.sec.tmpSticky (c.toNat - 1) = true ∧ t.blk.rcc = s.blk.rcc
      ∧ (Safety.room s.blk srcTmp → Safety.lastRecord t.blk = some (srcTmp, 0x20, 4, mkWord [c.toNat, 256, 3 * 1024], hw))
      ∧ (∀ m : Fin 12, (t.blk.mboxes.get m).resps = (s.blk.mboxes.get m).resps) ∧ t.mem = s.mem := by
  have hone := Blk.tamperClass_one (b := s.blk) hlo hhi
  have hrecent : s.blk.recentAlarms = [] := by rw [Blk.recentAlarms, hfirst]; rfl
  obtain ⟨payload, hrow⟩ := tamperAlarm_eq (code := c) (cls := 1) (by rw [hone]; decide) (by rw [hone, hrecent]; rfl) hclosed s.mem
  have hsec := s.blk.alarmNoted_sec c 1
  have hrcc := s.blk.alarmNoted_rcc c 1
  have hmboxes := s.blk.alarmNoted_mboxes c 1
  have hwait := s.blk.alarmNoted_waiting c 1 (src := srcTmp) (by decide)
  rw [hrecent, hmode] at hsec
  have hlast : (s.blk.alarmNoted c 1).sec.tmpLast = mkWord [c.toNat, 256, 3 * 1024] := by rw [hsec]; rfl
  rw [hlast, Blk.tamperReact_run (by rw [hrcc]; exact hmode) (by rw [hsec]; exact hku) (by rw [hsec]; exact hoff), if_neg (by decide),
    if_pos (by rw [hsec]; exact hhusk)] at hrow
  generalize s.blk.alarmNoted c 1 = a at hsec hrcc hmboxes hwait hrow
  refine runs_onMem rfl hrow ?_
  dsimp only [BW.map]
  rw [Blk.heal_nil, Blk.alarmTold_sec, Blk.alarmTold_rcc, Blk.huskTo_sec, Blk.huskTo_rcc, Blk.onSec_sec, Blk.onSec_rcc, hsec]
  have hsticky : (if c.toNat < 4 then 2 ^ (c.toNat - 1) else 2 ^ (c.toNat - 0x10 + 4)) = 2 ^ (c.toNat - 1) := if_pos (by omega)
  refine ⟨rfl, rfl, rfl, rfl, if_pos (by omega), ?_, hrcc, fun hroom => Blk.alarmTold_lastRecord ?_ hroom .., fun m => ?_, rfl⟩
  · show (orBits s.blk.sec.tmpSticky (if c.toNat < 4 then 2 ^ (c.toNat - 1) else 2 ^ (c.toNat - 0x10 + 4))).toNat.testBit (c.toNat - 1) = true
    rw [hsticky]
    exact testBit_orBits s.blk.sec.tmpSticky (i := c.toNat - 1) (by omega)
  · rw [Blk.huskTo_waiting _ _ (by decide), Blk.onSec_waiting, hwait]
  · rw [Blk.alarmTold_resps, Blk.huskTo_mboxes, Blk.onSec_mboxes, hmboxes]

variable (hsecond : c = 0x10 ∨ c = 0x11)
include hsecond

/-- An alarm of class 2 as the row handles it. -/
theorem tamperAlarm_class2_eq : ∃ arg payload, tamperAlarm c s.mem s.blk = ((s.blk.alarmNoted c 2).tamperReact s.mem c 2).map (·.alarmTold arg payload) := by
  have htwo := Blk.tamperClass_two (b := s.blk) hsecond
  obtain ⟨payload, hrow⟩ := tamperAlarm_eq (code := c) (cls := 2) (by rw [htwo]; decide) (by rw [htwo]; rfl) hclosed s.mem
  exact ⟨_, payload, hrow⟩

theorem runs_tamperAlarm_class2 (hmode : s.blk.rcc.mode = .run) (hsched : s.blk.rcc.sched = none) (hku : s.blk.sec.ku = none)
    (hoff : bit s.blk.sec.cryCtrl 0 = false) : Safety.runs (.tamperAlarm c) s fun t => t.blk.sec.husk = .locked ∧ t.blk.sec.class2Now = true
      ∧ t.blk.rcc.sched = some { target := .lockdown, cause := mcTamper2, at_ := s.blk.breath.bn + 2, rank := 2, due := none } ∧ t.blk.rcc.mode = .run
      ∧ (∀ n : Fin 64, (t.blk.sec.slots.get n).cached = false) ∧ t.mem = s.mem := by
  obtain ⟨arg, payload, hrow⟩ := tamperAlarm_class2_eq c s hclosed hsecond
  have hsec := s.blk.alarmNoted_sec c 2
  have hrcc := s.blk.alarmNoted_rcc c 2
  have hbreath := s.blk.alarmNoted_breath c 2
  rw [Blk.tamperReact_run (by rw [hrcc]; exact hmode) (by rw [hsec]; exact hku) (by rw [hsec]; exact hoff), if_pos rfl] at hrow
  generalize s.blk.alarmNoted c 2 = a at hsec hrcc hbreath hrow
  have hclass : a.sec.class2Now = true := by
    rw [hsec]
    rcases hsecond with rfl | rfl <;> exact Bool.or_true _
  have hwiped : ∃ b : Blk, b.sec = a.sec ∧ b.rcc = a.rcc ∧ b.breath = a.breath
      ∧ (if a.rcc.holdup ∧ a.rcc.holdupDone = false then a else a.ev srcHusk 5 4 (arg32 c.toNat)) = b := by
    split
    · exact ⟨a, rfl, rfl, rfl, rfl⟩
    · exact ⟨_, Blk.ev_sec .., Blk.ev_rcc .., Blk.ev_breath .., rfl⟩
  obtain ⟨b, hbsec, hbrcc, hbbreath, hb⟩ := hwiped
  rw [hb, Blk.schedule_of_unscheduled (by rw [Blk.huskTo_rcc, hbrcc, hrcc]; exact hsched)] at hrow
  refine runs_onMem rfl hrow ?_
  dsimp only [BW.map]
  rw [Blk.heal_nil, Blk.alarmTold_sec, Blk.alarmTold_rcc, Blk.onRcc_sec, Blk.onRcc_rcc, Blk.huskTo_sec, Blk.huskTo_rcc, Blk.huskTo_breath, hbsec, hbrcc,
    hbbreath, hrcc, hbreath]
  exact ⟨rfl, hclass, rfl, hmode, fun n => a.sec.cache_off_cached n, rfl⟩

theorem runs_tamperAlarm_sleep (hmode : s.blk.rcc.mode = .sleep) (hstep : s.blk.rcc.sleepStep ≠ 5) : Safety.runs (.tamperAlarm c) s fun t =>
    t.blk.rcc.bootTamper = max s.blk.rcc.bootTamper 2 ∧ t.blk.sec.tmpPending = satInc s.blk.sec.tmpPending 255 ∧ t.blk.nvm = s.blk.nvm ∧ t.mem = s.mem := by
  obtain ⟨arg, payload, hrow⟩ := tamperAlarm_class2_eq c s hclosed hsecond
  have hsec := s.blk.alarmNoted_sec c 2
  have hrcc := s.blk.alarmNoted_rcc c 2
  have hnvm := s.blk.alarmNoted_nvm_of_sleep c 2 hmode
  generalize s.blk.alarmNoted c 2 = a at hsec hrcc hnvm hrow
  have hreact : a.tamperReact s.mem c 2 = (a.onRcc fun r => { r with bootTamper := max r.bootTamper 2 }, []) := by
    unfold Blk.tamperReact
    rw [hrcc, hmode]
    dsimp only
    rw [if_neg (by rw [Blk.onRcc_rcc, hrcc]; exact hstep)]
  have hpending : a.sec.tmpPending = satInc s.blk.sec.tmpPending 255 := by
    rw [hsec, hmode]
    rfl
  rw [hreact] at hrow
  refine runs_onMem rfl hrow ?_
  dsimp only [BW.map]
  rw [Blk.heal_nil, Blk.alarmTold_sec, Blk.alarmTold_rcc, Blk.alarmTold_nvm, Blk.onRcc_sec, Blk.onRcc_rcc, Blk.onRcc_nvm, hrcc, hnvm]
  exact ⟨rfl, hpending, rfl, rfl⟩

end

theorem runs_cl1HoldExpiry (s : State) :
    (s.blk.sec.cl1Hold = true → s.blk.sec.husk = .unavailable → Safety.runs .cl1HoldExpiry s fun t => t.blk.sec.husk = .available ∧ t.blk.sec.cl1Hold = false ∧ t.blk.rcc = s.blk.rcc ∧ t.mem = s.mem)
    ∧ (s.blk.sec.cl1Hold = true → s.blk.sec.husk = .locked → Safety.runs .cl1HoldExpiry s fun t => t.blk.sec = { s.blk.sec with cl1Hold := false } ∧ t.mem = s.mem)
    ∧ (s.blk.sec.cl1Hold = false → Safety.runs .cl1HoldExpiry s fun t => t = s) := by
  have hrow (hhold : s.blk.sec.cl1Hold = true) : cl1HoldExpiry s.blk =
      if s.blk.sec.husk = .unavailable then (s.blk.onSec fun x => { x with cl1Hold := false }).huskTo .available
      else s.blk.onSec fun x => { x with cl1Hold := false } := if_neg (by simp [hhold])
  refine ⟨fun hhold hhusk => runs_onBlk rfl ((hrow hhold).trans (if_pos hhusk)) ?_,
    fun hhold hhusk => runs_onBlk rfl ((hrow hhold).trans (if_neg (by rw [hhusk]; decide))) ⟨rfl, rfl⟩, fun hnone => runs_unchanged rfl (if_pos hnone)⟩
  dsimp only
  rw [Blk.huskTo_sec, Blk.huskTo_rcc]
  exact ⟨rfl, rfl, rfl, rfl⟩

/-! ### The entropy source (R426) -/

theorem runs_entropyFail (x y : Bool) (s : State) : Safety.runs (.entropyFail x y) s fun t => t.blk.sec.entropyOk = false ∧ bit t.blk.sec.crySticky 0 = true
    ∧ t.blk.sec.entRep = (if x then satInc s.blk.sec.entRep 0xFFFF else s.blk.sec.entRep) ∧ t.blk.sec.entProp = (if y then satInc s.blk.sec.entProp 0xFFFF else s.blk.sec.entProp)
    ∧ (Safety.room s.blk srcCry → Safety.lastRecord t.blk = some (srcCry, 0x10, 3, arg32 (b2n x + 2 * b2n y), hw))
    ∧ t.blk = { s.blk with sec := t.blk.sec, evs := t.blk.evs } ∧ t.mem = s.mem := by
  refine runs_onBlk rfl rfl ?_
  dsimp only [entropyFail]
  rw [Blk.ev_sec]
  refine ⟨rfl, testBit_orBits s.blk.sec.crySticky (i := 0) (by decide), rfl, rfl, fun hroom => Blk.ev_last_of_evs_eq (b := s.blk) (by rfl) hroom .., ?_, rfl⟩
  rw [Blk.ev_eq]
  rfl

theorem runs_entropyRetest (s : State) :
    (s.blk.sec.entropyOk = false → Safety.runs (.entropyRetest true) s fun t => t.blk.sec = { s.blk.sec with entropyOk := true }
      ∧ (Safety.room s.blk srcCry → Safety.lastRecord t.blk = some (srcCry, 0x11, 1, 0, hw)) ∧ t.mem = s.mem)
    ∧ (Safety.runs (.entropyRetest false) s fun t => t = s) := by
  refine ⟨fun hbad => runs_onBlk rfl (if_neg (by simp [hbad])) ?_, runs_unchanged rfl (if_pos (.inl rfl))⟩
  exact ⟨Blk.ev_sec .., fun hroom => Blk.ev_last_of_evs_eq (b := s.blk) (by rfl) hroom .., rfl⟩

/-- Settles O54: the classes of an alarm by the mode, the end of the hold, and the entropy source. -/
theorem alarmsProtectTheKeys : Obligations.AlarmsProtectTheKeys :=
  ⟨fun c s hlo hhi hfirst hmode hhusk hku hclosed hoff => runs_tamperAlarm_class1 c s hclosed hlo hhi hfirst hmode hhusk hku hoff,
    fun c s hsecond hmode hsched hku hclosed hoff => runs_tamperAlarm_class2 c s hclosed hsecond hmode hsched hku hoff,
    fun _ _ hnone => runs_onMem rfl (if_pos hnone) ⟨Blk.heal_nil _, rfl⟩,
    fun c s hsecond hmode hstep hclosed => runs_tamperAlarm_sleep c s hclosed hsecond hmode hstep,
    runs_cl1HoldExpiry, runs_entropyFail, runs_entropyRetest⟩

end Sys2Proof.Machine
end

section
/-! SUPPORT. Updates on trial (R442, R443, R445, R446, R450, R451): a component's slots, and the rows of the update service. -/

namespace Sys2Proof.Machine
open Sys2Proof

/-! ### Components and their slots (R433, R437) -/

section
variable (c : Component) (sb : Bool) (f : ImgSlot → ImgSlot)

theorem Component.slot_modSlot_same : (c.modSlot sb f).slot sb = f (c.slot sb) := Component.slot_setSlot_same ..

theorem Component.slot_modSlot_of_not : (c.modSlot (!sb) f).slot sb = c.slot sb := Component.slot_setSlot_not ..

end

/-- Where one component of the boot header has changed, the others are as they were. -/
theorem Blk.comp_of_vmod {b t : Blk} {i : Fin 13} {f : Component → Component} (h : t.upd.comps = vmod b.upd.comps i f) :
    t.comp i = f (b.comp i) ∧ Safety.otherComps b t i :=
  ⟨(congrArg (Vector.get · i) h).trans (vmod_get_self ..), fun j hj => (congrArg (Vector.get · j) h).trans (vmod_get_ne _ _ _ _ hj.symm)⟩

theorem Blk.modComp_otherComps (b : Blk) (i : Fin 13) (f : Component → Component) : Safety.otherComps b (b.modComp i f) i :=
  fun _ hj => b.modComp_comp_ne f hj

theorem Safety.otherComps.trans {a b c : Blk} {i : Fin 13} (h : Safety.otherComps a b i) (h' : Safety.otherComps b c i) :
    Safety.otherComps a c i := fun j hj => (h' j hj).trans (h j hj)

/-- The components from 0 to 3 have nothing that follows their active slot. -/
theorem Blk.followSlot_of_lt (b : Blk) {i : Fin 13} (h : i.val < 4) : b.followSlot i = b := by
  unfold Blk.followSlot
  rw [if_neg (by omega), if_neg (by omega)]

theorem compIdx_lt_five {n : Nat} {i : Fin 13} (h : compIdx n = some i) (hi : i.val < 5) : n = i.val := by
  unfold compIdx at h
  split at h
  · cases h
    rfl
  · split at h
    · cases h
      exact absurd hi (by simp)
    · cases h

/-! ### What a change of state leaves (R240) -/

theorem Blk.updTo_resps (b : Blk) (st : UpdState) (m : Fin 12) : ((b.updTo st).mboxes.get m).resps = (b.mboxes.get m).resps :=
  Blk.notify_resps ..

/-! ### UPD_ACTIVATE (R442) -/

section
variable (b : Blk) (i : Fin 13) (due : Option Due) (target : Option (BitVec 48))

theorem Blk.schedUpdate_upd : ∃ x : Update, x.comps = vmod b.upd.comps i (fun c => { c with pendingAct := true })
    ∧ (b.schedUpdate i due target).upd = { x with due := due, target := target, state := .scheduled } := by
  rw [Blk.schedUpdate, Blk.updTo_upd]
  exact ⟨(b.modComp i fun c => { c with pendingAct := true }).upd, rfl, rfl⟩

theorem Blk.schedUpdate_resps (m : Fin 12) : ((b.schedUpdate i due target).mboxes.get m).resps = (b.mboxes.get m).resps :=
  Blk.updTo_resps ..

end

/-- Of the components from 0 to 4 the safety program alone activates at a tick, and not in RECOVERY (R442, R450). -/
theorem activation_choice {α : Type} {rom : Prop} [Decidable rom] {n : Nat} (hn : n < 5) (start tick other : α) :
    (if decide rom = true ∨ n < 5 ∧ ¬ n = 1 then start else if n = 1 then tick else other) = if rom ∨ ¬ n = 1 then start else tick := by
  by_cases hone : n = 1
  · simp [hone]
  · simp [hone, hn]

section
variable {r : Req} {i : Fin 13} {s : State} (hacc : Safety.accepted cmdUpdActivate r s.blk) (hcomp : compIdx s.blk.upd.comp = some i)
  (hst : s.blk.upd.state = .verified) (hopt : byteAt (Safety.payload r) 0 = 0) (hzero : nonZeroAt (Safety.payload r) 1 7 = none)
  (hsite : Safety.pass s.blk.siteChecks)
include hacc hcomp hst hopt hzero hsite

/-- A verified update without a given breath, at a site that permits it: at the next start, or for the safety program at a tick. -/
theorem updActivate_eq (hi : i.val < 5) : updActivate r s.blk =
    if s.blk.rcc.mode = .recovery ∨ i.val ≠ 1 then
      let b1 := (s.blk.respond 0xA04 r stAccepted ebnUnknown []).schedUpdate i none none
      b1.complete (reqDue r 0xA04) stOk ebnUnknown (b1.versionEntry i)
    else
      (s.blk.respond 0xA04 r stAccepted (bnWord (s.blk.breath.bn + 2)) []).schedUpdate i (some (reqDue r 0xA04)) (some (s.blk.breath.bn + 2)) := by
  have hbyte : (byteAt (Safety.payload r) 0).toNat = 0 := by rw [hopt]; rfl
  rw [updActivate, serve_pass hacc rfl rfl]
  simp only [hcomp, hst, hbyte, zeroErr_eq_nil hzero, (firstErr_eq_none_iff _).2 hsite]
  cases s.blk.tenants.toList[i.val - 5]?
  all_goals
    simp only [List.append_nil, List.cons_append, List.nil_append, firstErr, Nat.not_lt_zero, decide_false, zero_ne_one, false_and, Bool.false_and,
      reduceCtorEq, Bool.or_false, ne_eq, not_true_eq_false, Bool.false_eq_true, if_false]
    exact activation_choice hi ..

theorem runs_updActivate (hi : i.val < 5) (hone : i.val ≠ 1) : Safety.runs (.updActivate r) s fun t =>
      t.blk.upd.state = .scheduled ∧ (t.blk.comp i).pendingAct = true ∧ (t.blk.comp i).runB = (s.blk.comp i).runB ∧ Safety.otherComps s.blk t.blk i
      ∧ Safety.answers s t r 0xA04 1 0xFFFFFFFF [] ∧ t.mem = s.mem := by
  refine runs_onBlk rfl ((updActivate_eq hacc hcomp hst hopt hzero hsite hi).trans (if_pos (.inr hone))) ?_
  obtain ⟨x, hcomps, hupd⟩ := (s.blk.respond 0xA04 r stAccepted ebnUnknown []).schedUpdate_upd i none none
  have hresps := (s.blk.respond 0xA04 r stAccepted ebnUnknown []).schedUpdate_resps i none none r.mb
  have hanswer := Blk.respond_answers (a := s.blk) (b := s.blk) (r := r) rfl rfl 0xA04 stAccepted ebnUnknown []
  generalize (s.blk.respond 0xA04 r stAccepted ebnUnknown []).schedUpdate i none none = a at hupd hresps ⊢
  have hend (n : Word) (p : List Byte) : (a.complete (reqDue r 0xA04) stOk n p).upd = { x with due := none, target := none, state := .scheduled } := by
    rw [Blk.complete_upd, hupd]
  obtain ⟨hself, hother⟩ := Blk.comp_of_vmod (b := s.blk) ((congrArg Update.comps (hend ebnUnknown (a.versionEntry i))).trans hcomps)
  refine ⟨congrArg Update.state (hend ..), by rw [hself], by rw [hself], hother, ?_, rfl⟩
  rw [Safety.answers, Blk.complete_resps, hresps]
  exact hanswer

end

theorem runs_updActivate_safety {r : Req} {s : State} (hacc : Safety.accepted cmdUpdActivate r s.blk) (hcomp : compIdx s.blk.upd.comp = some 1)
    (hst : s.blk.upd.state = .verified) (hopt : byteAt (Safety.payload r) 0 = 0) (hzero : nonZeroAt (Safety.payload r) 1 7 = none)
    (hsite : Safety.pass s.blk.siteChecks) (hmode : s.blk.rcc.mode ≠ .recovery) : Safety.runs (.updActivate r) s fun t =>
      t.blk.upd.state = .scheduled ∧ t.blk.upd.target = some (s.blk.breath.bn + 2) ∧ t.blk.upd.due.isSome = true ∧ (t.blk.comp 1).pendingAct = true ∧ t.mem = s.mem := by
  refine runs_onBlk rfl ((updActivate_eq hacc hcomp hst hopt hzero hsite (by decide)).trans (if_neg (by simp [hmode]))) ?_
  obtain ⟨x, hcomps, hupd⟩ := (s.blk.respond 0xA04 r stAccepted (bnWord (s.blk.breath.bn + 2)) []).schedUpdate_upd 1 (some (reqDue r 0xA04))
    (some (s.blk.breath.bn + 2))
  obtain ⟨hself, -⟩ := Blk.comp_of_vmod (b := s.blk) ((congrArg Update.comps hupd).trans hcomps)
  exact ⟨congrArg Update.state hupd, congrArg Update.target hupd, by rw [hupd]; rfl, by rw [hself], rfl⟩

/-! ### UPD_ABORT (R446) -/

/-- An update that is being received and waits for no request ends with its slot invalid. -/
theorem Blk.dropUpdate_upd {b : Blk} {i : Fin 13} (hst : b.upd.state = .receiving) (hcomp : compIdx b.upd.comp = some i) (hdue : b.upd.due = none)
    (why : Nat) : (b.dropUpdate why).upd.state = .idle
      ∧ (b.dropUpdate why).upd.comps = vmod b.upd.comps i (fun c => c.modSlot (!c.runB) fun x => { x with state := .invalid }) := by
  unfold Blk.dropUpdate
  simp only [hst, hcomp, hdue]
  rw [Blk.ev_upd, Blk.updTo_upd]
  exact ⟨rfl, rfl⟩

/-- A scheduled activation of a component from 0 to 4 that no request waits for is removed. -/
theorem Blk.unscheduleUpdate_upd {b : Blk} {i : Fin 13} (hst : b.upd.state = .scheduled) (hcomp : compIdx b.upd.comp = some i) (hi : i.val < 5)
    (hdue : b.upd.due = none) (why : Nat) : (b.unscheduleUpdate why).upd.state = .idle
      ∧ (b.unscheduleUpdate why).upd.comps = vmod b.upd.comps i (fun c => { c with pendingAct := false }) := by
  have hcode : b.upd.comp < 0x10 := by
    rw [compIdx_lt_five hcomp hi]
    omega
  have hrow : b.unscheduleUpdate why =
      (((b.modComp i fun c => { c with pendingAct := false }).onUpd fun u => { u with due := none, target := none }).updTo .idle).ev
        (srcUpd b.upd.comp) 4 1 (arg32 why) := by
    unfold Blk.unscheduleUpdate
    simp only [hst, hcomp, hdue, if_pos hcode]
    split <;> rfl
  rw [hrow, Blk.ev_upd, Blk.updTo_upd]
  exact ⟨rfl, rfl⟩

theorem updAbort_eq {r : Req} {b : Blk} (hacc : Safety.accepted cmdUpdAbort r b) :
    updAbort r b = (if b.upd.state = .scheduled then b.unscheduleUpdate 1 else b.dropUpdate 1).ok 0xA05 r [] := by
  rw [updAbort, serve_pass hacc rfl rfl]

theorem runs_updAbort (r : Req) (s : State) (hacc : Safety.accepted cmdUpdAbort r s.blk) :
    (s.blk.upd.state = .idle → Safety.runs (.updAbort r) s fun t => Safety.okays s t r 0xA05 [] ∧ Safety.onlyAnswers s t)
    ∧ (∀ i : Fin 13, s.blk.upd.state = .receiving → compIdx s.blk.upd.comp = some i → s.blk.upd.due = none → Safety.runs (.updAbort r) s fun t => t.blk.upd.state = .idle
      ∧ ((t.blk.comp i).slot (!(s.blk.comp i).runB)).state = .invalid ∧ (t.blk.comp i).slot (s.blk.comp i).runB = (s.blk.comp i).slot (s.blk.comp i).runB ∧ t.mem = s.mem)
    ∧ (∀ i : Fin 13, s.blk.upd.state = .scheduled → compIdx s.blk.upd.comp = some i → i.val < 5 → s.blk.upd.due = none → Safety.runs (.updAbort r) s fun t => t.blk.upd.state = .idle
      ∧ (t.blk.comp i).pendingAct = false ∧ (∀ sb : Bool, (t.blk.comp i).slot sb = (s.blk.comp i).slot sb) ∧ t.mem = s.mem) := by
  have hrow := updAbort_eq hacc
  refine ⟨fun hst => ?_, fun i hst hcomp hdue => ?_, fun i hst hcomp hi hdue => ?_⟩
  · have hdrop : s.blk.dropUpdate 1 = s.blk := by
      unfold Blk.dropUpdate
      simp only [hst]
    rw [if_neg (by rw [hst]; decide), hdrop] at hrow
    exact runs_onBlk rfl hrow ⟨Blk.respond_answers (a := s.blk) rfl rfl .., rfl, rfl⟩
  · rw [if_neg (by rw [hst]; decide)] at hrow
    obtain ⟨hstate, hcomps⟩ := Blk.dropUpdate_upd hst hcomp hdue 1
    refine runs_onBlk rfl hrow ?_
    obtain ⟨hself, -⟩ := Blk.comp_of_vmod (b := s.blk) (t := (s.blk.dropUpdate 1).ok 0xA05 r []) (by rw [Blk.ok_upd]; exact hcomps)
    dsimp only
    rw [hself, Blk.ok_upd]
    exact ⟨hstate, by rw [Component.slot_modSlot_same], by rw [Component.slot_modSlot_of_not], rfl⟩
  · rw [if_pos hst] at hrow
    obtain ⟨hstate, hcomps⟩ := Blk.unscheduleUpdate_upd hst hcomp hi hdue 1
    refine runs_onBlk rfl hrow ?_
    obtain ⟨hself, -⟩ := Blk.comp_of_vmod (b := s.blk) (t := (s.blk.unscheduleUpdate 1).ok 0xA05 r []) (by rw [Blk.ok_upd]; exact hcomps)
    dsimp only
    rw [hself, Blk.ok_upd]
    exact ⟨hstate, rfl, fun _ => rfl, rfl⟩

/-! ### Activation at a start (R442) -/

/-- A component whose other slot becomes the trial. -/
def Component.onTrialFrom (c : Component) (slotB : Bool) (since : BitVec 64) : Component :=
  let c1 := if c.runB = slotB then c else c.modSlot c.runB fun x =>
    { x with state := if x.state = .active ∨ x.state = .trial then .previous else x.state }
  { c1.modSlot slotB (fun x => { x with state := .trial }) with runB := slotB, pendingAct := false, trialStarts := 1, trialSince := since }

theorem Blk.activate_comps (b : Blk) (i : Fin 13) (slotB : Bool) :
    (b.activate i slotB).upd.comps = vmod b.upd.comps i (·.onTrialFrom slotB b.time.dt) :=
  congrArg Update.comps (Blk.ev_upd ..)

section
variable (c : Component) (since : BitVec 64)

theorem Component.onTrialFrom_slot_new (slotB : Bool) :
    (c.onTrialFrom slotB since).slot slotB = { c.slot slotB with state := .trial } := by
  obtain ⟨a, b, runB⟩ := c
  cases runB <;> cases slotB <;> rfl

theorem Component.onTrialFrom_slot_old (hactive : (c.slot c.runB).state = .active) :
    ((c.onTrialFrom (!c.runB) since).slot c.runB).state = .previous := by
  have hold : (c.onTrialFrom (!c.runB) since).slot c.runB = { c.slot c.runB with state :=
      if (c.slot c.runB).state = .active ∨ (c.slot c.runB).state = .trial then .previous else (c.slot c.runB).state } := by
    obtain ⟨a, b, runB⟩ := c
    cases runB <;> rfl
  rw [hold]
  exact if_pos (.inl hactive)

end

theorem Blk.activationDone_comps (b : Blk) (i : Fin 13) : (b.activationDone i).upd.comps = b.upd.comps := by
  unfold Blk.activationDone
  split
  · rfl
  · dsimp only
    split
    · rw [Blk.complete_upd, Blk.updTo_upd]
      rfl
    · rw [Blk.updTo_upd]
      rfl

theorem runs_updateActivated (c : Byte) (i : Fin 13) (s : State) (hcomp : compIdx c.toNat = some i) (hmode : s.blk.rcc.mode = .boot)
    (hidle : s.blk.rcc.episode = none) (hi : i.val < 4) (hone : i.val ≠ 1) :
    ((s.blk.comp i).pendingAct = true → ((s.blk.comp i).slot (s.blk.comp i).runB).state = .active → Safety.runs (.updateActivated c) s fun t =>
      (t.blk.comp i).runB = !(s.blk.comp i).runB ∧ (t.blk.comp i).pendingAct = false ∧ ((t.blk.comp i).slot (!(s.blk.comp i).runB)).state = .trial
      ∧ ((t.blk.comp i).slot (s.blk.comp i).runB).state = .previous ∧ Safety.otherComps s.blk t.blk i ∧ t.mem = s.mem)
    ∧ ((s.blk.comp i).pendingAct = false → Safety.runs (.updateActivated c) s fun t => t = s) := by
  have hrow : updateActivated c s.blk = s.blk.activateDue i := by
    unfold updateActivated
    simp only [hcomp]
  refine ⟨fun hpending hactive => ?_, fun hnone => runs_unchanged rfl (hrow.trans (if_pos (.inl hnone)))⟩
  have hdue : s.blk.activateDue i = (s.blk.activate i (!(s.blk.comp i).runB)).activationDone i := by
    unfold Blk.activateDue
    dsimp only
    rw [if_neg (by simp [hpending]; omega), if_neg hone, if_pos ⟨hmode, by rw [hidle]; rfl⟩, Blk.followSlot_of_lt _ hi]
  obtain ⟨hself, hother⟩ := Blk.comp_of_vmod (b := s.blk) (t := s.blk.activateDue i)
    (by rw [hdue, Blk.activationDone_comps]; exact Blk.activate_comps ..)
  refine runs_onBlk rfl hrow ?_
  dsimp only
  rw [hself]
  exact ⟨rfl, rfl, by rw [Component.onTrialFrom_slot_new], Component.onTrialFrom_slot_old _ _ hactive, hother, rfl⟩

/-! ### Confirmation (R445) -/

/-- The counter of a component raised to the version that is confirmed. -/
def Blk.counterRaised (b : Blk) (i : Fin 13) : Blk :=
  let x := b.running i
  if i.val ≠ 4 ∧ b.rollback i < x.secVer then
    let b' := if i.val < 4 then b.modComp i fun c => { c with counter := x.secVer }
      else b.counterPut (ctrTenant (i.val - 5)) (BitVec.ofNat 64 x.secVer)
    b'.ev (srcUpd (compCode i)) 0xB 2 (arg32 x.secVer)
  else b

/-- The stored data format raised to that of the image that is confirmed. -/
def Blk.formatStored (b : Blk) (i : Fin 13) (x : ImgSlot) : Blk :=
  if (b.comp i).format = x.format then b
  else
    let b' := (b.modComp i fun c => { c with format := x.format }).journalFormats
    (if i.val = 0 then b'.onUpd fun u => { u with held := none } else b').ev (srcUpd (compCode i)) 0xA 2 (arg32 x.format)

/-- The slots of a component whose trial is confirmed. -/
def Component.confirmed (c : Component) (judged : Prop) [Decidable judged] (floor : Nat) : Component :=
  let c1 := c.modSlot c.runB fun y => { y with state := .active }
  { c1.modSlot (!c.runB) (fun y =>
      if y.state = .previous ∧ ((judged ∧ y.secVer < floor) ∨ y.format < c.format) then { y with state := .invalid } else y) with
    trialStarts := 0 }

theorem Component.confirmed_spec (c : Component) (judged : Prop) [Decidable judged] (floor : Nat) : ((c.confirmed judged floor).slot c.runB).state = .active
    ∧ (c.confirmed judged floor).runB = c.runB ∧ (c.confirmed judged floor).counter = c.counter ∧ (c.confirmed judged floor).format = c.format := by
  obtain ⟨a, b, runB⟩ := c
  cases runB <;> exact ⟨rfl, rfl, rfl, rfl⟩

section
variable (b : Blk) {i : Fin 13} (hi : i.val < 4)
include hi

theorem Blk.counterRaised_comp : (b.counterRaised i).comp i = { b.comp i with counter := max (b.comp i).counter (b.running i).secVer }
    ∧ Safety.otherComps b (b.counterRaised i) i := by
  have hfloor : b.rollback i = (b.comp i).counter := if_pos hi
  unfold Blk.counterRaised
  dsimp only
  rw [hfloor, if_pos hi]
  split
  next hlow =>
    obtain ⟨hself, hother⟩ := Blk.comp_of_vmod (b := b)
      (t := (b.modComp i fun c => { c with counter := (b.running i).secVer }).ev (srcUpd (compCode i)) 0xB 2 (arg32 (b.running i).secVer))
      (f := fun c => { c with counter := (b.running i).secVer }) (by rw [Blk.ev_upd]; rfl)
    rw [hself, max_eq_right (Nat.le_of_lt hlow.2)]
    exact ⟨rfl, hother⟩
  next hhigh =>
    have hle : (b.running i).secVer ≤ (b.comp i).counter := Nat.not_lt.1 fun h => hhigh ⟨by omega, h⟩
    rw [max_eq_left hle]
    exact ⟨rfl, fun _ _ => rfl⟩

omit hi in
theorem Blk.formatStored_comp (i : Fin 13) (x : ImgSlot) : (b.formatStored i x).comp i = { b.comp i with format := x.format }
    ∧ Safety.otherComps b (b.formatStored i x) i := by
  unfold Blk.formatStored
  split
  next hsame =>
    rw [← hsame]
    exact ⟨rfl, fun _ _ => rfl⟩
  next =>
    refine Blk.comp_of_vmod (b := b) (f := fun c => { c with format := x.format }) ?_
    rw [Blk.ev_upd]
    split <;> rfl

theorem Blk.confirm_comp : (((b.confirm i).comp i).slot (b.comp i).runB).state = .active ∧ ((b.confirm i).comp i).runB = (b.comp i).runB
    ∧ ((b.confirm i).comp i).counter = max (b.comp i).counter (b.running i).secVer ∧ ((b.confirm i).comp i).format = (b.running i).format
    ∧ Safety.otherComps b (b.confirm i) i := by
  obtain ⟨hcself, hcother⟩ := b.counterRaised_comp hi
  obtain ⟨hfself, hfother⟩ := (b.counterRaised i).formatStored_comp i (b.running i)
  obtain ⟨hself, hother⟩ := Blk.comp_of_vmod (b := (b.counterRaised i).formatStored i (b.running i)) (t := b.confirm i)
    (f := (·.confirmed (i.val ≠ 4) (((b.counterRaised i).formatStored i (b.running i)).rollback i)))
    ((congrArg Update.comps (Blk.ev_upd ..)).trans rfl)
  obtain ⟨hslot, hrun, hcounter, hformat⟩ := (((b.counterRaised i).formatStored i (b.running i)).comp i).confirmed_spec (i.val ≠ 4)
    (((b.counterRaised i).formatStored i (b.running i)).rollback i)
  rw [← hself, hfself, hcself] at hslot hrun hcounter hformat
  exact ⟨hslot, hrun, hcounter, hformat, Safety.otherComps.trans (Safety.otherComps.trans hcother hfother) hother⟩

end

/-! ### Failure (R443, R450) -/

theorem Blk.trialFail_eq (b : Blk) {i : Fin 13} (hi : i.val < 5) (hone : i.val ≠ 1) (why : Nat) :
    b.trialFail i why = ((b.ev (srcUpd (compCode i)) 7 3 (arg32 why)).modComp i fun c => { c with revert := true }).onRcc fun r =>
      { r with gpioFault := orBits r.gpioFault (2 ^ 0) } := by
  unfold Blk.trialFail
  dsimp only
  rw [if_neg hone, dif_neg (by omega)]
  rfl

/-- A safety program whose trial failed gives way to the previous one. -/
def Component.givenBack (c : Component) : Component :=
  { (c.modSlot c.runB fun x => { x with state := .invalid }).modSlot (!c.runB) (fun x => { x with state := .active }) with
    runB := !c.runB, revert := false, trialStarts := 0 }

theorem Component.givenBack_spec (c : Component) : c.givenBack.runB = (!c.runB) ∧ (c.givenBack.slot (!c.runB)).state = .active
    ∧ (c.givenBack.slot c.runB).state = .invalid := by
  obtain ⟨a, b, runB⟩ := c
  cases runB <;> exact ⟨rfl, rfl, rfl⟩

theorem Blk.revertComp_comps (b : Blk) {i : Fin 13} (hlo : i.val ≠ 0) (hi : i.val < 4)
    (hprev : ((b.comp i).slot (!(b.comp i).runB)).state = .previous) : (b.revertComp i).upd.comps = vmod b.upd.comps i Component.givenBack := by
  unfold Blk.revertComp
  simp only [hprev, decide_true, if_true, if_neg hlo]
  rw [Blk.followSlot_of_lt _ hi, Blk.ev_upd]
  rfl

theorem runs_updateTrialFailed_safety {c : Byte} {s : State} (hcomp : compIdx c.toNat = some 1) (hopen : s.blk.trialOpen 1 = true)
    (hfail : s.blk.failable 1 3 = true) (hprev : ((s.blk.comp 1).slot (!(s.blk.comp 1).runB)).state = .previous) :
    Safety.runs (.updateTrialFailed c 3) s fun t =>
        (t.blk.comp 1).runB = !(s.blk.comp 1).runB ∧ ((t.blk.comp 1).slot (!(s.blk.comp 1).runB)).state = .active
        ∧ ((t.blk.comp 1).slot (s.blk.comp 1).runB).state = .invalid ∧ t.blk.dr.assertReset = some 4 ∧ t.mem = s.mem := by
  have hrow : updateTrialFailed c 3 s.blk = s.blk.trialFail 1 3 := by
    unfold updateTrialFailed
    simp only [hcomp]
    exact if_pos ⟨hopen, hfail⟩
  have hcomps : ((s.blk.ev (srcUpd (compCode 1)) 7 3 (arg32 3)).revertComp 1).upd.comps = vmod s.blk.upd.comps 1 Component.givenBack := by
    have hcomp1 : (s.blk.ev (srcUpd (compCode 1)) 7 3 (arg32 3)).comp 1 = s.blk.comp 1 := Blk.comp_congr (congrArg Update.comps (Blk.ev_upd ..)) 1
    rw [Blk.revertComp_comps _ (by decide) (by decide) (by rw [hcomp1]; exact hprev), Blk.ev_upd]
  have hfailed : s.blk.trialFail 1 3 = (((s.blk.ev (srcUpd (compCode 1)) 7 3 (arg32 3)).revertComp 1).onDr fun d =>
      { d with givenUp := false, assertReset := some 4 }).onRcc fun r => { r with gpioFault := setBits r.gpioFault 1 1 0 } := rfl
  generalize (s.blk.ev (srcUpd (compCode 1)) 7 3 (arg32 3)).revertComp 1 = a at hcomps hfailed
  refine runs_onBlk rfl (hrow.trans hfailed) ?_
  obtain ⟨hself, -⟩ := Blk.comp_of_vmod (b := s.blk) (t := a) hcomps
  obtain ⟨hrun, hnew, hold⟩ := (s.blk.comp 1).givenBack_spec
  rw [← hself] at hrun hnew hold
  exact ⟨hrun, hnew, hold, rfl, rfl⟩

/-! ### The rows of trials (R443, R445) -/

theorem runs_trials (c : Byte) (i : Fin 13) (s : State) (hcomp : compIdx c.toNat = some i) (hi : i.val < 4) (hopen : s.blk.trialOpen i = true) :
    (s.blk.confirmable i = true → Safety.runs (.updateConfirmed c) s fun t =>
      ((t.blk.comp i).slot (s.blk.comp i).runB).state = .active ∧ (t.blk.comp i).runB = (s.blk.comp i).runB
      ∧ (t.blk.comp i).counter = max (s.blk.comp i).counter ((s.blk.comp i).slot (s.blk.comp i).runB).secVer
      ∧ (t.blk.comp i).format = ((s.blk.comp i).slot (s.blk.comp i).runB).format ∧ Safety.otherComps s.blk t.blk i ∧ t.mem = s.mem)
    ∧ (s.blk.confirmable i = false → Safety.runs (.updateConfirmed c) s fun t => t = s)
    ∧ (∀ w : BitVec 3, i.val ≠ 1 → s.blk.failable i w.toNat = true → Safety.runs (.updateTrialFailed c w) s fun t => (t.blk.comp i).revert = true
      ∧ bit t.blk.rcc.gpioFault 0 = true ∧ (t.blk.comp i).runB = (s.blk.comp i).runB ∧ (Safety.room s.blk (srcUpd (compCode i)) →
        Safety.lastRecord t.blk = some (srcUpd (compCode i), 7, 3, arg32 w.toNat, hw)) ∧ t.mem = s.mem)
    ∧ (∀ w : BitVec 3, s.blk.failable i w.toNat = false → Safety.runs (.updateTrialFailed c w) s fun t => t = s)
    ∧ (i.val = 1 → s.blk.failable 1 3 = true → ((s.blk.comp 1).slot (!(s.blk.comp 1).runB)).state = .previous → Safety.runs (.updateTrialFailed c 3) s fun t =>
        (t.blk.comp 1).runB = !(s.blk.comp 1).runB ∧ ((t.blk.comp 1).slot (!(s.blk.comp 1).runB)).state = .active
        ∧ ((t.blk.comp 1).slot (s.blk.comp 1).runB).state = .invalid ∧ t.blk.dr.assertReset = some 4 ∧ t.mem = s.mem) := by
  have hconfirmed : updateConfirmed c s.blk = if s.blk.trialOpen i ∧ s.blk.confirmable i then s.blk.confirm i else s.blk := by
    unfold updateConfirmed
    simp only [hcomp]
  have hfailed (w : BitVec 3) : updateTrialFailed c w s.blk =
      if s.blk.trialOpen i ∧ s.blk.failable i w.toNat then s.blk.trialFail i w.toNat else s.blk := by
    unfold updateTrialFailed
    simp only [hcomp]
  refine ⟨fun hdue => ?_, fun hnot => runs_unchanged rfl (hconfirmed.trans (if_neg (by simp [hnot]))), fun w hone hfail => ?_,
    fun w hnot => runs_unchanged rfl ((hfailed w).trans (if_neg (by simp [hnot]))), fun hone hfail hprev => ?_⟩
  · obtain ⟨hslot, hrun, hcounter, hformat, hother⟩ := s.blk.confirm_comp hi
    exact runs_onBlk rfl (hconfirmed.trans (if_pos ⟨hopen, hdue⟩)) ⟨hslot, hrun, hcounter, hformat, hother, rfl⟩
  · refine runs_onBlk rfl ((hfailed w).trans ((if_pos ⟨hopen, hfail⟩).trans (s.blk.trialFail_eq (by omega) hone w.toNat))) ?_
    have hupd := Blk.ev_upd s.blk (srcUpd (compCode i)) 7 3 (arg32 w.toNat) hw false 0
    have hrecord (hroom : Safety.room s.blk (srcUpd (compCode i))) := Blk.ev_last s.blk (srcUpd (compCode i)) 7 3 (arg32 w.toNat) hw false 0 hroom
    generalize s.blk.ev (srcUpd (compCode i)) 7 3 (arg32 w.toNat) = a at hupd hrecord ⊢
    have hself : ((a.modComp i fun c => { c with revert := true }).onRcc fun r => { r with gpioFault := orBits r.gpioFault (2 ^ 0) }).comp i =
        { s.blk.comp i with revert := true } :=
      (Blk.comp_of_vmod (b := s.blk) (t := (a.modComp i fun c => { c with revert := true }).onRcc _) (f := fun c => { c with revert := true })
        (congrArg (fun u : Update => vmod u.comps i fun c => { c with revert := true }) hupd)).1
    dsimp only
    rw [hself]
    exact ⟨rfl, testBit_orBits a.rcc.gpioFault (i := 0) (by decide), rfl, hrecord, rfl⟩
  · have hi1 : i = 1 := Fin.ext hone
    subst hi1
    exact runs_updateTrialFailed_safety hcomp hopen hfail hprev

/-! ### Packages from QSPI (R451) -/

section
variable {l img : List Byte} {i : Fin 13} {s : State}

/-- What the ROM writes of a package. -/
def packageStores (p img : List Byte) (sb : Bool) : List Store :=
  let n := (byteAt p 2).toNat
  [.clear (slotBase n sb) (slotArea n).2, .put (slotBase n sb) (padTo (manifestSlot p .verified).len img)]

variable (hcomp : compIdx (byteAt (padTo manifestLen l) 2).toNat = some i) (hmode : s.blk.rcc.mode = .boot) (hidle : s.blk.rcc.episode = none)
  (hsel : s.blk.rcc.bootSel = 4) (hi : i.val < 4) (hdiffers : (s.blk.running i).digest ≠ (manifestSlot (padTo manifestLen l) .verified).digest)
  (hfields : Safety.pass (s.blk.manifestFields (padTo manifestLen l))) (hrollback : Safety.pass (s.blk.manifestRollback i (padTo manifestLen l)))
include hcomp hmode hidle hsel hi hdiffers hfields hrollback

theorem qspiPackageInstall_eq (hauth : Safety.pass (s.blk.manifestAuth (padTo manifestLen l)))
    (hgood : s.blk.imageGood (Mem.stores s.mem (packageStores (padTo manifestLen l) img (!(s.blk.comp i).runB))) (byteAt (padTo manifestLen l) 2).toNat
      (!(s.blk.comp i).runB) (manifestSlot (padTo manifestLen l) .verified) = true) :
    qspiPackageInstall l img s.mem s.blk =
      (((s.blk.modComp i fun c => c.setSlot (!(s.blk.comp i).runB) (manifestSlot (padTo manifestLen l) .verified)).activate i
          (!(s.blk.comp i).runB)).modComp i fun c => { c with trialStarts := 0 },
        packageStores (padTo manifestLen l) img (!(s.blk.comp i).runB)) := by
  have hformat : leAt (padTo manifestLen l) 0 2 = 1 := by
    have h := hfields (_, errAt 0 stBadParam 1 0) (List.mem_append_left _ (List.mem_append_left _ (List.mem_append_left _ (List.mem_append_left _
      (List.mem_append_left _ (List.mem_append_left _ (List.mem_append_left _ (List.mem_append_left _ (List.mem_append_left _
        List.mem_cons_self)))))))))
    simpa using h
  have hguard : ¬ (s.blk.rcc.mode ≠ .boot ∨ s.blk.rcc.episode.isSome = true ∨ s.blk.rcc.bootSel ≠ 4 ∨ leAt (padTo manifestLen l) 0 2 = 0xFFFF ∨
      ((s.blk.running i).usable = true ∧ (s.blk.running i).digest = (manifestSlot (padTo manifestLen l) .verified).digest)) := by
    simp [hmode, hidle, hsel, hformat, hdiffers]
  have hpass : firstErr (s.blk.manifestFields (padTo manifestLen l) ++ s.blk.manifestAuth (padTo manifestLen l)
      ++ s.blk.manifestRollback i (padTo manifestLen l)
      ++ [(!s.blk.imageGood (Mem.stores s.mem (packageStores (padTo manifestLen l) img (!(s.blk.comp i).runB)))
        (byteAt (padTo manifestLen l) 2).toNat (!(s.blk.comp i).runB) (manifestSlot (padTo manifestLen l) .verified), err stAuth 1 0)]) = none := by
    rw [firstErr_eq_none_iff, hgood]
    simp only [Safety.pass_append, Safety.pass_cons, hfields, hauth, hrollback, Bool.not_true, Safety.pass_nil, true_and]
  unfold packageStores at hpass ⊢
  unfold qspiPackageInstall
  dsimp only at hpass ⊢
  simp only [hcomp]
  rw [if_neg hguard, hpass]
  dsimp only
  rw [Blk.followSlot_of_lt _ hi]

theorem runs_qspiPackageInstall : Safety.runs (.qspiPackageInstall l img) s fun t => Safety.pass (s.blk.manifestAuth (padTo manifestLen l)) →
      s.blk.imageGood (Mem.stores s.mem (packageStores (padTo manifestLen l) img (!(s.blk.comp i).runB))) (byteAt (padTo manifestLen l) 2).toNat
        (!(s.blk.comp i).runB) (manifestSlot (padTo manifestLen l) .verified) = true →
      (t.blk.comp i).runB = (!(s.blk.comp i).runB) ∧ ((t.blk.comp i).slot (!(s.blk.comp i).runB)).state = .trial
      ∧ ((t.blk.comp i).slot (!(s.blk.comp i).runB)).digest = (manifestSlot (padTo manifestLen l) .verified).digest ∧ Safety.otherComps s.blk t.blk i
      ∧ t.mem = Mem.stores s.mem (packageStores (padTo manifestLen l) img (!(s.blk.comp i).runB)) := by
  refine ⟨s.onMem (qspiPackageInstall l img), rfl, fun hauth hgood => ?_⟩
  have hrow := qspiPackageInstall_eq hcomp hmode hidle hsel hi hdiffers hfields hrollback hauth hgood
  generalize manifestSlot (padTo manifestLen l) .verified = x at hrow ⊢
  generalize packageStores (padTo manifestLen l) img (!(s.blk.comp i).runB) = stores at hrow ⊢
  generalize (!(s.blk.comp i).runB) = sb at hrow ⊢
  rw [State.onMem, hrow]
  dsimp only
  have hset := s.blk.modComp_otherComps i fun c => c.setSlot sb x
  obtain ⟨hactive, hactivated⟩ := Blk.comp_of_vmod ((s.blk.modComp i fun c => c.setSlot sb x).activate_comps i sb)
  rw [Blk.modComp_comp_self] at hactive
  have hslot : (((s.blk.comp i).setSlot sb x).onTrialFrom sb (s.blk.modComp i fun c => c.setSlot sb x).time.dt).slot sb = { x with state := .trial } := by
    rw [Component.onTrialFrom_slot_new, Component.slot_setSlot_same]
  rw [← hactive] at hslot
  have hrun : (((s.blk.modComp i fun c => c.setSlot sb x).activate i sb).comp i).runB = sb := by rw [hactive]; rfl
  generalize (s.blk.modComp i fun c => c.setSlot sb x).activate i sb = a at hactivated hslot hrun ⊢
  have hself : ∃ y : Component, y.runB = sb ∧ y.slot sb = { x with state := .trial }
      ∧ ((a.modComp i fun c => { c with trialStarts := 0 }).heal stores).comp i = y :=
    ⟨{ a.comp i with trialStarts := 0 }, hrun, hslot, a.modComp_comp_self i fun c => { c with trialStarts := 0 }⟩
  obtain ⟨y, hyrun, hyslot, hy⟩ := hself
  have hother : Safety.otherComps s.blk ((a.modComp i fun c => { c with trialStarts := 0 }).heal stores) i :=
    Safety.otherComps.trans (Safety.otherComps.trans hset hactivated) (a.modComp_otherComps i _)
  rw [hy]
  exact ⟨hyrun, by rw [hyslot], by rw [hyslot], hother, rfl⟩

end

theorem runs_qspiPackageInstall_ignored (l img : List Byte) (s : State) (h : s.blk.rcc.mode ≠ .boot ∨ s.blk.rcc.bootSel ≠ 4) :
    Safety.runs (.qspiPackageInstall l img) s fun t => t.blk = s.blk ∧ t.mem = s.mem := by
  have hrow : qspiPackageInstall l img s.mem s.blk = (s.blk, []) := by
    unfold qspiPackageInstall
    dsimp only
    split
    · rfl
    · refine if_pos ?_
      rcases h with h | h
      · exact .inl h
      · exact .inr (.inr (.inl h))
  exact runs_onMem rfl hrow ⟨Blk.heal_nil _, rfl⟩

/-- Settles O57, row by row. -/
theorem updatesActivateOnTrial : Obligations.UpdatesActivateOnTrial :=
  ⟨fun _ _ _ hacc hcomp hst hopt hzero hsite hi hone => runs_updActivate hacc hcomp hst hopt hzero hsite hi hone,
    fun _ _ hacc hcomp hst hopt hzero hsite hmode => runs_updActivate_safety hacc hcomp hst hopt hzero hsite hmode,
    runs_updAbort, runs_updateActivated, runs_trials,
    fun _ _ _ _ hcomp hmode hidle hsel hi hdiffers hfields hrollback =>
      runs_qspiPackageInstall hcomp hmode hidle hsel hi hdiffers hfields hrollback,
    runs_qspiPackageInstall_ignored⟩

end Sys2Proof.Machine
end
